-- ==== Sys2Proof/Word.lean ====
section
/-!
DEFINITION. The words of the FX1 and their plainest arithmetic (spec 00, R6, R7).
-/

namespace Sys2Proof

abbrev Byte := BitVec 8
abbrev Half := BitVec 16
abbrev Word32 := BitVec 32
abbrev Word64 := BitVec 64
/-- An address register or DMEM address (R64, R179). -/
abbrev Addr := BitVec 40
/-- A 64-byte tensor descriptor, read as one little-endian value (R179). -/
abbrev Desc := BitVec 512
/-- A vector register of 256 bytes, lane j in bits 32j + 31 to 32j (R149). -/
abbrev VReg := BitVec 2048
/-- A global core number, die × 512 + column × 32 + row (R12). -/
abbrev Gcn := BitVec 12
/-- A device coordinate packed as PDEV: z [13:10], y [9:5], x [4:0] (Table 6-1). -/
abbrev Coord := BitVec 14

end Sys2Proof
end

