-- ==== Sys2Proof/Syntax.lean ====
section
/-!
DEFINITION. The commands of the FX1 block: one constructor for each row of spec/opcode_table.json,
with the types of their operands.
-/

namespace Sys2Proof

abbrev QueueId := BitVec 6
abbrev Channel := BitVec 2
/-- A number from 0 to 3: a sub-array, quadrant, lane group or adder. -/
abbrev Lane4 := BitVec 2
abbrev Lane16 := BitVec 4
/-- An MSI-X vector number, 0 to 2,047 (R383). -/
abbrev VectorId := BitVec 11
abbrev StackId := Fin 12
abbrev ComputeDie := Fin 8
abbrev DieId := Fin 10
abbrev EngineId := Fin 2

/-- The fields of word 0 below CLS and OP (R69, Table 3-3); CLS and OP are the row's own. -/
structure Word0 where
  dbl : Bool
  pn  : Bool
  pg  : BitVec 3
  rsv : BitVec 2
  fd  : BitVec 5
  fa  : BitVec 5
  fb  : BitVec 5
  imm : Word32
  deriving DecidableEq, Repr

/-- A core's engines (R74); the codes 0, 1, 2 of Table 3-21. -/
inductive Eng | matrix | vector | ferry
  deriving DecidableEq, Repr

/-- The engines that keep an exponent histogram (R59). -/
inductive HistEngine | matrix | vector
  deriving DecidableEq, Repr

/-- What the repeated computations of a check tile gave in J3 repeat mode (R420, R421). -/
inductive Repetition
  | agree
  | third (quadrant : Lane4)
  | permanent (quadrant : Lane4)
  deriving DecidableEq, Repr

/-- A residue checker: a core's, or a collective engine's (12, "Check tiles and verdicts"). -/
inductive Checker
  | core (g : Gcn)
  | coll (e : EngineId)
  deriving DecidableEq, Repr

/-- The torus ports (R14), codes 0 XP to 5 ZN. -/
inductive Port | xp | xn | yp | yn | zp | zn
  deriving DecidableEq, Repr

/-- The two links of a port (R14). -/
inductive LinkId | a | b
  deriving DecidableEq, Repr

/-- A part of the link and power ledgers reported to the dispatcher (R331, R443). (DESIGN CHOICE, log entry 69.) -/
inductive LedgerReport
  | link (p : Port) (l : LinkId) (held : List Nat)
  | pilot (d : ComputeDie) (holding : Nat)
  | lockkeeper (pool reserve transit : Nat)
  deriving DecidableEq, Repr

/-- Slack water settings as exchanged between the ends of a link (R300): µs, ns, µs. -/
structure Slack where
  period : Nat
  len    : Nat
  offset : Nat
  deriving DecidableEq, Repr

/-- A timetable message from a neighbour (R290): the link that carried it and its number in its class (R333), what it
offers, its depth, its count and the time from its sender's receipt of this device's last message to its sending, both
in sixteenths of a ns. -/
structure TimeMsg where
  link   : LinkId
  num    : Nat
  offers : Bool
  depth  : Nat
  now    : Nat
  turn   : Nat
  slack  : Slack
  deriving DecidableEq, Repr

/-- The margins of one scanned lane (R351, Table 10-18). -/
structure Eye where
  lane : BitVec 3
  v    : Byte
  h    : Byte
  deriving DecidableEq, Repr

/-- A frame as received: the symbols in error on each of its eight lanes, and its 1,280 bytes as the transmitter sent
them (R324, R325). -/
structure FrameIn where
  errors : List Nat
  data   : List Byte
  deriving DecidableEq, Repr

/-- What the partner reports in training (Table 10-8, steps 4 to 6), with the delay and the lane-skew asymmetry measured,
in sixteenths of a ns, and by class the flits of this device still in its buffer (R332). -/
structure Partner where
  vers     : Half
  recordId : Word64
  coord    : Coord
  port     : Port
  slack    : Slack
  limits   : List Nat
  delay    : Nat
  skew     : Int
  buffered : List Nat
  deriving DecidableEq, Repr

/-- A transaction (Table 10-6): header fields, the port's transaction number of R333, data, and for a
collective block the positions its partial sum covers (R312); `link` is the link that carried it. (DESIGN CHOICE, log entry 42.) -/
structure Txn where
  poison : Bool
  psub   : Bool
  src    : Coord
  dst    : Coord
  count  : Half
  tag    : Word32
  addr   : Word64
  aux    : Word64
  link   : LinkId
  num    : Nat
  cover  : List Nat
  data   : List Byte
  deriving DecidableEq, Repr

/-- A CXL.io completion for a request to HOST (R379). -/
inductive Completion
  | data (bytes : List Byte) (poison : Bool)
  | flushed
  | error
  deriving DecidableEq, Repr

/-- Who sent a CXL.io request: a ferry channel, or the dispatcher for a queue's HOST_FENCE (R236). -/
inductive Requester
  | ferry (g : Gcn) (ch : Channel)
  | fence (q : QueueId)
  deriving DecidableEq, Repr

inductive LinkRate | gt16 | gt32 | gt64
  deriving DecidableEq, Repr

inductive LinkWidth | x4 | x8 | x16
  deriving DecidableEq, Repr

/-- A memory that the pilots scrub (R231). -/
inductive SramRef
  | lsp (g : Gcn)
  | quay (d : ComputeDie)
  deriving DecidableEq, Repr

/-- A block of an I/O die under self-test (Table 14-6, last row). -/
inductive IoBlock
  | hbmController (c : Fin 12)
  | cxl
  | torusPort (p : Port)
  | timetable
  | management
  | logbook
  deriving DecidableEq, Repr

/-- A block whose self-test signature differs (Table 14-6). -/
inductive BistFail
  | core (g : Gcn)
  | die (d : ComputeDie)
  | adder (e : EngineId) (a : Lane4)
  | collChecker (e : EngineId)
  | io (block : IoBlock)
  deriving DecidableEq, Repr

/-- What the physical device gives the boot sequence (Table 14-5): read-back of the cleared
secrets, the signatures that the self-test measured (a block not listed measured the one that the fuses hold for its type;
DESIGN CHOICE, log entry 100), stack training, and the pins and references as they stand. -/
structure BootInputs where
  secretsZero : Bool
  bist        : List (BistFail × Word64)
  hbmTrained  : Bool
  shedLow     : Bool
  linkRef     : Bool
  cxlRef      : Bool
  wallNs      : Nat
  deriving DecidableEq, Repr

/-- The mooring strap pins (R517). -/
structure StrapPins where
  x   : BitVec 5
  y   : BitVec 5
  z   : BitVec 4
  par : Bool
  deriving DecidableEq, Repr

/-- One 5 mV step of the Vmin measurement (R456). -/
structure MarginStep where
  mismatch : Bool
  slack    : Nat
  deriving DecidableEq, Repr

/-- The firmware processors (Table 14-1). -/
inductive Processor
  | harbour
  | lockkeeper
  | dispatcher
  | pilot (d : ComputeDie)
  deriving DecidableEq, Repr

/-- Causes of a firmware processor's fault other than its watchdog (R460). -/
inductive FwCause | illegal | memory
  deriving DecidableEq, Repr

/-- The unit a failed check charges (R412, Table 12-10 KIND and INDEX of a core). -/
inductive ChargeUnit
  | quadrant (n : Lane4)
  | lanes (n : Lane4)
  deriving DecidableEq, Repr

/-- The comparisons that decide an arbitration (Table 12-4). -/
structure ArbResult where
  unit  : ChargeUnit
  rdiff : Bool
  pweq  : Bool
  pres  : Bool
  wres  : Bool
  deriving DecidableEq, Repr

/-- How the 256 tiles of a clearance ended (R419). -/
inductive Clearance
  | agree
  | mismatch (r : ArbResult)
  deriving DecidableEq, Repr

/-- What the hardware did in a patrol kernel: the check tiles its time held; the errors that faults made in the results of
the lower and of the upper core, by place and amount; what the replay on the differing core gave; the rail's voltage in mV
(R424 to R426). (DESIGN CHOICE, log entry 37.) -/
structure PatrolResult where
  tiles  : Nat
  lower  : List (Nat × Int)
  upper  : List (Nat × Int)
  replay : ArbResult
  railMv : Nat
  deriving DecidableEq, Repr

/-- A record offered to the logbook controller (R490, Table 15-4). -/
structure LogRec where
  type    : Half
  die     : Byte
  sev     : BitVec 2
  unit    : Half
  payload : List Byte
  deriving DecidableEq, Repr

/-- Registers of configuration space (Table 11-4): the 32-bit words of BAR0, BAR2 and BAR4, MSI-X Message Control, and the
status, mask and severity registers of advanced error reporting. (PRESUMED, log entry 138.) -/
inductive CfgReg
  | bar (n : Fin 3) (hi : Bool)
  | msixControl
  | uncStatus | uncMask | uncSeverity
  | corStatus | corMask
  deriving DecidableEq, Repr

/-- Where the host's register accesses land: in BAR0 or BAR2, with the offset there, or in configuration space (Tables
11-4 and 11-5). -/
inductive HostOff
  | bar0 (off : Nat)
  | bar2 (off : Nat)
  | cfg (r : CfgReg)
  deriving DecidableEq, Repr

/-- The size of a register read, in bits (R387). -/
inductive ReadSize | b8 | b16 | b32 | b64
  deriving DecidableEq, Repr

def ReadSize.bits : ReadSize → Nat
  | .b8 => 8 | .b16 => 16 | .b32 => 32 | .b64 => 64

/-- What the host writes to device memory: bytes, and whether its link marks them poisoned (R362). -/
structure HostData where
  bytes : List Byte
  poison : Bool := false
  deriving DecidableEq, Repr

/-- The commands: one constructor for each row of spec/opcode_table.json, in the table's order. -/
inductive Instr
  /-- ADD (R79). -/
  | add (g : Gcn) (w : Word0)
  /-- ADDI (R79). -/
  | addi (g : Gcn) (w : Word0)
  /-- SUB (R79). -/
  | sub (g : Gcn) (w : Word0)
  /-- SUBI (R79). -/
  | subi (g : Gcn) (w : Word0)
  /-- MUL (R79). -/
  | mul (g : Gcn) (w : Word0)
  /-- MULI (R79). -/
  | muli (g : Gcn) (w : Word0)
  /-- MULHU (R79). -/
  | mulhu (g : Gcn) (w : Word0)
  /-- MULHUI (R79). -/
  | mulhui (g : Gcn) (w : Word0)
  /-- MULHS (R79). -/
  | mulhs (g : Gcn) (w : Word0)
  /-- MULHSI (R79). -/
  | mulhsi (g : Gcn) (w : Word0)
  /-- AND (R79). -/
  | and (g : Gcn) (w : Word0)
  /-- ANDI (R79). -/
  | andi (g : Gcn) (w : Word0)
  /-- OR (R79). -/
  | or (g : Gcn) (w : Word0)
  /-- ORI (R79). -/
  | ori (g : Gcn) (w : Word0)
  /-- XOR (R79). -/
  | xor (g : Gcn) (w : Word0)
  /-- XORI (R79). -/
  | xori (g : Gcn) (w : Word0)
  /-- SHL (R79). -/
  | shl (g : Gcn) (w : Word0)
  /-- SHLI (R79). -/
  | shli (g : Gcn) (w : Word0)
  /-- SHR (R79). -/
  | shr (g : Gcn) (w : Word0)
  /-- SHRI (R79). -/
  | shri (g : Gcn) (w : Word0)
  /-- SAR (R79). -/
  | sar (g : Gcn) (w : Word0)
  /-- SARI (R79). -/
  | sari (g : Gcn) (w : Word0)
  /-- MIN (R79). -/
  | min (g : Gcn) (w : Word0)
  /-- MINI (R79). -/
  | mini (g : Gcn) (w : Word0)
  /-- MAX (R79). -/
  | max (g : Gcn) (w : Word0)
  /-- MAXI (R79). -/
  | maxi (g : Gcn) (w : Word0)
  /-- MINU (R79). -/
  | minu (g : Gcn) (w : Word0)
  /-- MINUI (R79). -/
  | minui (g : Gcn) (w : Word0)
  /-- MAXU (R79). -/
  | maxu (g : Gcn) (w : Word0)
  /-- MAXUI (R79). -/
  | maxui (g : Gcn) (w : Word0)
  /-- MOVHI (R79). -/
  | movhi (g : Gcn) (w : Word0)
  /-- PAND (R79). -/
  | pand (g : Gcn) (w : Word0)
  /-- POR (R79). -/
  | por (g : Gcn) (w : Word0)
  /-- PXOR (R79). -/
  | pxor (g : Gcn) (w : Word0)
  /-- PNOT (R79). -/
  | pnot (g : Gcn) (w : Word0)
  /-- AADD (R79). -/
  | aadd (g : Gcn) (w : Word0)
  /-- AADDI (R79). -/
  | aaddi (g : Gcn) (w : Word0)
  /-- AMOV (R79). -/
  | amov (g : Gcn) (w : Word0)
  /-- AREAD (R79). -/
  | aread (g : Gcn) (w : Word0)
  /-- CMP_EQ (R79). -/
  | cmpEq (g : Gcn) (w : Word0)
  /-- CMP_EQ_I (R79). -/
  | cmpEqI (g : Gcn) (w : Word0)
  /-- CMP_NE (R79). -/
  | cmpNe (g : Gcn) (w : Word0)
  /-- CMP_NE_I (R79). -/
  | cmpNeI (g : Gcn) (w : Word0)
  /-- CMP_LT (R79). -/
  | cmpLt (g : Gcn) (w : Word0)
  /-- CMP_LT_I (R79). -/
  | cmpLtI (g : Gcn) (w : Word0)
  /-- CMP_LTU (R79). -/
  | cmpLtu (g : Gcn) (w : Word0)
  /-- CMP_LTU_I (R79). -/
  | cmpLtuI (g : Gcn) (w : Word0)
  /-- CMP_LE (R79). -/
  | cmpLe (g : Gcn) (w : Word0)
  /-- CMP_LE_I (R79). -/
  | cmpLeI (g : Gcn) (w : Word0)
  /-- CMP_LEU (R79). -/
  | cmpLeu (g : Gcn) (w : Word0)
  /-- CMP_LEU_I (R79). -/
  | cmpLeuI (g : Gcn) (w : Word0)
  /-- BR (R80). -/
  | br (g : Gcn) (w : Word0)
  /-- BRA (R80). -/
  | bra (g : Gcn) (w : Word0)
  /-- CALL (R80). -/
  | call (g : Gcn) (w : Word0)
  /-- RET (R80). -/
  | ret (g : Gcn) (w : Word0)
  /-- LOOP (R80). -/
  | loop (g : Gcn) (w : Word0)
  /-- LD8U (R82). -/
  | ld8u (g : Gcn) (w : Word0)
  /-- LD8S (R82). -/
  | ld8s (g : Gcn) (w : Word0)
  /-- LD16U (R82). -/
  | ld16u (g : Gcn) (w : Word0)
  /-- LD16S (R82). -/
  | ld16s (g : Gcn) (w : Word0)
  /-- LD32U (R82). -/
  | ld32u (g : Gcn) (w : Word0)
  /-- LD32S (R82). -/
  | ld32s (g : Gcn) (w : Word0)
  /-- LD64 (R82). -/
  | ld64 (g : Gcn) (w : Word0)
  /-- LDA (R82). -/
  | lda (g : Gcn) (w : Word0)
  /-- ST8 (R82). -/
  | st8 (g : Gcn) (w : Word0)
  /-- ST16 (R82). -/
  | st16 (g : Gcn) (w : Word0)
  /-- ST32 (R82). -/
  | st32 (g : Gcn) (w : Word0)
  /-- ST64 (R82). -/
  | st64 (g : Gcn) (w : Word0)
  /-- STA (R82). -/
  | sta (g : Gcn) (w : Word0)
  /-- LDQ8U (R82). -/
  | ldq8u (g : Gcn) (w : Word0)
  /-- LDQ8S (R82). -/
  | ldq8s (g : Gcn) (w : Word0)
  /-- LDQ16U (R82). -/
  | ldq16u (g : Gcn) (w : Word0)
  /-- LDQ16S (R82). -/
  | ldq16s (g : Gcn) (w : Word0)
  /-- LDQ32U (R82). -/
  | ldq32u (g : Gcn) (w : Word0)
  /-- LDQ32S (R82). -/
  | ldq32s (g : Gcn) (w : Word0)
  /-- LDQ64 (R82). -/
  | ldq64 (g : Gcn) (w : Word0)
  /-- LDQA (R82). -/
  | ldqa (g : Gcn) (w : Word0)
  /-- DLD (R88). -/
  | dld (g : Gcn) (w : Word0)
  /-- DST (R88). -/
  | dst (g : Gcn) (w : Word0)
  /-- DCPY (R87). -/
  | dcpy (g : Gcn) (w : Word0)
  /-- DADDB (R87). -/
  | daddb (g : Gcn) (w : Word0)
  /-- DADDBI (R87). -/
  | daddbi (g : Gcn) (w : Word0)
  /-- DSETB (R87). -/
  | dsetb (g : Gcn) (w : Word0)
  /-- DSETE (R87). -/
  | dsete (g : Gcn) (w : Word0)
  /-- DSETS (R87). -/
  | dsets (g : Gcn) (w : Word0)
  /-- DSETT (R87). -/
  | dsett (g : Gcn) (w : Word0)
  /-- MWL (R89). -/
  | mwl (g : Gcn) (w : Word0) (w1 : Word64)
  /-- MTILE (R89). -/
  | mtile (g : Gcn) (w : Word0) (w1 : Word64)
  /-- MMODE (R90). -/
  | mmode (g : Gcn) (w : Word0)
  /-- VLD (R161). -/
  | vld (g : Gcn) (w : Word0) (w1 : Word64)
  /-- VST (R162). -/
  | vst (g : Gcn) (w : Word0) (w1 : Word64)
  /-- VADD (R153). -/
  | vadd (g : Gcn) (w : Word0)
  /-- VSUB (R153). -/
  | vsub (g : Gcn) (w : Word0)
  /-- VMUL (R153). -/
  | vmul (g : Gcn) (w : Word0)
  /-- VFMA (R153). -/
  | vfma (g : Gcn) (w : Word0)
  /-- VFMS (R153). -/
  | vfms (g : Gcn) (w : Word0)
  /-- VDIV (R153). -/
  | vdiv (g : Gcn) (w : Word0)
  /-- VSQRT (R153). -/
  | vsqrt (g : Gcn) (w : Word0)
  /-- VMIN (R154). -/
  | vmin (g : Gcn) (w : Word0)
  /-- VMAX (R154). -/
  | vmax (g : Gcn) (w : Word0)
  /-- VMINN (R154). -/
  | vminn (g : Gcn) (w : Word0)
  /-- VMAXN (R154). -/
  | vmaxn (g : Gcn) (w : Word0)
  /-- VABS (R525). -/
  | vabs (g : Gcn) (w : Word0)
  /-- VNEG (R525). -/
  | vneg (g : Gcn) (w : Word0)
  /-- VCVT (R157). -/
  | vcvt (g : Gcn) (w : Word0)
  /-- VCMP (R155). -/
  | vcmp (g : Gcn) (w : Word0)
  /-- VSEL (R152). -/
  | vsel (g : Gcn) (w : Word0)
  /-- VAND (R152). -/
  | vand (g : Gcn) (w : Word0)
  /-- VOR (R152). -/
  | vor (g : Gcn) (w : Word0)
  /-- VXOR (R152). -/
  | vxor (g : Gcn) (w : Word0)
  /-- VSHL (R152). -/
  | vshl (g : Gcn) (w : Word0)
  /-- VSHR (R152). -/
  | vshr (g : Gcn) (w : Word0)
  /-- VSAR (R152). -/
  | vsar (g : Gcn) (w : Word0)
  /-- VIOTA (R152). -/
  | viota (g : Gcn) (w : Word0)
  /-- VSPLAT (R152). -/
  | vsplat (g : Gcn) (w : Word0)
  /-- VSHUF (R152). -/
  | vshuf (g : Gcn) (w : Word0)
  /-- VEXP2 (R166). -/
  | vexp2 (g : Gcn) (w : Word0)
  /-- VLOG2 (R166). -/
  | vlog2 (g : Gcn) (w : Word0)
  /-- VRCP (R166). -/
  | vrcp (g : Gcn) (w : Word0)
  /-- VRSQRT (R166). -/
  | vrsqrt (g : Gcn) (w : Word0)
  /-- VSIN (R166). -/
  | vsin (g : Gcn) (w : Word0)
  /-- VCOS (R166). -/
  | vcos (g : Gcn) (w : Word0)
  /-- VRSUM (R167). -/
  | vrsum (g : Gcn) (w : Word0)
  /-- VRMAX (R167). -/
  | vrmax (g : Gcn) (w : Word0)
  /-- VRMIN (R167). -/
  | vrmin (g : Gcn) (w : Word0)
  /-- VSMA (R170). -/
  | vsma (g : Gcn) (w : Word0)
  /-- VSMMRG (R172). -/
  | vsmmrg (g : Gcn) (w : Word0)
  /-- VSMINIT (R168). -/
  | vsminit (g : Gcn) (w : Word0)
  /-- VRAND (R176). -/
  | vrand (g : Gcn) (w : Word0) (w1 : Word64)
  /-- VDROP (R177). -/
  | vdrop (g : Gcn) (w : Word0) (w1 : Word64)
  /-- FCOPY (R198). -/
  | fcopy (g : Gcn) (w : Word0) (w1 : Word64)
  /-- FCONV (R199). -/
  | fconv (g : Gcn) (w : Word0) (w1 : Word64)
  /-- FGATH (R202). -/
  | fgath (g : Gcn) (w : Word0) (w1 : Word64)
  /-- FSCAT (R207). -/
  | fscat (g : Gcn) (w : Word0) (w1 : Word64)
  /-- FSCADD (R208). -/
  | fscadd (g : Gcn) (w : Word0) (w1 : Word64)
  /-- FQBC (R210). -/
  | fqbc (g : Gcn) (w : Word0) (w1 : Word64)
  /-- WAIT_M (R94). -/
  | waitM (g : Gcn) (w : Word0)
  /-- WAIT_V (R94). -/
  | waitV (g : Gcn) (w : Word0)
  /-- WAIT_F (R94). -/
  | waitF (g : Gcn) (w : Word0)
  /-- WAITO_M (R94). -/
  | waitoM (g : Gcn) (w : Word0)
  /-- WAITO_V (R94). -/
  | waitoV (g : Gcn) (w : Word0)
  /-- WAITO_F (R94). -/
  | waitoF (g : Gcn) (w : Word0)
  /-- WAITALL (R94). -/
  | waitall (g : Gcn) (w : Word0)
  /-- RDCNT (R97). -/
  | rdcnt (g : Gcn) (w : Word0)
  /-- RDISS (R97). -/
  | rdiss (g : Gcn) (w : Word0)
  /-- TADD (R100). -/
  | tadd (g : Gcn) (w : Word0)
  /-- TADDI (R100). -/
  | taddi (g : Gcn) (w : Word0)
  /-- TREAD (R101). -/
  | tread (g : Gcn) (w : Word0)
  /-- NOP (R102). -/
  | nop (g : Gcn) (w : Word0)
  /-- END (R107). -/
  | endKernel (g : Gcn) (w : Word0)
  /-- FAULT (R102). -/
  | faultSw (g : Gcn) (w : Word0)
  /-- SETSEED (R103). -/
  | setseed (g : Gcn) (w : Word0)
  /-- RDTIME (R293). -/
  | rdtime (g : Gcn) (w : Word0)
  /-- RDCSR (R104). -/
  | rdcsr (g : Gcn) (w : Word0)
  /-- WRCSR (R105). -/
  | wrcsr (g : Gcn) (w : Word0)
  /-- HIST_CLEAR (R62). -/
  | histClear (g : Gcn) (e : HistEngine)
  /-- QUEUE_FULL_RELEASE (R74). -/
  | queueFullRelease (g : Gcn)
  /-- WAIT_RELEASE (R96). -/
  | waitRelease (g : Gcn)
  /-- CONTAINED_ACCESS_RELEASE (R402). -/
  | containedAccessRelease (g : Gcn)
  /-- MATRIX_COMMAND_BEGIN (R116). -/
  | matrixCommandBegin (g : Gcn)
  /-- MATRIX_DRAIN_WRITE (R120). -/
  | matrixDrainWrite (g : Gcn) (n : Word32) (j : Repetition)
  /-- MATRIX_COMMAND_COMPLETE (R77). -/
  | matrixCommandComplete (g : Gcn) (n : Word32)
  /-- MATRIX_RESUME (R134). -/
  | matrixResume (g : Gcn) (n : Word32)
  /-- ARRAY_RAMP_UP (R139). -/
  | arrayRampUp (g : Gcn)
  /-- ARRAY_RAMP_DOWN (R136). -/
  | arrayRampDown (g : Gcn)
  /-- FROZEN_RAMP_DOWN (R138). -/
  | frozenRampDown (g : Gcn)
  /-- VECTOR_COMMAND_BEGIN (R164). -/
  | vectorCommandBegin (g : Gcn)
  /-- VECTOR_COMMAND_COMPLETE (R159). -/
  | vectorCommandComplete (g : Gcn)
  /-- FERRY_COMMAND_BEGIN (R197). -/
  | ferryCommandBegin (g : Gcn)
  /-- FERRY_COMMAND_COMPLETE (R78). -/
  | ferryCommandComplete (g : Gcn) (ch : Channel)
  /-- FERRY_INDEX_FAULT (R205). -/
  | ferryIndexFault (g : Gcn) (ch : Channel)
  /-- CORE_CANCEL (R109). -/
  | coreCancel (g : Gcn)
  /-- CORE_REPORT (R108). -/
  | coreReport (g : Gcn)
  /-- VERDICT (R399). -/
  | verdict (u : Checker) (id : Nat) (bad : (Option Lane4))
  /-- LATE_VERDICT (R400). -/
  | lateVerdict (u : Checker) (id : Nat)
  /-- SUBMIT_DOORBELL (R253). -/
  | submitDoorbell (q : QueueId) (v : Word32)
  /-- COMPLETION_DOORBELL (R252). -/
  | completionDoorbell (q : QueueId) (v : Word32)
  /-- COMMAND_READ (R251). -/
  | commandRead (q : QueueId)
  /-- LAUNCH (R262). -/
  | launch (q : QueueId)
  /-- COPY (R257). -/
  | copyCmd (q : QueueId) (g : Gcn) (ch : Channel)
  /-- COLLECTIVE (R308). -/
  | collective (q : QueueId)
  /-- TICKET_WAIT (R264). -/
  | ticketWait (q : QueueId)
  /-- TICKET_SIGNAL (R266). -/
  | ticketSignal (q : QueueId)
  /-- MARKER (R255). -/
  | marker (q : QueueId)
  /-- HOST_FENCE (R236). -/
  | hostFence (q : QueueId)
  /-- TICKET_WAIT_TIMEOUT (R267). -/
  | ticketWaitTimeout (q : QueueId)
  /-- WATCHDOG_EXPIRY (R271). -/
  | watchdogExpiry (op : Nat)
  /-- END_OPERATION (R272). -/
  | endOperation (op : Nat)
  /-- TICKET_MESSAGE_RESEND (R266). -/
  | ticketMessageResend (m : Nat)
  /-- SIGNAL_WITHDRAW (R337). -/
  | signalWithdraw (m : Nat)
  /-- CANCEL (R275). -/
  | cancel (v : Word64)
  /-- CANCEL_ALL (R274). -/
  | cancelAll (v : Word64)
  /-- QUEUE_ENABLE (R283). -/
  | queueEnable (q : QueueId) (v : Word32)
  /-- QUEUE_DISABLE (R254). -/
  | queueDisable (q : QueueId) (v : Word32)
  /-- QUEUE_RESUME (R267). -/
  | queueResume (q : QueueId) (v : Word32)
  /-- LEDGER_REPORT (R276). -/
  | ledgerReport (r : LedgerReport)
  /-- TIMETABLE_EXCHANGE (R290). -/
  | timetableExchange
  /-- TIMETABLE_MESSAGE (R290). -/
  | timetableMessage (p : Port) (m : TimeMsg)
  /-- HOLDOVER_TIMEOUT (R292). -/
  | holdoverTimeout
  /-- BOARD_SOURCE_TIMEOUT (R288). -/
  | boardSourceTimeout
  /-- TT_SYNC_EDGE (R285). -/
  | ttSyncEdge
  /-- TT_REF_LOSS (R516). -/
  | ttRefLoss
  /-- SAILING_DEPARTURE (R297). -/
  | sailingDeparture (e : EngineId) (p : Port) (sail : Nat)
  /-- SAILING_EXHAUSTED (R298). -/
  | sailingExhausted (e : EngineId) (step : Nat)
  /-- COLLECTIVE_ADD (R314). -/
  | collectiveAdd (e : EngineId) (b : Nat)
  /-- COLLECTIVE_OUTPUT (R317). -/
  | collectiveOutput (e : EngineId)
  /-- SLACK_WATER_START (R349). -/
  | slackWaterStart (p : Port) (l : LinkId) (eyes : (List Eye))
  /-- SLACK_WATER_END (R349). -/
  | slackWaterEnd (p : Port) (l : LinkId)
  /-- HBM_RETRAIN_START (R366). -/
  | hbmRetrainStart (n : StackId)
  /-- HBM_RETRAIN_END (R366). -/
  | hbmRetrainEnd (n : StackId)
  /-- LOGBOOK_CHECKPOINT (R492). -/
  | logbookCheckpoint
  /-- FRAME_RECEIVED (R326). -/
  | frameReceived (p : Port) (l : LinkId) (f : FrameIn)
  /-- LANE_FAILURE (R345). -/
  | laneFailure (p : Port) (lane : Lane16)
  /-- LINK_RETRAIN_TIMER (R346). -/
  | linkRetrainTimer (p : Port) (l : LinkId)
  /-- LINK_TRAINING_TIMEOUT (R342). -/
  | linkTrainingTimeout (p : Port) (l : LinkId)
  /-- LINK_UP (R342). -/
  | linkUp (p : Port) (l : LinkId) (t : Partner)
  /-- LINK_SIGNAL_REGAINED (R355). -/
  | linkSignalRegained (p : Port) (l : LinkId)
  /-- REMOTE_WRITE (R336). -/
  | remoteWrite (p : Port) (x : Txn)
  /-- REMOTE_READ (R335). -/
  | remoteRead (p : Port) (x : Txn)
  /-- WRITE_ACK (R334). -/
  | writeAck (p : Port) (x : Txn)
  /-- READ_DATA (R336). -/
  | readData (p : Port) (x : Txn)
  /-- REFUSED (R335). -/
  | refusedAnswer (p : Port) (x : Txn)
  /-- UNROUTABLE (R339). -/
  | unroutable (p : Port) (x : Txn)
  /-- TICKET_MESSAGE (R337). -/
  | ticketMessage (p : Port) (x : Txn)
  /-- TICKET_ACK (R337). -/
  | ticketAck (p : Port) (x : Txn)
  /-- COLLECTIVE_BLOCK (R314). -/
  | collectiveBlock (p : Port) (x : Txn)
  /-- COLLECTIVE_ANNOUNCEMENT (R308). -/
  | collectiveAnnouncement (p : Port) (x : Txn)
  /-- COLLECTIVE_ABORT (R320). -/
  | collectiveAbort (p : Port) (x : Txn)
  /-- TXN_TIMEOUT (R334). -/
  | txnTimeout (tag : Word32)
  /-- TICKET_ENTRY_EXPIRY (R337). -/
  | ticketEntryExpiry (src : Coord) (m : Word32)
  /-- LINK_RETRAIN (R346). -/
  | linkRetrain (p : Port) (v : Word32)
  /-- LINK_DISABLE (R332). -/
  | linkDisable (p : Port) (v : Word32)
  /-- LINK_ENABLE (R355). -/
  | linkEnable (p : Port) (v : Word32)
  /-- IREC_WRITE (R354). -/
  | irecWrite (v : Word32)
  /-- HRW_GANGWAY_COMMIT (R394). -/
  | hrwGangwayCommit (v : Word32)
  /-- GANGWAY_APPLY (R394). -/
  | gangwayApply (group : Byte)
  /-- HRW_INTF_SELECT (R390). -/
  | hrwIntfSelect (v : Word32)
  /-- CORE_WINDOW_READ (R388). -/
  | coreWindowRead (off : HostOff) (size : ReadSize)
  /-- HRW_HDMH_SIZE_WRITE (R378). -/
  | hrwHdmhSizeWrite (v : Word32)
  /-- REGISTER_WRITE (R387). -/
  | registerWrite (off : HostOff) (bits : Nat) (v : Word64)
  /-- HOST_MEM_READ (R361). -/
  | hostMemRead (dpa : Nat)
  /-- HOST_MEM_WRITE (R362). -/
  | hostMemWrite (dpa : Nat) (data : HostData)
  /-- HDM_DECODER_COMMIT (R373). -/
  | hdmDecoderCommit (n : Bool) (dpa : Nat) (size : Nat) (ways : Nat) (base : Word64)
  /-- BISNP_RESPONSE (R375). -/
  | bisnpResponse (line : Nat)
  /-- HOST_COMPLETION (R379). -/
  | hostCompletion (r : Requester) (c : Completion)
  /-- HOST_LINK_RESET (R371). -/
  | hostLinkReset (cxl : Bool) (rate : LinkRate) (width : LinkWidth)
  /-- FUNCTION_LEVEL_RESET (R392). -/
  | functionLevelReset
  /-- MSIX_UNMASK (R383). -/
  | msixUnmask (vec : VectorId)
  /-- DOE_DISCOVERY (R384). -/
  | doeDiscovery
  /-- CDAT_READ (R384). -/
  | cdatRead (handle : Nat)
  /-- GET_CERT (R475). -/
  | getCert
  /-- GET_REPORT (R475). -/
  | getReport (nonce : (List Byte)) (mask : Byte)
  /-- DOE_ABORT (R384). -/
  | doeAbort
  /-- IDENTIFY_MEMORY_DEVICE (R370). -/
  | identifyMemoryDevice
  /-- GET_HEALTH_INFO (R370). -/
  | getHealthInfo
  /-- GET_EVENT_RECORDS (R370). -/
  | getEventRecords
  /-- CLEAR_EVENT_RECORDS (R370). -/
  | clearEventRecords (n : Nat)
  /-- GET_POISON_LIST (R370). -/
  | getPoisonList (dpa : Nat) (len : Nat)
  /-- GET_SUPPORTED_LOGS (R370). -/
  | getSupportedLogs
  /-- GET_LOG (R370). -/
  | getLog (off : Nat) (len : Nat)
  /-- HBM_PATROL_SCRUB (R363). -/
  | hbmPatrolScrub (n : StackId) (line : Nat)
  /-- HBM_REFRESH (R365). -/
  | hbmRefresh (n : StackId) (bank : Nat)
  /-- HBM_REFRESH_REQUEST (R364). -/
  | hbmRefreshRequest (n : StackId)
  /-- HBM_TEMP_READ (R364). -/
  | hbmTempRead (n : StackId) (degc : Byte)
  /-- SCRATCHPAD_SCRUB (R231). -/
  | scratchpadScrub (u : SramRef) (word : Nat)
  /-- VIN_SAMPLE (R431). -/
  | vinSample (mv : Nat) (ca : Nat)
  /-- CCLK_STEP (R433). -/
  | cclkStep
  /-- INPUT_QUALIFIED (R430). -/
  | inputQualified (b : BootInputs)
  /-- UNDERVOLTAGE_LOCKOUT (R429). -/
  | undervoltageLockout
  /-- OVERVOLTAGE_LOCKOUT (R429). -/
  | overvoltageLockout
  /-- HIGH_INPUT_LOG (R429). -/
  | highInputLog
  /-- SHED_ASSERT (R446). -/
  | shedAssert
  /-- SHED_RELEASE (R446). -/
  | shedRelease
  /-- UV_EMERGENCY (R446). -/
  | uvEmergency
  /-- UV_CLEAR (R446). -/
  | uvClear
  /-- ILIM_EMERGENCY (R446). -/
  | ilimEmergency
  /-- ILIM_CLEAR (R446). -/
  | ilimClear
  /-- THERM_CLEAR (R446). -/
  | thermClear
  /-- EMERGENCY_END (R448). -/
  | emergencyEnd
  /-- THERMAL_THROTTLE (R450). -/
  | thermalThrottle
  /-- TEMP_SAMPLE (R452). -/
  | tempSample (d : DieId) (vals : (List Int))
  /-- CANARY_SAMPLE (R452). -/
  | canarySample (d : ComputeDie) (vals : (List Int))
  /-- CANARY_HOLD_END (R455). -/
  | canaryHoldEnd (d : ComputeDie)
  /-- PROCESS_MONITOR_SAMPLE (R452). -/
  | processMonitorSample (d : DieId) (vals : (List Int))
  /-- DROOP_EVENT (R454). -/
  | droopEvent (d : DieId)
  /-- DROOP_HOLD_END (R454). -/
  | droopHoldEnd (d : DieId)
  /-- VMIN_MEASUREMENT (R456). -/
  | vminMeasurement (d : ComputeDie) (steps : (List MarginStep))
  /-- CREDIT_REQUEST (R441). -/
  | creditRequest (d : ComputeDie) (n : Nat)
  /-- CREDIT_GRANT (R441). -/
  | creditGrant
  /-- CREDIT_RELEASE (R442). -/
  | creditRelease (d : ComputeDie) (n : Nat)
  /-- WEAR_CHARGE (R437). -/
  | wearCharge
  /-- PWR_CAP_WRITE (R445). -/
  | pwrCapWrite (v : Word32)
  /-- CLK_CCLK_MAX_WRITE (R457). -/
  | clkCclkMaxWrite (d : ComputeDie) (v : Word32)
  /-- FW_WATCHDOG_EXPIRY (R460). -/
  | fwWatchdogExpiry (u : Processor)
  /-- FW_PROCESSOR_FAULT (R460). -/
  | fwProcessorFault (u : Processor) (cause : FwCause) (fpc : Word32)
  /-- PERST_ASSERT (R521). -/
  | perstAssert
  /-- PERST_RELEASE (R521). -/
  | perstRelease (b : BootInputs)
  /-- STRAP_SAMPLE (R517). -/
  | strapSample (k : Nat) (v : StrapPins)
  /-- BOARD_SLOT_SAMPLE (R517). -/
  | boardSlotSample (k : Nat) (v : (BitVec 3))
  /-- SEC_STAGE_START (R477). -/
  | secStageStart (v : Word32)
  /-- SEC_ACTIVATE_GO (R479). -/
  | secActivateGo (v : Word32)
  /-- ACTIVATION_HOLDOFF_END (R480). -/
  | activationHoldoffEnd
  /-- DEFERRED_TIMEOUT (R480). -/
  | deferredTimeout
  /-- ACTIVATION_SWITCH (R481). -/
  | activationSwitch
  /-- SEC_SVN_COMMIT (R484). -/
  | secSvnCommit (v : Word32)
  /-- SEC_RESET (R485). -/
  | secReset (v : Word32)
  /-- DEVICE_RESET (R521). -/
  | deviceReset (b : BootInputs)
  /-- ARBITRATION_REPLAY (R410). -/
  | arbitrationReplay (u : Checker) (rdiff : Bool) (pres : Bool)
  /-- ARBITRATION_WITNESS (R410). -/
  | arbitrationWitness (u : Checker) (pweq : Bool) (wres : Bool)
  /-- SUSPECT_CLEARANCE (R419). -/
  | suspectClearance (g : Gcn) (r : Clearance)
  /-- PATROL_LAUNCH (R423). -/
  | patrolLaunch (g : Gcn) (h : Gcn) (margin : Bool)
  /-- PATROL_COMPLETE (R424). -/
  | patrolComplete (g : Gcn) (r : PatrolResult)
  /-- LOG_RECORD (R490). -/
  | logRecord (r : LogRec)
  /-- LOG_RECORD_WRITE (R489). -/
  | logRecordWrite
  /-- SUPPRESSED (R490). -/
  | suppressed
  /-- ACQUIRE_CHECKPOINT (R492). -/
  | acquireCheckpoint
  /-- POWERED_ON_SECOND (R494). -/
  | poweredOnSecond
  /-- LOG_MARK (R500). -/
  | logMark (v : Word32)
  /-- I3C_SET_POINTER (R502). -/
  | i3cSetPointer (data : (List Byte))
  /-- I3C_CLEAR_ALERT (R502). -/
  | i3cClearAlert (data : (List Byte))
  /-- I3C_READ (R502). -/
  | i3cRead (len : Nat)
  /-- I3C_INVALID_WRITE (R502). -/
  | i3cInvalidWrite (data : (List Byte))
  /-- SETDASA (R502). -/
  | setdasa (static : (BitVec 7)) (dyn : (BitVec 7))
  /-- ENTDAA (R502). -/
  | entdaa (dyn : (BitVec 7))
  /-- HOST_COMPLETION_TIMEOUT (R379). -/
  | hostCompletionTimeout (g : Gcn) (ch : Channel)
  /-- STAGING_COMPLETE (R477). -/
  | stagingComplete (flashOk : Bool)
  /-- PILOT_RESTART (R460). -/
  | pilotRestart (d : ComputeDie)
  /-- LINK_REFCLK_LOSS (R515). -/
  | linkRefclkLoss
  /-- BAR4_ACCESS (R372). -/
  | bar4Access (off : Nat) (wr : (Option HostData)) (len : Nat)
  deriving DecidableEq, Repr

end Sys2Proof
end

