-- ==== Sys2Proof/Decode.lean ====
section
/-!
DEFINITION. What a word spells. No row of spec/opcode_table.json gives bits, so decodeTableWord reads none. The
sequencer's instructions have words of their own (R69 to R71, Tables 3-3 to 3-18, 5-2): their encoder and decoder
stand here too.
-/

namespace Sys2Proof

/-- No row of the table gives bits. (DESIGN CHOICE, log entry 115.) -/
def decodeTableWord (_nbits _w : Nat) : Option Instr := none

/-! ## Word 0 (Table 3-3) -/

/-- Word 0 with a class and an operation. -/
def Word0.encode (cls : BitVec 4) (op : BitVec 6) (w : Word0) : Word64 :=
  (cls ++ op ++ BitVec.ofBool w.dbl ++ BitVec.ofBool w.pn ++ w.pg ++ w.rsv ++ w.fd ++ w.fa ++ w.fb ++ w.imm)

def wordCls (x : Word64) : BitVec 4 := x.extractLsb' 60 4

def wordOp (x : Word64) : BitVec 6 := x.extractLsb' 54 6

/-- The fields of word 0 below CLS and OP. -/
def wordFields (x : Word64) : Word0 where
  dbl := x.getLsbD 53
  pn  := x.getLsbD 52
  pg  := x.extractLsb' 49 3
  rsv := x.extractLsb' 47 2
  fd  := x.extractLsb' 42 5
  fa  := x.extractLsb' 37 5
  fb  := x.extractLsb' 32 5
  imm := x.extractLsb' 0 32

/-! ## Instructions -/

/-- An instruction's core, class, operation, word 0 fields and word 1 (0 where it has none); none for a command
that is no instruction. -/
def Instr.parts : Instr → Option (Gcn × BitVec 4 × BitVec 6 × Word0 × Word64)
  | .add g w => some (g, 0, 0x00, w, 0)
  | .addi g w => some (g, 0, 0x20, w, 0)
  | .sub g w => some (g, 0, 0x01, w, 0)
  | .subi g w => some (g, 0, 0x21, w, 0)
  | .mul g w => some (g, 0, 0x02, w, 0)
  | .muli g w => some (g, 0, 0x22, w, 0)
  | .mulhu g w => some (g, 0, 0x03, w, 0)
  | .mulhui g w => some (g, 0, 0x23, w, 0)
  | .mulhs g w => some (g, 0, 0x04, w, 0)
  | .mulhsi g w => some (g, 0, 0x24, w, 0)
  | .and g w => some (g, 0, 0x05, w, 0)
  | .andi g w => some (g, 0, 0x25, w, 0)
  | .or g w => some (g, 0, 0x06, w, 0)
  | .ori g w => some (g, 0, 0x26, w, 0)
  | .xor g w => some (g, 0, 0x07, w, 0)
  | .xori g w => some (g, 0, 0x27, w, 0)
  | .shl g w => some (g, 0, 0x08, w, 0)
  | .shli g w => some (g, 0, 0x28, w, 0)
  | .shr g w => some (g, 0, 0x09, w, 0)
  | .shri g w => some (g, 0, 0x29, w, 0)
  | .sar g w => some (g, 0, 0x0a, w, 0)
  | .sari g w => some (g, 0, 0x2a, w, 0)
  | .min g w => some (g, 0, 0x0b, w, 0)
  | .mini g w => some (g, 0, 0x2b, w, 0)
  | .max g w => some (g, 0, 0x0c, w, 0)
  | .maxi g w => some (g, 0, 0x2c, w, 0)
  | .minu g w => some (g, 0, 0x0d, w, 0)
  | .minui g w => some (g, 0, 0x2d, w, 0)
  | .maxu g w => some (g, 0, 0x0e, w, 0)
  | .maxui g w => some (g, 0, 0x2e, w, 0)
  | .movhi g w => some (g, 0, 0x10, w, 0)
  | .pand g w => some (g, 0, 0x11, w, 0)
  | .por g w => some (g, 0, 0x12, w, 0)
  | .pxor g w => some (g, 0, 0x13, w, 0)
  | .pnot g w => some (g, 0, 0x14, w, 0)
  | .aadd g w => some (g, 0, 0x15, w, 0)
  | .aaddi g w => some (g, 0, 0x35, w, 0)
  | .amov g w => some (g, 0, 0x16, w, 0)
  | .aread g w => some (g, 0, 0x17, w, 0)
  | .cmpEq g w => some (g, 0, 0x18, w, 0)
  | .cmpEqI g w => some (g, 0, 0x38, w, 0)
  | .cmpNe g w => some (g, 0, 0x19, w, 0)
  | .cmpNeI g w => some (g, 0, 0x39, w, 0)
  | .cmpLt g w => some (g, 0, 0x1a, w, 0)
  | .cmpLtI g w => some (g, 0, 0x3a, w, 0)
  | .cmpLtu g w => some (g, 0, 0x1b, w, 0)
  | .cmpLtuI g w => some (g, 0, 0x3b, w, 0)
  | .cmpLe g w => some (g, 0, 0x1c, w, 0)
  | .cmpLeI g w => some (g, 0, 0x3c, w, 0)
  | .cmpLeu g w => some (g, 0, 0x1d, w, 0)
  | .cmpLeuI g w => some (g, 0, 0x3d, w, 0)
  | .br g w => some (g, 1, 0x00, w, 0)
  | .bra g w => some (g, 1, 0x01, w, 0)
  | .call g w => some (g, 1, 0x02, w, 0)
  | .ret g w => some (g, 1, 0x03, w, 0)
  | .loop g w => some (g, 1, 0x04, w, 0)
  | .ld8u g w => some (g, 2, 0x00, w, 0)
  | .ld8s g w => some (g, 2, 0x01, w, 0)
  | .ld16u g w => some (g, 2, 0x02, w, 0)
  | .ld16s g w => some (g, 2, 0x03, w, 0)
  | .ld32u g w => some (g, 2, 0x04, w, 0)
  | .ld32s g w => some (g, 2, 0x05, w, 0)
  | .ld64 g w => some (g, 2, 0x06, w, 0)
  | .lda g w => some (g, 2, 0x07, w, 0)
  | .st8 g w => some (g, 2, 0x08, w, 0)
  | .st16 g w => some (g, 2, 0x09, w, 0)
  | .st32 g w => some (g, 2, 0x0a, w, 0)
  | .st64 g w => some (g, 2, 0x0b, w, 0)
  | .sta g w => some (g, 2, 0x0c, w, 0)
  | .ldq8u g w => some (g, 2, 0x10, w, 0)
  | .ldq8s g w => some (g, 2, 0x11, w, 0)
  | .ldq16u g w => some (g, 2, 0x12, w, 0)
  | .ldq16s g w => some (g, 2, 0x13, w, 0)
  | .ldq32u g w => some (g, 2, 0x14, w, 0)
  | .ldq32s g w => some (g, 2, 0x15, w, 0)
  | .ldq64 g w => some (g, 2, 0x16, w, 0)
  | .ldqa g w => some (g, 2, 0x17, w, 0)
  | .dld g w => some (g, 3, 0x00, w, 0)
  | .dst g w => some (g, 3, 0x01, w, 0)
  | .dcpy g w => some (g, 3, 0x02, w, 0)
  | .daddb g w => some (g, 3, 0x03, w, 0)
  | .daddbi g w => some (g, 3, 0x04, w, 0)
  | .dsetb g w => some (g, 3, 0x05, w, 0)
  | .dsete g w => some (g, 3, 0x06, w, 0)
  | .dsets g w => some (g, 3, 0x07, w, 0)
  | .dsett g w => some (g, 3, 0x08, w, 0)
  | .mwl g w w1 => some (g, 4, 0x00, w, w1)
  | .mtile g w w1 => some (g, 4, 0x01, w, w1)
  | .mmode g w => some (g, 4, 0x02, w, 0)
  | .vld g w w1 => some (g, 5, 0x00, w, w1)
  | .vst g w w1 => some (g, 5, 0x01, w, w1)
  | .vadd g w => some (g, 5, 0x04, w, 0)
  | .vsub g w => some (g, 5, 0x05, w, 0)
  | .vmul g w => some (g, 5, 0x06, w, 0)
  | .vfma g w => some (g, 5, 0x07, w, 0)
  | .vfms g w => some (g, 5, 0x08, w, 0)
  | .vdiv g w => some (g, 5, 0x09, w, 0)
  | .vsqrt g w => some (g, 5, 0x0a, w, 0)
  | .vmin g w => some (g, 5, 0x0b, w, 0)
  | .vmax g w => some (g, 5, 0x0c, w, 0)
  | .vminn g w => some (g, 5, 0x0d, w, 0)
  | .vmaxn g w => some (g, 5, 0x0e, w, 0)
  | .vabs g w => some (g, 5, 0x0f, w, 0)
  | .vneg g w => some (g, 5, 0x10, w, 0)
  | .vcvt g w => some (g, 5, 0x11, w, 0)
  | .vcmp g w => some (g, 5, 0x12, w, 0)
  | .vsel g w => some (g, 5, 0x13, w, 0)
  | .vand g w => some (g, 5, 0x14, w, 0)
  | .vor g w => some (g, 5, 0x15, w, 0)
  | .vxor g w => some (g, 5, 0x16, w, 0)
  | .vshl g w => some (g, 5, 0x17, w, 0)
  | .vshr g w => some (g, 5, 0x18, w, 0)
  | .vsar g w => some (g, 5, 0x19, w, 0)
  | .viota g w => some (g, 5, 0x1a, w, 0)
  | .vsplat g w => some (g, 5, 0x1b, w, 0)
  | .vshuf g w => some (g, 5, 0x1c, w, 0)
  | .vexp2 g w => some (g, 5, 0x20, w, 0)
  | .vlog2 g w => some (g, 5, 0x21, w, 0)
  | .vrcp g w => some (g, 5, 0x22, w, 0)
  | .vrsqrt g w => some (g, 5, 0x23, w, 0)
  | .vsin g w => some (g, 5, 0x24, w, 0)
  | .vcos g w => some (g, 5, 0x25, w, 0)
  | .vrsum g w => some (g, 5, 0x28, w, 0)
  | .vrmax g w => some (g, 5, 0x29, w, 0)
  | .vrmin g w => some (g, 5, 0x2a, w, 0)
  | .vsma g w => some (g, 5, 0x30, w, 0)
  | .vsmmrg g w => some (g, 5, 0x31, w, 0)
  | .vsminit g w => some (g, 5, 0x32, w, 0)
  | .vrand g w w1 => some (g, 5, 0x38, w, w1)
  | .vdrop g w w1 => some (g, 5, 0x39, w, w1)
  | .fcopy g w w1 => some (g, 6, 0x00, w, w1)
  | .fconv g w w1 => some (g, 6, 0x01, w, w1)
  | .fgath g w w1 => some (g, 6, 0x02, w, w1)
  | .fscat g w w1 => some (g, 6, 0x03, w, w1)
  | .fscadd g w w1 => some (g, 6, 0x04, w, w1)
  | .fqbc g w w1 => some (g, 6, 0x05, w, w1)
  | .waitM g w => some (g, 7, 0x00, w, 0)
  | .waitV g w => some (g, 7, 0x01, w, 0)
  | .waitF g w => some (g, 7, 0x02, w, 0)
  | .waitoM g w => some (g, 7, 0x04, w, 0)
  | .waitoV g w => some (g, 7, 0x05, w, 0)
  | .waitoF g w => some (g, 7, 0x06, w, 0)
  | .waitall g w => some (g, 7, 0x08, w, 0)
  | .rdcnt g w => some (g, 7, 0x09, w, 0)
  | .rdiss g w => some (g, 7, 0x0a, w, 0)
  | .tadd g w => some (g, 8, 0x00, w, 0)
  | .taddi g w => some (g, 8, 0x01, w, 0)
  | .tread g w => some (g, 8, 0x02, w, 0)
  | .nop g w => some (g, 9, 0x00, w, 0)
  | .endKernel g w => some (g, 9, 0x01, w, 0)
  | .faultSw g w => some (g, 9, 0x02, w, 0)
  | .setseed g w => some (g, 9, 0x03, w, 0)
  | .rdtime g w => some (g, 9, 0x04, w, 0)
  | .rdcsr g w => some (g, 9, 0x05, w, 0)
  | .wrcsr g w => some (g, 9, 0x06, w, 0)
  | _ => none

/-- Word 0 and word 1 of an instruction. -/
def Instr.words (i : Instr) : Option (Word64 × Word64) :=
  i.parts.map (fun (_, cls, op, w, w1) => (w.encode cls op, w1))

/-- Scalar arithmetic (Table 3-6). -/
def decodeArith (g : Gcn) (op : Nat) (w : Word0) : Option Instr :=
  match op with
  | 0x00 => some (.add g w)
  | 0x01 => some (.sub g w)
  | 0x02 => some (.mul g w)
  | 0x03 => some (.mulhu g w)
  | 0x04 => some (.mulhs g w)
  | 0x05 => some (.and g w)
  | 0x06 => some (.or g w)
  | 0x07 => some (.xor g w)
  | 0x08 => some (.shl g w)
  | 0x09 => some (.shr g w)
  | 0x0a => some (.sar g w)
  | 0x0b => some (.min g w)
  | 0x0c => some (.max g w)
  | 0x0d => some (.minu g w)
  | 0x0e => some (.maxu g w)
  | 0x10 => some (.movhi g w)
  | 0x11 => some (.pand g w)
  | 0x12 => some (.por g w)
  | 0x13 => some (.pxor g w)
  | 0x14 => some (.pnot g w)
  | 0x15 => some (.aadd g w)
  | 0x16 => some (.amov g w)
  | 0x17 => some (.aread g w)
  | 0x18 => some (.cmpEq g w)
  | 0x19 => some (.cmpNe g w)
  | 0x1a => some (.cmpLt g w)
  | 0x1b => some (.cmpLtu g w)
  | 0x1c => some (.cmpLe g w)
  | 0x1d => some (.cmpLeu g w)
  | 0x20 => some (.addi g w)
  | 0x21 => some (.subi g w)
  | 0x22 => some (.muli g w)
  | 0x23 => some (.mulhui g w)
  | 0x24 => some (.mulhsi g w)
  | 0x25 => some (.andi g w)
  | 0x26 => some (.ori g w)
  | 0x27 => some (.xori g w)
  | 0x28 => some (.shli g w)
  | 0x29 => some (.shri g w)
  | 0x2a => some (.sari g w)
  | 0x2b => some (.mini g w)
  | 0x2c => some (.maxi g w)
  | 0x2d => some (.minui g w)
  | 0x2e => some (.maxui g w)
  | 0x35 => some (.aaddi g w)
  | 0x38 => some (.cmpEqI g w)
  | 0x39 => some (.cmpNeI g w)
  | 0x3a => some (.cmpLtI g w)
  | 0x3b => some (.cmpLtuI g w)
  | 0x3c => some (.cmpLeI g w)
  | 0x3d => some (.cmpLeuI g w)
  | _ => none

/-- Branch (Table 3-7). -/
def decodeBranch (g : Gcn) (op : Nat) (w : Word0) : Option Instr :=
  match op with
  | 0x00 => some (.br g w)
  | 0x01 => some (.bra g w)
  | 0x02 => some (.call g w)
  | 0x03 => some (.ret g w)
  | 0x04 => some (.loop g w)
  | _ => none

/-- Scalar load/store (Table 3-8). -/
def decodeMem (g : Gcn) (op : Nat) (w : Word0) : Option Instr :=
  match op with
  | 0x00 => some (.ld8u g w)
  | 0x01 => some (.ld8s g w)
  | 0x02 => some (.ld16u g w)
  | 0x03 => some (.ld16s g w)
  | 0x04 => some (.ld32u g w)
  | 0x05 => some (.ld32s g w)
  | 0x06 => some (.ld64 g w)
  | 0x07 => some (.lda g w)
  | 0x08 => some (.st8 g w)
  | 0x09 => some (.st16 g w)
  | 0x0a => some (.st32 g w)
  | 0x0b => some (.st64 g w)
  | 0x0c => some (.sta g w)
  | 0x10 => some (.ldq8u g w)
  | 0x11 => some (.ldq8s g w)
  | 0x12 => some (.ldq16u g w)
  | 0x13 => some (.ldq16s g w)
  | 0x14 => some (.ldq32u g w)
  | 0x15 => some (.ldq32s g w)
  | 0x16 => some (.ldq64 g w)
  | 0x17 => some (.ldqa g w)
  | _ => none

/-- Descriptor (Table 3-9). -/
def decodeDesc (g : Gcn) (op : Nat) (w : Word0) : Option Instr :=
  match op with
  | 0x00 => some (.dld g w)
  | 0x01 => some (.dst g w)
  | 0x02 => some (.dcpy g w)
  | 0x03 => some (.daddb g w)
  | 0x04 => some (.daddbi g w)
  | 0x05 => some (.dsetb g w)
  | 0x06 => some (.dsete g w)
  | 0x07 => some (.dsets g w)
  | 0x08 => some (.dsett g w)
  | _ => none

/-- Matrix issue (Table 3-10). -/
def decodeMatrix (g : Gcn) (op : Nat) (w : Word0) (w1 : Word64) : Option Instr :=
  match op with
  | 0x00 => some (.mwl g w w1)
  | 0x01 => some (.mtile g w w1)
  | 0x02 => some (.mmode g w)
  | _ => none

/-- Vector (Table 5-2). -/
def decodeVector (g : Gcn) (op : Nat) (w : Word0) (w1 : Word64) : Option Instr :=
  match op with
  | 0x00 => some (.vld g w w1)
  | 0x01 => some (.vst g w w1)
  | 0x04 => some (.vadd g w)
  | 0x05 => some (.vsub g w)
  | 0x06 => some (.vmul g w)
  | 0x07 => some (.vfma g w)
  | 0x08 => some (.vfms g w)
  | 0x09 => some (.vdiv g w)
  | 0x0a => some (.vsqrt g w)
  | 0x0b => some (.vmin g w)
  | 0x0c => some (.vmax g w)
  | 0x0d => some (.vminn g w)
  | 0x0e => some (.vmaxn g w)
  | 0x0f => some (.vabs g w)
  | 0x10 => some (.vneg g w)
  | 0x11 => some (.vcvt g w)
  | 0x12 => some (.vcmp g w)
  | 0x13 => some (.vsel g w)
  | 0x14 => some (.vand g w)
  | 0x15 => some (.vor g w)
  | 0x16 => some (.vxor g w)
  | 0x17 => some (.vshl g w)
  | 0x18 => some (.vshr g w)
  | 0x19 => some (.vsar g w)
  | 0x1a => some (.viota g w)
  | 0x1b => some (.vsplat g w)
  | 0x1c => some (.vshuf g w)
  | 0x20 => some (.vexp2 g w)
  | 0x21 => some (.vlog2 g w)
  | 0x22 => some (.vrcp g w)
  | 0x23 => some (.vrsqrt g w)
  | 0x24 => some (.vsin g w)
  | 0x25 => some (.vcos g w)
  | 0x28 => some (.vrsum g w)
  | 0x29 => some (.vrmax g w)
  | 0x2a => some (.vrmin g w)
  | 0x30 => some (.vsma g w)
  | 0x31 => some (.vsmmrg g w)
  | 0x32 => some (.vsminit g w)
  | 0x38 => some (.vrand g w w1)
  | 0x39 => some (.vdrop g w w1)
  | _ => none

/-- Ferry issue (Table 3-14). -/
def decodeFerry (g : Gcn) (op : Nat) (w : Word0) (w1 : Word64) : Option Instr :=
  match op with
  | 0x00 => some (.fcopy g w w1)
  | 0x01 => some (.fconv g w w1)
  | 0x02 => some (.fgath g w w1)
  | 0x03 => some (.fscat g w w1)
  | 0x04 => some (.fscadd g w w1)
  | 0x05 => some (.fqbc g w w1)
  | _ => none

/-- Wait/counter (Table 3-16). -/
def decodeWait (g : Gcn) (op : Nat) (w : Word0) : Option Instr :=
  match op with
  | 0x00 => some (.waitM g w)
  | 0x01 => some (.waitV g w)
  | 0x02 => some (.waitF g w)
  | 0x04 => some (.waitoM g w)
  | 0x05 => some (.waitoV g w)
  | 0x06 => some (.waitoF g w)
  | 0x08 => some (.waitall g w)
  | 0x09 => some (.rdcnt g w)
  | 0x0a => some (.rdiss g w)
  | _ => none

/-- Ticket (Table 3-17). -/
def decodeTicket (g : Gcn) (op : Nat) (w : Word0) : Option Instr :=
  match op with
  | 0x00 => some (.tadd g w)
  | 0x01 => some (.taddi g w)
  | 0x02 => some (.tread g w)
  | _ => none

/-- System (Table 3-18). -/
def decodeSystem (g : Gcn) (op : Nat) (w : Word0) : Option Instr :=
  match op with
  | 0x00 => some (.nop g w)
  | 0x01 => some (.endKernel g w)
  | 0x02 => some (.faultSw g w)
  | 0x03 => some (.setseed g w)
  | 0x04 => some (.rdtime g w)
  | 0x05 => some (.rdcsr g w)
  | 0x06 => some (.wrcsr g w)
  | _ => none

/-- The instruction of core g with a class, an operation, the other fields of word 0, and word 1; a reserved
class or operation has none (R71). -/
def decodeRow (g : Gcn) (cls : BitVec 4) (code : BitVec 6) (w : Word0) (y : Word64) : Option Instr :=
  let op := code.toNat
  match cls.toNat with
  | 0 => decodeArith g op w
  | 1 => decodeBranch g op w
  | 2 => decodeMem g op w
  | 3 => decodeDesc g op w
  | 4 => decodeMatrix g op w y
  | 5 => decodeVector g op w y
  | 6 => decodeFerry g op w y
  | 7 => decodeWait g op w
  | 8 => decodeTicket g op w
  | 9 => decodeSystem g op w
  | _ => none

/-- The instruction of core g that two words spell. -/
def decodeWords (g : Gcn) (x y : Word64) : Option Instr :=
  decodeRow g (wordCls x) (wordOp x) (wordFields x) y

/-- A word whose CLS is reserved or whose OP its class does not define (R71). -/
def undefinedOp (x : Word64) : Bool := (decodeWords 0 x 0).isNone

end Sys2Proof
end

