-- ==== Sys2Proof/Config.lean ====
section
/-!
DEFINITION. What the spec leaves to an implementation or to another standard: constants with no body,
so that nothing can be proved of their values. The assumption log names each.
-/

namespace Sys2Proof.Config

/-- A transcendental result before the bound of R166 is applied: VEXP2 of a binary32 operand. -/
opaque exp2 : Word32 → Word32
/-- As exp2, for VLOG2. -/
opaque log2 : Word32 → Word32
/-- As exp2, for VRCP. -/
opaque rcp : Word32 → Word32
/-- As exp2, for VRSQRT. -/
opaque rsqrt : Word32 → Word32
/-- As exp2, for VSIN. -/
opaque sin : Word32 → Word32
/-- As exp2, for VCOS. -/
opaque cos : Word32 → Word32

/-- The bits of a packed neighbour in a byte written whole (R29, R526), by the byte's address. -/
opaque packedFill : Nat → Byte

/-- Whether a fused multiply-add of 0 × ∞ with a quiet NaN raises INV: IEEE 754-2019 leaves it to the
implementation. -/
opaque fmaNanInvalid : Bool

/-- Byte i of the randomizer of an attestation signature, which the spec leaves open (R475, FIPS 205): by draw. -/
opaque sigRandom : Nat → Nat → Byte
/-- The harbour master ROM as measured (Table 14-9, index 0). -/
opaque romByte : Nat → Byte

/-- A compute die's draw in W with every array, vector engine and ferry channel idle at a CCLK in
MHz, from the die's cost table (R440). -/
opaque idleDraw : Nat → Nat → Nat
/-- The measured draw in W of the I/O dies, the HBM stacks and the input stage for an input power
in mW (R439). (DESIGN CHOICE, log entry 91.) -/
opaque otherDraw : Nat → Nat

/-- The draw in W that one more CCLK step of every active die adds, and that lifting the HBM limit adds,
which the spec does not state (R433, R436): by draw. -/
opaque stepDraw : Nat → Nat
opaque hbmDraw : Nat → Nat
/-- The TYPE of the event of R436, for which Table 15-5 names none. -/
opaque limitEventType : Half
/-- The TYPE of the record of an invalid slot at boot (R469), for which Table 15-5 names none. -/
opaque slotEventType : Half
/-- The program counter of a firmware processor whose watchdog expired (R460): by draw. -/
opaque fwPc : Nat → Word32

/-- Bytes of the CDAT beyond the entries R384 gives (its headers follow CXL 3.1): handle and index. -/
opaque cdatByte : Nat → Nat → Byte
/-- Bytes of a memory device mailbox answer that CXL 3.1 leaves to the device: command, index (R370). -/
opaque mailboxByte : Nat → Nat → Byte
/-- The length of the answer to Identify Memory Device. -/
opaque mailboxLen : Nat → Nat
/-- Bytes and length of the DOE discovery response, laid down by PCIe (R384). -/
opaque doeByte : Nat → Byte
opaque doeLen : Nat
/-- The attestation status bytes OK and NO_IDENTITY, for which the spec gives no codes (R474, R475). (DESIGN CHOICE, log entry 76.) -/
opaque statusOk : Byte
opaque statusNoIdentity : Byte

/-- The magnitude of a rate change by which a timetable unit steers, before its bound (R287, R290): by draw. -/
opaque steer : Nat → Nat
/-- Which multiple of 10^9 ns a master's first TT_SYNC edge marks (R286): by draw. -/
opaque syncSecond : Nat → Nat
/-- The TYPE of the record of R288, for which Table 15-5 names none. -/
opaque boardEventType : Half

/-- The unit that a late verdict charges, whose residue no checker reported (R400, R412): by draw. -/
opaque lateUnit : Nat → BitVec 2
/-- A byte that a read outside its core receives of a granule whose check failed: the wrong result does not
leave the core (R403, R404), and the spec does not say what the poisoned data are. By core, check, address. -/
opaque containedByte : Nat → Nat → Nat → Byte
/-- The draw in W of an enabled matrix array and of a running vector engine at a CCLK in MHz, from the die's cost
table (R441). -/
opaque arrayPrice : Nat → Nat
opaque vectorPrice : Nat → Nat
/-- The rail voltage in mV of a compute die at a CCLK in MHz, from the die's table in one-time-programmable memory
(R457). -/
opaque railMv : Nat → Nat → Nat
/-- Which older value of a granule a core's read gets, if any (R237): by operation, core, the instruction's place in
program order, access, place and granule. -/
opaque oldRead : List Nat → Nat
/-- Whether a command's write of a granule takes effect before a write of another party that came to it while the command
was in execution (R226, R233): by that write's place from the last one, operation, core or engine, command, place and
granule. -/
opaque writesFirst : List Nat → Bool
/-- Cycles in which a matrix array lacks an input, and in which its drain cannot accept a result, for want of a bank or of
the quay's bandwidth (Table 3-22): by wall time and core. -/
opaque missingInput : Nat → Nat → Nat
opaque drainBusy : Nat → Nat → Nat
/-- Cycles that bank conflicts add to a VLD or VST (Table 5-4): by core, operation and command. -/
opaque bankCycles : Nat → Nat → Nat → Nat
/-- Byte i of the link message of a frame in operation, which the spec does not lay down (Table 10-3): by draw. -/
opaque lmsgByte : Nat → Nat → Byte
/-- The lane of a link that a run of damaged frames fails, 0 to 7 (R345): by draw. -/
opaque failedLane : Nat → Nat
/-- The one-way delay and the lane-skew asymmetry of a link as measured in slack water, in sixteenths of a ns (Table
10-9): by draw. -/
opaque linkDelay : Nat → Nat
opaque laneSkew : Nat → Int
/-- DevLoad of a CXL.mem answer (Table 11-4): by the number of accesses that wait in the controller's queue, and by draw for
what fills it within a row. -/
opaque devLoad : Nat → Nat → BitVec 2
/-- Bytes of the logbook's parts whose inner layout the spec does not give: what the part holds, address. -/
opaque mramByte : List Nat → Nat → Byte

end Sys2Proof.Config
end

