-- ==== Sys2Proof/Machine/Digest.lean ====
section
/-!
DEFINITION. SHAKE256, by which the spec digests records, images and measurements (R353, R462 to R464, R471). The
function is that of FIPS 202, which the spec names (PRESUMED, log entry 10).
-/

namespace Sys2Proof.Machine

/-! ## The permutation

The state is five planes of five 64-bit lanes; its tables are not written out but derived: the round
constants from the 8-bit feedback register of FIPS 202, the rotations and the transposition from one
walk through the lanes. -/

/-- Lane (x, y), both counted modulo 5, of the state as one list. -/
def laneAt (st : List Word64) (x y : Nat) : Word64 := st.getD (x % 5 + y % 5 * 5) 0

/-- A state given lane by lane. -/
def planes (f : Nat → Nat → Word64) : List Word64 :=
  (List.range 5).flatMap fun y => (List.range 5).map fun x => f x y

/-- One shift of the feedback register of FIPS 202, whose polynomial is x^8 + x^6 + x^5 + x^4 + 1. -/
def feedback (r : Byte) : Byte := if r.msb then r <<< 1 ^^^ 0x71 else r <<< 1

/-- The constant that a register standing at r gives: its next seven outputs, output j at bit 2^j − 1. -/
def roundConst : Nat → Byte → Word64
  | 0, _ => 0
  | k + 1, r => (if r.getLsbD 0 then 1#64 <<< (2 ^ (6 - k) - 1) else 0) ||| roundConst k (feedback r)

/-- The walk from lane (1, 0): each lane visited with the lane it moves to and its rotation, a
triangular number. -/
def walk : Nat → Nat × Nat → Nat → List ((Nat × Nat) × (Nat × Nat) × Nat)
  | 0, _, _ => []
  | k + 1, (x, y), t => ((y, (2 * x + 3 * y) % 5), (x, y), (t + 1) * (t + 2) / 2 % 64) :: walk k (y, (2 * x + 3 * y) % 5) (t + 1)

/-- Every lane but (0, 0), which stays where it is, turned and moved along the walk. -/
def scatterLanes (st : List Word64) : List Word64 :=
  planes fun x y =>
    match (walk 24 (1, 0) 0).lookup (x, y) with
    | some ((u, v), n) => (laneAt st u v).rotateLeft n
    | none => laneAt st x y

/-- The parity of column x. -/
def parity (st : List Word64) (x : Nat) : Word64 := (List.range 5).foldl (fun c y => c ^^^ laneAt st x y) 0

/-- The linear part of a round. -/
def mixColumns (st : List Word64) : List Word64 :=
  planes fun x y => laneAt st x y ^^^ parity st (x + 4) ^^^ (parity st (x + 1)).rotateLeft 1

/-- One round with constant c. -/
def permRound (st : List Word64) (c : Word64) : List Word64 :=
  let b := scatterLanes (mixColumns st)
  (planes fun x y => laneAt b x y ^^^ (laneAt b (x + 2) y &&& ~~~ laneAt b (x + 1) y)).modifyHead (· ^^^ c)

/-- k rounds from a feedback register standing at r; each round takes seven shifts. -/
def permute : Nat → Byte → List Word64 → List Word64
  | 0, _, st => st
  | k + 1, r, st => permute k (Nat.repeat feedback 7 r) (permRound st (roundConst 7 r))

def keccakF (st : List Word64) : List Word64 := permute 24 1 st

/-! ## The sponge -/

/-- Bytes absorbed or squeezed at a time. -/
def shakeRate : Nat := 136

/-- The little-endian value of a lane's bytes. -/
def laneOf (l : List Byte) : Word64 := BitVec.ofNat 64 (l.foldr (fun b n => b.toNat + 256 * n) 0)

def laneBytes (x : Word64) : List Byte := (List.range 8).map (fun i => x.extractLsb' (8 * i) 8)

/-- Absorb one block. -/
def absorbBlock (a : List Word64) (blk : List Byte) : List Word64 :=
  keccakF (planes fun x y => laneAt a x y ^^^ laneOf ((blk.drop (8 * (x + 5 * y))).take 8))

def absorb : Nat → List Word64 → List Byte → List Word64
  | 0, a, _ => a
  | k + 1, a, m => absorb k (absorbBlock a (m.take shakeRate)) (m.drop shakeRate)

def squeeze : Nat → List Word64 → List Byte
  | 0, _ => []
  | k + 1, a => (a.take 17).flatMap laneBytes ++ squeeze k (keccakF a)

/-- The message with its suffix and padding: whole blocks. -/
def shakePad (m : List Byte) : List Byte :=
  let z := shakeRate - 1 - m.length % shakeRate
  if z = 0 then m ++ [0x9F] else m ++ [0x1F] ++ List.replicate (z - 1) 0 ++ [0x80]

/-- n bytes of SHAKE256 of a message. (PRESUMED, log entry 10.) -/
def shake256 (m : List Byte) (n : Nat) : List Byte :=
  let p := shakePad m
  (squeeze ((n + shakeRate - 1) / shakeRate) (absorb (p.length / shakeRate) (List.replicate 25 0) p)).take n

/-- The 64-byte digest. -/
@[irreducible] def shake (m : List Byte) : List Byte := shake256 m 64

end Sys2Proof.Machine
end

