-- ==== Sys2Proof/Machine/State.lean ====
section
/-!
DEFINITION. The state of the FX1: plain data, every piece of state the spec gives the module, and the
state right after reset. Values the spec leaves without a reset value are named in notes/assumptions.
-/

namespace Sys2Proof.Machine

/-! ## Why a step can stop -/

/-- Reasons the machine stops with a fault: none, since the spec gives every command an effect. -/
inductive Fault where
  deriving DecidableEq, Repr

/-- Reasons a command is refused. -/
inductive Refusal
  /-- Raised by an arm of exec for a command that has no meaning yet. Safe: no behaviour is claimed. -/
  | notModelled (mnemonic : String)
  deriving DecidableEq, Repr

/-! ## Memory and values -/

/-- A byte store with its poison marks and the errors in it: `poison` holds granule or line numbers; `errs`, by word
(SRAM) or line (HBM), the code symbols in error: of a word's 72 bits (R230), or of a line's 67 bytes, 64 of data and
three of check symbols (R360). `cells` are the bytes a read delivers: corrected where one symbol is in error, as they
stand where more are (R230, R361). (PRESUMED, log entry 79.) -/
structure Store where
  cells  : List Host.Cell
  poison : List Nat
  errs   : List (Nat × List Nat)
  deriving DecidableEq, Repr

/-- An empty store: every byte as an unlisted byte reads, nothing poisoned. -/
def Store.empty : Store := ⟨[], [], []⟩

/-- A place of the device's own storage (Table 7-1). -/
inductive Loc
  | lsp (g : Nat)
  | quay (d : Fin 8)
  | dmem
  deriving DecidableEq, Repr

/-- Who writes a granule (R223, Table 7-4): an engine's command of a core, by its number, the sequencer of a
core, a collective engine, the host, or another device. -/
inductive Writer
  | engine (g : Nat) (e : Eng) (n : Word32)
  | sequencer (g : Nat)
  | collective (e : Nat)
  | host
  | device (c : Coord)
  | dispatcher (op : Nat)
  deriving DecidableEq, Repr

/-- What a granule holds: 64 bytes, its poison bit and the checks it awaits (R227). -/
structure Gran where
  bytes  : List Byte
  poison : Bool
  marks  : List Nat
  deriving DecidableEq, Repr

/-- One access that writes a granule: bytes by their place in it, the poison and the checks that come with them (R225,
R227). -/
structure GranPut where
  bytes  : List (Nat × Byte)
  poison : Bool
  marks  : List Nat
  deriving DecidableEq, Repr

/-- A write that operations in flight did not order before their reads: a copy of what the granule held before it,
`was`, may still serve such a read (R224, R237). The writes of one granule stand in the order in which they take effect.
`put` is what was written; `op` the operation of the writing command, `at_` the wall time; `ops` the operations launched
before the write; `rivals` the commands of other parties then in execution, with their operations, between whose writes
and this one there is no order (R226, R233); `after` is the place in the writing core's program order from which its own
reads no longer return the old value (R234, R235). -/
structure OldGran where
  loc    : Loc
  n      : Nat
  was    : Gran
  put    : GranPut
  writer : Writer
  op     : Option Nat
  at_    : Nat
  ops    : List Nat
  rivals : List (Nat × Writer)
  after  : Option Nat
  deriving DecidableEq, Repr

/-- The exact value of an operand in the internal form (R36 to R38): zero, NaN, infinity, or
(−1)^neg × m × 2^e with m above 0. -/
inductive Num
  | nan
  | zero
  | inf (neg : Bool)
  | fin (neg : Bool) (m : Nat) (e : Int)
  deriving DecidableEq, Repr

/-- A stationary tile in a weight buffer: elements with a mark for those read from poisoned
granules, the operand's format, and the checks its source granules awaited (R115, R401). -/
structure Tile where
  rows  : Nat
  cols  : Nat
  fmt   : BitVec 4
  bsc   : Bool
  els   : List (List (Num × Bool))
  marks : List Nat
  deriving DecidableEq, Repr

/-! ## Operations of the engines -/

/-- Operations of the vector class (Table 5-2). -/
inductive VOp
  | vld | vst | vadd | vsub | vmul | vfma | vfms | vdiv | vsqrt | vmin | vmax | vminn | vmaxn
  | vabs | vneg | vcvt | vcmp | vsel | vand | vor | vxor | vshl | vshr | vsar | viota | vsplat | vshuf
  | vexp2 | vlog2 | vrcp | vrsqrt | vsin | vcos | vrsum | vrmax | vrmin | vsma | vsmmrg | vsminit
  | vrand | vdrop
  deriving DecidableEq, Repr

/-- Operations of the ferry issue class (Table 3-14). -/
inductive FOp | fcopy | fconv | fgath | fscat | fscadd | fqbc
  deriving DecidableEq, Repr

/-- The matrix issue class (Table 3-10), as an instruction names it. -/
inductive MKind | mwl | mtile | mmode
  deriving DecidableEq, Repr

/-- What an MTILE captured at issue (Table 3-12, R75). -/
structure MTileOp where
  dact : Desc
  dps  : Desc
  dout : Desc
  depi : Desc
  epi  : BitVec 2
  tr   : Bool
  init : Bool
  last : Bool
  deriving DecidableEq, Repr

inductive MOp
  | mwl (dw : Desc)
  | mtile (t : MTileOp)
  | mmode (quad : Bool)
  deriving DecidableEq, Repr

/-- A matrix command as captured at issue: its number in the kernel's issue order, the program order
and address of its instruction (R75, R106). -/
structure MCmd where
  n    : Word32
  ord  : Nat
  pc   : Half
  q    : Lane4
  seed : Word64
  op   : MOp
  deriving DecidableEq, Repr

/-- A vector command as captured at issue. -/
structure VCmd where
  n    : Word32
  ord  : Nat
  pc   : Half
  op   : VOp
  w    : Word0
  desc : Desc
  sidx : Word64
  seed : Word64
  deriving DecidableEq, Repr

/-- A ferry command as captured at issue. -/
structure FCmd where
  n    : Word32
  ord  : Nat
  pc   : Half
  op   : FOp
  ch   : Channel
  dsrc : Desc
  ddst : Desc
  didx : Desc
  seed : Word64
  deriving DecidableEq, Repr

/-! ## Core -/

/-- An engine command's instruction, held while its queue is full (R74). -/
inductive EngineIssue
  | mat (k : MKind) (w : Word0) (w1 : Word64)
  | vec (op : VOp) (w : Word0) (w1 : Word64)
  | fer (op : FOp) (w : Word0) (w1 : Word64)
  deriving DecidableEq, Repr

/-- The scalar accesses of Tables 3-8 and 3-9. -/
inductive ScalarAccess
  | load (bytes : Nat) (signed : Bool) (quay : Bool) (toAddr : Bool)
  | store (bytes : Nat) (fromAddr : Bool)
  | dld
  | dst
  deriving DecidableEq, Repr

/-- What the sequencer of a core is doing. -/
inductive SeqCond
  /-- No kernel runs on the core. -/
  | idle
  | running
  /-- Stalled in an engine command on a full queue (R74). -/
  | queueFull (i : EngineIssue)
  /-- A ferry command naming HOST held at issue while an aperture change is pending (R380). -/
  | apertureHeld (i : EngineIssue)
  /-- Stalled in a scalar access on a contained granule (R85). -/
  | held (a : ScalarAccess) (w : Word0)
  /-- Stalled in WAIT (R94). -/
  | wait (e : Eng) (target : Word32)
  /-- Stalled in WAITO (R94). -/
  | waitOut (e : Eng) (limit : Word64)
  | waitAll
  /-- Stalled in END (R107). -/
  | ending
  /-- Issuing nothing more after a fault or a cancellation (R108, R109). -/
  | stopping
  deriving DecidableEq, Repr

/-- A fault as recorded for SEQ_FAULT, with the place of its instruction in program order (R106). -/
structure FaultRec where
  cause  : Byte
  detail : BitVec 14
  pc     : Half
  ord    : Nat
  deriving DecidableEq, Repr

/-- The sequencer (Table 3-1), its faults and its deferred increments (R100). -/
structure Seq where
  s        : Vector Word64 32
  a        : Vector Addr 16
  p        : Vector Bool 8
  d        : Vector Desc 32
  pc       : Half
  seed     : Word64
  mIssued  : Word32
  vIssued  : Word32
  fIssued  : Word32
  mec      : Word32
  vec      : Word32
  fec      : Word32
  cond     : SeqCond
  /-- Instructions issued in the kernel: program order for R106. -/
  ord      : Nat
  /-- The mode that matrix commands issued next will find (R90). -/
  quad     : Bool
  fault    : Option FaultRec
  multi    : Bool
  deferred : List (Half × Word32)
  deriving DecidableEq, Repr

def Seq.reset : Seq where
  s := Vector.replicate 32 0
  a := Vector.replicate 16 0
  p := Vector.replicate 8 false
  d := Vector.replicate 32 0
  pc := 0
  seed := 0
  mIssued := 0
  vIssued := 0
  fIssued := 0
  mec := 0
  vec := 0
  fec := 0
  cond := .idle
  ord := 0
  quad := false
  fault := none
  multi := false
  deferred := []

/-- An exponent histogram: BASE, SATD, the bins that are not 0, and a clear awaiting the end of a
counted drain or store (R59 to R62, Table 2-16). -/
structure Hist where
  base    : BitVec 10
  satd    : Bool
  bins    : List (Nat × Word32)
  clrWait : Bool
  deriving DecidableEq, Repr

def Hist.reset : Hist := ⟨0x3D3, false, [], false⟩

/-- A drain-log entry (Tables 4-10 and 4-11). -/
structure Dlog where
  seq      : Word32
  q        : Lane4
  valid    : Bool
  done     : Bool
  verdict  : BitVec 2
  int      : Bool
  init     : Bool
  last     : Bool
  cvo      : Bool
  nan      : Bool
  flush    : Bool
  sat      : Bool
  satCnt   : Half
  flushCnt : Half
  satRow   : Half
  satCol   : Byte
  deriving DecidableEq, Repr

def Dlog.reset : Dlog :=
  ⟨0, 0, false, false, 0, false, false, false, false, false, false, false, 0, 0, 0xFFFF, 0xFF⟩

/-- A byte in write combining: address, value, and what its granule will carry (R120, R143, R401). -/
structure PendByte where
  addr   : Nat
  byte   : Byte
  poison : Bool
  marks  : List Nat
  deriving DecidableEq, Repr

/-- Why an array or sub-array is frozen (R133, R134). -/
inductive Freeze
  | replay
  | held (granule : Nat)
  | earlier (n : Word32)
  deriving DecidableEq, Repr

/-- An MTILE in execution: its tile and buffer, the next row to stream, bytes not yet drained, its
drain-log entry and the number of its first check. -/
structure MExec where
  cmd  : MCmd
  buf  : Bool
  tile : Tile
  quad : Bool
  row  : Nat
  wbuf : List PendByte
  dlog : Nat
  chk  : Nat
  frz  : Option Freeze
  psn  : Bool
  deriving DecidableEq, Repr

/-- Numbers kept per engine. -/
structure PerEngine where
  m : Nat
  v : Nat
  f : Nat
  deriving DecidableEq, Repr

def PerEngine.zero : PerEngine := ⟨0, 0, 0⟩

def PerEngine.total (x : PerEngine) : Nat := x.m + x.v + x.f

/-- The weight buffers of one sub-array: which buffer is current, if any (R123). -/
structure SubArr where
  b0  : Option Tile
  b1  : Option Tile
  cur : Option Bool
  deriving DecidableEq, Repr

def SubArr.empty : SubArr := ⟨none, none, none⟩

/-- The matrix engine (R113) with MAT_FLAGS, its histogram and its drain log. -/
structure Mat where
  queue     : List MCmd
  exec      : List MExec
  loading   : List (MCmd × Bool)
  modeChg   : Option MCmd
  done      : List Word32
  quad      : Bool
  sub       : Vector SubArr 4
  /-- Protected granules: quay or LSP, number, check (R141). -/
  protect   : List (Bool × Nat × Nat)
  rows      : Nat
  /-- Cycles of a ramp still to come, and whether that ramp disables rows (R136, R137). -/
  rampLeft  : Nat
  rampDown  : Bool
  idleCyc   : Nat
  frozenCyc : Nat
  /-- Cycles of a mode change still to come (R132). -/
  modeLeft  : Nat
  flags     : BitVec 5
  hist      : Hist
  dlog      : List (Nat × Dlog)
  head      : BitVec 6
  wrap      : Bool
  satSeen   : Bool
  lost      : Half
  firstSat  : Word32
  deriving DecidableEq, Repr

def Mat.reset : Mat where
  queue := []
  exec := []
  loading := []
  modeChg := none
  done := []
  quad := false
  sub := Vector.replicate 4 SubArr.empty
  protect := []
  rows := 0
  rampLeft := 0
  rampDown := false
  idleCyc := 0
  frozenCyc := 0
  modeLeft := 0
  flags := 0
  hist := Hist.reset
  dlog := []
  head := 0
  wrap := false
  satSeen := false
  lost := 0
  firstSat := 0

/-- The vector engine: registers, the checks their values await (R160), commands, the cycles of their occupancy still to
come (Table 5-4), VEC_FLAGS. -/
structure Vec where
  v     : Vector VReg 32
  marks : List (Nat × List Nat)
  queue : List VCmd
  run   : List VCmd
  busy  : Nat
  flags : BitVec 5
  hist  : Hist
  deriving DecidableEq, Repr

def Vec.reset : Vec := ⟨Vector.replicate 32 0, [], [], [], 0, 0, Hist.reset⟩

/-- Phases of a ferry command on its channel: waiting for remote data, ready to write, waiting for
acknowledgements, waiting for the flush read of R236; or failed with a code of Table 6-5 and waiting for
the answers to the writes it has sent (R239). -/
inductive FPhase
  | reading
  | ready
  | acking
  | flushing
  | failing (code : Nat)
  deriving DecidableEq, Repr

/-- A ferry channel's command. `copyOf` names the operation of a COPY (R257); `rx` and `rxPoison`
hold remote data received, addressed as the source descriptor addresses it; `tags` the transactions
unanswered; `pend` the HOST granules asked for and not received. -/
structure FExec where
  cmd      : FCmd
  copyOf   : Option Nat
  phase    : FPhase
  rx       : List Host.Cell
  rxPoison : List Nat
  tags     : List Word32
  pend     : List Nat
  copyFlags : BitVec 5
  psn      : Bool
  deriving DecidableEq, Repr

/-- The first failing index of the kernel (Table 6-12, FER_IDXPOS, FER_IDXVAL). -/
structure IdxFault where
  neg    : Bool
  ch     : Channel
  policy : BitVec 2
  psn    : Bool
  cmd    : Half
  pos    : Word64
  val    : Word64
  deriving DecidableEq, Repr

/-- The ferry engine: queue, channels by number, FER registers. -/
structure Fer where
  queue    : List FCmd
  chans    : List (Nat × FExec)
  done     : List Word32
  flags    : BitVec 5
  idxFault : Option IdxFault
  clampCnt : Word32
  zeroCnt  : Word32
  dupHits  : Word64
  deriving DecidableEq, Repr

def Fer.reset : Fer := ⟨[], [], [], 0, none, 0, 0, 0⟩

/-- A check submitted to, or being formed for, the core's checker (R399): what it covers and when
its verdict is due, in CCLK cycles of the die. `sums` are the input partial sums that the replay buffer holds
for it, `replay` bytes of them, by row (R142); `reads` the granules of DACT and DEPI as its rows read them; `vals` and
`loaded` the source values in the vector engine's check queue: registers, and the elements a VLD read, as codes with
their block scales (R408). -/
structure Check where
  id     : Nat
  eng    : Eng
  q      : Lane4
  quad   : Bool
  buf    : Bool
  n      : Word32
  ord    : Nat
  pc     : Half
  dlog   : Nat
  replay : Nat
  sums   : List (Nat × List Num)
  reads  : List (Nat × Loc × Nat × List Byte)
  vals   : List VReg
  loaded : List (Nat × Option Byte)
  due    : Nat
  ready  : Bool
  deriving DecidableEq, Repr

/-- The operands of a failed check, kept until its arbitration ends (R408): the stationary tile, the
granules of DACT and DEPI as its rows read them, its input partial sums, its source values. -/
structure Retained where
  chk   : Nat
  eng   : Eng
  tile  : Option Tile
  grans : List (Nat × Loc × Nat × List Byte)
  sums  : List (Nat × List Num)
  vals  : List VReg
  loaded : List (Nat × Option Byte)
  deriving DecidableEq, Repr

/-- The utilisation counters (Table 3-22) but SEQ_CYCLES, which is the die's. -/
structure Counters where
  meBusy        : Word64
  meFrozenFeed  : Word64
  meFrozenDrain : Word64
  meQuad        : Word64
  veBusy        : Word64
  feBytes       : Vector Word64 4
  waitM         : Word64
  waitV         : Word64
  waitF         : Word64
  qfull         : Word64
  deriving DecidableEq, Repr

def Counters.reset : Counters := ⟨0, 0, 0, 0, 0, Vector.replicate 4 0, 0, 0, 0, 0⟩

/-- One core (R64 and the engine chapters). -/
structure Core where
  seq       : Seq
  imem      : List Host.Cell
  lsp       : Store
  /-- Unverified granules of LSP and the checks each awaits (R401). -/
  marks     : List (Nat × List Nat)
  mat       : Mat
  vec       : Vec
  fer       : Fer
  ctr       : Counters
  checks    : List Check
  nextChk   : Nat
  /-- Operands of failed checks (R408). -/
  retained  : List Retained
  /-- A check of the kernel has failed, or J3 repeat mode has found a permanent fault (R405, R421). -/
  checkFailed : Bool
  /-- The kernel the core runs, by operation number. -/
  op        : Option Nat
  cancel    : Bool
  discarded : PerEngine
  /-- INT_MODE as it stood when the kernel was launched (R422). -/
  j3        : Bool
  deriving DecidableEq, Repr

def Core.reset : Core where
  seq := Seq.reset
  imem := []
  lsp := Store.empty
  marks := []
  mat := Mat.reset
  vec := Vec.reset
  fer := Fer.reset
  ctr := Counters.reset
  checks := []
  nextChk := 0
  retained := []
  checkFailed := false
  op := none
  cancel := false
  discarded := .zero
  j3 := false

/-! ## Dispatcher -/

/-- A queue's configuration group (Tables 8-13 and 8-14). -/
structure QCfg where
  log2   : Nat
  offset : Nat
  cplHost : Bool
  cplOff  : Nat
  deriving DecidableEq, Repr

def QCfg.reset : QCfg := ⟨6, 0, false, 0⟩

/-- A command read and not launched: its count in the queue, its 64 bytes, and which of its ticket waits
have been found satisfied (R264). -/
structure QCmd where
  seq   : Nat
  bytes : List Byte
  sat   : List Nat
  deriving DecidableEq, Repr

/-- A command queue (R249 to R254, R283, R382). Counts are free-running since the counts were last
reset; registers and doorbells carry them modulo 2^32. -/
structure Queue where
  enabled  : Bool
  prio     : BitVec 2
  vector   : VectorId
  depth    : Nat
  halted   : Bool
  refused  : Bool
  cfg      : QCfg
  shadow   : QCfg
  pend     : Option QCfg
  accepted : Nat
  read     : Nat
  written  : Nat
  consumed : Nat
  count    : Nat
  beyond   : List Nat
  cmds     : List QCmd
  /-- Wall time at which the first command of `cmds` became the queue's first unlaunched command. -/
  firstAt  : Nat
  /-- Accepted commands not yet read that are to be ended when read, with the cause (R251, R275). -/
  dead     : List (Nat × Byte)
  deriving DecidableEq, Repr

/-- The reset value of queue n: VECTOR resets to n (Table 8-15). -/
def Queue.reset (n : Nat) : Queue where
  enabled := false
  prio := 0
  vector := BitVec.ofNat 11 n
  depth := 0x10000
  halted := false
  refused := false
  cfg := QCfg.reset
  shadow := QCfg.reset
  pend := none
  accepted := 0
  read := 0
  written := 0
  consumed := 0
  count := 0
  beyond := []
  cmds := []
  firstAt := 0
  dead := []

/-- The kinds of operation and command between launch and record. -/
inductive OpKind | launch | copy | collective | ticketSignal | marker | hostFence | unlaunched
  deriving DecidableEq, Repr

inductive OpStatus | done | failed | cancelled
  deriving DecidableEq, Repr

/-- What a core reports to the dispatcher (R107, R108): its fault as SEQ_FAULT holds it, its issue and
completion counts, and the discarded commands of each engine. -/
structure CoreReport where
  core      : Nat
  ended     : Bool
  fault     : Word32
  issued    : PerEngine
  completed : PerEngine
  discarded : PerEngine
  deriving DecidableEq, Repr

/-- A command between launch and record (R268 to R273). -/
structure Op where
  id        : Nat
  q         : Nat
  seq       : Nat
  bytes     : List Byte
  kind      : OpKind
  blk       : List Byte
  status    : Option OpStatus
  cause     : Byte
  info      : Word32
  tLaunch   : Nat
  wdog      : Nat
  /-- The MCLK cycle in which the dispatcher took the expiry of the watchdog (R270). -/
  wdogAt    : Option Nat
  /-- Cores of the set that have not reported. -/
  waiting   : List Nat
  /-- The core set after SKIP_FENCED (R261). -/
  set       : List Nat
  /-- The block of a command that is ended unlaunched has still to be read and checked (R275). -/
  unread    : Bool
  nDone     : Nat
  nFailed   : Nat
  nCancel   : Nat
  fault     : Option (Nat × Half)
  discarded : Nat
  reports   : List CoreReport
  deferred  : List (Half × Word32)
  applied   : Nat
  dropped   : Nat
  /-- Whether increments, poisoning and signals of R272 have been carried out. -/
  settled   : Bool
  sigDone   : Nat
  sigGone   : Nat
  flags     : Byte
  deriving DecidableEq, Repr

/-- A ticket increment sent to another device and not acknowledged (R266, R337). -/
structure XSig where
  m      : Word32
  op     : Nat
  dst    : Coord
  ticket : Half
  value  : Word32
  expiry : Nat
  deriving DecidableEq, Repr

/-- An operation's part of the ticket ledger (Table 8-10): signals declared, applied, withdrawn and pending; deferred
increments recorded, applied and dropped. -/
structure OpLedger where
  id        : Nat
  declared  : Nat
  applied   : Nat
  withdrawn : Nat
  pending   : Nat
  recorded  : Nat
  defApplied : Nat
  defDropped : Nat
  deriving DecidableEq, Repr

/-- A link's ledger by class: G, H, B, T and K of R331. -/
structure LinkLedger where
  granted : List Nat
  held    : List Nat
  buffer  : List Nat
  ret     : List Nat
  park    : List Nat
  deriving DecidableEq, Repr

def LinkLedger.none_ : LinkLedger := ⟨[], [], [], [], []⟩

/-- The state of each ledger of Table 8-10 at its last check (R277): the tickets and the sums of increments applied
to them; every operation's part; by queue its accepted commands, written records and CONSUMED; by port and link the
link's; the power credits of the pool, the reserve, in transit and of each die. -/
structure LedgerState where
  tickets : List (Nat × Word32)
  sums    : List (Nat × Word32)
  signals : List OpLedger
  records : List (Nat × Nat × Nat × Nat)
  links   : List (Nat × LinkLedger)
  parts   : List Nat
  holding : List (Nat × Nat)
  deriving DecidableEq, Repr

def LedgerState.reset : LedgerState := ⟨[], [], [], [], [], [], []⟩

/-- What the dispatcher holds besides its queues. -/
structure Sch where
  ledger    : Bool
  kind      : BitVec 4
  paused    : Bool
  wdogDef   : Word32
  xsigMs    : Word32
  canCount  : Half
  canResult : BitVec 2
  ticketSel : Half
  queues    : List (Nat × Queue)
  ops       : List Op
  nextOp    : Nat
  xsigs     : List XSig
  nextMsg   : Word32
  /-- Applied messages of other devices: source, sequence, carried expiry (R337). -/
  appliedMsgs : List (Coord × Word32 × Nat)
  /-- For each priority, the queue last served (R260). -/
  turn      : Vector Nat 4
  tickets   : List (Nat × Word32)
  /-- The sum of increments applied to each ticket since reset (R276). -/
  ticketSum : List (Nat × Word32)
  /-- The cores that run a COPY: core, and the queue and SEQ of the command, until its record is written (R257). -/
  copies    : List (Nat × Nat × Nat)
  /-- Doorbells written during an activation: whether a submit doorbell, queue, value (R278). -/
  kept      : List (Bool × Nat × Word32)
  /-- The ledgers as last checked (R276, R277). -/
  checked   : LedgerState
  deriving DecidableEq, Repr

def Sch.reset : Sch where
  ledger := false
  kind := 0
  paused := false
  wdogDef := 10000000
  xsigMs := 1000
  canCount := 0
  canResult := 0
  ticketSel := 0
  queues := []
  ops := []
  nextOp := 0
  xsigs := []
  nextMsg := 0
  appliedMsgs := []
  turn := Vector.replicate 4 0
  tickets := []
  ticketSum := []
  copies := []
  kept := []
  checked := .reset

/-! ## Timetable -/

inductive TTState | acquire | locked | holdover | unlocked
  deriving DecidableEq, Repr

/-- A neighbour's last offer of tide time (R286, R289): its depth, slack settings and whether it
offers; until a message of it has come, what it reported in training. -/
structure Offer where
  heard  : Bool
  offers : Bool
  depth  : Nat
  slack  : Slack
  deriving DecidableEq, Repr

/-- The timetable unit (R284 to R292, Tables 9-9 and 9-10). -/
structure TT where
  now      : Nat
  /-- Parts in 10^9 by which the rate differs from nominal, and the 10^9ths of a ns not yet counted (R284, R290). -/
  ppb      : Int
  frac     : Nat
  runs     : Bool
  state    : TTState
  depth    : Nat
  slackMM  : Bool
  parent   : Option Port
  src      : BitVec 2
  offset   : Word32
  epoch    : Word64
  slack    : Slack
  shadow   : Slack
  pend     : Option Slack
  /-- Tide time of the commit of `pend`. -/
  pendAt   : Nat
  rampPeriod : Nat
  rampSlots  : Nat
  rampSlot   : Nat
  linkDly  : Vector Word32 6
  /-- The lane-skew asymmetry of each port's link, in sixteenths of a ns, as last measured (R290, Tables 10-8, 10-9). -/
  skew     : Vector Int 6
  /-- Wall times of the last message sent on each port, and of the last exchange (R290). -/
  sentAt   : Vector (Option Nat) 6
  lastExch : Option Nat
  /-- The parent's last message: its port, when it came, and the offset found. -/
  lastOfs  : Option (Port × Nat × Int)
  /-- A master under BOARD: the offset that its TT_SYNC edges have still to lose, in 10^9ths of a ns, by the last edge and
  the rate since, and the wall time of which that is true (R287). -/
  left     : Int
  leftAt   : Nat
  offers   : List (Nat × Offer)
  /-- Wall times: entry to the present state, and the last TT_SYNC edge. -/
  since    : Nat
  lastSync : Option Nat
  /-- The master runs on its last rate for want of edges (R516). -/
  refLost  : Bool
  /-- The number of timetable messages sent to the parent. -/
  sent     : Nat
  deriving DecidableEq, Repr

def TT.reset : TT where
  now := 0
  ppb := 0
  frac := 0
  runs := false
  state := .acquire
  depth := 0
  slackMM := false
  parent := none
  src := 0
  offset := 0
  epoch := 0
  slack := ⟨10000, 2000, 0⟩
  shadow := ⟨10000, 2000, 0⟩
  pend := none
  pendAt := 0
  rampPeriod := 0x3E8
  rampSlots := 0
  rampSlot := 0
  linkDly := Vector.replicate 6 0
  skew := Vector.replicate 6 0
  sentAt := Vector.replicate 6 none
  lastExch := none
  lastOfs := none
  left := 0
  leftAt := 0
  offers := []
  since := 0
  lastSync := none
  refLost := false
  sent := 0

/-! ## Collective engines -/

/-- A schedule step (Table 9-4). -/
structure Step where
  sail  : Nat
  alts  : List Nat
  recv  : Bool
  port  : Nat
  peer  : Nat
  first : Nat
  nblk  : Nat
  bstr  : Nat
  deriving DecidableEq, Repr

/-- A block of a running collective: the positions its partial sum covers, whether it is held in
WORK, its RECV steps applied, and its poison (R312, R319). -/
structure Blk where
  cover   : List Nat
  inWork  : Bool
  applied : List Nat
  poison  : Bool
  deriving DecidableEq, Repr

/-- A block received and not yet added (R314). -/
structure RxBlk where
  step   : Nat
  block  : Nat
  cover  : List Nat
  poison : Bool
  data   : List Byte
  /-- The link whose credits are withheld for it while the receive buffer is full. -/
  via    : Option (Port × LinkId)
  deriving DecidableEq, Repr

/-- An addition or conversion awaiting its verdict (R318): its RECV step, if any; `due` is in wall time.
`sums` are the two input partial sums of an addition, in the receive buffer (R408). -/
structure CollChk where
  id    : Nat
  step  : Nat
  block : Nat
  adder : Nat
  due   : Nat
  sums  : List Num × List Num
  deriving DecidableEq, Repr

/-- A running collective (R306 to R317). -/
structure Coll where
  op      : Nat
  collId  : Word32
  tree    : Bool
  log2    : Nat
  inFmt   : BitVec 4
  outFmt  : BitVec 4
  outRnd  : BitVec 2
  outOvf  : BitVec 2
  tag     : Half
  seed    : Word64
  start   : Nat
  src     : Nat
  work    : Nat
  dst     : Nat
  b       : Nat
  n       : Nat
  pos     : Nat
  /-- The members' coordinates, by position (R303, R304). -/
  members : List Coord
  steps   : List Step
  blocks  : List (Nat × Blk)
  /-- Blocks of SEND steps already sent: step and block. -/
  sent    : List (Nat × Nat)
  announced : List Nat
  /-- Departures made: port and sailing. -/
  left    : List (Nat × Nat)
  rx      : List RxBlk
  checks  : List CollChk
  /-- The blocks of its shard, once converted: block number and bytes (R316). -/
  output  : Option (List (Nat × List Byte))
  failed  : Bool
  deriving DecidableEq, Repr

/-- A collective engine (Tables 9-12 and 9-13). -/
structure ColEng where
  run      : Option Coll
  id       : Word32
  lastCode : Byte
  flags    : BitVec 5
  missed   : Word64
  half     : Word64
  adds     : Word64
  stray    : Word32
  holding  : Bool
  /-- Announcements for collectives not yet running: identifier and source. -/
  ann      : List (Word32 × Coord)
  nextChk  : Nat
  /-- Operands of failed checks (R408). -/
  retained : List CollChk
  deriving DecidableEq, Repr

def ColEng.reset : ColEng := ⟨none, 0, 0, 0, 0, 0, 0, 0, false, [], 0, []⟩

/-! ## Links -/

inductive LinkState | down | training | up | slack | held
  deriving DecidableEq, Repr

/-- A transaction to send, with its kind of Table 10-5; for one passed on, the link whose buffer it came in by; for a
block of a collective of this device, the tide time before which its sailing has it leave (R295). -/
structure OutTxn where
  kind  : Byte
  x     : Txn
  via   : Option (Port × LinkId)
  until_ : Option Nat
  deriving DecidableEq, Repr

/-- A frame not acknowledged: its sequence number, the credits it carries, its transactions (R326). -/
structure SentFrame where
  seq     : BitVec 12
  credits : List Nat
  txns    : List OutTxn
  deriving DecidableEq, Repr

/-- What a port holds that came in ahead of its turn in its class (R333). -/
inductive Early
  | txn (kind : Byte) (x : Txn)
  | time (m : TimeMsg)
  deriving DecidableEq, Repr

/-- One link: state and reason (Tables 10-11 and 10-16), frame layer (R326) and credit ledgers per
class 0 to 4 (R331). The T and K of the ledger are `ret` and `park`; `owe` is the part of T that no
frame carries yet; `txPark` the credits that this transmitter has parked (R332). `replay` holds the frames not
acknowledged. (DEDUCED, log entry 41.) -/
structure Link where
  state   : LinkState
  reason  : BitVec 4
  downAt  : Nat
  trainAt : Nat
  laneDowns : List Nat
  trainFails : Nat
  version : Nat
  txSeq   : BitVec 12
  rxSeq   : BitVec 12
  nak     : Bool
  replay  : List SentFrame
  /-- When each class was last sent (R328). -/
  sentAt  : List Nat
  /-- Frames received in the last 1 ms that held errors: wall time, whether damaged, symbols in error by lane (R345). -/
  recent  : List (Nat × Bool × List Nat)
  /-- The lane the next eye scan starts from (Table 10-9). -/
  scan    : Nat
  /-- Credits this transmitter holds (the H of the other end). -/
  held    : List Nat
  /-- As receiver: credits granted and not retired, flits in the buffer, credits returning, parked. -/
  granted : List Nat
  buffer  : List Nat
  ret     : List Nat
  owe     : List Nat
  park    : List Nat
  txPark  : List Nat
  deriving DecidableEq, Repr

def Link.reset : Link where
  state := .down
  reason := 0
  downAt := 0
  trainAt := 0
  laneDowns := []
  trainFails := 0
  version := 0
  txSeq := 0
  rxSeq := 0xFFF
  nak := false
  replay := []
  sentAt := [0, 0, 0, 0, 0]
  recent := []
  scan := 0
  held := [0, 0, 0, 0, 0]
  granted := [0, 0, 0, 0, 0]
  buffer := [0, 0, 0, 0, 0]
  ret := [0, 0, 0, 0, 0]
  owe := [0, 0, 0, 0, 0]
  park := [0, 0, 0, 0, 0]
  txPark := [0, 0, 0, 0, 0]

/-- One torus port (Tables 10-12, 10-15 to 10-18). `limits` are classes 0 to 4. -/
structure PortSt where
  la       : Link
  lb       : Link
  disA     : Bool
  disB     : Bool
  failLane : BitVec 4
  limits   : List Nat
  shadow   : List Nat
  pend     : Option (List Nat)
  fecA     : Word64
  fecB     : Word64
  badA     : Word64
  badB     : Word64
  replays  : Word64
  slackSkip : Word32
  /-- Scanned margins by lane: vertical and horizontal. -/
  eyes     : List (Nat × (Byte × Byte))
  txq      : List OutTxn
  txNum    : List Nat
  rxNum    : List Nat
  /-- Frames of a link that went down, to be sent again on the other (R332). -/
  resend   : List (List OutTxn)
  early    : List Early
  /-- Remote accesses to this device, in order, that wait for what they reach (R366, R402, R454). -/
  waiting  : List (Byte × Txn)
  /-- Sailings on the port that collective blocks left in: first and last ns, bytes (R297). -/
  sailed   : List (Nat × Nat × Nat)
  deriving DecidableEq, Repr

def PortSt.reset : PortSt where
  la := Link.reset
  lb := Link.reset
  disA := false
  disB := false
  failLane := 0
  limits := [0x010, 0x040, 0x400, 0x1F0, 0x1C0]
  shadow := [0x010, 0x040, 0x400, 0x1F0, 0x1C0]
  pend := none
  fecA := 0
  fecB := 0
  badA := 0
  badB := 0
  replays := 0
  slackSkip := 0
  eyes := []
  txq := []
  txNum := [0, 0, 0, 0, 0]
  rxNum := [0, 0, 0, 0, 0]
  resend := []
  early := []
  waiting := []
  sailed := []

/-- A remote transaction awaiting its answer (R334): the ferry channel that sent it, the bytes
asked for, and the wall time it was sent. -/
structure RTxn where
  tag  : Word32
  core : Nat
  ch   : Channel
  addr : Nat
  sent : Nat
  deriving DecidableEq, Repr

/-- The installation record as parsed from the copy in use (Table 10-10). -/
structure IRec where
  id      : Word64
  x       : Nat
  y       : Nat
  z       : Nat
  board   : Bool
  gen     : Nat
  cabling : List Byte
  digest  : List Byte
  deriving DecidableEq, Repr

/-- Position, record, routing and ports (Table 10-12). -/
structure Lnk where
  straps    : List StrapPins
  strapsOk  : Bool
  parErr    : Bool
  disagree  : Bool
  irec      : Option IRec
  irecCopy  : Bool
  conflict  : BitVec 4
  cmdRes    : BitVec 3
  irecAddr  : Word64
  /-- The address of a staged record whose stacks LNK_IREC_CMD waits for (R366). -/
  irecHeld  : Option Nat
  txnUs     : Nat
  origin    : Coord
  extX      : Nat
  extY      : Nat
  extZ      : Nat
  shOrigin  : Coord
  shX       : Nat
  shY       : Nat
  shZ       : Nat
  pend      : Option (Coord × Nat × Nat × Nat)
  routeX    : Word64
  routeY    : Word64
  routeZ    : Word32
  unroutable : Word64
  late      : Word64
  tkExpired : Word64
  ports     : Vector PortSt 6
  txns      : List RTxn
  nextTag   : Word32
  deriving DecidableEq, Repr

def Lnk.reset : Lnk where
  straps := []
  strapsOk := false
  parErr := false
  disagree := false
  irec := none
  irecCopy := false
  conflict := 0
  cmdRes := 0
  irecAddr := 0
  irecHeld := none
  txnUs := 1000
  origin := 0
  extX := 0
  extY := 0
  extZ := 0
  shOrigin := 0
  shX := 0
  shY := 0
  shZ := 0
  pend := none
  routeX := 0
  routeY := 0
  routeZ := 0
  unroutable := 0
  late := 0
  tkExpired := 0
  ports := Vector.replicate 6 PortSt.reset
  txns := []
  nextTag := 0

/-! ## HBM -/

/-- A filtered monitor: its last valid samples, newest first, and the wall time of the newest (R452). -/
structure Monitor where
  vals : List Int
  time : Nat
  deriving DecidableEq, Repr

/-- One HBM stack and its controller. `halfRate` and `quarterRate` are the access limits of Tables
13-5 and 13-4; `rowHits` are corrections of rows with their powered-on times (R367). -/
structure Stack where
  ce       : Word64
  ue       : Word64
  temp     : Byte
  mon      : Monitor
  hot      : Bool
  retrain  : Bool
  refreshes : Nat
  honoured : Nat
  halfRate : Bool
  rowHits  : List (Nat × Nat)
  scrubbed : Nat
  deriving DecidableEq, Repr

def Stack.reset : Stack := ⟨0, 0, 0, ⟨[], 0⟩, false, false, 0, 0, false, [], 0⟩

inductive PageReason | ceRow | ue
  deriving DecidableEq, Repr

/-- The HBM registers and page list (Tables 11-14 and 11-15). -/
structure Hbm where
  newPage  : Bool
  ueEvent  : Bool
  passes   : Word64
  pageSel  : Nat
  pages    : List (Nat × PageReason)
  quarterRate : Bool
  /-- The limit of R436 is in force. -/
  limited  : Bool
  /-- Lines in which the on-die ECC of their stack finds an error to correct at the next read (Table 11-3). -/
  onDie    : List Nat
  stk      : Vector Stack 12
  deriving DecidableEq, Repr

def Hbm.reset : Hbm := ⟨false, false, 0, 0, [], false, false, [], Vector.replicate 12 Stack.reset⟩

/-! ## Host interface -/

/-- An HDM decoder (R373). -/
structure Decoder where
  committed : Bool
  err       : Bool
  size      : Nat
  base      : Word64
  deriving DecidableEq, Repr

def Decoder.reset : Decoder := ⟨false, false, 0, 0⟩

/-- What a back-invalidation snoop was sent for (R375): a command to be read, a record, a remote write,
or a write of an engine that waits. -/
inductive Snoop
  | cmd (q : Nat) (seq : Nat)
  | record (op : Nat) (q : Nat) (seq : Nat) (irq : Bool) (bytes : List Byte)
  | remote (x : Txn)
  | inv
  deriving DecidableEq, Repr

/-- A DOE request in progress (R384, R475). -/
inductive Doe
  | discovery
  | cdat (handle : Nat)
  | cert
  | report (nonce : List Byte) (mask : Byte)
  deriving DecidableEq, Repr

/-- An MSI-X table entry, by the rules of PCIe (R383, Table 11-6): address, data, masked. (PRESUMED, log entry 138.) -/
structure Msix where
  addr   : Word64
  data   : Word32
  masked : Bool
  deriving DecidableEq, Repr

def Msix.reset : Msix := ⟨0, 0, true⟩

/-- Configuration space: the addresses of BAR0, BAR2 and BAR4, MSI-X Enable and Function Mask, and advanced error
reporting, its status bits by PCIe's numbers (Table 11-4, R383). (PRESUMED, log entry 138.) -/
structure Cfg where
  bars     : Vector Word64 3
  msixOn   : Bool
  msixMask : Bool
  uncStatus : Word32
  uncMask  : Word32
  uncSeverity : Word32
  corStatus : Word32
  corMask  : Word32
  deriving DecidableEq, Repr

/-- As PCIe leaves it at reset. (PRESUMED, log entry 138.) -/
def Cfg.reset : Cfg := ⟨Vector.replicate 3 0, false, false, 0, 0x00400000, 0x00462030, 0, 0x00006000⟩

/-- An access of the host to DMEM that waits for its stack (R366, R454). -/
inductive HostAccess
  | read (dpa : Nat)
  | write (dpa : Nat) (data : List Byte) (poison : Bool)
  | bar4 (off : Nat) (wr : Option (List Byte)) (len : Nat) (poison : Bool)
  | snoop (line : Nat)
  deriving DecidableEq, Repr

/-- Host interface state (Table 11-10 and BAR2). -/
structure Hrw where
  /-- The dispatcher answers BAR0 (R470). -/
  alive     : Bool
  hw        : Half
  version   : Byte
  locked    : Bool
  mode      : BitVec 2
  rate      : BitVec 3
  width     : BitVec 5
  errOff    : Word32
  errReason : Byte
  errValid  : Bool
  errMulti  : Bool
  gFofs     : Half
  gResult   : BitVec 2
  gReason   : BitVec 4
  gGroup    : Byte
  coreSel   : Gcn
  apBase    : Nat
  apSize    : Nat
  shBase    : Nat
  shSize    : Nat
  apPend    : Option (Nat × Nat)
  hdmh      : Nat
  dec0      : Decoder
  dec1      : Decoder
  msix      : List (Nat × Msix)
  msixPend  : List Nat
  cfg       : Cfg
  waiting   : List HostAccess
  snoops    : List (Nat × Snoop)
  /-- Lines whose invalidation the host has answered and that have not been written since. -/
  inval     : List Nat
  doe       : Option Doe
  events    : List LogRec
  deriving DecidableEq, Repr

/-- The host interface at reset: no version selected, every MSI-X vector masked. (PRESUMED, log entry 6.) -/
def Hrw.reset : Hrw where
  alive := false
  hw := 0
  version := 0
  locked := false
  mode := 0
  rate := 0
  width := 0
  errOff := 0
  errReason := 0
  errValid := false
  errMulti := false
  gFofs := 0
  gResult := 0
  gReason := 0
  gGroup := 0
  coreSel := 0
  apBase := 0
  apSize := 0
  shBase := 0
  shSize := 0
  apPend := none
  hdmh := 0x8FB
  dec0 := Decoder.reset
  dec1 := Decoder.reset
  msix := []
  msixPend := []
  cfg := Cfg.reset
  waiting := []
  snoops := []
  inval := []
  doe := none
  events := []

/-! ## Integrity -/

/-- A unit with a fault history (R412, R415): a core's quadrant, lane group or checker, a
collective adder, or a collective engine's checker. -/
inductive FaultUnit
  | quadrant (g : Nat) (n : Nat)
  | lanes (g : Nat) (n : Nat)
  | checker (g : Nat)
  | adder (e : Nat) (a : Nat)
  | collChecker (e : Nat)
  deriving DecidableEq, Repr

/-- An arbitration waiting or in progress (R410). -/
structure Arb where
  who     : Checker
  chk     : Nat
  unit    : FaultUnit
  witness : Option Nat
  /-- Replay outcome: R and P differ, P passed its residue. -/
  replay  : Option (Bool × Bool)
  deriving DecidableEq, Repr

inductive ArbOutcome | checker | transient | persistent | unresolved | interrupted
  deriving DecidableEq, Repr

/-- A patrol kernel on a pair of cores (R424): lower and upper core, whether at reduced margin, and its
work: the rate class and mode of its check tiles and the seed of its operands. -/
structure PatrolRun where
  lower  : Nat
  upper  : Nat
  margin : Bool
  cls    : Nat
  quad   : Bool
  seed   : Word64
  deriving DecidableEq, Repr

/-- A core's patrol account (R423): what earlier periods left to catch up with, what it has run in this one, and the wall
time at which its last patrol kernel began or ended. -/
structure PatrolAcct where
  debt : Nat
  ran  : Nat
  last : Option Nat
  deriving DecidableEq, Repr

def PatrolAcct.none_ : PatrolAcct := ⟨0, 0, none⟩

/-- INT registers, suspects, fences and what is in progress (R408 to R427, Tables 12-7 to 12-10). -/
structure Integ where
  j3        : Bool
  margin    : Bool
  ppm       : Half
  arbLast   : Word64
  nChecker  : Word64
  nTransient : Word64
  nPersistent : Word64
  nUnresolved : Word64
  nLate     : Word64
  nJ3       : Word64
  patrolTiles : Word64
  patrolMismatch : Word64
  suspects  : List Nat
  fenced    : List Nat
  adders    : BitVec 8
  arbs      : List Arb
  /-- Clearances whose third core has been chosen: suspect and third core (R419). -/
  clearing  : List (Nat × Nat)
  patrols   : List PatrolRun
  /-- How many patrol kernels have been launched: the place in the rotation of R424. -/
  patrolRot : Nat
  /-- By core: the patrol it has still to catch up with and that of the present period, in ns, and the wall time at which
  its last patrol kernel began or ended (R423). -/
  patrolled : List (Nat × PatrolAcct)
  /-- The period of 100 s of tide time of those accounts. -/
  patrolPer : Nat
  /-- What a core that has run no patrol yet has to catch up with, in ns (R423). -/
  patrolBase : Nat
  deriving DecidableEq, Repr

def Integ.reset : Integ where
  j3 := false
  margin := true
  ppm := 0x03E8
  arbLast := 0
  nChecker := 0
  nTransient := 0
  nPersistent := 0
  nUnresolved := 0
  nLate := 0
  nJ3 := 0
  patrolTiles := 0
  patrolMismatch := 0
  suspects := []
  fenced := []
  adders := 0
  arbs := []
  clearing := []
  patrols := []
  patrolRot := 0
  patrolled := []
  patrolPer := 0
  patrolBase := 0

/-! ## Power and clocks -/

/-- What the input stage is doing (R429, R430, R512). (PRESUMED, log entry 7.) -/
inductive InputStage | off | operating | overvoltage | trip
  deriving DecidableEq, Repr

/-- Power of one compute die. -/
structure DiePwr where
  mhz      : Nat
  maxMhz   : Nat
  /-- CCLK cycles since device reset and the remainder of a cycle, in thousandths (SEQ_CYCLES). -/
  cycles   : Nat
  phase    : Nat
  hold     : Nat
  idle     : Nat
  wearMs   : Word64
  wearSpent : Bool
  /-- What the die has used of its holding in the last ms, newest first: from when, and how many credits (R442). -/
  uses     : List (Nat × Nat)
  /-- Wall time at which the die last ceased to be active (R437). -/
  ceased   : Option Nat
  /-- The die has read at least 100 °C, and not at most 98 °C since (Table 13-5). -/
  warm     : Bool
  /-- The rail's voltage in mV (R456, R457). -/
  rail     : Nat
  droopHold : Option Nat
  canaryHold : Option Nat
  /-- The pilot is being reloaded: clock held and no launches (Table 14-2). -/
  pilotDown : Bool
  fwFaultAt : Option Nat
  /-- Self-test failed for the whole die: it stays at 600 MHz (Table 14-6). -/
  bad      : Bool
  canaries : List Monitor
  /-- Steps by which the thermal response has lowered the clock and not yet raised it (Table 13-5). -/
  therm    : Nat
  /-- Powered-on time of the last Vmin measurement (R456). -/
  vmin     : Option Nat
  deriving DecidableEq, Repr

def DiePwr.reset : DiePwr where
  mhz := 600
  maxMhz := 2700
  cycles := 0
  phase := 0
  hold := 0
  idle := 0
  wearMs := 0
  wearSpent := false
  uses := []
  ceased := none
  warm := false
  rail := 0
  droopHold := none
  canaryHold := none
  pilotDown := false
  fwFaultAt := none
  bad := false
  canaries := []
  therm := 0
  vmin := none

/-- Wall times since which the input has been, without a break: above 62 V, below 46 V, at 105 A or more, and within
46 V to 58 V (R429, R430, R446). -/
structure InputSince where
  high  : Option Nat
  low   : Option Nat
  limit : Option Nat
  good  : Option Nat
  deriving DecidableEq, Repr

/-- The lockkeeper's state (R429 to R456, Tables 13-8 to 13-12). Causes of an emergency are held
with the wall time since which every cause has been clear. -/
structure Pwr where
  stage    : InputStage
  mv       : Nat
  ca       : Nat
  since    : InputSince
  /-- Wall time of the last record of a high input (R429). -/
  highLog  : Option Nat
  /-- V_IN has been sampled below 42 V and the lockout has not come (R429, R493). -/
  failing  : Bool
  /-- Samples of P in mW, newest first, one for each 1 µs. -/
  samples  : List Nat
  peak10   : Nat
  burstNj  : Nat
  burstFull : Bool
  hotUs    : Nat
  /-- The windows on which the clocks have been lowered since no die was last below its ceiling: length in µs, limit in
  mW (R433). -/
  binding  : List (Nat × Nat)
  cap      : Nat
  clamped  : Bool
  capMiss  : Bool
  ov       : Bool
  shed     : Bool
  uv       : Bool
  ilim     : Bool
  therm    : Bool
  emerg    : Bool
  clearAt  : Nat
  coolAt   : Option Nat
  emergCnt : Word64
  requests : List (Nat × Nat)
  transit  : Nat
  other    : Nat
  inval    : Word32
  stale    : Word32
  droops   : Vector Word64 10
  temps    : Vector Int 10
  ioDroop  : Vector (Option Nat) 2
  ioHalf   : Vector Bool 2
  sensors  : List (Nat × List Monitor)
  /-- The process monitors, by die (Table 13-6). -/
  process  : List (Nat × List Monitor)
  dies     : Vector DiePwr 8
  steps    : Word64
  inControl : Bool
  deriving DecidableEq, Repr

def Pwr.reset : Pwr where
  stage := .off
  mv := 0
  ca := 0
  since := ⟨none, none, none, none⟩
  highLog := none
  failing := false
  samples := []
  peak10 := 0
  burstNj := 0
  burstFull := false
  hotUs := 0
  binding := []
  cap := 0
  clamped := false
  capMiss := false
  ov := false
  shed := false
  uv := false
  ilim := false
  therm := false
  emerg := false
  clearAt := 0
  coolAt := none
  emergCnt := 0
  requests := []
  transit := 0
  other := 0
  inval := 0
  stale := 0
  droops := Vector.replicate 10 0
  temps := Vector.replicate 10 0
  ioDroop := Vector.replicate 2 none
  ioHalf := Vector.replicate 2 false
  sensors := []
  process := []
  dies := Vector.replicate 8 DiePwr.reset
  steps := 0
  inControl := false

/-! ## Firmware and security -/

inductive BootState | booting | running | recovery | halted | fatal
  deriving DecidableEq, Repr

/-- One-time-programmable memory (R465, R471, R473). -/
structure Otp where
  keys    : List (List Byte)
  revoked : List Bool
  svn     : Nat
  idSeed  : List Byte
  sigs    : List Word64
  deriving DecidableEq, Repr

/-- A running image (SEC_IMAGEk). -/
structure Image where
  version : Word32
  svn     : Byte
  slot    : Bool
  measure : List Byte
  deriving DecidableEq, Repr

def Image.none_ : Image := ⟨0, 0, false, []⟩

/-- An activation's stage (R479 to R482). -/
inductive Act
  | idle
  | deferred (since : Nat) (clear : Option Nat)
  | pausing
  deriving DecidableEq, Repr

/-- What R466 clears: the key registers of the Keccak unit, the fuse shadow registers of the identity seed, and the
harbour master's working memory. -/
structure Secrets where
  keccak : List Byte
  seed   : List Byte
  work   : List Byte
  deriving DecidableEq, Repr

def Secrets.zero : Secrets := ⟨[], [], []⟩

/-- SEC registers, flash and what is in progress (R459 to R485, Tables 14-10 to 14-12). -/
structure Sec where
  flash    : List Host.Cell
  otp      : Otp
  state    : BootState
  step     : Nat
  failCode : Byte
  resetPend : Bool
  fallback : Bool
  bootSlot : Bool
  slot     : Bool
  recovery : Bool
  images   : Vector Image 4
  stageAddr : Word64
  stageLen : Word32
  /-- A staging in progress: address and length captured at START (R477). -/
  staging  : Option (Nat × Nat)
  /-- The bundle's verification waits for the stacks that hold it (R366). -/
  startHeld : Bool
  stageRes : Byte
  stageImg : BitVec 4
  act      : Act
  actRes   : Byte
  /-- Wall time of the last switch, and the boot slot before it (R482). -/
  switched : Option Nat
  prevSlot : Bool
  prevImages : Vector Image 2
  rolled   : Bool
  activations : Word32
  scanLock : Bool
  scanOn   : Bool
  noIdentity : Bool
  selfTest : List Byte
  secrets  : Secrets
  /-- The private memories of the firmware processors as loaded, by the processor's number (Table 14-1). -/
  procMem  : List (Nat × List Byte)
  resetReq : Option Nat
  deriving DecidableEq, Repr

def Sec.reset : Sec where
  flash := []
  otp := ⟨[], [], 0, [], []⟩
  state := .booting
  step := 0
  failCode := 0
  resetPend := false
  fallback := false
  bootSlot := false
  slot := false
  recovery := false
  images := Vector.replicate 4 Image.none_
  stageAddr := 0
  stageLen := 0
  staging := none
  startHeld := false
  stageRes := 0
  stageImg := 0
  act := .idle
  actRes := 0
  switched := none
  prevSlot := false
  prevImages := Vector.replicate 2 Image.none_
  rolled := false
  activations := 0
  scanLock := false
  scanOn := false
  noIdentity := false
  selfTest := []
  secrets := .zero
  procMem := []
  resetReq := none

/-! ## Logbook -/

/-- The baselines of the sealed section, each kept when first measured (R495, Table 15-2): the first self-test
result vector; by die the first process monitor readings; by port and lane the first margins; by compute die the first
Vmin margin. -/
structure Baselines where
  bist    : Option (List Byte)
  process : List (Nat × List Int)
  eyes    : List (Nat × Byte × Byte)
  vmin    : List (Nat × Nat)
  deriving DecidableEq, Repr

/-- The manufacturing record (Table 15-2): serial number, part number, date, package stepping, digest of the fuse map. -/
structure Manufacture where
  serial   : List Byte
  part     : List Byte
  date     : List Byte
  stepping : List Byte
  fuses    : List Byte
  deriving DecidableEq, Repr

/-- FX1-M576-54, and nothing of what the spec does not give. (DESIGN CHOICE, log entry 154.) -/
def Manufacture.reset : Manufacture :=
  ⟨[], [0x46, 0x58, 0x31, 0x2D, 0x4D, 0x35, 0x37, 0x36, 0x2D, 0x35, 0x34], [], [], []⟩

/-- What a journaled write puts into the sealed or the counters section (R488, Tables 15-2 and 15-3): bytes at a logbook
address, or what a part holds whose inner layout the spec does not give; the scalars are powered-on time, device resets, power
cycles and the fence count. -/
inductive JWrite
  | bytes (a : Nat) (l : List Byte)
  | baselines (b : Baselines)
  | scalars (pot : Nat) (resets : Word32) (powerCycles fences : Nat)
  | ledgers (l : LedgerState)
  | history (l : List (FaultUnit × Nat))
  deriving DecidableEq, Repr

/-- A journal entry (R488): the write's target and data, with a CRC-32 over them. -/
structure JEntry where
  write : JWrite
  crc   : Word32
  deriving DecidableEq, Repr

/-- The logbook controller (R486 to R502, Tables 15-11 and 15-12). `queue` holds records accepted
and not yet written, with their SEQ and the 60 bytes before the CRC; `waiting` records whose source waits for room;
`journal` an entry committed, its target written, its done word not. -/
structure LogSt where
  mram     : List Host.Cell
  queue    : List (Nat × LogRec × List Byte)
  waiting  : List LogRec
  seqNext  : Nat
  pot      : Nat
  resets   : Word32
  /-- Power cycles, a lifetime scalar (Table 15-3). -/
  powerCycles : Nat
  baselines : Baselines
  dropped  : Word32
  winBase  : BitVec 6
  alert    : Bool
  dropping : Bool
  replayed : Bool
  sealFull : Bool
  lastEnd  : BitVec 4
  journal  : Option JEntry
  mfg      : Manufacture
  /-- The second of tide time of the last checkpoint (R492). -/
  ckpt     : Option Nat
  /-- Health fields that a checkpoint has written, by their offset: their lowest or highest value ever is measured (R499). -/
  measured : List Nat
  /-- Records dropped in the present second, by type (R490). -/
  drops    : List (Half × Nat)
  /-- TYPE, SRCDIE and UNIT of which a first fault has been kept (R496). -/
  firsts   : List (Half × Byte × Half)
  /-- Health counts not yet checkpointed: byte offset in the counters section, width, value (R492). -/
  health   : List (Nat × Nat × Nat)
  /-- The last checked state of each ledger, as the logbook holds it (R277, R492). -/
  ledgers  : LedgerState
  /-- Powered-on times of confirmed faults, by unit (R412, R416, Table 15-3). -/
  history  : List (FaultUnit × Nat)
  fences   : Nat
  accepting : Bool
  i3cStatic : Option (BitVec 7)
  i3cDyn   : Option (BitVec 7)
  i3cStatus : Bool
  i3cPtr   : Nat
  slotSamples : List (BitVec 3)
  deriving DecidableEq, Repr

def LogSt.reset : LogSt where
  mram := []
  queue := []
  waiting := []
  seqNext := 1
  pot := 0
  resets := 0
  powerCycles := 0
  baselines := ⟨none, [], [], []⟩
  dropped := 0
  winBase := 0
  alert := false
  dropping := false
  replayed := false
  sealFull := false
  lastEnd := 0
  journal := none
  mfg := .reset
  ckpt := none
  measured := []
  drops := []
  firsts := []
  health := []
  ledgers := .reset
  history := []
  fences := 0
  accepting := false
  i3cStatic := none
  i3cDyn := none
  i3cStatus := false
  i3cPtr := 0
  slotSamples := []

/-! ## Module pins and the outbox -/

/-- Sideband and reference pins (Tables 16-2 and 16-6). (DESIGN CHOICE, log entry 113.) -/
structure Pins where
  perstLow  : Bool
  perstSeen : Bool
  inReset   : Bool
  shedLow   : Bool
  fault     : Bool
  thermTrip : Bool
  linkRef   : Bool
  cxlRef    : Bool
  ttRef     : Bool
  deriving DecidableEq, Repr

def Pins.reset : Pins := ⟨true, false, false, false, false, false, true, true, true⟩

/-- What the device sends out, in order. (DESIGN CHOICE, log entry 4.) -/
inductive Out
  /-- A CXL.io write of HOST bytes at a host bus address, poisoned or not (R213, R379). -/
  | hostWrite (bus : Nat) (bytes : List Byte) (poison : Bool)
  /-- A CXL.io read request at a host bus address (R379, R236). -/
  | hostRead (bus : Nat) (len : Nat)
  | msix (vec : Nat) (addr : Word64) (data : Word32)
  /-- A frame sent on a link: its 1,280 data bytes, and the transactions whose flits they hold (R325). -/
  | frame (p : Port) (l : LinkId) (data : List Byte) (txns : List OutTxn)
  /-- The link message of training: supported versions, RECORD_ID, coordinate, slack settings, credit limits and flits in
  the buffer, by class; of the port and link it is sent on (Table 10-8, R342, R343). -/
  | linkMsg (p : Port) (l : LinkId) (vers : Half) (recordId : Word64) (coord : Coord) (slack : Slack) (limits buffered : List Nat)
  /-- A back-invalidation snoop: BISnpInv or BISnpData (R375). -/
  | snoop (line : Nat) (data : Bool)
  | i3cNack
  deriving DecidableEq, Repr

/-- The last answer to a reader: what was read, whether it came with poison, and the DevLoad of a CXL.mem answer (Table
11-4). -/
structure Reply where
  value   : Word64
  bytes   : List Byte
  poison  : Bool
  devLoad : BitVec 2
  deriving DecidableEq, Repr

def Reply.reset : Reply := ⟨0, [], false, 0⟩

/-! ## The whole state -/

/-- The FX1 (Table 1-1). `cores`, and the lists inside the blocks keyed by a number, hold the entries
that differ from their reset value, in rising order of the key. -/
structure State where
  pending : List Instr
  cores   : List (Nat × Core)
  quays   : Vector Store 8
  dmem    : Store
  /-- Values that a core's read may still return, in the order of the writes over them (R224, R237). -/
  old     : List OldGran
  sch     : Sch
  tt      : TT
  col     : Vector ColEng 2
  lnk     : Lnk
  hbm     : Hbm
  hrw     : Hrw
  int     : Integ
  pwr     : Pwr
  sec     : Sec
  log     : LogSt
  pins    : Pins
  out     : List Out
  reply   : Reply
  /-- The cores are released and launches may start (Table 14-5, step 9). -/
  released : Bool
  /-- Wall time in ns since the state of reset: the model's own clock for figures in wall time (R4). -/
  wall    : Nat
  /-- The model's own: how many free values have been drawn. -/
  freeCtr : Nat
  deriving DecidableEq, Repr

/-- The machine right after reset: power-up before the input is qualified, PERST# low. (DESIGN CHOICE, log entry 1.) -/
def State.reset : State where
  pending := []
  cores := []
  quays := Vector.replicate 8 Store.empty
  dmem := Store.empty
  old := []
  sch := Sch.reset
  tt := TT.reset
  col := Vector.replicate 2 ColEng.reset
  lnk := Lnk.reset
  hbm := Hbm.reset
  hrw := Hrw.reset
  int := Integ.reset
  pwr := Pwr.reset
  sec := Sec.reset
  log := LogSt.reset
  pins := Pins.reset
  out := []
  reply := Reply.reset
  released := false
  wall := 0
  freeCtr := 0

end Sys2Proof.Machine
end

