-- ==== Sys2Proof/Machine/Ops.lean ====
section
/-!
DEFINITION. Named operations over the state: sparse maps, byte stores with poison and errors,
registers, faults, logbook acceptance, the outbox.
-/

namespace Sys2Proof.Machine

/-- What a command's meaning answers. -/
abbrev Res := Host.Outcome State Fault Refusal

/-! ## Sparse maps in canonical form -/

/-- The value at a key; an unlisted key holds `d`. -/
def smGet {α : Type} (d : α) : List (Nat × α) → Nat → α
  | [], _ => d
  | (i, v) :: t, k => if i = k then v else smGet d t k

/-- Insert a key before the first larger one. -/
def smIns {α : Type} (k : Nat) (v : α) : List (Nat × α) → List (Nat × α)
  | [] => [(k, v)]
  | (i, w) :: t => if k < i then (k, v) :: (i, w) :: t else (i, w) :: smIns k v t

/-- Take a key out. -/
def smDel {α : Type} (k : Nat) : List (Nat × α) → List (Nat × α)
  | [] => []
  | (i, w) :: t => if i = k then smDel k t else (i, w) :: smDel k t

/-- Store a value at a key; storing `d` removes the entry. -/
def smPut {α : Type} [DecidableEq α] (d : α) (m : List (Nat × α)) (k : Nat) (v : α) : List (Nat × α) :=
  if v = d then smDel k m else smIns k v (smDel k m)

/-- The canonical form: keys strictly rising, no entry at the default. -/
def smWf {α : Type} [DecidableEq α] (d : α) : List (Nat × α) → Bool
  | [] => true
  | [(_, v)] => !decide (v = d)
  | (i, v) :: (j, w) :: t => !decide (v = d) && decide (i < j) && smWf d ((j, w) :: t)

/-! ## Sets of numbers as rising lists -/

def setAdd (x : Nat) : List Nat → List Nat
  | [] => [x]
  | y :: t => if x < y then x :: y :: t else if x = y then y :: t else y :: setAdd x t

def setDel (x : Nat) (l : List Nat) : List Nat := l.filter (fun y => y ≠ x)

def setUnion (a b : List Nat) : List Nat := a.foldl (fun acc x => setAdd x acc) b

/-! ## Bytes -/

/-- Byte at an address; an unlisted byte reads 0 (R471, Table 14-5 step 6). -/
def byteAt (m : List Host.Cell) (a : Nat) : Byte := smGet 0 m a

def putByte (m : List Host.Cell) (a : Nat) (v : Byte) : List Host.Cell := smPut (0 : Byte) m a v

/-- n bytes from an address. -/
def bytesAt (m : List Host.Cell) (a : Nat) : Nat → List Byte
  | 0 => []
  | n + 1 => byteAt m a :: bytesAt m (a + 1) n

def putBytes (m : List Host.Cell) (a : Nat) : List Byte → List Host.Cell
  | [] => m
  | b :: t => putBytes (putByte m a b) (a + 1) t

/-- Little-endian value of a byte list (R7). -/
def leNat : List Byte → Nat
  | [] => 0
  | b :: t => b.toNat + 256 * leNat t

/-- The n little-endian bytes of a value (R7). -/
def leBytes : Nat → Nat → List Byte
  | 0, _ => []
  | n + 1, v => BitVec.ofNat 8 v :: leBytes n (v / 256)

/-- Little-endian field of a byte list. -/
def fieldAt (l : List Byte) (off n : Nat) : Nat := leNat ((l.drop off).take n)

/-- CRC-32 of a byte list (R325, R488, R497). PRESUMED: the polynomial of IEEE 802.3, reflected,
initial value and final complement of all ones (log entry 9). -/
def crcByte (crc : Word32) (b : Byte) : Word32 :=
  (List.range 8).foldl
    (fun c _ => if c.getLsbD 0 then (c >>> 1) ^^^ 0xEDB88320 else c >>> 1) (crc ^^^ b.setWidth 32)

def crc32 (l : List Byte) : Word32 := ~~~ (l.foldl crcByte 0xFFFFFFFF)

/-! ## Parts of the state by number -/

def State.core (s : State) (g : Nat) : Core := smGet Core.reset s.cores g

def State.setCore (s : State) (g : Nat) (c : Core) : State :=
  { s with cores := smPut Core.reset s.cores g c }

def State.queue (s : State) (n : Nat) : Queue := smGet (Queue.reset n) s.sch.queues n

def State.setQueue (s : State) (n : Nat) (q : Queue) : State :=
  { s with sch := { s.sch with queues := smPut (Queue.reset n) s.sch.queues n q } }

/-- The compute die of a core (R12). -/
def dieOf (g : Nat) : Fin 8 := ⟨g / 512 % 8, Nat.mod_lt _ (by decide)⟩

def State.die (s : State) (d : Fin 8) : DiePwr := s.pwr.dies[d]

def State.setDie (s : State) (d : Fin 8) (x : DiePwr) : State :=
  { s with pwr := { s.pwr with dies := s.pwr.dies.set d x } }

/-! ## The price of activity (R137, R439, R441) -/

/-- Rows enabled: in a ramp-down those still to be disabled, in a ramp-up those enabled so far (R136, R137). -/
def Mat.enabled (m : Mat) : Nat := if m.rampDown then m.rampLeft else m.rows - m.rampLeft

/-- The price of a core's activity at a CCLK: its array while it is out of idle, its vector engine while it runs
(R441). -/
def Core.price (c : Core) (mhz : Nat) : Nat :=
  (if 0 < c.mat.rows + c.mat.rampLeft then Config.arrayPrice mhz else 0) + (if c.vec.run.isEmpty then 0 else Config.vectorPrice mhz)

/-- The price of a die's activity at a CCLK (R441). (DESIGN CHOICE, log entry 90.) -/
def State.activity (s : State) (d : Fin 8) (mhz : Nat) : Nat :=
  s.cores.foldl (fun n x => if dieOf x.1 = d then n + x.2.price mhz else n) 0

/-- What the pilot of a die holds covers its idle share, the die's activity at a CCLK and more beside (R441). -/
def State.priced (s : State) (d : Fin 8) (mhz more : Nat) : Bool :=
  (s.die d).idle + s.activity d mhz + more ≤ (s.die d).hold

/-- Every core of the die is fenced. -/
def State.dieFenced (s : State) (n : Fin 8) : Bool := (List.range 512).all (fun i => s.int.fenced.contains (n.val * 512 + i))

/-- A die is active while it holds more than its idle share (R440). -/
def DiePwr.active (d : DiePwr) : Bool := d.idle < d.hold

/-- Credits come back, and the idle share stays; a die that holds no more than it is active no longer. -/
def DiePwr.release (d : DiePwr) (k now : Nat) : DiePwr :=
  let h := d.hold - min k (d.hold - d.idle)
  { d with hold := h, ceased := if d.active && h ≤ d.idle then some now else d.ceased }

/-- What is left of a history, newest first, that says since when each value has stood: what stood after a time. -/
def usesSince (t : Nat) : List (Nat × Nat) → List (Nat × Nat)
  | [] => []
  | x :: r => if x.1 ≤ t then [x] else x :: usesSince t r

/-- The die uses n of its credits beyond the idle share from now on; what stood more than 1 ms ago is forgotten (R442). -/
def DiePwr.noteUse (d : DiePwr) (n now : Nat) : DiePwr :=
  if (d.uses.head?.map Prod.snd).getD 0 = n then { d with uses := usesSince (now - 1000000) d.uses }
  else { d with uses := (now, n) :: usesSince (now - 1000000) d.uses }

/-- The most that the die has used in the last 1 ms. -/
def DiePwr.used (d : DiePwr) (now : Nat) : Nat :=
  ((usesSince (now - 1000000) d.uses).map Prod.snd).foldl max 0

def State.stack (s : State) (n : Fin 12) : Stack := s.hbm.stk[n]

def State.setStack (s : State) (n : Fin 12) (x : Stack) : State :=
  { s with hbm := { s.hbm with stk := s.hbm.stk.set n x } }

def portNum : Port → Fin 6
  | .xp => 0 | .xn => 1 | .yp => 2 | .yn => 3 | .zp => 4 | .zn => 5

def portOf : Nat → Option Port
  | 0 => some .xp | 1 => some .xn | 2 => some .yp | 3 => some .yn | 4 => some .zp | 5 => some .zn
  | _ => none

def State.port (s : State) (p : Port) : PortSt := s.lnk.ports[portNum p]

def State.setPort (s : State) (p : Port) (x : PortSt) : State :=
  { s with lnk := { s.lnk with ports := s.lnk.ports.set (portNum p) x } }

def State.eng (s : State) (e : Fin 2) : ColEng := s.col[e]

def State.setEng (s : State) (e : Fin 2) (x : ColEng) : State := { s with col := s.col.set e x }

/-- The value of a ticket (R263). -/
def State.ticket (s : State) (t : Nat) : Word32 := smGet 0 s.sch.tickets t

/-- Add an increment to a ticket, modulo 2^32, and to the sum its ledger keeps (R263, R276). -/
def State.addTicket (s : State) (t : Nat) (v : Word32) : State :=
  { s with sch := { s.sch with
      tickets := smPut 0 s.sch.tickets t (s.ticket t + v)
      ticketSum := smPut 0 s.sch.ticketSum t (smGet 0 s.sch.ticketSum t + v) } }

def State.emit (s : State) (o : Out) : State := { s with out := s.out ++ [o] }

def State.answer (s : State) (v : Nat) (bytes : List Byte) (poison : Bool) : State :=
  { s with reply := ⟨BitVec.ofNat 64 v, bytes, poison, 0⟩ }

/-! ## The logbook's front end -/

/-- Bytes 0 to 59 of an event record as accepted now (Table 15-4). -/
def recordBytes (s : State) (seq : Nat) (r : LogRec) : List Byte :=
  leBytes 8 seq ++ leBytes 8 (if s.tt.runs then s.tt.now else 0) ++ leBytes 4 s.log.pot ++
  leBytes 2 s.log.resets.toNat ++ leBytes 2 r.type.toNat ++ [r.die, r.sev.setWidth 8] ++
  leBytes 2 r.unit.toNat ++ (r.payload ++ List.replicate 32 0).take 32

/-- Count a dropped record by its type. -/
def dropCount (t : Half) : List (Half × Nat) → List (Half × Nat)
  | [] => [(t, 1)]
  | (u, n) :: l => if u = t then (u, n + 1) :: l else (u, n) :: dropCount t l

/-- Counters that hold at their largest value. -/
def satInc {w : Nat} (x : BitVec w) : BitVec w := if x = BitVec.allOnes w then x else x + 1

/-- Accept a record: it takes the next SEQ (R489). -/
def State.takeRec (s : State) (r : LogRec) : State :=
  { s with log := { s.log with
      queue := s.log.queue ++ [(s.log.seqNext, r, recordBytes s s.log.seqNext r)]
      seqNext := s.log.seqNext + 1
      dropping := if 3072 < s.log.queue.length then s.log.dropping else false } }

/-- A source offers a record: an INFO record is dropped and counted while the queue of 4,096 is more than
three-quarters full; one above INFO waits for room (R490). (DEDUCED, log entry 106.) -/
def State.logRec (s : State) (r : LogRec) : State :=
  if !s.log.accepting then s
  else if r.sev = 0 ∧ 3072 < s.log.queue.length then
    { s with log := { s.log with
        dropped := satInc s.log.dropped, dropping := true, drops := dropCount r.type s.log.drops } }
  else if 4096 ≤ s.log.queue.length then { s with log := { s.log with waiting := s.log.waiting ++ [r] } }
  else s.takeRec r

/-- Two's complement value of the low n bits. -/
def toSigned (v n : Nat) : Int := if v % 2 ^ n < 2 ^ (n - 1) then (v % 2 ^ n : Nat) else (v % 2 ^ n : Nat) - (2 ^ n : Nat)

/-- The low n bits of an integer. -/
def ofSigned (v : Int) (n : Nat) : Nat := (v % (2 ^ n : Nat)).toNat

/-! ## The journal (R488) -/

/-- A unit with a fault history, as a number. -/
def FaultUnit.code : FaultUnit → Nat
  | .quadrant g n => 64 * g + n
  | .lanes g n => 64 * g + 8 + n
  | .checker g => 64 * g + 16
  | .adder e a => 0x100000 + 8 * e + a
  | .collChecker e => 0x100000 + 8 * e + 4

/-- The baselines as numbers. -/
def Baselines.flat (b : Baselines) : List Nat :=
  (b.bist.getD []).map (·.toNat) ++ b.process.flatMap (fun x => x.1 :: x.2.map (fun v => ofSigned v 32)) ++
    b.eyes.flatMap (fun x => [x.1, x.2.1.toNat, x.2.2.toNat]) ++ b.vmin.flatMap (fun x => [x.1, x.2])

/-- The ledgers' states as numbers. -/
def LedgerState.flat (l : LedgerState) : List Nat :=
  l.tickets.flatMap (fun x => [x.1, x.2.toNat]) ++ l.sums.flatMap (fun x => [x.1, x.2.toNat]) ++
    l.signals.flatMap (fun x =>
      [x.id, x.declared, x.applied, x.withdrawn, x.pending, x.recorded, x.defApplied, x.defDropped]) ++ l.records.flatMap (fun x => [x.1, x.2.1, x.2.2.1, x.2.2.2]) ++
    l.links.flatMap (fun x => x.1 :: x.2.granted ++ x.2.held ++ x.2.buffer ++ x.2.ret ++ x.2.park) ++ l.parts ++ l.holding.flatMap (fun x => [x.1, x.2])

/-- The manufacturing record as numbers. -/
def Manufacture.flat (m : Manufacture) : List Nat :=
  [m.serial, m.part, m.date, m.stepping, m.fuses].flatMap (fun l => l.length :: l.map (·.toNat))

/-- The last three confirmed faults of each unit (Table 15-3). -/
def lastThree (l : List (FaultUnit × Nat)) : List (FaultUnit × List Nat) :=
  ((l.map Prod.fst).dedup).map (fun u =>
    let h := l.filter (fun x => x.1 = u)
    (u, (h.drop (h.length - 3)).map Prod.snd))

/-- The logbook address that a journaled write targets (Table 15-3). -/
def JWrite.target : JWrite → Nat
  | .bytes a _ => a
  | .baselines _ => 0x0101000
  | .scalars _ _ _ _ => 0x0201000
  | .ledgers _ => 0x0238000
  | .history _ => 0x0240000

/-- The data of a journaled write: free for a part whose inner layout the spec does not give. (DESIGN CHOICE, log entry 109.) -/
def JWrite.data (w : JWrite) : List Byte :=
  let free (n : List Nat) : List Byte := (List.range 256).map (fun i => Config.mramByte n (w.target + i))
  match w with
  | .bytes _ l => l
  | .baselines b => free b.flat
  | .scalars a b c d => free [a, b.toNat, c, d]
  | .ledgers l => free l.flat
  | .history l => free ((lastThree l).flatMap (fun x => x.1.code :: x.2))

/-- The CRC-32 of a journaled write's target and data. -/
def JWrite.crc (w : JWrite) : Word32 := crc32 (leBytes 4 w.target ++ w.data)

/-- A journal entry for a write. -/
def JEntry.make (w : JWrite) : JEntry := ⟨w, w.crc⟩

/-- The entry's CRC is right. -/
def JEntry.valid (e : JEntry) : Bool := e.crc = e.write.crc

def JEntry.flat (e : JEntry) : List Nat := e.write.target :: e.crc.toNat :: e.write.data.map (·.toNat)

/-- A journaled write reaches its target. -/
def LogSt.put (l : LogSt) : JWrite → LogSt
  | .bytes a d => { l with mram := putBytes l.mram a d }
  | .baselines b => { l with baselines := b }
  | .scalars p r c f => { l with pot := p, resets := r, powerCycles := c, fences := f }
  | .ledgers x => { l with ledgers := x }
  | .history h => { l with history := h }

/-- A write to the sealed or counters section: the journal entry, its commit word, the target (R488). The done word
follows before the next such write, at the latest when 1 ns has passed. (DESIGN CHOICE, log entry 109.) -/
def LogSt.jwrite (l : LogSt) (w : JWrite) : LogSt := { l.put w with journal := some (JEntry.make w) }

/-- A journaled write of bytes at a logbook address. -/
def LogSt.jput (l : LogSt) (a : Nat) (b : List Byte) : LogSt := l.jwrite (.bytes a b)

/-- A journaled write of the lifetime scalars (Table 15-3). -/
def LogSt.scalars (l : LogSt) (pot : Nat) (resets : Word32) (cycles fences : Nat) : LogSt :=
  l.jwrite (.scalars pot resets cycles fences)

/-- The done word is written. -/
def LogSt.done (l : LogSt) : LogSt := { l with journal := none }

/-- The offset of die d's health entry in the logbook (Table 15-3). -/
def dieHealth (d : Nat) : Nat := 0x0200000 + 256 * d

/-- The offset of stack n's health entry. -/
def stackHealth (n : Nat) : Nat := 0x0200A00 + 64 * n

/-- The offset of port p's health entry. -/
def portHealth (p : Nat) : Nat := 0x0200D00 + 128 * p

def healthFind (off : Nat) : List (Nat × Nat × Nat) → Option Nat
  | [] => none
  | (o, _, v) :: t => if o = off then some v else healthFind off t

/-- A health count as it stands, checkpointed or not (R492, R499). -/
def healthVal (s : State) (off w : Nat) : Nat :=
  (healthFind off s.log.health).getD (leNat (bytesAt s.log.mram off w))

def State.healthSet (s : State) (off w v : Nat) : State :=
  { s with log := { s.log with
      health := (off, w, v % 2 ^ (8 * w)) :: s.log.health.filter (fun x => x.1 ≠ off) } }

/-- A field of a lowest or highest value ever has been measured, and what it holds has not been lost in a reset (R499). -/
def State.healthMeasured (s : State) (off : Nat) : Bool :=
  s.log.measured.contains off || (healthFind off s.log.health).isSome

/-- A field that keeps the lowest value ever takes one more (R499). -/
def State.healthLow (s : State) (off w v : Nat) : State :=
  s.healthSet off w (if s.healthMeasured off then min v (healthVal s off w) else v)

def State.healthInc (s : State) (off w : Nat) : State := s.healthSet off w (healthVal s off w + 1)

/-! ## Places in memory -/

def State.store (s : State) : Loc → Store
  | .lsp g => (s.core g).lsp
  | .quay d => s.quays[d]
  | .dmem => s.dmem

def State.setStore (s : State) (l : Loc) (st : Store) : State :=
  match l with
  | .lsp g => s.setCore g { s.core g with lsp := st }
  | .quay d => { s with quays := s.quays.set d st }
  | .dmem => { s with dmem := st }

/-- The read of one byte of a place. (DESIGN CHOICE, log entry 26.) -/
def State.readByte (s : State) (l : Loc) (a : Nat) : Byte := byteAt (s.store l).cells a

/-- Whether a granule or line is poisoned (R230, R360). -/
def State.poisoned (s : State) (l : Loc) (gran : Nat) : Bool := (s.store l).poison.contains gran

/-- The checks an LSP granule awaits; empty when it is verified (R401). -/
def Core.marksOf (c : Core) (gran : Nat) : List Nat := smGet [] c.marks gran

def State.marksOf (s : State) (l : Loc) (gran : Nat) : List Nat :=
  match l with
  | .lsp g => (s.core g).marksOf gran
  | _ => []

/-- Whether a granule is a protected operand of a check tile (R141). (DEDUCED, log entry 119.) -/
def State.protectedAt (s : State) (l : Loc) (gran : Nat) : Bool :=
  match l with
  | .lsp g => (s.core g).mat.protect.any (fun x => !x.1 && x.2.1 = gran)
  | .quay d => s.cores.any (fun x => dieOf x.1 = d && x.2.mat.protect.any (fun y => y.1 && y.2.1 = gran))
  | .dmem => false

/-- The stack that holds a DMEM address, its local address and its pseudo-channel (R357). -/
def stackOf (a : Nat) : Fin 12 := ⟨a / 4096 % 12, Nat.mod_lt _ (by decide)⟩

def stackLocal (a : Nat) : Nat := a / 49152 * 4096 + a % 4096

def pseudoChannel (a : Nat) : Nat := stackLocal a / 4096 % 32

/-- HBM_PAGE_VAL of a listed page (Table 11-15). -/
def pageVal (p : Nat × PageReason) : Nat :=
  p.1 * 4096 + (match p.2 with | .ceRow => 1 | .ue => 2) * 2 ^ 62

/-- The die that holds the controller of a stack (R13). -/
def stackDie (n : Nat) : Nat := if n < 6 then 8 else 9

/-- The I/O die of a stack's controller: 0 for die 8, 1 for die 9. -/
def stackSide (n : Fin 12) : Fin 2 := if n.val < 6 then 0 else 1

/-- An access to any of these lines is held: its stack's retraining window is open (R366), or its controller
issues nothing after a droop (R454). -/
def State.linesHeld (s : State) (lines : List Nat) : Bool :=
  lines.any (fun n => (s.stack (stackOf (n * 64))).retrain || (s.pwr.ioDroop[stackSide (stackOf (n * 64))]).isSome)

/-- List a 4 KiB page, or log it when the list is full (R367, R368). (DEDUCED, log entry 83.) -/
def State.listPage (s : State) (page : Nat) (why : PageReason) : State :=
  let v := leBytes 8 (pageVal (page, why))
  let n := s.hbm.pages.length
  if s.hbm.pages.any (fun x => x.1 = page) then s
  else if n < 4096 then
    let h := { s.hbm with pages := s.hbm.pages ++ [(page, why)], newPage := true }
    { s with hbm := h, log := s.log.jput (0x0230000 + 8 * n) v }.logRec ⟨0x0021, BitVec.ofNat 8 (stackDie (page % 12)), 1, BitVec.ofNat 16 (page % 12), v⟩
  else
    s.logRec ⟨0x0021, BitVec.ofNat 8 (stackDie (page % 12)), 2, BitVec.ofNat 16 (page % 12), v⟩

/-- The symbols in error of a word or line. -/
def Store.errors (st : Store) (n : Nat) : List Nat := smGet [] st.errs n

/-- The metadata byte of a line: the poison mark in bit 0, bits [7:1] written as 0 (R360). -/
def Store.metaByte (st : Store) (line : Nat) : Byte := if st.poison.contains line then 1 else 0

/-- The on-die ECC corrects a line beneath the line code and reports it (R360, R364, Table 11-3). -/
def State.onDieEcc (s : State) (line : Nat) : State :=
  if s.hbm.onDie.contains line then
    ({ s with hbm := { s.hbm with onDie := setDel line s.hbm.onDie } }).healthInc
      (stackHealth (stackOf (line * 64)).val + 0x30) 4
  else s

/-- A line's read finds two or more symbols in error: it is written back with its mark (R361), and its page is listed
(R367). -/
def State.lineUe (s : State) (line : Nat) : State :=
  let a := line * 64
  let n := stackOf a
  let st := s.stack n
  let s1 := s.setStack n { st with ue := st.ue + 1 }
  let s2 := { s1 with
    dmem := { s1.dmem with errs := smDel line s1.dmem.errs, poison := setAdd line s1.dmem.poison }
    hbm := { s1.hbm with ueEvent := true } }
  let r : LogRec := ⟨0x0020, BitVec.ofNat 8 (stackDie n.val), 2, BitVec.ofNat 16 n.val,
    [3, BitVec.ofNat 8 n.val] ++ leBytes 8 line ++ leBytes 2 (pseudoChannel a)⟩
  let s3 := ({ s2 with hrw := { s2.hrw with events := s2.hrw.events ++ [r] } }).logRec r
  (s3.healthInc (stackHealth n.val + 0x28) 8).listPage (a / 4096) .ue

/-- A line's read corrects one symbol and writes the line back (R361); the third correction of a DRAM row within 24
hours lists the page (R367). -/
def State.lineCe (s : State) (line : Nat) : State :=
  let a := line * 64
  let n := stackOf a
  let st := s.stack n
  let row := a / 1024
  let day := s.log.pot - 86400
  let hits := (row, s.log.pot) :: st.rowHits.filter (fun h => day ≤ h.2)
  let s1 := s.setStack n { st with ce := st.ce + 1, rowHits := hits }
  let s2 := { s1 with dmem := { s1.dmem with errs := smDel line s1.dmem.errs } }
  let s3 := s2.healthInc (stackHealth n.val + 0x20) 8
  if 3 ≤ (hits.filter (fun h => h.1 = row)).length then s3.listPage (a / 4096) .ceRow else s3

/-- A read of a DMEM line, by the number of its symbols in error (Table 11-2). (PRESUMED, log entry 79.) -/
def State.touchLine (s : State) (line : Nat) : State :=
  match s.dmem.errors line with
  | [] => s.onDieEcc line
  | [_] => (s.onDieEcc line).lineCe line
  | _ :: _ :: _ => (s.onDieEcc line).lineUe line

/-- The health offsets of corrected and uncorrectable errors of a die's scratchpads and quay. -/
def sramHealth (l : Loc) : Nat × Nat × Nat :=
  match l with
  | .lsp g => ((dieOf g).val, 0x40, 0x48)
  | .quay d => (d.val, 0x50, 0x58)
  | .dmem => (0, 0x40, 0x48)

/-- One 8-byte word of a scratchpad or quay is read and checked: no bit in error, one, or more (R230). (DESIGN CHOICE,
log entry 82.) -/
def State.touchWord (s : State) (l : Loc) (word : Nat) : State :=
  let st := s.store l
  let h := sramHealth l
  match st.errors word with
  | [] => s
  | [_] => (s.setStore l { st with errs := smDel word st.errs }).healthInc (dieHealth h.1 + h.2.1) 8
  | _ :: _ :: _ =>
    let s1 := s.setStore l { st with poison := setAdd (word / 8) st.poison }
    let s2 := s1.healthInc (dieHealth h.1 + h.2.2) 8
    s2.logRec ⟨0x0020, BitVec.ofNat 8 h.1, 2,
      (match l with | .lsp g => BitVec.ofNat 16 (g % 512) | _ => 0),
      (match l with | .lsp _ => [0] | _ => [2]) ++ leBytes 8 (word * 8)⟩

/-- A read of a granule finds its errors: all eight words of SRAM (R230), or the line (R361). -/
def State.touch (s : State) (l : Loc) (gran : Nat) : State :=
  match l with
  | .dmem => s.touchLine gran
  | _ => (List.range 8).foldl (fun t i => t.touchWord l (8 * gran + i)) s

def State.touchAll (s : State) (l : Loc) (grans : List Nat) : State :=
  grans.foldl (fun t g => t.touch l g) s

/-- Whether a write of these bytes covers a whole granule. -/
def coversAll (bytes : List (Nat × Byte)) (gran : Nat) : Bool :=
  (List.range 64).all (fun i => bytes.any (fun b => b.1 = gran * 64 + i))

def coversWord (bytes : List (Nat × Byte)) (word : Nat) : Bool :=
  (List.range 8).all (fun i => bytes.any (fun b => b.1 = word * 8 + i))

def touchesWord (bytes : List (Nat × Byte)) (word : Nat) : Bool :=
  bytes.any (fun b => b.1 / 8 = word)

def putCells (m : List Host.Cell) (bytes : List (Nat × Byte)) : List Host.Cell :=
  bytes.foldl (fun m b => putByte m b.1 b.2) m

/-- Before a masked write, the words it covers in part, or the line, are read and checked (R231, R362). -/
def State.preWrite (s : State) (l : Loc) (gran : Nat) (bytes : List (Nat × Byte)) : State :=
  if coversAll bytes gran then s
  else match l with
    | .dmem => s.touchLine gran
    | _ => (List.range 8).foldl
        (fun t i => if touchesWord bytes (8 * gran + i) && !coversWord bytes (8 * gran + i)
          then t.touchWord l (8 * gran + i) else t) s

/-- The store after one access writes bytes of one granule: a whole write replaces the poison bit, a
masked one keeps it (R227, R231, R362); each word or line written gets fresh check symbols. -/
def storeWrite (st : Store) (sram : Bool) (gran : Nat) (bytes : List (Nat × Byte)) (poison : Bool) : Store :=
  let all := coversAll bytes gran
  { cells := putCells st.cells bytes
    poison := if all then (if poison then setAdd gran st.poison else setDel gran st.poison)
              else if poison then setAdd gran st.poison else st.poison
    errs := st.errs.filter (fun x => !(if sram then touchesWord bytes x.1 else x.1 = gran)) }

/-- One single-copy-atomic write access to one granule, with the poison it carries and the checks
it awaits (R225, R227, R401). -/
def State.writeGran (s : State) (l : Loc) (gran : Nat) (bytes : List (Nat × Byte)) (poison : Bool)
    (marks : List Nat) : State :=
  let s1 := s.preWrite l gran bytes
  match l with
  | .lsp g =>
    let c := s1.core g
    let old := if coversAll bytes gran then [] else c.marksOf gran
    s1.setCore g { c with
      lsp := storeWrite c.lsp true gran bytes poison
      marks := smPut [] c.marks gran (setUnion marks old) }
  | .quay d => s1.setStore (.quay d) (storeWrite (s1.store (.quay d)) true gran bytes poison)
  | .dmem => s1.setStore .dmem (storeWrite s1.dmem false gran bytes poison)

/-- Group a write of consecutive bytes by granule, in rising order. -/
def byGranule : List (Nat × Byte) → List (Nat × List (Nat × Byte))
  | [] => []
  | b :: t =>
    match byGranule t with
    | [] => [(b.1 / 64, [b])]
    | (g, l) :: r => if g = b.1 / 64 then (g, b :: l) :: r else (b.1 / 64, [b]) :: (g, l) :: r

/-- Number a byte list from an address. -/
def addressed (a : Nat) : List Byte → List (Nat × Byte)
  | [] => []
  | b :: t => (a, b) :: addressed (a + 1) t

/-- Write a run of bytes, one access for each granule it touches. -/
def State.writeRun (s : State) (l : Loc) (a : Nat) (bytes : List Byte) (poison : Bool)
    (marks : List Nat) : State :=
  (byGranule (addressed a bytes)).foldl (fun t x => t.writeGran l x.1 x.2 poison marks) s

/-- Mark every granule of a byte range poisoned (R272). -/
def State.poisonRange (s : State) (l : Loc) (a len : Nat) : State :=
  let st := s.store l
  s.setStore l { st with poison :=
    (List.range ((a + len + 63) / 64 - a / 64)).foldl (fun acc i => setAdd (a / 64 + i) acc) st.poison }

/-- The granules a byte range touches. -/
def granulesOf (a len : Nat) : List Nat :=
  if len = 0 then [] else (List.range ((a + len + 63) / 64 - a / 64)).map (fun i => a / 64 + i)

/-- The firmware-reserved DMEM, the lowest 1 GiB (R222). -/
def dmemReserved : Nat := 0x40000000

/-- DMEM's extent, 576 GiB (Table 7-1). -/
def dmemEnd : Nat := 0x9000000000

/-- The signal window's end; it starts where the reserved DMEM ends (R358). -/
def windowEnd : Nat := 0x50000000

def inWindow (a : Nat) : Bool := dmemReserved ≤ a && a < windowEnd

/-! ## Registers of the sequencer -/

/-- s0 reads 0 (R65). -/
def Seq.getS (q : Seq) (r : BitVec 5) : Word64 := if r = 0 then 0 else q.s[r.toNat]

/-- A write to s0 is discarded (R65). -/
def Seq.setS (q : Seq) (r : BitVec 5) (v : Word64) : Seq :=
  if r = 0 then q else { q with s := q.s.set r.toNat v }

/-- The address register a 5-bit field names; a field above 15 is refused before (R69, R71). -/
def Seq.getA (q : Seq) (r : BitVec 5) : Addr := q.a[r.toNat % 16]

def Seq.setA (q : Seq) (r : BitVec 5) (v : Addr) : Seq := { q with a := q.a.set (r.toNat % 16) v }

/-- p0 reads 1 (R65); a field above 7 is refused before (R71). -/
def Seq.getP (q : Seq) (r : BitVec 5) : Bool := if r.toNat % 8 = 0 then true else q.p[r.toNat % 8]

/-- A write to p0 is discarded (R65). -/
def Seq.setP (q : Seq) (r : BitVec 5) (v : Bool) : Seq :=
  if r.toNat % 8 = 0 then q else { q with p := q.p.set (r.toNat % 8) v }

def Seq.getD (q : Seq) (r : BitVec 5) : Desc := q.d[r.toNat]

def Seq.setD (q : Seq) (r : BitVec 5) (v : Desc) : Seq := { q with d := q.d.set r.toNat v }

def Vec.getV (x : Vec) (r : BitVec 5) : VReg := x.v[r.toNat]

def Vec.setV (x : Vec) (r : BitVec 5) (v : VReg) : Vec := { x with v := x.v.set r.toNat v }

/-- sext(IMM) (R79). -/
def simm (w : Word0) : Word64 := w.imm.signExtend 64

/-! ## Counter tests -/

/-- Count C has reached target T when (C − T) modulo 2^32 is less than 2^31 (R94). -/
def reached (c t : Word32) : Bool := (c - t).toNat < 2 ^ 31

def Seq.issued (q : Seq) : Eng → Word32
  | .matrix => q.mIssued | .vector => q.vIssued | .ferry => q.fIssued

def Seq.completed (q : Seq) : Eng → Word32
  | .matrix => q.mec | .vector => q.vec | .ferry => q.fec

/-- Every command issued to the engine has completed. -/
def Seq.drained (q : Seq) (e : Eng) : Bool := q.issued e = q.completed e

def Seq.allDrained (q : Seq) : Bool := q.drained .matrix && q.drained .vector && q.drained .ferry

/-! ## Core faults (R106, R108) -/

/-- Engine codes of DETAIL[13:12] (Table 3-21); 3 is the sequencer. -/
def engCode : Eng → Nat
  | .matrix => 0 | .vector => 1 | .ferry => 2

/-- The recorded fault is the one whose instruction comes first in program order (R106). -/
def keepFault (old : Option FaultRec) (f : FaultRec) : FaultRec :=
  match old with
  | none => f
  | some o => if f.ord < o.ord then f else o

/-- The core's discarded commands of each engine once its queued ones are too. -/
def Core.discards (c : Core) : PerEngine :=
  ⟨c.discarded.m + c.mat.queue.length, c.discarded.v + c.vec.queue.length, c.discarded.f + c.fer.queue.length⟩

/-- The core issues nothing more and discards and counts its queued commands (R108). (DESIGN CHOICE, log entry 28.) -/
def Core.stop (c : Core) : Core :=
  { c with
    seq := { c.seq with cond := .stopping }
    discarded := c.discards
    mat := { c.mat with queue := [] }
    vec := { c.vec with queue := [] }
    fer := { c.fer with queue := [] } }

/-- Record a fault and stop (R106, R108). -/
def Core.raise (c : Core) (f : FaultRec) : Core :=
  let c1 := { c with seq := { c.seq with
    fault := some (keepFault c.seq.fault f)
    multi := c.seq.multi || c.seq.fault.isSome } }
  c1.stop

def State.raise (s : State) (g : Nat) (cause : Nat) (detail : Nat) (pc : Half) (ord : Nat) : State :=
  s.setCore g ((s.core g).raise ⟨BitVec.ofNat 8 cause, BitVec.ofNat 14 detail, pc, ord⟩)

/-- Every engine of the core has stopped; a COPY is not the kernel's. -/
def Core.enginesStopped (c : Core) : Bool :=
  c.mat.exec.isEmpty && c.mat.loading.isEmpty && c.mat.modeChg.isNone && c.vec.run.isEmpty &&
    c.fer.chans.all (fun x => x.2.copyOf.isSome)

/-- Granules still marked unverified are written poisoned, their marks cleared. -/
def Core.poisonMarked (c : Core) : Core :=
  { c with lsp := { c.lsp with poison := setUnion (c.marks.map Prod.fst) c.lsp.poison }, marks := [] }

/-- SEQ_FAULT as read (Table 3-20). -/
def Seq.faultWord (q : Seq) : Word32 :=
  match q.fault with
  | none => 0
  | some f => 0x80000000 ||| (if q.multi then 0x40000000 else 0) |||
      ((f.detail.setWidth 32) <<< 16) ||| f.cause.setWidth 32

def Seq.faultPc (q : Seq) : Word32 :=
  match q.fault with
  | none => 0
  | some f => f.pc.setWidth 32

/-! ## Wraps and widths -/

def ofBool (b : Bool) : Nat := if b then 1 else 0

/-- Bits lo to lo + n − 1 of a value. -/
def bitsOf (v lo n : Nat) : Nat := v / 2 ^ lo % 2 ^ n

end Sys2Proof.Machine
end

