-- ==== Sys2Proof/Machine/Num.lean ====
section
/-!
DEFINITION. Number formats, the internal form, accumulation and conversion (spec 02), and the
counter-based generator (spec 05, R174, R175). Values are exact: m × 2^e.
-/

namespace Sys2Proof.Machine

abbrev Fmt := BitVec 4

/-! ## Flags (Table 2-12) -/

def fOVF : BitVec 5 := 1
def fUNF : BitVec 5 := 2
def fINX : BitVec 5 := 4
def fINV : BitVec 5 := 8
def fDIVZ : BitVec 5 := 16

/-! ## Formats (Tables 2-1 and 2-2) -/

/-- Bits per element; 0 for a reserved code (R28). -/
def fmtBits (f : Fmt) : Nat :=
  match f.toNat with
  | 0 => 4 | 1 => 6 | 2 => 6 | 3 => 8 | 4 => 8 | 5 => 4 | 6 => 8 | 7 => 8
  | 8 => 16 | 9 => 16 | 10 => 32 | 11 => 64 | 12 => 32 | 13 => 64 | _ => 0

def fmtReserved (f : Fmt) : Bool := 14 ≤ f.toNat

def fmtInt (f : Fmt) : Bool := f = 5 || f = 6 || f = 7 || f = 12 || f = 13

def fmtFjx (f : Fmt) : Bool := f.toNat ≤ 4

/-- R34. -/
def fmtScalable (f : Fmt) : Bool := f.toNat ≤ 6

/-- A floating format: mantissa bits, exponent bits, bias. -/
def fmtFloat (f : Fmt) : Nat × Nat × Nat :=
  match f.toNat with
  | 0 => (1, 2, 1) | 1 => (2, 3, 3) | 2 => (3, 2, 1) | 3 => (3, 4, 7) | 4 => (2, 5, 15)
  | 8 => (7, 8, 127) | 9 => (10, 5, 15) | 10 => (23, 8, 127) | 11 => (52, 11, 1023) | _ => (0, 0, 0)

/-- Exponent of the smallest normal number. -/
def fmtEmin (f : Fmt) : Int := 1 - ((fmtFloat f).2.2 : Int)

/-- Largest finite value as m × 2^e: every exponent field is finite in an Fjx format (R30). -/
def fmtMax (f : Fmt) : Nat × Int :=
  let (mb, eb, bias) := fmtFloat f
  let top : Int := if fmtFjx f then 2 ^ eb - 1 else 2 ^ eb - 2
  (2 ^ (mb + 1) - 1, top - bias - mb)

/-- Largest magnitude of an integer format for a sign (R32). -/
def intBound (f : Fmt) (neg : Bool) : Nat :=
  if f = 7 then (if neg then 0 else 255)
  else if neg then 2 ^ (fmtBits f - 1) else 2 ^ (fmtBits f - 1) - 1

/-- The NaN code written by a conversion: canonical (Table 2-10), or the Fjx NaN (R30). -/
def nanCode (f : Fmt) : Nat :=
  if fmtFjx f then 2 ^ (fmtBits f - 1)
  else
    let (mb, eb, _) := fmtFloat f
    (2 ^ eb - 1) * 2 ^ mb + 2 ^ (mb - 1)

def infCode (f : Fmt) (neg : Bool) : Nat :=
  let (mb, eb, _) := fmtFloat f
  (ofBool neg) * 2 ^ (fmtBits f - 1) + (2 ^ eb - 1) * 2 ^ mb

/-! ## Exact values -/

/-- floor(log2 (m × 2^e)), m above 0. -/
def flog2 (m : Nat) (e : Int) : Int := Nat.log2 m + e

/-- The integer n × 2^e as a value. -/
def Num.ofScaled (n : Int) (e : Int) : Num :=
  if n = 0 then .zero else .fin (decide (n < 0)) n.natAbs e

def Num.ofInt (n : Int) : Num := Num.ofScaled n 0

def Num.isNan : Num → Bool
  | .nan => true
  | _ => false

/-- The sign and value n × 2^e of a zero or finite value; 0 of the others. -/
def Num.scaled : Num → Int × Int
  | .fin s m e => (if s then -(m : Int) else m, e)
  | _ => (0, 0)

/-- Exact sum of two scaled integers. -/
def addScaled (a b : Int × Int) : Int × Int :=
  if a.1 = 0 then b else if b.1 = 0 then a
  else
    let e := if a.2 ≤ b.2 then a.2 else b.2
    (a.1 * 2 ^ (a.2 - e).toNat + b.1 * 2 ^ (b.2 - e).toNat, e)

/-- Whether |m1 × 2^e1| is less than |m2 × 2^e2|. -/
def magLt (m1 : Nat) (e1 : Int) (m2 : Nat) (e2 : Int) : Bool :=
  let e := if e1 ≤ e2 then e1 else e2
  m1 * 2 ^ (e1 - e).toNat < m2 * 2 ^ (e2 - e).toNat

/-- A value multiplied by 2^k. -/
def Num.scale (x : Num) (k : Int) : Num :=
  match x with
  | .fin s m e => .fin s m (e + k)
  | y => y

/-! ## Decoding (R30 to R33, R36 to R38) -/

def decodeFloat (f : Fmt) (code : Nat) : Num :=
  let (mb, eb, bias) := fmtFloat f
  let m := code % 2 ^ mb
  let e := code / 2 ^ mb % 2 ^ eb
  let s := decide (code / 2 ^ (mb + eb) % 2 = 1)
  if fmtFjx f && s && e = 0 && m = 0 then .nan
  else if !fmtFjx f && e = 2 ^ eb - 1 then (if m = 0 then .inf s else .nan)
  else if e = 0 then (if m = 0 then .zero else .fin s m (1 - (bias : Int) - mb))
  else .fin s (2 ^ mb + m) ((e : Int) - bias - mb)

def decodeNum (f : Fmt) (code : Nat) : Num :=
  if fmtInt f then
    (if f = 7 then Num.ofInt (code % 256 : Nat) else Num.ofInt (toSigned code (fmtBits f)))
  else decodeFloat f code

/-- The scale S of a block: none for the NaN scale 0xFF (R36). -/
def decodeScaled (f : Fmt) (code : Nat) (s : Byte) : Num :=
  if s = 0xFF then .nan else (decodeNum f code).scale ((s.toNat : Int) - 127)

/-! ## Rounding -/

/-- m × 2^e as a multiple of 2^ue: the multiple not above it, and what remains over 2^d. -/
def quantize (m : Nat) (e ue : Int) : Nat × Nat × Nat :=
  if ue ≤ e then (m * 2 ^ (e - ue).toNat, 0, 0)
  else
    let d := (ue - e).toNat
    (m / 2 ^ d, m % 2 ^ d, d)

/-- Round the multiple to nearest, ties to even. -/
def rneUp (q r d : Nat) : Bool := 2 ^ d < 2 * r || (2 * r = 2 ^ d && q % 2 = 1 && r ≠ 0)

/-- Encode q × 2^ue, a value of the format, with its sign. -/
def encodeFloat (f : Fmt) (neg : Bool) (q : Nat) (ue : Int) : Nat :=
  let (mb, _, bias) := fmtFloat f
  let sgn := ofBool neg * 2 ^ (fmtBits f - 1)
  let ex := flog2 q ue
  if ex < fmtEmin f then sgn + q * 2 ^ (ue - (fmtEmin f - mb)).toNat
  else
    let k := Nat.log2 q
    let sig := q * 2 ^ mb / 2 ^ k - 2 ^ mb
    sgn + (ex + bias).toNat * 2 ^ mb + sig

/-- A code and the flags its making raised. -/
structure Conv where
  code  : Nat
  flags : BitVec 5
  deriving DecidableEq, Repr

def maxCode (f : Fmt) (neg : Bool) : Nat := encodeFloat f neg (fmtMax f).1 (fmtMax f).2

/-- The spacing exponent of a format at |x| (R47). -/
def spacing (f : Fmt) (m : Nat) (e : Int) : Int :=
  if fmtInt f then 0
  else
    let ex := flog2 m e
    (if fmtEmin f ≤ ex then ex else fmtEmin f) - (fmtFloat f).1

/-- convert of R47. `rand` is rand24(key), used under SR alone. -/
def convert (x : Num) (f : Fmt) (rnd ovf : BitVec 2) (rand : Nat) : Conv :=
  match x with
  | .nan => if fmtInt f then ⟨0, fINV⟩ else ⟨nanCode f, 0⟩
  | .zero => ⟨0, 0⟩
  | .inf s =>
    if fmtInt f then ⟨ofSigned (if s then -(intBound f s : Int) else intBound f s) (fmtBits f), fINV⟩
    else if ovf = 2 then ⟨infCode f s, 0⟩
    else if ovf = 1 then ⟨nanCode f, fINV⟩
    else ⟨maxCode f s, fOVF⟩
  | .fin s m e =>
    let ue := spacing f m e
    let (q, r, d) := quantize m e ue
    let up := if rnd = 0 then rneUp q r d else decide (r ≠ 0 ∧ 2 ^ 24 ≤ r * 2 ^ 24 / 2 ^ d + rand)
    let q' := if up then q + 1 else q
    let inx := if r = 0 then 0 else fINX
    if fmtInt f then
      if intBound f s < q' then
        ⟨ofSigned (if s then -(intBound f s : Int) else intBound f s) (fmtBits f), inx ||| fINV⟩
      else if q' = 0 then ⟨0, inx ||| fUNF⟩
      else ⟨ofSigned (if s then -(q' : Int) else q') (fmtBits f), inx⟩
    else if magLt (fmtMax f).1 (fmtMax f).2 q' ue then
      if ovf = 2 then ⟨infCode f s, fOVF ||| fINX⟩
      else if ovf = 1 then ⟨nanCode f, inx ||| fOVF⟩
      else ⟨maxCode f s, inx ||| fOVF⟩
    else if q' = 0 then ⟨0, inx ||| fUNF⟩
    else ⟨encodeFloat f s q' ue,
      inx ||| (if r ≠ 0 ∧ flog2 q' ue < fmtEmin f then fUNF else 0)⟩

/-! ## Block scales on output (R53) -/

/-- The larger magnitude of the finite elements so far. -/
def amaxStep (a : Option (Nat × Int)) (x : Num) : Option (Nat × Int) :=
  match x, a with
  | .fin _ m e, none => some (m, e)
  | .fin _ m e, some (m0, e0) => if magLt m0 e0 m e then some (m, e) else some (m0, e0)
  | _, a => a

/-- The largest finite value a scale is chosen against. -/
def scaleMax (f : Fmt) : Nat × Int := if f = 5 then (7, 0) else if f = 6 then (127, 0) else fmtMax f

/-- The smallest e with m × 2^ex ≤ max × 2^e, clamped to −127 to 127. -/
def scaleFor (f : Fmt) (m : Nat) (ex : Int) : Int :=
  let mx := scaleMax f
  let e0 := flog2 m ex - flog2 mx.1 mx.2
  let e := if magLt mx.1 (mx.2 + e0) m ex then e0 + 1 else e0
  if e < -127 then -127 else if 127 < e then 127 else e

/-- The scale code of a block; none where an integer block holds a NaN. -/
def chooseScale (f : Fmt) (block : List Num) : Option Int :=
  if fmtInt f && block.any Num.isNan then none
  else match block.foldl amaxStep none with
    | none => some 0
    | some (m, e) => some (scaleFor f m e)

/-- A block's scale byte and codes. `rands` gives rand24 for the element's place in the block. -/
def convertBlock (f : Fmt) (rnd ovf : BitVec 2) (rands : Nat → Nat) (block : List Num) : Byte × List Conv :=
  match chooseScale f block with
  | none => (0xFF, block.map (fun _ => ⟨0, fINV⟩))
  | some e => (BitVec.ofNat 8 (e + 127).toNat,
      block.mapIdx (fun i x => convert (x.scale (-e)) f rnd ovf (rands i)))

def flagsOf (l : List Conv) : BitVec 5 := l.foldl (fun a c => a ||| c.flags) 0

/-! ## Binary32 sums (R41, R43, R44, R46) -/

/-- A partial sum with the flags and drain-log events of forming it. -/
structure Sum where
  val   : Num
  flags : BitVec 5
  sat   : Bool
  flush : Bool
  deriving DecidableEq, Repr

def Sum.exact (v : Num) : Sum := ⟨v, 0, false, false⟩

/-- Whether a value differs from an exact sum. -/
def differs (v : Num) (exact : Int × Int) : Bool :=
  (addScaled v.scaled (-exact.1, exact.2)).1 ≠ 0

/-- INX where the sum delivered differs from the exact, untruncated sum (Table 2-13): a truncation and a
rounding that cancel raise none. (DESIGN CHOICE, log entry 124.) -/
def inxIf (v : Num) (exact : Int × Int) : BitVec 5 := if differs v exact then fINX else 0

/-- Round n × 2^e once to binary32 with the flush and saturation of R43. The flush follows the
procedure's own test, on the rounded r. `exact` is the sum before truncation. (DEDUCED, log entry 13.) -/
def roundSum (n : Int) (e : Int) (exact : Int × Int) : Sum :=
  if n = 0 then ⟨.zero, inxIf .zero exact, false, false⟩
  else
    let s := decide (n < 0)
    let ue := spacing 0xA n.natAbs e
    let (q, r, d) := quantize n.natAbs e ue
    let q' := if rneUp q r d then q + 1 else q
    if q' = 0 || flog2 q' ue < -126 then ⟨.zero, fUNF ||| fINX, false, true⟩
    else if magLt (fmtMax 0xA).1 (fmtMax 0xA).2 q' ue then
      ⟨.fin s (fmtMax 0xA).1 (fmtMax 0xA).2, fOVF ||| fINX, true, false⟩
    else ⟨.fin s q' ue, inxIf (.fin s q' ue) exact, false, false⟩

/-- A product of Table 2-8, with Invalid for zero × infinity. -/
def mulNum (a b : Num) : Num × BitVec 5 :=
  match a, b with
  | .nan, _ => (.nan, 0)
  | _, .nan => (.nan, 0)
  | .inf _, .zero => (.nan, fINV)
  | .zero, .inf _ => (.nan, fINV)
  | .inf s, .inf t => (.inf (s != t), 0)
  | .inf s, .fin t _ _ => (.inf (s != t), 0)
  | .fin s _ _, .inf t => (.inf (s != t), 0)
  | .zero, _ => (.zero, 0)
  | _, .zero => (.zero, 0)
  | .fin s m e, .fin t n k => (.fin (s != t) (m * n) (e + k), 0)

/-- The special sum of Table 2-8 where a term is NaN or infinite; none when every term is finite. Of a
NaN term beside infinities of both signs the NaN decides and raises nothing. (DESIGN CHOICE, log entry 125.) -/
def specialSum (l : List Num) : Option (Num × BitVec 5) :=
  if l.any Num.isNan then some (.nan, 0)
  else if l.any (fun x => x = .inf true) then
    (if l.any (fun x => x = .inf false) then some (.nan, fINV) else some (.inf true, 0))
  else if l.any (fun x => x = .inf false) then some (.inf false, 0)
  else none

/-- trunc_towards_zero of n × 2^k. -/
def truncShift (n : Int) (k : Int) : Int :=
  if 0 ≤ k then n * 2 ^ k.toNat else n.tdiv (2 ^ (-k).toNat)

def emaxOf (l : List Num) : Option Int :=
  l.foldl (fun a x => match x, a with
    | .fin _ m e, none => some (flog2 m e)
    | .fin _ m e, some k => some (if k < flog2 m e then flog2 m e else k)
    | _, a => a) none

/-- chunk_add of R43. -/
def chunkAdd (prods : List (Num × BitVec 5)) (p : Num) : Sum :=
  let fl := prods.foldl (fun a x => a ||| x.2) 0
  match specialSum (p :: prods.map Prod.fst) with
  | some (v, f) => ⟨v, fl ||| f, false, false⟩
  | none =>
    match emaxOf (prods.map Prod.fst) with
    | none => roundSum p.scaled.1 p.scaled.2 p.scaled
    | some emax =>
      let t := prods.foldl (fun a x => a + truncShift x.1.scaled.1 (x.1.scaled.2 + 35 - emax)) 0
      let exact := prods.foldl (fun a x => addScaled a x.1.scaled) p.scaled
      let x := addScaled p.scaled (t, emax - 35)
      roundSum x.1 x.2 exact

/-- The INT32 chunk sum of R44. -/
def chunkAddInt (prods : List Num) (p : Int) : Int × Bool :=
  let t := prods.foldl (fun a x => a + x.scaled.1 * 2 ^ x.scaled.2.toNat) p
  if t < -2147483648 then (-2147483648, true) else if 2147483647 < t then (2147483647, true) else (t, false)

/-- One binary32 addition with the rules of R43 (R46). -/
def addSum (a b : Num) : Sum :=
  match specialSum [a, b] with
  | some (v, f) => ⟨v, f, false, false⟩
  | none => let x := addScaled a.scaled b.scaled; roundSum x.1 x.2 x

/-- One binary32 multiplication with the rules of R43 (R46). -/
def mulSum (a b : Num) : Sum :=
  match mulNum a b with
  | (.fin s m e, _) => roundSum (if s then -(m : Int) else m) e (if s then -(m : Int) else m, e)
  | (v, f) => ⟨v, f, false, false⟩

/-- One addition of a collective adder: infinity on overflow, subnormals flushed (Table 2-10). -/
def adderAdd (a b : Num) : Num × BitVec 5 :=
  let r := addSum a b
  if r.sat then (match r.val with | .fin s _ _ => .inf s | v => v, r.flags) else (r.val, r.flags)

/-! ## Histogram bins (R59, Table 2-14) -/

def histBin (base : Int) (x : Num) : Nat :=
  match x with
  | .zero => 0
  | .nan => 63
  | .inf _ => 63
  | .fin _ m e =>
    let k := flog2 m e
    if k < base then 1 else if base + 59 < k then 62 else (k - base + 2).toNat

/-- Count one element: a bin holds at its largest value and sets SATD (R61). -/
def Hist.count (h : Hist) (x : Num) : Hist :=
  let b := histBin (toSigned h.base.toNat 10) x
  let old := smGet (0 : Word32) h.bins b
  let new := satInc old
  { h with bins := smPut 0 h.bins b new, satd := h.satd || new = BitVec.allOnes 32 }

end Sys2Proof.Machine
end

