-- ==== Sys2Proof/Machine/Ieee.lean ====
section
/-!
DEFINITION. IEEE 754-2019 lane arithmetic of the vector engine (R54, R153 to R158, R525) on the codes of
bfloat16, binary16, binary32 and binary64, with the rounding modes of RM (Table 3-13), and the
transcendental functions of Table 5-6.
-/

namespace Sys2Proof.Machine

/-- RM: 0 nearest even, 1 nearest away, 2 towards zero, 3 towards +∞, 4 towards −∞. -/
abbrev Rm := Nat

def signBit (f : Fmt) (c : Nat) : Bool := decide (c / 2 ^ (fmtBits f - 1) % 2 = 1)

def zeroCode (f : Fmt) (neg : Bool) : Nat := ofBool neg * 2 ^ (fmtBits f - 1)

def quietBit (f : Fmt) : Nat := 2 ^ ((fmtFloat f).1 - 1)

def laneNan (f : Fmt) (c : Nat) : Bool := (decodeFloat f c).isNan

def laneSnan (f : Fmt) (c : Nat) : Bool := laneNan f c && c / quietBit f % 2 = 0

/-- Set the quiet bit of a NaN code. -/
def quietOf (f : Fmt) (c : Nat) : Nat := if c / quietBit f % 2 = 1 then c else c + quietBit f

/-- The first NaN operand, quieted, with INV for a signalling one (R525). -/
def propagate (f : Fmt) (ops : List Nat) : Option Conv :=
  match ops.find? (laneNan f) with
  | none => none
  | some c => some ⟨quietOf f c, if ops.any (laneSnan f) then fINV else 0⟩

def invalidNan (f : Fmt) : Conv := ⟨nanCode f, fINV⟩

/-- Whether a remainder r over 2^d above the multiple q rounds the magnitude up. -/
def rmUp (rm : Rm) (neg : Bool) (q r d : Nat) : Bool :=
  if r = 0 then false
  else match rm with
    | 0 => rneUp q r d
    | 1 => decide (2 ^ d ≤ 2 * r)
    | 2 => false
    | 3 => !neg
    | _ => neg

/-- Round m × 2^e, m above 0, to a format under RM: gradual underflow, tininess after rounding (R54). -/
def ieeeRound (f : Fmt) (rm : Rm) (neg : Bool) (m : Nat) (e : Int) : Conv :=
  let ue := spacing f m e
  let (q, r, d) := quantize m e ue
  let q' := if rmUp rm neg q r d then q + 1 else q
  let un := flog2 m e - (fmtFloat f).1
  let (q2, r2, d2) := quantize m e un
  let tiny := decide (flog2 (if rmUp rm neg q2 r2 d2 then q2 + 1 else q2) un < fmtEmin f)
  let fl := (if r = 0 then 0 else fINX) ||| (if tiny && r ≠ 0 then fUNF else 0)
  if magLt (fmtMax f).1 (fmtMax f).2 q' ue then
    if rm = 0 || rm = 1 || (rm = 3 && !neg) || (rm = 4 && neg) then ⟨infCode f neg, fOVF ||| fINX⟩
    else ⟨maxCode f neg, fOVF ||| fINX⟩
  else if q' = 0 then ⟨zeroCode f neg, fl⟩
  else ⟨encodeFloat f neg q' ue, fl⟩

/-- Round n × 2^e; an exact zero takes the sign given. -/
def ieeeRoundInt (f : Fmt) (rm : Rm) (zeroNeg : Bool) (x : Int × Int) : Conv :=
  if x.1 = 0 then ⟨zeroCode f zeroNeg, 0⟩ else ieeeRound f rm (decide (x.1 < 0)) x.1.natAbs x.2

/-- The sign of an exact zero sum of terms with these signs (IEEE 754-2019, 6.3). -/
def zeroSumSign (rm : Rm) (bothZero : Bool) (s t : Bool) : Bool :=
  if bothZero && s = t then s else decide (rm = 4)

/-- Sum of two non-NaN codes, the second with its sign given apart. -/
def ieeeSum (f : Fmt) (rm : Rm) (x : Num) (s : Bool) (y : Num) (t : Bool) : Conv :=
  match x, y with
  | .inf a, .inf b => if a = b then ⟨infCode f a, 0⟩ else invalidNan f
  | .inf a, _ => ⟨infCode f a, 0⟩
  | _, .inf b => ⟨infCode f b, 0⟩
  | x, y => ieeeRoundInt f rm (zeroSumSign rm (x = .zero && y = .zero) s t) (addScaled x.scaled y.scaled)

def Num.neg : Num → Num
  | .inf s => .inf (!s)
  | .fin s m e => .fin (!s) m e
  | x => x

def laneAdd (f : Fmt) (rm : Rm) (a b : Nat) : Conv :=
  match propagate f [a, b] with
  | some r => r
  | none => ieeeSum f rm (decodeFloat f a) (signBit f a) (decodeFloat f b) (signBit f b)

def laneSub (f : Fmt) (rm : Rm) (a b : Nat) : Conv :=
  match propagate f [a, b] with
  | some r => r
  | none => ieeeSum f rm (decodeFloat f a) (signBit f a) (decodeFloat f b).neg (!signBit f b)

def laneMul (f : Fmt) (rm : Rm) (a b : Nat) : Conv :=
  match propagate f [a, b] with
  | some r => r
  | none =>
    let s := signBit f a != signBit f b
    match mulNum (decodeFloat f a) (decodeFloat f b) with
    | (.nan, _) => invalidNan f
    | (.inf t, _) => ⟨infCode f t, 0⟩
    | (.zero, _) => ⟨zeroCode f s, 0⟩
    | (.fin t m e, _) => ieeeRound f rm t m e

/-- vA × vB ± vFC with one rounding. Whether 0 × ∞ plus a quiet NaN raises INV, IEEE 754-2019 leaves
to the implementation. (DESIGN CHOICE, log entry 12.) -/
def laneFma (f : Fmt) (rm : Rm) (sub : Bool) (a b c : Nat) : Conv :=
  let p := mulNum (decodeFloat f a) (decodeFloat f b)
  match propagate f [a, b, c] with
  | some r => if p.2 = fINV && Config.fmaNanInvalid then ⟨r.code, r.flags ||| fINV⟩ else r
  | none =>
    let s := signBit f a != signBit f b
    let z := decodeFloat f c
    match p with
    | (.nan, _) => invalidNan f
    | (x, _) => ieeeSum f rm x s (if sub then z.neg else z) (signBit f c != sub)

/-- Sticky quotient: m / n as q × 2^(−k) with the last bit set when inexact. -/
def stickyDiv (m n k : Nat) : Nat :=
  let q := m * 2 ^ k / n
  2 * q + (if m * 2 ^ k % n = 0 then 0 else 1)

def laneDiv (f : Fmt) (rm : Rm) (a b : Nat) : Conv :=
  match propagate f [a, b] with
  | some r => r
  | none =>
    let s := signBit f a != signBit f b
    match decodeFloat f a, decodeFloat f b with
    | .inf _, .inf _ => invalidNan f
    | .zero, .zero => invalidNan f
    | .inf _, _ => ⟨infCode f s, 0⟩
    | _, .inf _ => ⟨zeroCode f s, 0⟩
    | _, .zero => ⟨infCode f s, fDIVZ⟩
    | .zero, _ => ⟨zeroCode f s, 0⟩
    | .fin _ m e, .fin _ n k =>
      let sh := 60 + Nat.log2 n
      ieeeRound f rm s (stickyDiv m n sh) (e - k - sh - 1)
    | _, _ => invalidNan f

/-- Integer square root, one bit at a time from bit k − 1. -/
def isqrtFrom (n : Nat) : Nat → Nat → Nat
  | 0, acc => acc
  | k + 1, acc => isqrtFrom n k (if (acc + 2 ^ k) * (acc + 2 ^ k) ≤ n then acc + 2 ^ k else acc)

def isqrt (n : Nat) : Nat := isqrtFrom n (Nat.log2 n / 2 + 1) 0

/-- √(m × 2^e) as n × 2^k with the last bit set when inexact. -/
def stickySqrt (m : Nat) (e : Int) : Nat × Int :=
  let e' : Int := if e % 2 = 0 then e else e - 1
  let m' := if e % 2 = 0 then m else 2 * m
  let r := isqrt (m' * 2 ^ 120)
  (2 * r + (if r * r = m' * 2 ^ 120 then 0 else 1), e' / 2 - 61)

def laneSqrt (f : Fmt) (rm : Rm) (a : Nat) : Conv :=
  match propagate f [a] with
  | some r => r
  | none =>
    match decodeFloat f a with
    | .zero => ⟨zeroCode f (signBit f a), 0⟩
    | .inf false => ⟨infCode f false, 0⟩
    | .fin false m e => let r := stickySqrt m e; ieeeRound f rm false r.1 r.2
    | _ => invalidNan f

/-- Order of two non-NaN values with −0 below +0: whether a is at or below b. -/
def numLe (x : Num) (s : Bool) (y : Num) (t : Bool) : Bool :=
  match x, y with
  | .inf a, .inf b => a || !b
  | .inf a, _ => a
  | _, .inf b => !b
  | x, y =>
    let d := (addScaled x.scaled y.neg.scaled).1
    if d = 0 then (s || !t) else decide (d < 0)

def laneMinMax (f : Fmt) (isMax number : Bool) (a b : Nat) : Conv :=
  let fl := if laneSnan f a || laneSnan f b then fINV else 0
  if number && laneNan f a && !laneNan f b then ⟨b, fl⟩
  else if number && laneNan f b && !laneNan f a then ⟨a, fl⟩
  else match propagate f [a, b] with
    | some r => r
    | none =>
      let le := numLe (decodeFloat f a) (signBit f a) (decodeFloat f b) (signBit f b)
      ⟨if le != isMax then a else b, 0⟩

/-- Whether vA CC vB holds, with the flags of R155. -/
def laneCmp (f : Fmt) (cc a b : Nat) : Bool × BitVec 5 :=
  if laneNan f a || laneNan f b then
    (cc = 1 || cc = 4,
      if laneSnan f a || laneSnan f b || cc = 2 || cc = 3 then fINV else 0)
  else
    let x := decodeFloat f a
    let y := decodeFloat f b
    let le := numLe x false y false
    let ge := numLe y false x false
    (match cc with | 0 => le && ge | 1 => !(le && ge) | 2 => le && !ge | 3 => le | _ => false, 0)

/-! ## Conversions (R157, R525) -/

def iBits (f : Fmt) : Nat := fmtBits f

/-- A value to an integer of w bits under RM; one out of range raises INV and no INX (R157). (DESIGN CHOICE, log entry 159.) -/
def numToInt (w : Nat) (rm : Rm) (x : Num) : Conv :=
  match x with
  | .nan => ⟨0, fINV⟩
  | .inf s => ⟨if s then 2 ^ (w - 1) else 2 ^ (w - 1) - 1, fINV⟩
  | .zero => ⟨0, 0⟩
  | .fin s m e =>
    let (q, r, d) := quantize m e 0
    let q' := if rmUp rm s q r d then q + 1 else q
    if s && 2 ^ (w - 1) < q' then ⟨2 ^ (w - 1), fINV⟩
    else if !s && 2 ^ (w - 1) ≤ q' then ⟨2 ^ (w - 1) - 1, fINV⟩
    else ⟨ofSigned (if s then -(q' : Int) else q') w, if r = 0 then 0 else fINX⟩

/-- An exact value to a floating lane format; a NaN becomes the canonical one, of which the spec names no code (R38, R161).
(DESIGN CHOICE, log entry 158.) -/
def numToFloat (f : Fmt) (rm : Rm) (x : Num) : Conv :=
  match x with
  | .nan => ⟨nanCode f, 0⟩
  | .inf s => ⟨infCode f s, 0⟩
  | .zero => ⟨0, 0⟩
  | .fin s m e => ieeeRound f rm s m e

/-- Between floating lane formats (R153, R525). -/
def floatToFloat (src dst : Fmt) (rm : Rm) (c : Nat) : Conv :=
  match decodeFloat src c with
  | .nan =>
    let ms := (fmtFloat src).1
    let md := (fmtFloat dst).1
    let pay := c % 2 ^ ms
    let p := if ms ≤ md then pay * 2 ^ (md - ms) else pay / 2 ^ (ms - md)
    ⟨quietOf dst (infCode dst (signBit src c) + p), if laneSnan src c then fINV else 0⟩
  | .zero => ⟨zeroCode dst (signBit src c), 0⟩
  | x => numToFloat dst rm x

/-- VCVT of one element. -/
def laneCvt (src dst : Fmt) (rm : Rm) (c : Nat) : Conv :=
  if fmtInt src then
    if fmtInt dst then numToInt (iBits dst) rm (decodeNum src c)
    else numToFloat dst rm (decodeNum src c)
  else if fmtInt dst then numToInt (iBits dst) rm (decodeFloat src c)
  else floatToFloat src dst rm c

/-! ## Transcendental functions (R166, Table 5-6)

A result outside the exact and special cases is a free value held to the bound of the table. The bound
is tested against fixed-point approximations with 448 fraction bits: no result and no bound of a
binary32 operand lie as close to one another as their error. -/

/-- Fraction bits of the approximations. -/
def fxBits : Nat := 448

def fxOne : Int := 2 ^ fxBits

def fxMul (a b : Int) : Int := a * b / fxOne

/-- sum of z^(2k+1) / (2k+1), alternating where alt is true: atanh or atan of a small z. -/
def fxArc (alt : Bool) (z2 : Int) : Nat → Int → Nat → Int → Int
  | 0, _, _, acc => acc
  | n + 1, p, k, acc =>
    fxArc alt z2 n (fxMul p z2) (k + 1) (acc + (if alt && k % 2 = 1 then -1 else 1) * (p / (2 * k + 1)))

def fxAtanh (z : Int) : Int := fxArc false (fxMul z z) 150 z 0 0

/-- ln 2 = 2 atanh(1/3). -/
def fxLn2 : Int := 2 * fxAtanh (fxOne / 3)

/-- π/2 with 640 fraction bits, by Machin's formula: enough for the largest binary32. -/
def wideAtanInv (n : Int) : Nat → Int → Nat → Int → Int
  | 0, _, _, acc => acc
  | j + 1, p, k, acc =>
    wideAtanInv n j (p / (n * n)) (k + 1) (acc + (if k % 2 = 1 then -1 else 1) * (p / (2 * k + 1)))

def halfPiWide : Int :=
  2 * (4 * wideAtanInv 5 145 (2 ^ 640 / 5) 0 0 - wideAtanInv 239 45 (2 ^ 640 / 239) 0 0)

/-- sum of t^k / k! over k in one residue class by `step` signs: exp, or the even and odd parts. -/
def fxSeries (t : Int) (neg : Bool) (by2 : Bool) : Nat → Int → Nat → Int → Int
  | 0, _, _, acc => acc
  | n + 1, p, k, acc =>
    let p1 := fxMul p t / (k + 1)
    let p2 := if by2 then fxMul p1 t / (k + 2) else p1
    fxSeries t neg by2 n (if neg then -p2 else p2) (if by2 then k + 2 else k + 1) (acc + p)

/-- 2^(n × 2^e) as a mantissa in fixed point in [1, 2) and an exponent. -/
def fxExp2 (n : Int) (e : Int) : Int × Int :=
  let x := if 0 ≤ e + fxBits then n * 2 ^ (e + fxBits).toNat else n / 2 ^ (-(e + fxBits)).toNat
  let i := x / fxOne
  let f := x - i * fxOne
  (fxSeries (fxMul f fxLn2) false false 95 fxOne 0 0, i)

/-- log2 of m × 2^e in fixed point. -/
def fxLog2 (m : Nat) (e : Int) : Int :=
  let k := Nat.log2 m
  let x : Int := (m : Int) * fxOne / 2 ^ k
  let z := (x - fxOne) * fxOne / (x + fxOne)
  (e + k) * fxOne + 2 * fxAtanh z * fxOne / fxLn2

/-- sin (or cos) of n × 2^e in fixed point, the argument reduced exactly by π/2. -/
def fxSin (cos : Bool) (n : Int) (e : Int) : Int :=
  let x := if 0 ≤ e + 640 then n * 2 ^ (e + 640).toNat else n / 2 ^ (-(e + 640)).toNat
  let q := x / halfPiWide
  let t := (x - q * halfPiWide) / 2 ^ (640 - fxBits)
  let s := fxSeries t true true 60 t 1 0
  let c := fxSeries t true true 60 fxOne 0 0
  match (q + (if cos then 1 else 0)) % 4 with
  | 0 => s
  | 1 => c
  | 2 => -s
  | _ => -c

/-- A candidate code's value in fixed point times 2^k; an infinity counts as 2^128. -/
def candFx (c : Nat) (k : Int) : Int :=
  let x := match decodeFloat 0xA c with
    | .inf s => (if s then -1 else 1, (128 : Int))
    | y => y.scaled
  let sh := x.2 + fxBits + k
  if 0 ≤ sh then x.1 * 2 ^ sh.toNat else x.1 / 2 ^ (-sh).toNat

/-- Whether a candidate lies within a bound of an approximation, all in fixed point times 2^k. -/
def within (c : Nat) (k : Int) (approx bound : Int) : Bool :=
  !laneNan 0xA c && decide ((candFx c k - approx).natAbs ≤ bound.natAbs)

/-- An approximation times 2^(-k) rounded to binary32. -/
def fxRound (x : Int) (k : Int) : Nat :=
  if x = 0 then 0 else (ieeeRound 0xA 0 (decide (x < 0)) x.natAbs (-fxBits - k)).code

/-- The binary32 spacing at x in fixed point times 2^k, as an exponent. -/
def ulpExp (x : Int) (k : Int) : Int := spacing 0xA x.natAbs (-fxBits - k)

/-- The free value where it meets the bound, else the approximation rounded. (DESIGN CHOICE, log entry 11.) -/
def freeWithin (cand : Nat) (k approx bound : Int) : Nat :=
  if within cand k approx bound then cand else fxRound approx k

/-- A result outside the exact cases: INX, UNF when it is tiny, OVF when it is infinite. The special cases of Table 5-6
raise what their column says and no INX. (DESIGN CHOICE, log entry 150.) -/
def inexactRes (c : Nat) : Conv :=
  ⟨c, fINX ||| (if c / 2 ^ 23 % 256 = 0 then fUNF else if c / 2 ^ 23 % 256 = 255 then fOVF else 0)⟩

/-- n ulp at the approximation, in fixed point times 2^k. -/
def ulpBound (n : Int) (approx k : Int) : Int :=
  let u := ulpExp approx k + fxBits + k
  if 0 ≤ u then n * 2 ^ u.toNat else 1

/-- VEXP2 (Table 5-6): free within its 2 ulp, and held to no closer bound for VSMA's sake (R173). (DESIGN CHOICE, log
entry 157.) -/
def vexp2 (c : Nat) : Conv :=
  match propagate 0xA [c] with
  | some r => r
  | none =>
    match decodeFloat 0xA c with
    | .inf true => ⟨0, 0⟩
    | .inf false => ⟨infCode 0xA false, 0⟩
    | .zero => ⟨0x3F800000, 0⟩
    | .nan => invalidNan 0xA
    | .fin s m e =>
      let x : Int × Int := (if s then -(m : Int) else m, e)
      if !s && !magLt m e 128 0 then ⟨infCode 0xA false, fOVF ||| fINX⟩
      else
        let whole := if 0 ≤ e then true else decide (m % 2 ^ (-e).toNat = 0)
        if s && !magLt m e 1000 0 then
          inexactRes (freeWithin (Config.exp2 (BitVec.ofNat 32 c)).toNat 149 1 fxOne)
        else
          let (mant, i) := fxExp2 x.1 x.2
          if whole && -126 ≤ i then ⟨encodeFloat 0xA false 1 i, 0⟩
          else
            let bound := if i < -126 then 2 ^ ((fxBits : Int) - 149 - i).toNat else ulpBound 2 mant (-i)
            inexactRes (freeWithin (Config.exp2 (BitVec.ofNat 32 c)).toNat (-i) mant bound)

def vlog2 (c : Nat) : Conv :=
  match propagate 0xA [c] with
  | some r => r
  | none =>
    match decodeFloat 0xA c with
    | .zero => ⟨infCode 0xA true, fDIVZ⟩
    | .inf false => ⟨infCode 0xA false, 0⟩
    | .fin false m e =>
      if m = 2 ^ Nat.log2 m then numToFloat 0xA 0 (Num.ofInt (flog2 m e))
      else
        let a := fxLog2 m e
        let near := !magLt m e 1 (-1) && !magLt 2 0 m e
        inexactRes (freeWithin (Config.log2 (BitVec.ofNat 32 c)).toNat 0 a
          (if near then 2 ^ (fxBits - 22) else ulpBound 2 a 0))
    | _ => invalidNan 0xA

def vrcp (c : Nat) : Conv :=
  match propagate 0xA [c] with
  | some r => r
  | none =>
    let sg := signBit 0xA c
    match decodeFloat 0xA c with
    | .zero => ⟨infCode 0xA sg, fDIVZ⟩
    | .inf s => ⟨zeroCode 0xA s, 0⟩
    | .nan => invalidNan 0xA
    | .fin s m e =>
      let k := Nat.log2 m
      let ex : Int := -(k + e)
      if m = 2 ^ k && -126 ≤ ex && ex ≤ 127 then ⟨encodeFloat 0xA s 1 ex, 0⟩
      else
        let a := (if s then -1 else 1) * ((2 : Int) ^ (fxBits + k) / m)
        inexactRes (freeWithin (Config.rcp (BitVec.ofNat 32 c)).toNat (-ex) a (ulpBound 1 a (-ex)))

def vrsqrt (c : Nat) : Conv :=
  match propagate 0xA [c] with
  | some r => r
  | none =>
    match decodeFloat 0xA c with
    | .zero => ⟨infCode 0xA (signBit 0xA c), fDIVZ⟩
    | .inf false => ⟨0, 0⟩
    | .fin false m e =>
      let k := Nat.log2 m
      let ex := (k : Int) + e
      if m = 2 ^ k && ex % 2 = 0 then ⟨encodeFloat 0xA false 1 (-(ex / 2)), 0⟩
      else
        let h := ex / 2
        let m' := if ex % 2 = 0 then m else 2 * m
        let a : Int := isqrt (2 ^ (2 * fxBits + k) / m')
        inexactRes (freeWithin (Config.rsqrt (BitVec.ofNat 32 c)).toNat h a (ulpBound 1 a h))
    | _ => invalidNan 0xA

/-- sin, or cos where `cos` is true. -/
def vtrig (cos : Bool) (free : Word32 → Word32) (c : Nat) : Conv :=
  match propagate 0xA [c] with
  | some r => r
  | none =>
    match decodeFloat 0xA c with
    | .zero => ⟨if cos then 0x3F800000 else c, 0⟩
    | .fin s m e =>
      inexactRes (freeWithin (free (BitVec.ofNat 32 c)).toNat 0
        (fxSin cos (if s then -(m : Int) else m) e) (2 ^ (fxBits - 23)))
    | _ => invalidNan 0xA

def vsin (c : Nat) : Conv := vtrig false Config.sin c

def vcos (c : Nat) : Conv := vtrig true Config.cos c

/-! ## The random generator (R175) -/

def genStep (st : Word64 × Word64 × Word64) : Word64 × Word64 × Word64 :=
  let (x, y, k) := st
  let x1 := (x ^^^ k) * 0xB3A15C7D9E246F0B
  let x2 := x1 ^^^ (x1 >>> 29)
  let y1 := y + x2
  (x2 ^^^ y1.rotateLeft 17, y1, k + 0x8F5A3C27E1D94B63)

/-- gen64(seed, tag, l). -/
def gen64 (seed : Word64) (tag : Half) (l : Nat) : Word64 :=
  let t : Word64 := tag.setWidth 64
  let r := (List.range 8).foldl (fun st _ => genStep st) (BitVec.ofNat 64 l, t ^^^ 0x5D2B7E31C4A60F98, seed)
  r.1 ^^^ r.2.1

/-- rand24 of R49. -/
def rand24 (seed : Word64) (tag : Half) (l : Nat) : Nat := (gen64 seed tag l).toNat % 2 ^ 24

end Sys2Proof.Machine
end

