-- ==== Sys2Proof/Machine/Order.lean ====
section
/-!
DEFINITION. The order of accesses (spec 07, R224 to R247): which older values of a granule a read may still
return, since a copy of it may serve the read, what orders a write before a read, and in which order two parties'
writes of one granule take effect.
-/

namespace Sys2Proof.Machine

/-! ## Operations and commands in execution (R223, R226, R237) -/

/-- Operations launched and not ended. -/
def State.inFlight (s : State) : List Nat :=
  (s.sch.ops.filter (fun o => o.kind = .launch || o.kind = .copy || o.kind = .collective)).map (·.id)

/-- The engine commands of a core in execution, with their operations. -/
def Core.running (c : Core) (g : Nat) : List (Nat × Writer) :=
  (c.op.toList.flatMap (fun id =>
    c.mat.exec.map (fun x => (id, Writer.engine g .matrix x.cmd.n)) ++
      c.vec.run.map (fun k => (id, Writer.engine g .vector k.n)))) ++
    c.fer.chans.filterMap (fun x => (match x.2.copyOf with | some id => some id | none => c.op).map (fun id =>
      (id, Writer.engine g .ferry x.2.cmd.n)))

/-- Every engine command and collective in execution. -/
def State.running (s : State) : List (Nat × Writer) :=
  s.cores.flatMap (fun x => x.2.running x.1) ++
    (List.finRange 2).flatMap (fun e => (s.eng e).run.toList.map (fun c => (c.op, Writer.collective e.val)))

/-- Two writers are one party (R223). -/
def Writer.party (a b : Writer) : Bool :=
  match a, b with
  | .engine g e _, .engine h f _ => g = h && e = f
  | x, y => x = y

/-! ## Granules (R225, R227, R231) -/

/-- A granule as it stands. -/
def State.gran (s : State) (l : Loc) (n : Nat) : Gran :=
  ⟨bytesAt (s.store l).cells (64 * n) 64, s.poisoned l n, s.marksOf l n⟩

/-- The access writes the byte at place i. -/
def GranPut.covers (p : GranPut) (i : Nat) : Bool := p.bytes.any (fun b => b.1 = i)

/-- The access writes the whole granule. -/
def GranPut.whole (p : GranPut) : Bool := (List.range 64).all p.covers

/-- A granule once an access has written it: a whole write brings its own poison bit and marks, a masked one leaves those
that stand. -/
def Gran.put (x : Gran) (p : GranPut) : Gran :=
  { bytes := (List.range 64).map (fun i => (((p.bytes.filter (fun b => b.1 = i)).getLast?).map Prod.snd).getD (x.bytes.getD i 0))
    poison := p.poison || (!p.whole && x.poison)
    marks := if p.whole then p.marks else setUnion p.marks x.marks }

/-- What a store of bytes by their addresses puts into a granule. -/
def granPut (bytes : List (Nat × Byte)) (poison : Bool) (marks : List Nat) : GranPut :=
  ⟨bytes.map (fun b => (b.1 % 64, b.2)), poison, marks⟩

/-! ## In which order writes take effect (R226, R228, R233) -/

def locCode : Loc → Nat
  | .quay d => d.val
  | .dmem => 8
  | .lsp g => 16 + g

/-- The number under which a collective engine reads, and the dispatcher. -/
def collReader (e : Nat) : Nat := 4096 + e

def dispReader : Nat := 4098

def writerCode : Writer → List Nat
  | .engine g e n => [g, engCode e, n.toNat]
  | .sequencer g => [g, 3]
  | .collective e => [collReader e]
  | .dispatcher op => [dispReader, op]
  | .host => [4099]
  | .device c => [4100 + c.toNat]

/-- The writes of a granule that operations in flight have not all to see, in the order in which they take effect. -/
def State.writesOf (s : State) (l : Loc) (n : Nat) : List OldGran := s.old.filter (fun o => o.loc = l && o.n = n)

/-- No order stands between a write now of w, a command of operation `op`, and one that came to the granule before: the
command was in execution then; of two other devices, neither can have heard of the other's write within 1 ns. -/
def OldGran.unordered (o : OldGran) (op : Option Nat) (w : Writer) (now : Nat) : Bool :=
  !w.party o.writer && (op.any (fun id => o.rivals.contains (id, w)) ||
    (match w, o.writer with | .device _, .device _ => decide (o.at_ = now) | _, _ => false))

/-- The last of a list of writes for which f holds, given each one's place from the end. -/
def lastOnes (f : Nat → OldGran → Bool) (l : List OldGran) : List OldGran :=
  ((l.reverse.zipIdx.takeWhile (fun x => f x.2 x.1)).map Prod.fst).reverse

/-- The writes of a granule before which a write now of w takes effect. (DESIGN CHOICE, log entry 24.) -/
def State.later (s : State) (op : Option Nat) (w : Writer) (l : Loc) (n : Nat) : List OldGran :=
  lastOnes (fun i o => o.unordered op w s.wall && Config.writesFirst (i :: op.getD 0 :: locCode l :: n :: writerCode w))
    (s.writesOf l n)

/-- A byte that w writes stays behind: no write that takes effect after it covers the byte. -/
def State.lands (s : State) (op : Option Nat) (w : Writer) (y : Loc × Nat) : Bool :=
  !(s.later op w y.1 (y.2 / 64)).any (fun o => o.put.covers (y.2 % 64))

/-- Writes that take effect one after the other on a granule, each with what the granule held before it. -/
def inTurn : List OldGran → Gran → List OldGran
  | [], _ => []
  | o :: t, x => { o with was := x } :: inTurn t (x.put o.put)

/-- Writer w is another device. -/
def Writer.isDevice : Writer → Bool
  | .device _ => true
  | _ => false

/-- The operations in flight that may still read what a write of w replaces: the dispatcher's writes to load an operation
come before its every access (R238). -/
def State.readersOf (s : State) (w : Writer) : List Nat :=
  s.inFlight.filter (fun id => w ≠ .dispatcher id)

/-- From s to t, w has written a granule, before the writes in `later`: what it held stays readable to the operations in
flight (R224, R237). -/
def State.noted (t s : State) (op : Option Nat) (w : Writer) (after : Option Nat) (l : Loc) (n : Nat) (p : GranPut)
    (later : List OldGran) : State :=
  if s.inFlight.isEmpty && !w.isDevice then t
  else
    let x : Gran := match later with | [] => s.gran l n | o :: _ => o.was
    let o : OldGran :=
      { loc := l, n := n, was := x, put := p, writer := w, op := op, at_ := s.wall
        ops := match later with | [] => s.readersOf w | o :: _ => o.ops
        rivals := s.running.filter (fun r => !w.party r.2), after := after }
    let all := t.writesOf l n
    { t with old := t.old.filter (fun y => !(y.loc = l && y.n = n)) ++ all.take (all.length - later.length) ++
        o :: inTurn later (x.put p) }

/-- A granule's bytes `live` change, and its poison bit and marks become those given; each word or line written gets fresh
check symbols. -/
def State.setGran (s : State) (l : Loc) (n : Nat) (live : List (Nat × Byte)) (poison : Bool) (marks : List Nat) : State :=
  let st := s.store l
  let sram := l ≠ .dmem
  let t := s.setStore l
    { cells := putCells st.cells live
      poison := if poison then setAdd n st.poison else setDel n st.poison
      errs := st.errs.filter (fun x => !(if sram then touchesWord live x.1 else live.any (fun b => b.1 / 64 = x.1))) }
  match l with
  | .lsp g => t.setCore g { t.core g with marks := smPut [] (t.core g).marks n marks }
  | _ => t

/-- One access of w writes bytes of a granule, with the poison and the checks they carry: the granule ends as if the
writes to it had been performed one after the other, this one before those that no order puts first and the free choice
puts last (R225 to R227, R231, R233). -/
def State.orderGran (s : State) (op : Option Nat) (w : Writer) (after : Option Nat) (l : Loc) (n : Nat)
    (bytes : List (Nat × Byte)) (poison : Bool) (marks : List Nat) : State :=
  let later := s.later op w l n
  let p := granPut bytes poison marks
  (match later with
    | [] => s.writeGran l n bytes poison marks
    | o :: _ =>
      let t := s.preWrite l n bytes
      let x := later.foldl (fun (y : Gran) (z : OldGran) => y.put z.put) (o.was.put p)
      let found := t.poisoned l n && !s.poisoned l n
      t.setGran l n (bytes.filter (fun b => s.lands op w (l, b.1))) (x.poison || found) x.marks).noted s op w after l n p later

/-- As `orderGran`, for a run of bytes: one access for each granule it touches. -/
def State.writeRunAs (s : State) (op : Option Nat) (w : Writer) (after : Option Nat) (l : Loc) (a : Nat)
    (bytes : List Byte) (poison : Bool) : State :=
  (byGranule (addressed a bytes)).foldl (fun t x => t.orderGran op w after l x.1 x.2 poison []) s

/-- The dispatcher marks every granule of a byte range poisoned (R272). -/
def State.poisonAs (s : State) (w : Writer) (l : Loc) (a len : Nat) : State :=
  (granulesOf a len).foldl (fun t n => t.noted s none w none l n ⟨[], true, []⟩ []) (s.poisonRange l a len)

/-- An operation has ended: no access of it remains. -/
def State.endReads (s : State) (op : Nat) : State :=
  let left := s.old.map (fun o => { o with ops := o.ops.filter (· ≠ op), rivals := o.rivals.filter (fun r => r.1 ≠ op) })
  { s with old := left.filter (fun o => !o.ops.isEmpty || (o.writer.isDevice && o.at_ = s.wall)) }

/-- 1 ns has passed: a write of another device that no operation in flight may miss is in order before every later one. -/
def State.dropOld (s : State) : State := { s with old := s.old.filter (fun o => !o.ops.isEmpty) }

/-- A wait of core g for n commands of engine e has ended (R235): their writes come before every access that the
core issues later. -/
def State.waited (s : State) (g : Nat) (e : Eng) (n : Word32) : State :=
  { s with old := s.old.map (fun o =>
      match o.writer, o.after with
      | .engine h f k, none =>
        if h = g && f = e && reached n k then { o with after := some (s.core g).seq.ord } else o
      | _, _ => o) }

/-! ## What a read returns (R225, R232 to R238) -/

/-- A read of a core, of a collective engine or of the dispatcher under its number: its engine (none for the sequencer),
its instruction's place in program order, the operation it belongs to, and whether it may read its own core's unverified
granules (Table 12-3). -/
structure Reader where
  core   : Nat
  eng    : Option Eng
  ord    : Nat
  op     : Option Nat
  inside : Bool
  deriving DecidableEq, Repr

/-- The write comes before the read: it was performed before the read's operation was launched (R238, R240), or, for a read
of the dispatcher, its operation has ended (R240, R242). -/
def OldGran.settled (o : OldGran) (r : Reader) : Bool :=
  match r.op with
  | some id => !o.ops.contains id
  | none => r.core ≠ dispReader || !o.op.any o.ops.contains

/-- The write is the reading party's own (R232), or of the same core and a scalar store issued before (R234) or
ordered by a wait (R235): the read does not return what its bytes held before. -/
def OldGran.own (o : OldGran) (r : Reader) : Bool :=
  let before := match o.after with | some k => decide (k < r.ord) | none => false
  match o.writer with
  | .engine h e _ => h = r.core && (r.eng = some e || before)
  | .sequencer h => h = r.core && (r.eng = none || before)
  | .collective e => collReader e = r.core
  | _ => false

/-- The older values of a granule that a read may return: those that no write before the read has replaced. One that still
awaits a check serves only its own core's engines (R402, R404). -/
def State.copies (s : State) (r : Reader) (l : Loc) (n : Nat) : List Gran :=
  ((s.writesOf l n).foldl (fun a o =>
    if o.settled r then []
    else if o.own r then (if o.put.whole then [] else a.map (·.put o.put))
    else a ++ [o.was]) []).filter (fun x => (r.inside && l = .lsp r.core) || x.marks.isEmpty)

/-- The older value that an access of a read gets for a granule, none for the granule as it stands. `k` tells the
accesses of one instruction apart. (DESIGN CHOICE, log entry 26.) -/
def State.pick (s : State) (r : Reader) (k : Nat) (l : Loc) (n : Nat) : Option Gran :=
  match s.copies r l n with
  | [] => none
  | x :: c =>
    match Config.oldRead [r.op.getD 0, r.core, r.ord, k, locCode l, n] % (c.length + 2) with
    | 0 => none
    | i + 1 => (x :: c)[i]?

/-- A byte as a core's read gets it. -/
def State.seenByte (s : State) (r : Reader) (k : Nat) (l : Loc) (a : Nat) : Byte :=
  match s.pick r k l (a / 64) with
  | none => s.readByte l a
  | some o => o.bytes.getD (a % 64) 0

/-- Whether the granule comes poisoned (R227). -/
def State.seenBad (s : State) (r : Reader) (k : Nat) (l : Loc) (n : Nat) : Bool :=
  match s.pick r k l n with
  | none => s.poisoned l n
  | some o => o.poison

/-- The checks that the granule's value awaits (R227, R401). -/
def State.seenMarks (s : State) (r : Reader) (k : Nat) (l : Loc) (n : Nat) : List Nat :=
  match s.pick r k l n with
  | none => s.marksOf l n
  | some o => o.marks

/-- The bytes of a granule as a read gets them. -/
def State.seenGran (s : State) (r : Reader) (k : Nat) (l : Loc) (n : Nat) : List Byte :=
  (List.range 64).map (fun i => s.seenByte r k l (64 * n + i))

/-- The little-endian value of n bytes as a core's read gets them. -/
def State.seenLE (s : State) (r : Reader) (l : Loc) (a n : Nat) : Nat :=
  leNat ((List.range n).map (fun i => s.seenByte r 0 l (a + i)))

/-- A read of core g's kernel. -/
def State.reader (s : State) (g : Nat) (e : Option Eng) (ord : Nat) (inside : Bool) : Reader :=
  ⟨g, e, ord, (s.core g).op, inside⟩

/-- The byte places of a run. -/
def runPlaces (l : Loc) (a n : Nat) : List (Loc × Nat) := (List.range n).map (fun i => (l, a + i))

/-- A read of the dispatcher: of command or operation `ord`. (DESIGN CHOICE, log entry 26.) -/
def readOfDispatcher (ord : Nat) : Reader := ⟨dispReader, none, ord, none, false⟩

/-- The bytes of a DMEM range as the dispatcher reads them for purpose k, a granule in each access (Table 7-3). -/
def State.dispBytes (s : State) (ord k a n : Nat) : List Byte :=
  (((granulesOf a n).flatMap (fun g => match s.pick (readOfDispatcher ord) k .dmem g with
    | none => bytesAt s.dmem.cells (64 * g) 64
    | some x => x.bytes)).drop (a % 64)).take n

end Sys2Proof.Machine
end

