-- ==== Sys2Proof/Machine/Operands.lean ====
section
/-!
DEFINITION. Tensor descriptors: fields, logical view, addresses, spans, validation (spec 06, R179 to
R193), reading and writing elements through them.
-/

namespace Sys2Proof.Machine

/-! ## Fields (Table 6-1) -/

/-- Bits lo to lo + n − 1 of a descriptor. -/
def dfield (d : Desc) (lo n : Nat) : Nat := d.toNat / 2 ^ lo % 2 ^ n

def dBase (d : Desc) : Nat := dfield d 0 40
/-- Signed byte stride of stored dimension k. -/
def dStride (d : Desc) (k : Nat) : Int := toSigned (dfield d (40 + 40 * k) 40) 40
/-- Extent of stored dimension k. -/
def dExt (d : Desc) (k : Nat) : Nat := dfield d (240 + 32 * k) 32
def dSoff (d : Desc) : Int := toSigned (dfield d 400 32) 32
def dTag (d : Desc) : Half := BitVec.ofNat 16 (dfield d 432 16)
def dPdev (d : Desc) : Coord := BitVec.ofNat 14 (dfield d 448 14)
def dPsub (d : Desc) : Bool := dfield d 462 1 = 1
def dHist (d : Desc) : Bool := dfield d 463 1 = 1
def dPermCode (d : Desc) : Nat := dfield d 464 7
def dBsc (d : Desc) : Bool := dfield d 471 1 = 1
def dFmt (d : Desc) : Fmt := BitVec.ofNat 4 (dfield d 472 4)
def dRank (d : Desc) : Nat := dfield d 476 3
def dSpace (d : Desc) : Nat := dfield d 479 3
def dIdxp (d : Desc) : BitVec 2 := BitVec.ofNat 2 (dfield d 482 2)
def dRnd (d : Desc) : BitVec 2 := BitVec.ofNat 2 (dfield d 484 2)
def dOvf (d : Desc) : BitVec 2 := BitVec.ofNat 2 (dfield d 486 2)
def dRsv (d : Desc) : Nat := dfield d 488 24

/-- Write a field of a descriptor. -/
def dSet (d : Desc) (lo n v : Nat) : Desc :=
  BitVec.ofNat 512 (d.toNat - dfield d lo n * 2 ^ lo + v % 2 ^ n * 2 ^ lo)

/-! ## Logical view (R183 to R185) -/

def fact : Nat → Nat
  | 0 => 1
  | n + 1 => (n + 1) * fact n

/-- The first `rank` entries of decode_perm. -/
def permFrom : Nat → Nat → List Nat → List Nat
  | 0, _, _ => []
  | k + 1, code, avail =>
    let f := fact k
    let x := avail.getD (code / f) 0
    x :: permFrom k (code % f) (avail.erase x)

/-- decode_perm (R183): identity above the rank. -/
def decodePerm (code rank : Nat) : List Nat :=
  permFrom rank code (List.range rank) ++ (List.range 5).drop rank

def permAt (d : Desc) (k : Nat) : Nat := (decodePerm (dPermCode d) (dRank d)).getD k k

/-- Extent of logical dimension k; 1 at or above the rank (R184). -/
def lExt (d : Desc) (k : Nat) : Nat := if k < dRank d then dExt d (permAt d k) else 1

def lStride (d : Desc) (k : Nat) : Int := if k < dRank d then dStride d (permAt d k) else 0

/-- The five logical extents. -/
def lExts (d : Desc) : List Nat := (List.range 5).map (lExt d)

/-- The number of elements of the logical view. -/
def elemCount (d : Desc) : Nat := (lExts d).foldl (· * ·) 1

/-- The logical indices of a linear index (R49). -/
def unflatten : List Nat → Nat → List Nat
  | [], _ => []
  | n :: t, l => l % n :: unflatten t (l / n)

/-- The linear index of logical indices (R49). -/
def flatten : List Nat → List Nat → Nat
  | n :: t, i :: r => i + n * flatten t r
  | _, _ => 0

def indicesOf (d : Desc) (l : Nat) : List Nat := unflatten (lExts d) l

def linearOf (d : Desc) (ix : List Nat) : Nat := flatten (lExts d) ix

/-! ## Addresses (R186 to R190) -/

/-- A packed format: 4 or 6 bits. -/
def dPacked (d : Desc) : Bool := fmtBits (dFmt d) < 8

/-- An element's size in bytes, for formats of 8 bits or more. -/
def dBytes (d : Desc) : Nat := fmtBits (dFmt d) / 8

/-- Bytes of a packed row (R29). -/
def rowBytes (d : Desc) : Nat := (lExt d 0 * fmtBits (dFmt d) + 7) / 8

/-- Sum of index × stride over logical dimensions from k on. -/
def strideSum (d : Desc) (ix : List Nat) (k : Nat) : Int :=
  (List.range 5).foldl (fun a j => if k ≤ j then a + (ix.getD j 0 : Int) * lStride d j else a) 0

/-- Byte address and bit within it of an element's first bit. -/
def elemAddr (d : Desc) (ix : List Nat) : Nat × Nat :=
  if dPacked d then
    let row := ((dBase d : Int) + strideSum d ix 1).toNat
    let b := ix.getD 0 0 * fmtBits (dFmt d)
    (row + b / 8, b % 8)
  else (((dBase d : Int) + strideSum d ix 0).toNat, 0)

/-- The addresses of the bytes that hold an element. -/
def elemBytes (d : Desc) (ix : List Nat) : List Nat :=
  let (a, b) := elemAddr d ix
  (List.range ((b + fmtBits (dFmt d) + 7) / 8)).map (a + ·)

/-- Blocks per row of the stored grid. -/
def scaleCols (d : Desc) : Nat := (dExt d 0 + 31) / 32

/-- The stored index of stored dimension m under logical indices. -/
def storedIx (d : Desc) (ix : List Nat) (m : Nat) : Nat :=
  (List.range (dRank d)).foldl (fun a k => if permAt d k = m then ix.getD k 0 else a) 0

/-- The stored extent of dimension m, 1 at or above the rank. -/
def sExt (d : Desc) (m : Nat) : Nat := if m < dRank d then dExt d m else 1

/-- The address of the scale byte of an element's block (R188). -/
def scaleAddr (d : Desc) (ix : List Nat) : Nat :=
  let i := storedIx d ix
  let row := i 1 + sExt d 1 * (i 2 + sExt d 2 * (i 3 + sExt d 3 * i 4))
  ((dBase d : Int) + dSoff d + (ix.getD 0 0 / 32 : Nat) + (scaleCols d * row : Nat)).toNat

/-- First and last byte of the span, relative to nothing (R190). -/
def spanOf (d : Desc) : Int × Int :=
  let k0 := if dPacked d then 1 else 0
  let e : Int := if dPacked d then rowBytes d else dBytes d
  let lo := (List.range 5).foldl (fun a k =>
    if k0 ≤ k then a + min 0 (((lExt d k : Int) - 1) * lStride d k) else a) (dBase d : Int)
  let hi := (List.range 5).foldl (fun a k =>
    if k0 ≤ k then a + max 0 (((lExt d k : Int) - 1) * lStride d k) else a) (dBase d : Int)
  (lo, hi + e - 1)

/-- First and last byte of the scale companion (R188). -/
def compSpan (d : Desc) : Int × Int :=
  let lo := (dBase d : Int) + dSoff d
  (lo, lo + (scaleCols d * sExt d 1 * sExt d 2 * sExt d 3 * sExt d 4 : Nat) - 1)

/-! ## Validation (R193, Table 6-3) -/

/-- What a command does with a descriptor. -/
inductive Role
  | source
  | dest (fscadd : Bool)
  | index
  deriving DecidableEq, Repr

/-- Whether addresses lie on a core's scratchpad of a named core. -/
def dGsp (d : Desc) : Bool := dSpace d = 1 || (dSpace d = 5 && dPsub d)

/-- Bits of BASE outside the form of Table 6-2. -/
def baseBad (d : Desc) : Bool :=
  match dSpace d with
  | 0 => 2 ^ 23 ≤ dBase d
  | 1 => 2 ^ 35 ≤ dBase d
  | 2 => 2 ^ 26 ≤ dBase d
  | 5 => dPsub d && 2 ^ 35 ≤ dBase d
  | _ => false

/-- Whether a span leaves its space's bound; `ap` is the host aperture's size. -/
def spanBad (ap : Nat) (d : Desc) (lo hi : Int) : Bool :=
  if dGsp d then
    let c : Int := (dBase d / 2 ^ 23 * 2 ^ 23 : Nat)
    decide (lo < c ∨ c + 2 ^ 23 ≤ hi)
  else
    let top : Nat := match dSpace d with
      | 0 => 2 ^ 23 | 2 => 2 ^ 26 | 4 => ap | _ => 0x9000000000
    decide (lo < 0 ∨ (top : Int) ≤ hi)

/-- Whether RND or OVF is refused under R48. INF for a binary64 destination, which the refusals of R48 do
not name, is accepted. (DESIGN CHOICE, log entry 126.) -/
def rndBad (d : Desc) : Bool :=
  2 ≤ (dRnd d).toNat || dOvf d = 3 || (fmtInt (dFmt d) && dOvf d ≠ 0) ||
    ((fmtFjx (dFmt d) || dBsc d) && dOvf d = 2)

/-- Whether the n-th check of Table 6-3 applies. `mul` names a multiplication operand of the matrix
engine (R33). -/
def checkFails (ap : Nat) (role : Role) (mul : Bool) (d : Desc) : Nat → Bool
  | 1 => 6 ≤ dSpace d
  | 2 => fmtReserved (dFmt d)
  | 3 => dRank d = 0 || 5 < dRank d
  | 4 => fact (dRank d) ≤ dPermCode d
  | 5 => (List.range (dRank d)).any (fun k => lExt d k = 0)
  | 6 => dRsv d ≠ 0 || (dSpace d ≠ 5 && (dPdev d ≠ 0 || dPsub d))
  | 7 => baseBad d
  | 8 => spanBad ap d (spanOf d).1 (spanOf d).2
  | 9 => dBsc d && !fmtScalable (dFmt d)
  | 10 => ((dPacked d || dBsc d) && permAt d 0 ≠ 0) || (dPacked d && dStride d 0 ≠ 1)
  | 11 => dBsc d && spanBad ap d (compSpan d).1 (compSpan d).2
  | 12 => (match role with | .dest _ => rndBad d | _ => false)
  | 13 => (match role with
      | .dest false => (List.range (dRank d)).any (fun k => 1 < lExt d k && lStride d k = 0)
      | _ => false)
  | 14 => (match role with | .index => (dFmt d ≠ 0xC && dFmt d ≠ 0xD) || dBsc d | _ => false)
  | 15 => mul && 0xB ≤ (dFmt d).toNat
  | _ => false

/-- The number of the first check that applies; none when the descriptor passes (R193). -/
def validate (ap : Nat) (role : Role) (mul : Bool) (d : Desc) : Option Nat :=
  ((List.range 16).drop 1).find? (checkFails ap role mul d)

/-! ## Reading elements -/

/-- What a party sees of a place: bytes, and the poison and unverified marks of granules. -/
structure View where
  byte  : Nat → Byte
  bad   : Nat → Bool
  marks : Nat → List Nat

def State.view (s : State) (l : Loc) : View :=
  ⟨s.readByte l, s.poisoned l, s.marksOf l⟩

/-- The place and local address of a descriptor's address on this device, for core g; none for HOST
and for another device. -/
def locOf (g : Nat) (d : Desc) (a : Nat) : Option (Loc × Nat) :=
  match dSpace d with
  | 0 => some (.lsp g, a)
  | 1 => some (.lsp (a / 2 ^ 23 % 4096), a % 2 ^ 23)
  | 2 => some (.quay (dieOf g), a)
  | 3 => some (.dmem, a)
  | 5 => if dPsub d then some (.lsp (a / 2 ^ 23 % 4096), a % 2 ^ 23) else some (.dmem, a)
  | _ => none

/-- What access k of a read sees through a descriptor, addressed as the descriptor addresses it. -/
def State.dview (s : State) (r : Reader) (k : Nat) (d : Desc) : View where
  byte a := match locOf r.core d a with
    | some (l, x) => s.seenByte r k l x
    | none => 0
  bad n := match locOf r.core d (n * 64) with
    | some (l, x) => s.seenBad r k l (x / 64)
    | none => false
  marks n := match locOf r.core d (n * 64) with
    | some (l, x) => s.seenMarks r k l (x / 64)
    | none => []

/-- The granules of this device that bytes addressed through a descriptor of core g lie in. -/
def storedBy (g : Nat) (d : Desc) (bs : List PendByte) : List (Loc × Nat) :=
  ((bs.map (fun b => b.addr / 64)).dedup).filterMap (fun n => (locOf g d (n * 64)).map (fun y => (y.1, y.2 / 64)))

/-- An element as read: its code, its block's scale, whether any granule read was poisoned, and the
checks its granules await. -/
structure Elem where
  code  : Nat
  scale : Option Byte
  bad   : Bool
  marks : List Nat
  deriving DecidableEq, Repr

/-- The granules an element's bytes, and its scale byte, lie in. -/
def elemGrans (d : Desc) (ix : List Nat) : List Nat :=
  let b := (elemBytes d ix).map (· / 64)
  (if dBsc d then scaleAddr d ix / 64 :: b else b).dedup

def codeAt (v : View) (d : Desc) (ix : List Nat) : Nat :=
  leNat ((elemBytes d ix).map v.byte) / 2 ^ (elemAddr d ix).2 % 2 ^ fmtBits (dFmt d)

def readElem (v : View) (d : Desc) (ix : List Nat) : Elem :=
  let gs := elemGrans d ix
  { code := codeAt v d ix
    scale := if dBsc d then some (v.byte (scaleAddr d ix)) else none
    bad := gs.any v.bad
    marks := gs.foldl (fun m x => setUnion m (v.marks x)) [] }

/-- The exact value of an element read (R36 to R38). -/
def Elem.num (f : Fmt) (e : Elem) : Num :=
  match e.scale with
  | none => decodeNum f e.code
  | some s => decodeScaled f e.code s

/-- Every granule that reading the whole view of a descriptor touches, as place and number. -/
def touchedBy (g : Nat) (d : Desc) (ixs : List (List Nat)) : List (Loc × Nat) :=
  (ixs.flatMap (fun ix => (elemGrans d ix).filterMap (fun n =>
    (locOf g d (n * 64)).map (fun x => (x.1, x.2 / 64))))).dedup

/-- Reads find the latent errors of what they touch (R230, R361). -/
def State.touchDesc (s : State) (g : Nat) (d : Desc) (ixs : List (List Nat)) : State :=
  (touchedBy g d ixs).foldl (fun t x => t.touch x.1 x.2) s

/-- All logical index vectors in canonical element order. -/
def allIx (d : Desc) : List (List Nat) := (List.range (elemCount d)).map (indicesOf d)

/-! ## Writing elements -/

/-- The written value of one element of a descriptor. -/
structure WElem where
  ix    : List Nat
  code  : Nat
  bad   : Bool
  marks : List Nat
  deriving DecidableEq, Repr

/-- A byte with the bits of element x that fall in the byte at address a put in, the rest kept. -/
def putBits (d : Desc) (a : Nat) (x : WElem) (old : Nat) : Nat :=
  let (b, o) := elemAddr d x.ix
  let lo : Int := (b * 8 + o : Nat) - (a * 8 : Nat)
  let place := fun (n : Nat) => (if 0 ≤ lo then n * 2 ^ lo.toNat else n / 2 ^ (-lo).toNat) % 256
  let m := place (2 ^ fmtBits (dFmt d) - 1)
  (old &&& (255 - m)) ||| (place x.code &&& m)

/-- The bits of the byte at address a that are an element's of the row of w, not padding (R29). -/
def rowBits (d : Desc) (a : Nat) (w : WElem) : Nat :=
  let row := (elemAddr d (0 :: w.ix.drop 1)).1 * 8
  (List.range 8).foldl (fun m k => if row ≤ a * 8 + k ∧ a * 8 + k < row + dExt d 0 * fmtBits (dFmt d) then m + 2 ^ k else m) 0

/-- A byte of a packed row, written whole (R526): it takes the bits of every element of the list that
reaches into it, the later of two for one place; padding is 0; a neighbouring element's bits that the
list does not write are free, since no older value stays and no rule says what stands there. (DESIGN CHOICE, log entry 127.) -/
def packedByte (d : Desc) (ws : List WElem) (a : Nat) (w : WElem) : PendByte :=
  let row := w.ix.drop 1
  let mine := ws.filter (fun x => x.ix.drop 1 = row && (elemBytes d x.ix).contains a)
  let bits := mine.foldl (fun acc x => putBits d a x acc) ((Config.packedFill a).toNat &&& rowBits d a w)
  ⟨a, BitVec.ofNat 8 bits, mine.any (·.bad), mine.foldl (fun m x => setUnion m x.marks) []⟩

/-- The bytes a list of element writes stores, in the list's order (R191). -/
def bytesOfWrites (d : Desc) (ws : List WElem) : List PendByte :=
  ws.flatMap (fun w =>
    if dPacked d then (elemBytes d w.ix).map (fun a => packedByte d ws a w)
    else (addressed (elemAddr d w.ix).1 (leBytes (dBytes d) w.code)).map
      (fun b => ⟨b.1, b.2, w.bad, w.marks⟩))

/-- Put one byte into its granule's list; a later write of a byte follows an earlier one. -/
def addPend (b : PendByte) (m : List (Nat × List PendByte)) : List (Nat × List PendByte) :=
  smIns (b.addr / 64) (smGet [] m (b.addr / 64) ++ [b]) (smDel (b.addr / 64) m)

/-- The writes of a command grouped by granule, in rising order. (DESIGN CHOICE, log entry 24.) -/
def groupPend (l : List PendByte) : List (Nat × List PendByte) :=
  l.foldl (fun m b => addPend b m) []

/-- One granule's write access by command w: bytes under a mask with poison and marks (R225, R227). -/
def State.writePendGran (s : State) (op : Option Nat) (w : Writer) (l : Loc) (n : Nat) (bs : List PendByte) : State :=
  s.orderGran op w none l n (bs.map (fun b => (b.addr, b.byte))) (bs.any (·.poison))
    (bs.foldl (fun m b => setUnion m b.marks) [])

/-- Command w of core g writes bytes addressed as a descriptor addresses them, on this device. -/
def State.writeDesc (s : State) (op : Option Nat) (w : Writer) (g : Nat) (d : Desc) (bs : List PendByte) : State :=
  (groupPend bs).foldl (fun t x =>
    match locOf g d (x.1 * 64) with
    | some (l, a) => t.writePendGran op w l (a / 64)
        (x.2.map (fun b => { b with addr := a / 64 * 64 + b.addr % 64 }))
    | none => t) s

/-- The byte of this device that a descriptor's address names. -/
def bytePlace (g : Nat) (d : Desc) (b : PendByte) : Option (Loc × Nat) := locOf g d b.addr

/-- What a command's writes leave behind: the bytes that no later write of another party covers (R226). -/
def State.landing (s : State) (op : Option Nat) (w : Writer) (g : Nat) (d : Desc) (l : List (List PendByte)) :
    List (List PendByte) :=
  l.map (fun bs => bs.filter (fun b => match bytePlace g d b with | some y => s.lands op w y | none => true))

/-- Command w of an operation writes groups of bytes on this device. -/
def State.writeAs (s : State) (op : Option Nat) (w : Writer) (g : Nat) (d : Desc) (l : List (List PendByte)) : State :=
  l.foldl (fun u b => u.writeDesc op w g d b) s

/-! ## Converting for output (R47, R53) -/

/-- An exact value bound for an element of a destination. -/
structure Placed where
  ix    : List Nat
  val   : Num
  bad   : Bool
  marks : List Nat
  deriving DecidableEq, Repr

/-- The rand24 of an element of a destination (R49). -/
def destRand (seed : Word64) (d : Desc) (ix : List Nat) : Nat := rand24 seed (dTag d) (linearOf d ix)

/-- Group consecutive elements of one row and one block of 32 (R35). -/
def byBlock : List Placed → List (List Placed)
  | [] => []
  | x :: t =>
    match byBlock t with
    | (y :: l) :: r =>
      if x.ix.drop 1 = y.ix.drop 1 ∧ x.ix.getD 0 0 / 32 = y.ix.getD 0 0 / 32 then (x :: y :: l) :: r
      else [x] :: (y :: l) :: r
    | r => [x] :: r

/-- What a conversion of elements gives: element writes, scale bytes, flags, and the values written
as the histogram counts them. -/
structure Written where
  els   : List WElem
  scale : List PendByte
  flags : BitVec 5
  vals  : List Num
  deriving DecidableEq, Repr

def Written.add (a b : Written) : Written :=
  ⟨a.els ++ b.els, a.scale ++ b.scale, a.flags ||| b.flags, a.vals ++ b.vals⟩

def Written.none : Written := ⟨[], [], 0, []⟩

/-- Convert one unscaled element. -/
def convertOne (seed : Word64) (d : Desc) (x : Placed) : Written :=
  let c := convert x.val (dFmt d) (dRnd d) (dOvf d) (destRand seed d x.ix)
  ⟨[⟨x.ix, c.code, x.bad, x.marks⟩], [], c.flags, [decodeNum (dFmt d) c.code]⟩

/-- Convert one block; every granule of it depends on each of its elements. -/
def convertScaled (seed : Word64) (d : Desc) (b : List Placed) : Written :=
  let r := convertBlock (dFmt d) (dRnd d) (dOvf d)
    (fun i => match b[i]? with | some x => destRand seed d x.ix | none => 0) (b.map (·.val))
  let bad := b.any (·.bad)
  let marks := b.foldl (fun m x => setUnion m x.marks) []
  { els := List.zipWith (fun x c => ⟨x.ix, c.code, bad, marks⟩) b r.2
    scale := match b with
      | x :: _ => [⟨scaleAddr d x.ix, r.1, bad, marks⟩]
      | [] => []
    flags := (if r.1 = 0xFF then fINV else 0) ||| flagsOf r.2
    vals := r.2.map (fun c => decodeScaled (dFmt d) c.code r.1) }

/-- Convert elements to a destination, in order. -/
def convertPlaced (seed : Word64) (d : Desc) (els : List Placed) : Written :=
  if dBsc d then ((byBlock els).map (convertScaled seed d)).foldl Written.add Written.none
  else (els.map (convertOne seed d)).foldl Written.add Written.none

/-- The bytes a conversion stores. -/
def Written.bytes (w : Written) (d : Desc) : List PendByte := bytesOfWrites d w.els ++ w.scale

end Sys2Proof.Machine
end

