-- ==== Sys2Proof/Machine/Flags.lean ====
section
/-!
DEFINITION. Sticky flags and exponent histograms of the engines (R56 to R63).
-/

namespace Sys2Proof.Machine

/-- A write of 1s clears bits (R57). -/
def clearBits {w : Nat} (x v : BitVec w) : BitVec w := x &&& ~~~ v

/-- Count the values of one drain or store. -/
def Hist.countAll (h : Hist) (vs : List Num) : Hist := vs.foldl Hist.count h

/-- Zero the bins and SATD (Table 2-16, CLR). -/
def Hist.clear (h : Hist) : Hist := { h with bins := [], satd := false, clrWait := false }

/-- A clear takes place at once, or after the drain or store that is being counted (R62). -/
def Hist.requestClear (h : Hist) (busy : Bool) : Hist :=
  if busy then { h with clrWait := true } else h.clear

/-- A counted drain or store has ended. -/
def Hist.settle (h : Hist) : Hist := if h.clrWait then h.clear else h

/-- A write of HIST_CTRL: BASE within −160 to 100, and CLR (R60, R62). -/
def Hist.writeCtrl (h : Hist) (busy : Bool) (v : Word32) : Hist :=
  let b := toSigned (bitsOf v.toNat 0 10) 10
  let h1 := if -160 ≤ b ∧ b ≤ 100 then { h with base := BitVec.ofNat 10 v.toNat } else h
  if v.getLsbD 16 then h1.requestClear busy else h1

/-- HIST_CTRL as read. -/
def Hist.readCtrl (h : Hist) : Nat := ofBool h.satd * 2 ^ 17 + h.base.toNat

def Hist.readBin (h : Hist) (b : Nat) : Nat := (smGet (0 : Word32) h.bins b).toNat

end Sys2Proof.Machine
end

