-- ==== Sys2Proof/Machine/Seq.lean ====
section
/-!
DEFINITION. Issue of one instruction by a core's sequencer: the checks of R71, the guard of R70, the
program counter and R81, shared by every Opvan row.
-/

namespace Sys2Proof.Machine

/-! ## Fault causes (Table 3-21) -/

def cILLEGAL : Nat := 1
def cIMEM_RANGE : Nat := 2
def cALIGN : Nat := 3
def cSPACE_RANGE : Nat := 4
def cDESC_INVALID : Nat := 5
def cWAIT_AHEAD : Nat := 6
def cTICKET_LIMIT : Nat := 7
def cPOISON : Nat := 8
def cENGINE : Nat := 9
def cSW_FAULT : Nat := 10
def cRESIDUE : Nat := 11
def cCSR_RANGE : Nat := 12

/-! ## Legality (R71) -/

/-- What a register field of word 0 names for an operation. -/
inductive RegUse | none | s | a | p | d | v
  deriving DecidableEq, Repr

/-- Whether a field's number lies in its file, or is 0 where unused. -/
def RegUse.ok : RegUse → BitVec 5 → Bool
  | .none, r => r = 0
  | .a, r => r.toNat < 16
  | .p, r => r.toNat < 8
  | _, _ => true

/-- The form of an operation: DBL and what FD, FA and FB name. -/
structure Form where
  dbl : Bool
  fd  : RegUse
  fa  : RegUse
  fb  : RegUse
  deriving DecidableEq, Repr

/-- Word 0 against its operation's form (R71). -/
def Form.ok (f : Form) (w : Word0) : Bool :=
  w.dbl = f.dbl && w.rsv = 0 && f.fd.ok w.fd && f.fa.ok w.fa && f.fb.ok w.fb

/-- Whether the guard lets the instruction execute (R70). -/
def Seq.guard (q : Seq) (w : Word0) : Bool := q.getP (w.pg.setWidth 5) != w.pn

/-! ## Results of an instruction's effect -/

/-- What an instruction that executes comes to: it completes in its core or in the whole state, branches,
faults at issue, stalls, or leaves the state as given. -/
inductive SeqRes
  | core (c : Core)
  | all (s : State)
  | jump (c : Core) (pc : Nat)
  | fault (cause detail : Nat)
  | stall (c : Core) (cond : SeqCond)
  | halt (s : State)

/-- Instruction bytes: one word, or two. -/
def wordBytes (w : Word0) : Nat := if w.dbl then 16 else 8

/-- Move past the instruction at PC. When its last word lies at 0xFFF8, IMEM_RANGE is raised after the
effects, with the address of its word 0 (R81). -/
def Core.advance (c : Core) (len : Nat) : Core :=
  let pc := c.seq.pc
  let ord := c.seq.ord
  let c1 := { c with seq := { c.seq with pc := pc + BitVec.ofNat 16 len, ord := ord + 1 } }
  if 0x10000 ≤ pc.toNat + len then
    { c1 with seq := { c1.seq with pc := pc } }.raise ⟨BitVec.ofNat 8 cIMEM_RANGE, 0, pc, ord⟩
  else c1

/-- A fault of the sequencer at issue (R71, R106). -/
def Core.issueFault (c : Core) (cause detail : Nat) : Core :=
  { c with seq := { c.seq with ord := c.seq.ord + 1 } }.raise
    ⟨BitVec.ofNat 8 cause, BitVec.ofNat 14 detail, c.seq.pc, c.seq.ord⟩

def Core.withCond (c : Core) (x : SeqCond) : Core := { c with seq := { c.seq with cond := x } }

/-- Carry out an instruction's result on core g. -/
def State.finish (s : State) (g : Nat) (len : Nat) : SeqRes → State
  | .core c => s.setCore g (c.advance len)
  | .all t => t.setCore g ((t.core g).advance len)
  | .jump c pc => s.setCore g { c with seq := { c.seq with pc := BitVec.ofNat 16 pc, ord := c.seq.ord + 1 } }
  | .fault cause detail => s.setCore g ((s.core g).issueFault cause detail)
  | .stall c x => s.setCore g (c.withCond x)
  | .halt t => t

/-- Issue an instruction on core g (R70, R71, R81). `ok` says word 0 is legal, `ok1` word 1. A core
that is not between instructions issues nothing; one whose kernel has been cancelled stops at this
instruction boundary (R109). Of a double form at 0xFFF8 a malformed word 0 raises ILLEGAL, a malformed word 1
is not looked at. (DEDUCED, log entries 17 and 128.) -/
def State.issue (s : State) (g : Nat) (w : Word0) (ok ok1 : Bool) (eff : SeqRes) : State :=
  let c := s.core g
  if c.seq.cond ≠ .running then s
  else if c.cancel then s.setCore g c.stop
  else if !ok then s.finish g 0 (.fault cILLEGAL 0)
  else if w.dbl && c.seq.pc = 0xFFF8 then s.finish g 0 (.fault cIMEM_RANGE 0)
  else if !ok1 then s.finish g 0 (.fault cILLEGAL 0)
  else if !c.seq.guard w then s.finish g (wordBytes w) (.core c)
  else s.finish g (wordBytes w) eff

/-- A single-form instruction of a given form whose effect is on its own core. -/
def State.issue1 (s : State) (g : Nat) (f : Form) (w : Word0) (ok : Bool) (eff : Core → SeqRes) : State :=
  s.issue g w (f.ok w && ok) true (eff (s.core g))

/-- Change the sequencer's registers alone. -/
def Core.upd (c : Core) (f : Seq → Seq) : Core := { c with seq := f c.seq }

/-! ## Forms -/

def fSSS : Form := ⟨false, .s, .s, .s⟩
def fSS : Form := ⟨false, .s, .s, .none⟩
def fPPP : Form := ⟨false, .p, .p, .p⟩
def fPSS : Form := ⟨false, .p, .s, .s⟩
def fPS : Form := ⟨false, .p, .s, .none⟩
def fNone : Form := ⟨false, .none, .none, .none⟩

/-! ## Scalar arithmetic (Table 3-6) -/

/-- sD := op sA sB. -/
def State.alu (s : State) (g : Nat) (w : Word0) (op : Word64 → Word64 → Word64) : State :=
  s.issue1 g fSSS w true (fun c => .core (c.upd (fun q => q.setS w.fd (op (q.getS w.fa) (q.getS w.fb)))))

/-- sD := op sA sext(IMM). -/
def State.aluI (s : State) (g : Nat) (w : Word0) (op : Word64 → Word64 → Word64) : State :=
  s.issue1 g fSS w true (fun c => .core (c.upd (fun q => q.setS w.fd (op (q.getS w.fa) (simm w)))))

/-- pD := op pA pB. -/
def State.palu (s : State) (g : Nat) (w : Word0) (op : Bool → Bool → Bool) : State :=
  s.issue1 g fPPP w true (fun c => .core (c.upd (fun q => q.setP w.fd (op (q.getP w.fa) (q.getP w.fb)))))

/-- pD := cmp sA sB. -/
def State.cmp (s : State) (g : Nat) (w : Word0) (op : Word64 → Word64 → Bool) : State :=
  s.issue1 g fPSS w true (fun c => .core (c.upd (fun q => q.setP w.fd (op (q.getS w.fa) (q.getS w.fb)))))

/-- pD := cmp sA sext(IMM). -/
def State.cmpI (s : State) (g : Nat) (w : Word0) (op : Word64 → Word64 → Bool) : State :=
  s.issue1 g fPS w true (fun c => .core (c.upd (fun q => q.setP w.fd (op (q.getS w.fa) (simm w)))))

def opMulhu (x y : Word64) : Word64 := BitVec.ofNat 64 (x.toNat * y.toNat / 2 ^ 64)
def opMulhs (x y : Word64) : Word64 := BitVec.ofInt 64 (x.toInt * y.toInt / 2 ^ 64)
def opShl (x y : Word64) : Word64 := x <<< (y.toNat % 64)
def opShr (x y : Word64) : Word64 := x >>> (y.toNat % 64)
def opSar (x y : Word64) : Word64 := x.sshiftRight (y.toNat % 64)
def opMin (x y : Word64) : Word64 := if x.slt y then x else y
def opMax (x y : Word64) : Word64 := if x.slt y then y else x
def opMinu (x y : Word64) : Word64 := if x.ult y then x else y
def opMaxu (x y : Word64) : Word64 := if x.ult y then y else x
def opEq (x y : Word64) : Bool := x = y
def opNe (x y : Word64) : Bool := x ≠ y
def opLt (x y : Word64) : Bool := x.slt y
def opLtu (x y : Word64) : Bool := x.ult y
def opLe (x y : Word64) : Bool := !y.slt x
def opLeu (x y : Word64) : Bool := !y.ult x

/-! ## Branches (R80) -/

/-- The relative target, if it is one: a multiple of 8 below 0x1_0000, and not below 0, for the sum does not wrap in the PC's
16 bits. (DESIGN CHOICE, log entry 160.) -/
def relTarget (pc : Half) (imm : Word32) : Option Nat :=
  let t : Int := (pc.toNat : Int) + imm.toInt
  if 0 ≤ t ∧ t < 0x10000 ∧ t % 8 = 0 then some t.toNat else none

/-- Branch to a target, or raise IMEM_RANGE and do not branch. -/
def branchTo (c : Core) : Option Nat → SeqRes
  | some t => .jump c t
  | none => .fault cIMEM_RANGE 0

/-- A target from a register's low 16 bits. -/
def regTarget (v : Word64) : Option Nat :=
  if v.toNat % 65536 % 8 = 0 then some (v.toNat % 65536) else none

/-! ## Scalar accesses (R82 to R86) -/

def lspSize : Nat := 0x800000
def quaySize : Nat := 0x4000000

/-- aA + sext(IMM), modulo 2^40. -/
def Core.accAddr (c : Core) (w : Word0) : Nat := (c.seq.getA w.fa + w.imm.signExtend 40).toNat

/-- The fault of an access of n bytes at a, if any (R83, R88). (DEDUCED, log entry 19.) -/
def accFault (a n size : Nat) : Option Nat :=
  if a % n ≠ 0 then some cALIGN else if size < a + n then some cSPACE_RANGE else none

/-- A scalar load's place. -/
def loadLoc (g : Nat) (quay : Bool) : Loc := if quay then .quay (dieOf g) else .lsp g

/-- Read n bytes for the sequencer: POISON when the granule is poisoned, a stall when it is marked
(R84, R85). The read finds latent errors first (R230). -/
def State.seqRead (s : State) (g : Nat) (l : Loc) (a n : Nat) (acc : ScalarAccess) (w : Word0)
    (k : State → Nat → SeqRes) : SeqRes :=
  if s.marksOf l (a / 64) ≠ [] then .stall (s.core g) (.held acc w)
  else
    let t := s.touch l (a / 64)
    let r := t.reader g none (t.core g).seq.ord false
    if t.seenBad r 0 l (a / 64) then .halt (t.setCore g ((t.core g).issueFault cPOISON 0x3000))
    else k t (t.seenLE r l a n)

/-- Extend a loaded value of n bytes to 64 bits. -/
def extend (n : Nat) (signed : Bool) (v : Nat) : Word64 :=
  if signed then BitVec.ofInt 64 (toSigned v (8 * n)) else BitVec.ofNat 64 v

/-- Write a load's result to FD. -/
def State.putLoad (t : State) (g : Nat) (w : Word0) (n : Nat) (signed toAddr : Bool) (v : Nat) : SeqRes :=
  .all (t.setCore g ((t.core g).upd (fun q =>
    if toAddr then q.setA w.fd (BitVec.ofNat 40 v) else q.setS w.fd (extend n signed v))))

/-- Whether a store to a granule stalls: unverified, or held as a tile operand (R85). -/
def State.storeHeld (s : State) (g gran : Nat) : Bool :=
  !(s.marksOf (.lsp g) gran).isEmpty || s.protectedAt (.lsp g) gran

/-- The sequencer writes bytes of one granule of its scratchpad (R86, R226): its engines' commands issued later see it
(R234), every other read may still return what was there. -/
def State.seqWrite (s : State) (g a : Nat) (bytes : List Byte) : State :=
  s.orderGran none (.sequencer g) (some (s.core g).seq.ord) (.lsp g) (a / 64) (addressed a bytes) false []

/-- A scalar access, its address already formed at issue (R82 to R88). -/
def State.scalarAccess (s : State) (g : Nat) (acc : ScalarAccess) (w : Word0) : SeqRes :=
  let c := s.core g
  let a := c.accAddr w
  match acc with
  | .load n signed quay toAddr =>
    match accFault a n (if quay then quaySize else lspSize) with
    | some f => .fault f 0
    | none => s.seqRead g (loadLoc g quay) a n acc w (fun t v => t.putLoad g w n signed toAddr v)
  | .store n fromAddr =>
    match accFault a n lspSize with
    | some f => .fault f 0
    | none =>
      let v := if fromAddr then (c.seq.getA w.fb).toNat else (c.seq.getS w.fb).toNat
      if s.storeHeld g (a / 64) then .stall c (.held acc w)
      else .all (s.seqWrite g a (leBytes n v))
  | .dld =>
    match accFault a 64 lspSize with
    | some f => .fault f 0
    | none => s.seqRead g (.lsp g) a 64 acc w (fun t v =>
        .all (t.setCore g ((t.core g).upd (fun q => q.setD w.fd (BitVec.ofNat 512 v)))))
  | .dst =>
    match accFault a 64 lspSize with
    | some f => .fault f 0
    | none =>
      if s.storeHeld g (a / 64) then .stall c (.held acc w)
      else .all (s.seqWrite g a (leBytes 64 (c.seq.getD w.fb).toNat))

/-- The form of a scalar access. -/
def accForm : ScalarAccess → Form
  | .load _ _ _ toAddr => ⟨false, if toAddr then .a else .s, .a, .none⟩
  | .store _ fromAddr => ⟨false, .none, .a, if fromAddr then .a else .s⟩
  | .dld => ⟨false, .d, .a, .none⟩
  | .dst => ⟨false, .none, .a, .d⟩

/-- Issue a scalar access. -/
def State.access (s : State) (g : Nat) (w : Word0) (acc : ScalarAccess) : State :=
  s.issue g w ((accForm acc).ok w) true (s.scalarAccess g acc w)

/-! ## Descriptor field instructions (R87) -/

/-- Replace dD. -/
def State.dput (s : State) (g : Nat) (w : Word0) (f : Form) (ok : Bool) (v : Seq → Desc) : State :=
  s.issue1 g f w ok (fun c => .core (c.upd (fun q => q.setD w.fd (v q))))

/-- After a check of the kernel failed, once the core's engines have stopped: what is still marked is poisoned (R405), also
where a check still awaited were to pass. -/
def Core.settles (c : Core) : Bool := c.seq.cond = .stopping && c.enginesStopped && c.checkFailed

def State.settleMarks (s : State) (g : Nat) : State :=
  if (s.core g).settles then s.setCore g (s.core g).poisonMarked else s

end Sys2Proof.Machine
end

