-- ==== Sys2Proof/Machine/Spans.lean ====
section
/-!
DEFINITION. The device's position (spec 10, R352), and the spans that ferry commands read and write, and what holds a command behind an earlier one (spec 06, R181,
R182, R190, R194).
-/

namespace Sys2Proof.Machine

/-! ## Position (R15, R352; Table 6-1 packing) -/

def cx (c : Coord) : Nat := c.toNat % 32
def cy (c : Coord) : Nat := c.toNat / 32 % 32
def cz (c : Coord) : Nat := c.toNat / 1024

def mkCoord (x y z : Nat) : Coord := BitVec.ofNat 14 (x % 32 + 32 * (y % 32) + 1024 * (z % 16))

/-- The device's coordinate, from its last strap sample (R352, Table 10-13). (DEDUCED, log entry 38.) -/
def State.own (s : State) : Coord :=
  match s.lnk.straps.getLast? with
  | some v => mkCoord v.x.toNat v.y.toNat v.z.toNat
  | none => 0

/-! ## Places and spans (R181, R182, R190, R194) -/

/-- A descriptor that reaches another device. (DEDUCED, log entry 25.) -/
def State.isRemote (s : State) (d : Desc) : Bool := dSpace d = 5 && dPdev d ≠ s.own

def isHost (d : Desc) : Bool := dSpace d = 4

/-- The space a span is compared in, and where core g's address 0 lies in it: scratchpads of the
device by global address, so that LSP and GSP of one core meet. -/
def State.spanPlace (s : State) (g : Nat) (d : Desc) : Nat × Nat :=
  match dSpace d with
  | 0 => (1, g * 2 ^ 23)
  | 1 => (1, 0)
  | 2 => (2, 0)
  | 3 => (3, 0)
  | 4 => (4, 0)
  | _ =>
    if s.isRemote d then (5 + 2 * (dPdev d).toNat + ofBool (dPsub d), 0)
    else if dPsub d then (1, 0) else (3, 0)

/-- The spans of a descriptor: its elements and, when block-scaled, its companion. -/
def State.spans (s : State) (g : Nat) (d : Desc) : List (Nat × Int × Int) :=
  let (k, o) := s.spanPlace g d
  let sh (x : Int × Int) : Nat × Int × Int := (k, x.1 + o, x.2 + o)
  if dBsc d then [sh (spanOf d), sh (compSpan d)] else [sh (spanOf d)]

def spansCross (a b : List (Nat × Int × Int)) : Bool :=
  a.any (fun x => b.any (fun y => x.1 = y.1 && decide (x.2.1 ≤ y.2.2 ∧ y.2.1 ≤ x.2.2)))

def FOp.indexed : FOp → Bool
  | .fgath => true | .fscat => true | .fscadd => true | _ => false

/-- Spans a command reads, and spans it writes. -/
def State.ferReads (s : State) (g : Nat) (c : FCmd) : List (Nat × Int × Int) :=
  s.spans g c.dsrc ++ (if c.op.indexed then s.spans g c.didx else [])

def State.ferWrites (s : State) (g : Nat) (c : FCmd) : List (Nat × Int × Int) := s.spans g c.ddst

/-- Whether an earlier command on any channel holds this one (R194). -/
def State.ferConflict (s : State) (g : Nat) (c : FCmd) : Bool :=
  (s.core g).fer.chans.any (fun x =>
    spansCross (s.ferWrites g x.2.cmd) (s.ferReads g c ++ s.ferWrites g c) ||
    spansCross (s.ferReads g x.2.cmd) (s.ferWrites g c))

end Sys2Proof.Machine
end

