-- ==== Sys2Proof/Machine/Csr.lean ====
section
/-!
DEFINITION. Core registers by number (R104, R105): reading, and writing under their access codes.
-/

namespace Sys2Proof.Machine

def nth4 (i : Nat) : Fin 4 := ⟨i % 4, Nat.mod_lt _ (by decide)⟩

/-- SEQ registers by offset (Table 3-19). -/
def seqReg (s : State) (g off : Nat) : Option Nat :=
  let c := s.core g
  match off with
  | 0x000 => some ((s.die (dieOf g)).cycles % 2 ^ 64)
  | 0x008 => some c.ctr.meBusy.toNat
  | 0x010 => some c.ctr.meFrozenFeed.toNat
  | 0x018 => some c.ctr.meFrozenDrain.toNat
  | 0x020 => some c.ctr.meQuad.toNat
  | 0x028 => some c.ctr.veBusy.toNat
  | 0x030 => some c.ctr.feBytes[0].toNat
  | 0x038 => some c.ctr.feBytes[1].toNat
  | 0x040 => some c.ctr.feBytes[2].toNat
  | 0x048 => some c.ctr.feBytes[3].toNat
  | 0x050 => some c.ctr.waitM.toNat
  | 0x058 => some c.ctr.waitV.toNat
  | 0x060 => some c.ctr.waitF.toNat
  | 0x068 => some c.ctr.qfull.toNat
  | 0x100 => some c.seq.faultWord.toNat
  | 0x104 => some c.seq.faultPc.toNat
  | 0x108 => some c.seq.seed.toNat
  | 0x110 => some g
  | _ => none

/-- MAT_STATUS (Table 4-8). -/
def Mat.status (m : Mat) : Nat :=
  let w (i : Fin 4) : Nat := ofBool (m.sub[i].cur.isSome && (m.quad || i = 0))
  m.enabled * 256 + (w 0 + 2 * w 1 + 4 * w 2 + 8 * w 3) * 16 +
    2 * ofBool (m.exec.any (fun x => x.frz.isSome)) + ofBool m.quad

/-- MAT_DLOG_CTRL (Table 4-9). -/
def Mat.dlogCtrl (m : Mat) : Nat :=
  m.firstSat.toNat * 2 ^ 32 + m.lost.toNat * 2 ^ 16 + ofBool m.satSeen * 128 + ofBool m.wrap * 64 + m.head.toNat

def Mat.entry (m : Mat) (i : Nat) : Dlog := smGet Dlog.reset m.dlog i

/-- MAT_DLOG_LOn (Table 4-10). -/
def Dlog.lo (e : Dlog) : Nat :=
  e.seq.toNat * 2 ^ 32 + e.q.toNat * 2 ^ 16 + ofBool e.valid * 2 ^ 15 + ofBool e.done * 2 ^ 14 +
    e.verdict.toNat * 2 ^ 12 + ofBool e.int * 2 ^ 11 + ofBool e.init * 2 ^ 10 + ofBool e.last * 2 ^ 9 +
    ofBool e.cvo * 2 ^ 8 + ofBool e.nan * 2 ^ 7 + ofBool e.flush * 2 ^ 6 + ofBool e.sat * 2 ^ 5

/-- MAT_DLOG_HIn (Table 4-11). -/
def Dlog.hi (e : Dlog) : Nat :=
  e.satCnt.toNat * 2 ^ 48 + e.flushCnt.toNat * 2 ^ 32 + e.satRow.toNat * 2 ^ 16 + e.satCol.toNat * 2 ^ 8

/-- MAT registers by offset (Table 4-7). -/
def matReg (m : Mat) (off : Nat) : Option Nat :=
  if off = 0 then some m.status
  else if off = 0x100 then some m.flags.toNat
  else if off = 0x104 then some m.hist.readCtrl
  else if 0x200 ≤ off ∧ off < 0x300 ∧ off % 4 = 0 then some (m.hist.readBin ((off - 0x200) / 4))
  else if off = 0x300 then some m.dlogCtrl
  else if 0x400 ≤ off ∧ off < 0x800 ∧ off % 16 = 0 then some (m.entry ((off - 0x400) / 16)).lo
  else if 0x400 ≤ off ∧ off < 0x800 ∧ off % 16 = 8 then some (m.entry ((off - 0x400) / 16)).hi
  else none

/-- VEC registers by offset (R178). -/
def vecReg (x : Vec) (off : Nat) : Option Nat :=
  if off = 0x100 then some x.flags.toNat
  else if off = 0x104 then some x.hist.readCtrl
  else if 0x200 ≤ off ∧ off < 0x300 ∧ off % 4 = 0 then some (x.hist.readBin ((off - 0x200) / 4))
  else none

/-- A channel executes a command. -/
def Fer.busy (f : Fer) (n : Nat) : Bool := f.chans.any (fun x => x.1 = n)

/-- The command at the head of the ferry queue is held: its channel executes another, or an earlier command's spans
meet its own (R194). -/
def State.ferHeld (s : State) (g : Nat) (c : FCmd) : Bool := (s.core g).fer.busy c.ch.toNat || s.ferConflict g c

/-- FER_STATUS (Table 6-11). -/
def State.ferStatus (s : State) (g : Nat) : Nat :=
  let f := (s.core g).fer
  let b := (List.range 4).foldl (fun a n => a + ofBool (f.busy n) * 2 ^ n) 0
  match f.queue with
  | [] => b
  | c :: _ => b + (if s.ferHeld g c then 16 * 2 ^ c.ch.toNat else 0)

/-- FER_IDXFAULT (Table 6-12). -/
def idxWord : Option IdxFault → Nat
  | none => 0
  | some x => 2 ^ 31 + ofBool x.neg * 2 ^ 30 + x.ch.toNat * 2 ^ 28 + x.policy.toNat * 2 ^ 26 +
      ofBool x.psn * 2 ^ 25 + x.cmd.toNat

/-- FER registers by offset (Table 6-10). -/
def ferReg (status : Nat) (f : Fer) (off : Nat) : Option Nat :=
  match off with
  | 0x000 => some status
  | 0x100 => some f.flags.toNat
  | 0x108 => some (idxWord f.idxFault)
  | 0x110 => some (match f.idxFault with | some x => x.pos.toNat | none => 0)
  | 0x118 => some (match f.idxFault with | some x => x.val.toNat | none => 0)
  | 0x120 => some f.clampCnt.toNat
  | 0x124 => some f.zeroCnt.toNat
  | 0x128 => some f.dupHits.toNat
  | _ => none

/-- Core register `num`: block in bits 15:12, offset in bits 11:0 (R104). -/
def State.coreReg (s : State) (g num : Nat) : Option Nat :=
  let off := num % 4096
  match num / 4096 with
  | 0 => seqReg s g off
  | 1 => matReg (s.core g).mat off
  | 2 => vecReg (s.core g).vec off
  | 3 => ferReg (s.ferStatus g) (s.core g).fer off
  | _ => none

/-- Whether a core register is 64 bits wide. -/
def csrWide (num : Nat) : Bool :=
  num < 0x0100 || num = 0x0108 || num = 0x1300 || (0x1400 ≤ num && num < 0x1800) ||
    num = 0x3110 || num = 0x3118 || num = 0x3128

/-- The reserved bits of a core register. -/
def csrReserved (num : Nat) : Nat :=
  match num with
  | 0x0100 => 0x0000FF00
  | 0x0104 => 0xFFFF0000
  | 0x0110 => 0xFFFFF000
  | 0x1000 => 0xFFFFC00C
  | 0x1100 => 0xFFFFFFF0
  | 0x2100 => 0xFFFFFFE0
  | 0x3100 => 0xFFFFFFF0
  | 0x1104 => 0xFFFCFC00
  | 0x2104 => 0xFFFCFC00
  | 0x1300 => 0x0000FF00
  | 0x3000 => 0xFFFFFF00
  | 0x3108 => 0x01FF0000
  | _ =>
    if 0x1400 ≤ num ∧ num < 0x1800 then (if num % 16 = 0 then 0xFFFC001F else 0xFF) else 0

/-- Whether BASE of a HIST_CTRL value lies within −160 to 100 (R60). -/
def baseOk (v : Nat) : Bool :=
  decide (-160 ≤ toSigned v 10 ∧ toSigned v 10 ≤ 100)

/-- A drain with histogram counting is in progress, or a counted store (R62). -/
def Mat.counting (m : Mat) : Bool :=
  m.exec.any (fun x => match x.cmd.op with | .mtile t => t.last && dHist t.dout && 0 < x.row | _ => false)

def Vec.counting (x : Vec) : Bool := x.run.any (fun c => c.op = .vst && dHist c.desc)

/-- The effect of a WRCSR that passes its checks (R57, R60, R62, R105). -/
def Core.csrPut (c : Core) (num v : Nat) : Core :=
  match num with
  | 0x0108 => { c with seq := { c.seq with seed := BitVec.ofNat 64 v } }
  | 0x1100 => { c with mat := { c.mat with flags := clearBits c.mat.flags (BitVec.ofNat 5 v) } }
  | 0x2100 => { c with vec := { c.vec with flags := clearBits c.vec.flags (BitVec.ofNat 5 v) } }
  | 0x3100 => { c with fer := { c.fer with flags := clearBits c.fer.flags (BitVec.ofNat 5 v) } }
  | 0x1104 => { c with mat := { c.mat with hist := c.mat.hist.writeCtrl c.mat.counting (BitVec.ofNat 32 v) } }
  | 0x2104 => { c with vec := { c.vec with hist := c.vec.hist.writeCtrl c.vec.counting (BitVec.ofNat 32 v) } }
  | _ => c

/-- The part of a value that a write of a core register carries: its own width. Bits [63:32] of a value written to a
32-bit register are dropped and raise nothing. (DESIGN CHOICE, log entry 133.) -/
def csrVal (num : Nat) (v : Word64) : Nat := if csrWide num then v.toNat else v.toNat % 2 ^ 32

/-- Whether a write is refused: a reserved bit at 1, or a BASE out of range (R105). -/
def csrRefused (num v : Nat) : Bool :=
  (v &&& csrReserved num) ≠ 0 || ((num = 0x1104 || num = 0x2104) && !baseOk v)

end Sys2Proof.Machine
end

