-- ==== Sys2Proof/Machine/Issue.lean ====
section
/-!
DEFINITION. Engine commands at issue, waits, tickets and system instructions (spec 03, R74 to R76 and R89
to R107; spec 05, R150 and R176).
-/

namespace Sys2Proof.Machine

/-- Bits lo to lo + n − 1 of word 1. -/
def w1f (w1 : Word64) (lo n : Nat) : Nat := bitsOf w1.toNat lo n

def slotAt (w1 : Word64) (lo : Nat) : BitVec 5 := BitVec.ofNat 5 (w1f w1 lo 5)

/-- Queue depths (R74). -/
def queueDepth : Eng → Nat
  | .matrix => 16 | .vector => 32 | .ferry => 16

def Core.queueLen (c : Core) : Eng → Nat
  | .matrix => c.mat.queue.length | .vector => c.vec.queue.length | .ferry => c.fer.queue.length

/-- The engine of an issue. -/
def EngineIssue.eng : EngineIssue → Eng
  | .mat .. => .matrix | .vec .. => .vector | .fer .. => .ferry

def EngineIssue.word : EngineIssue → Word0
  | .mat _ w _ => w | .vec _ w _ => w | .fer _ w _ => w

/-! ## Legality of engine commands (R71, R89 to R93, R150) -/

/-- Formats an operation allows (Table 5-2). -/
inductive FmtSet | any | floating | ints | int32 | b32
  deriving DecidableEq, Repr

def FmtSet.has : FmtSet → Nat → Bool
  | .any, f => 8 ≤ f && f ≤ 13
  | .floating, f => 8 ≤ f && f ≤ 11
  | .ints, f => f = 12 || f = 13
  | .int32, f => f = 12
  | .b32, f => f = 10

/-- How an operation uses RM. -/
inductive RmUse | zero | used | floating
  deriving DecidableEq, Repr

/-- An operation's row of Table 5-2: form, whether FC is used, formats, RM. -/
def vRow : VOp → Form × Bool × FmtSet × RmUse
  | .vld => (⟨true, .v, .none, .none⟩, false, .any, .used)
  | .vst => (⟨true, .none, .v, .none⟩, false, .any, .zero)
  | .vadd => (⟨false, .v, .v, .v⟩, false, .any, .floating)
  | .vsub => (⟨false, .v, .v, .v⟩, false, .any, .floating)
  | .vmul => (⟨false, .v, .v, .v⟩, false, .any, .floating)
  | .vfma => (⟨false, .v, .v, .v⟩, true, .floating, .used)
  | .vfms => (⟨false, .v, .v, .v⟩, true, .floating, .used)
  | .vdiv => (⟨false, .v, .v, .v⟩, false, .floating, .used)
  | .vsqrt => (⟨false, .v, .v, .none⟩, false, .floating, .used)
  | .vmin => (⟨false, .v, .v, .v⟩, false, .any, .zero)
  | .vmax => (⟨false, .v, .v, .v⟩, false, .any, .zero)
  | .vminn => (⟨false, .v, .v, .v⟩, false, .floating, .zero)
  | .vmaxn => (⟨false, .v, .v, .v⟩, false, .floating, .zero)
  | .vabs => (⟨false, .v, .v, .none⟩, false, .any, .zero)
  | .vneg => (⟨false, .v, .v, .none⟩, false, .any, .zero)
  | .vcvt => (⟨false, .v, .v, .none⟩, false, .any, .used)
  | .vcmp => (⟨false, .v, .v, .v⟩, false, .any, .zero)
  | .vsel => (⟨false, .v, .v, .v⟩, true, .any, .zero)
  | .vand => (⟨false, .v, .v, .v⟩, false, .ints, .zero)
  | .vor => (⟨false, .v, .v, .v⟩, false, .ints, .zero)
  | .vxor => (⟨false, .v, .v, .v⟩, false, .ints, .zero)
  | .vshl => (⟨false, .v, .v, .v⟩, false, .ints, .zero)
  | .vshr => (⟨false, .v, .v, .v⟩, false, .ints, .zero)
  | .vsar => (⟨false, .v, .v, .v⟩, false, .ints, .zero)
  | .viota => (⟨false, .v, .none, .none⟩, false, .int32, .zero)
  | .vsplat => (⟨false, .v, .v, .none⟩, false, .any, .zero)
  | .vshuf => (⟨false, .v, .v, .v⟩, false, .any, .zero)
  | .vexp2 => (⟨false, .v, .v, .none⟩, false, .b32, .zero)
  | .vlog2 => (⟨false, .v, .v, .none⟩, false, .b32, .zero)
  | .vrcp => (⟨false, .v, .v, .none⟩, false, .b32, .zero)
  | .vrsqrt => (⟨false, .v, .v, .none⟩, false, .b32, .zero)
  | .vsin => (⟨false, .v, .v, .none⟩, false, .b32, .zero)
  | .vcos => (⟨false, .v, .v, .none⟩, false, .b32, .zero)
  | .vrsum => (⟨false, .v, .v, .none⟩, false, .any, .floating)
  | .vrmax => (⟨false, .v, .v, .none⟩, false, .any, .zero)
  | .vrmin => (⟨false, .v, .v, .none⟩, false, .any, .zero)
  | .vsma => (⟨false, .v, .v, .v⟩, true, .b32, .zero)
  | .vsmmrg => (⟨false, .v, .v, .none⟩, false, .b32, .zero)
  | .vsminit => (⟨false, .v, .none, .none⟩, false, .b32, .zero)
  | .vrand => (⟨true, .v, .none, .none⟩, false, .ints, .zero)
  | .vdrop => (⟨true, .v, .v, .none⟩, false, .floating, .zero)

/-- Fields of a vector instruction's IMM (Table 3-13). -/
def vFc (w : Word0) : BitVec 5 := BitVec.ofNat 5 (bitsOf w.imm.toNat 27 5)
def vRm (w : Word0) : Nat := bitsOf w.imm.toNat 24 3
def vFmt (w : Word0) : Fmt := BitVec.ofNat 4 (bitsOf w.imm.toNat 20 4)
def vSpec (w : Word0) : Nat := bitsOf w.imm.toNat 0 20

/-- Elements per register in a lane format (Table 5-1). -/
def laneCount (f : Fmt) : Nat := if f = 11 || f = 13 then 32 else 64

/-- The op-specific bits against Table 5-3 and R150. -/
def vSpecOk (op : VOp) (f : Fmt) (x : Nat) : Bool :=
  match op with
  | .vld => x ≤ laneCount f
  | .vst => x ≤ laneCount f
  | .vcvt => x < 32 && (8 ≤ x % 16 && x % 16 ≤ 13) &&
      !(decide (16 ≤ x) && laneCount f = laneCount (BitVec.ofNat 4 (x % 16)))
  | .vcmp => x ≤ 4
  | .viota => true
  | .vsplat => x < laneCount f
  | .vrsum => 2 ^ x ≤ laneCount f && x < 8
  | .vrmax => 2 ^ x ≤ laneCount f && x < 8
  | .vrmin => 2 ^ x ≤ laneCount f && x < 8
  | .vsma => x < 4096
  | .vdrop => x < 65536
  | _ => x = 0

/-- Whether two groups of four registers overlap. -/
def groupsMeet (a b : Nat) : Bool := a < b + 4 && b < a + 4

/-- The group rules of R168. -/
def vGroupOk (op : VOp) (w : Word0) : Bool :=
  match op with
  | .vsma => w.fd.toNat ≤ 28
  | .vsminit => w.fd.toNat ≤ 28
  | .vsmmrg => w.fd.toNat ≤ 28 && w.fa.toNat ≤ 28 && !groupsMeet w.fd.toNat w.fa.toNat
  | _ => true

/-- Word 0 of a vector instruction (R71, R91, R150, R168). -/
def vecOk (op : VOp) (w : Word0) : Bool :=
  let (f, fc, fs, rm) := vRow op
  let fmt := vFmt w
  f.ok w && fs.has fmt.toNat && (fc || vFc w = 0) &&
    (match rm with
      | .zero => vRm w = 0
      | .used => vRm w ≤ 4
      | .floating => vRm w ≤ 4 && (!fmtInt fmt || vRm w = 0)) &&
    vSpecOk op fmt (vSpec w) && vGroupOk op w

def matOk (k : MKind) (w : Word0) : Bool :=
  match k with
  | .mwl => (⟨true, .none, .none, .none⟩ : Form).ok w
  | .mtile => (⟨true, .none, .none, .none⟩ : Form).ok w
  | .mmode => fNone.ok w && w.imm.toNat ≤ 1

def ferOk (w : Word0) : Bool := (⟨true, .none, .none, .none⟩ : Form).ok w

/-- Word 1 of each class; `quad` is the mode matrix commands issued now will find (R90). -/
def word1Ok (quad : Bool) : EngineIssue → Bool
  | .mat .mwl _ w1 => w1f w1 0 57 = 0 && (quad || w1f w1 57 2 = 0)
  | .mat .mtile _ w1 => w1f w1 0 37 = 0 && (quad || w1f w1 37 2 = 0) && w1f w1 42 2 ≠ 3
  | .mat .mmode _ _ => true
  | .vec _ w w1 => !w.dbl || w1f w1 0 54 = 0
  | .fer op _ w1 => w1f w1 0 47 = 0 &&
      (op = .fgath || op = .fscat || op = .fscadd || w1f w1 49 5 = 0)

/-! ## Validation at issue (R76) -/

/-- The descriptor slots a command names, with their roles; multiplication operands of the matrix
engine are marked (R33, R176, R193). (DEDUCED, log entry 22.) -/
def EngineIssue.roles : EngineIssue → List (BitVec 5 × Role × Bool)
  | .mat .mwl _ w1 => [(slotAt w1 59, .source, true)]
  | .mat .mtile _ w1 =>
    let last := w1f w1 39 1 = 1
    [(slotAt w1 59, .source, true)] ++
    (if last then (if w1f w1 40 1 = 1 then [] else [(slotAt w1 54, .source, false)])
      else [(slotAt w1 54, .dest false, false)]) ++
    (if last then [(slotAt w1 49, .dest false, false)] else []) ++
    (if w1f w1 42 2 = 0 then [] else [(slotAt w1 44, .source, false)])
  | .mat .mmode _ _ => []
  | .vec op _ w1 =>
    match op with
    | .vld => [(slotAt w1 59, .source, false)]
    | .vst => [(slotAt w1 59, .dest false, false)]
    | .vrand => [(slotAt w1 59, .source, false)]
    | .vdrop => [(slotAt w1 59, .source, false)]
    | _ => []
  | .fer op _ w1 =>
    [(slotAt w1 59, .source, false), (slotAt w1 54, .dest (op = .fscadd), false)] ++
    (if op = .fgath || op = .fscat || op = .fscadd then [(slotAt w1 49, .index, false)] else [])

/-- The first slot that fails, with the number of its check. -/
def firstInvalid (ap : Nat) (q : Seq) : List (BitVec 5 × Role × Bool) → Option (Nat × Nat)
  | [] => none
  | (r, role, mul) :: t =>
    match validate ap role mul (q.getD r) with
    | some k => some (r.toNat, k)
    | none => firstInvalid ap q t

/-! ## Placing a command in its queue (R74, R75) -/

/-- The command as captured at issue, in its queue. -/
def Core.enqueue (c : Core) (i : EngineIssue) : Core :=
  let q := c.seq
  match i with
  | .mat k w w1 =>
    let quad' := match k with | .mmode => w.imm.getLsbD 0 | _ => q.quad
    let qs := match k with
      | .mwl => BitVec.ofNat 2 (w1f w1 57 2)
      | .mtile => BitVec.ofNat 2 (w1f w1 37 2)
      | .mmode => 0
    let op := match k with
      | .mwl => MOp.mwl (q.getD (slotAt w1 59))
      | .mtile => MOp.mtile
          { dact := q.getD (slotAt w1 59), dps := q.getD (slotAt w1 54), dout := q.getD (slotAt w1 49)
            depi := q.getD (slotAt w1 44), epi := BitVec.ofNat 2 (w1f w1 42 2), tr := w1f w1 41 1 = 1
            init := w1f w1 40 1 = 1, last := w1f w1 39 1 = 1 }
      | .mmode => MOp.mmode (w.imm.getLsbD 0)
    { c with
      seq := { q with mIssued := q.mIssued + 1, quad := quad' }
      mat := { c.mat with queue := c.mat.queue ++ [⟨q.mIssued + 1, q.ord, q.pc, qs, q.seed, op⟩] } }
  | .vec op w w1 =>
    { c with
      seq := { q with vIssued := q.vIssued + 1 }
      vec := { c.vec with queue := c.vec.queue ++
        [⟨q.vIssued + 1, q.ord, q.pc, op, w, if w.dbl then q.getD (slotAt w1 59) else 0,
          if w.dbl then q.getS (slotAt w1 54) else 0, q.seed⟩] } }
  | .fer op _ w1 =>
    { c with
      seq := { q with fIssued := q.fIssued + 1 }
      fer := { c.fer with queue := c.fer.queue ++
        [⟨q.fIssued + 1, q.ord, q.pc, op, BitVec.ofNat 2 (w1f w1 47 2), q.getD (slotAt w1 59),
          q.getD (slotAt w1 54), q.getD (slotAt w1 49), q.seed⟩] } }

/-- Whether an issue names HOST while an aperture change is pending (R380). (DEDUCED, log entry 66.) -/
def State.apHeld (s : State) (g : Nat) (i : EngineIssue) : Bool :=
  s.hrw.apPend.isSome && (match i with | .fer .. => true | _ => false) &&
    i.roles.any (fun r => dSpace ((s.core g).seq.getD r.1) = 4)

/-- An engine command that executes: validated, then placed in its queue, or stalled (R74, R76). (DEDUCED, log entry 21.) -/
def State.engineIssue (s : State) (g : Nat) (i : EngineIssue) : SeqRes :=
  let c := s.core g
  if s.apHeld g i then .stall c (.apertureHeld i)
  else match firstInvalid s.hrw.apSize c.seq i.roles with
    | some (slot, k) => .fault cDESC_INVALID (slot * 512 + k)
    | none =>
      if queueDepth i.eng ≤ c.queueLen i.eng then .stall c (.queueFull i)
      else .core (c.enqueue i)

/-- Issue an engine command. (DEDUCED, log entry 18.) -/
def State.issueEngine (s : State) (g : Nat) (ok : Bool) (i : EngineIssue) : State :=
  s.issue g i.word ok (word1Ok (s.core g).seq.quad i) (s.engineIssue g i)

/-- Issue a command that was stalled, again (R74, R380). -/
def State.reissue (s : State) (g : Nat) (i : EngineIssue) : State :=
  (s.setCore g ((s.core g).withCond .running)).finish g (wordBytes i.word)
    ((s.setCore g ((s.core g).withCond .running)).engineIssue g i)

/-! ## Waits (R94 to R97) -/

def fS : Form := ⟨false, .none, .s, .none⟩

/-- WAIT for engine e. -/
def State.waitEng (s : State) (g : Nat) (w : Word0) (e : Eng) : State :=
  s.issue1 g fS w true (fun c =>
    let t := (c.seq.getS w.fa + simm w).setWidth 32
    if !reached (c.seq.issued e) t then .fault cWAIT_AHEAD (engCode e)
    else if reached (c.seq.completed e) t then .all (s.waited g e t)
    else .stall c (.wait e t))

/-- Commands issued to an engine and not completed. -/
def Seq.outstanding (q : Seq) (e : Eng) : Nat := (q.issued e - q.completed e).toNat

/-- WAITO for engine e. -/
def State.waitOutEng (s : State) (g : Nat) (w : Word0) (e : Eng) : State :=
  s.issue1 g fS w true (fun c =>
    let l := c.seq.getS w.fa + simm w
    if l.msb then .fault cWAIT_AHEAD (engCode e)
    else if c.seq.outstanding e ≤ l.toNat then .all (s.waited g e (c.seq.issued e - l.setWidth 32))
    else .stall c (.waitOut e l))

/-- Every command of core g has been waited for (R94, R235). -/
def State.waitedAll (s : State) (g : Nat) : State :=
  ((s.waited g .matrix (s.core g).seq.mIssued).waited g .vector (s.core g).seq.vIssued).waited g .ferry
    (s.core g).seq.fIssued

/-- What the wait a core stalls in orders once it ends (R96, R235). -/
def State.waitEnds (s : State) (g : Nat) : SeqCond → State
  | .wait e t => s.waited g e t
  | .waitOut e l => s.waited g e ((s.core g).seq.issued e - l.setWidth 32)
  | .waitAll => s.waitedAll g
  | _ => s

/-- Whether the condition a wait stalls on has come about. -/
def Seq.waitOver (q : Seq) : SeqCond → Bool
  | .wait e t => reached (q.completed e) t
  | .waitOut e l => q.outstanding e ≤ l.toNat
  | .waitAll => q.allDrained
  | _ => false

/-- Which engine's counter IMM[1:0] names (Table 3-16). -/
def engOf : Nat → Eng
  | 0 => .matrix | 1 => .vector | _ => .ferry

/-- sD := a counter named by IMM[1:0]. -/
def State.readCount (s : State) (g : Nat) (w : Word0) (f : Seq → Eng → Word32) : State :=
  s.issue1 g ⟨false, .s, .none, .none⟩ w (w.imm.toNat ≤ 2) (fun c => .core (c.upd (fun q =>
    q.setS w.fd ((f q (engOf w.imm.toNat)).setWidth 64))))

/-! ## Tickets (R98 to R101) -/

/-- The sum recorded for a ticket, if any. -/
def defFind (t : Half) : List (Half × Word32) → Option Word32
  | [] => none
  | (u, v) :: r => if u = t then some v else defFind t r

def defPut (t : Half) (v : Word32) : List (Half × Word32) → List (Half × Word32)
  | [] => [(t, v)]
  | (u, x) :: r => if u = t then (u, v) :: r else (u, x) :: defPut t v r

/-- Record a deferred increment (R100). -/
def recordIncrement (c : Core) (t : Half) (v : Word32) : SeqRes :=
  let l := c.seq.deferred
  let old := (defFind t l).getD 0
  if v = 0 then .core c
  else if ((defFind t l).isNone && 16 ≤ l.length) || 2 ^ 32 ≤ old.toNat + v.toNat then
    .fault cTICKET_LIMIT (t.toNat % 2 ^ 14)
  else .core (c.upd (fun q => { q with deferred := defPut t (old + v) l }))

end Sys2Proof.Machine
end

