-- ==== Sys2Proof/Machine/Log.lean ====
section
/-!
DEFINITION. Records and histories that units write to the logbook (spec 15, Tables 15-3, 15-5 and 15-9),
and fencing (R417).
-/

namespace Sys2Proof.Machine

/-! ## Severities and the records of Table 15-5 -/

def sINFO : BitVec 2 := 0
def sNOTICE : BitVec 2 := 1
def sERROR : BitVec 2 := 2
def sFATAL : BitVec 2 := 3

/-- A record about a core: SRCDIE its die, UNIT its core index. -/
def coreRec (type : Half) (sev : BitVec 2) (g : Nat) (payload : List Byte) : LogRec :=
  ⟨type, BitVec.ofNat 8 (dieOf g).val, sev, BitVec.ofNat 16 (g % 512), payload⟩

/-- Write bytes of the counters section at once, through the journal (R488, R492). (DESIGN CHOICE, log entry 109.) -/
def State.mramPut (s : State) (a : Nat) (l : List Byte) : State :=
  { s with log := s.log.jput a l }

/-- A fence history entry and its FENCE record (R417, Table 15-9). `who` is the global core number or
0xF000 + 4e + a. -/
def State.logFence (s : State) (who die unit cause kind : Nat) : State :=
  let entry := leBytes 4 s.log.pot ++ leBytes 2 who ++ [BitVec.ofNat 8 cause, BitVec.ofNat 8 kind] ++
    leBytes 8 s.log.seqNext
  let s1 := s.mramPut (0x0210000 + 16 * (s.log.fences % 8192)) entry
  let s2 := { s1 with log := s1.log.scalars s1.log.pot s1.log.resets s1.log.powerCycles (s1.log.fences + 1) }
  (s2.healthInc (dieHealth die + 0x8C) 2).logRec ⟨0x0011, BitVec.ofNat 8 die, sERROR, BitVec.ofNat 16 unit, entry⟩

/-- Fence a core: it leaves HRW_CORE_MAP, is no longer suspect, and the fence is written (R417, R419). A clearance of it
is no more, and one that had chosen it as third core has to choose again. A die whose cores are all fenced holds its idle
share only (R440).
`cause` and `kind` are those of Table 15-9. -/
def State.fenceCore (s : State) (g cause kind : Nat) : State :=
  if s.int.fenced.contains g then s
  else
    let s1 := { s with int := { s.int with
      fenced := setAdd g s.int.fenced, suspects := setDel g s.int.suspects
      clearing := s.int.clearing.filter (fun x => x.1 ≠ g && x.2 ≠ g) } }
    let d := dieOf g
    let s2 := if s1.dieFenced d then s1.setDie d ((s1.die d).release (s1.die d).hold s.wall) else s1
    s2.logFence g d.val (g % 512) cause kind

/-- Make a core suspect, with its record (R409, R411, R414). -/
def State.suspectCore (s : State) (g : Nat) : State :=
  if s.int.suspects.contains g || s.int.fenced.contains g then s
  else
    let s1 := { s with int := { s.int with suspects := setAdd g s.int.suspects } }
    (s1.healthInc (dieHealth (dieOf g).val + 0x8E) 2).logRec (coreRec 0x0015 sNOTICE g (leBytes 2 g ++ [1]))

/-- The number of an engine's adder among all eight, as a fence history entry names it. -/
def adderCode (e a : Nat) : Nat := 4 * e + a

/-- Fence one adder of a collective engine (R418). -/
def State.fenceAdder (s : State) (e a cause kind : Nat) : State :=
  if s.int.adders.getLsbD (adderCode e a) then s
  else
    let s1 := { s with int := { s.int with adders := s.int.adders ||| BitVec.ofNat 8 (2 ^ adderCode e a) } }
    s1.logFence (0xF000 + adderCode e a) (8 + e) (adderCode e a) cause kind

end Sys2Proof.Machine
end

