-- ==== Sys2Proof/Machine/Matrix.lean ====
section
/-!
DEFINITION. The matrix engine (spec 04): beginning commands, streaming rows, draining granules,
completing, freezing and ramping; check tiles (R140 to R142) and J3 repeat mode (R420, R421).
-/

namespace Sys2Proof.Machine

def State.setMat (s : State) (g : Nat) (m : Mat) : State := s.setCore g { s.core g with mat := m }

/-- Rows and columns of a sub-array, rows of a check tile, and of a chunk (R42, R113, R140). -/
def arrDim (quad : Bool) : Nat := if quad then 16 else 32

def Mat.subAt (m : Mat) (q : Lane4) : SubArr := m.sub[nth4 q.toNat]

def Mat.setSub (m : Mat) (q : Lane4) (x : SubArr) : Mat :=
  { m with sub := m.sub.set (nth4 q.toNat) x (nth4 q.toNat).isLt }

def SubArr.tile (x : SubArr) (b : Bool) : Option Tile := if b then x.b1 else x.b0

/-- The current tile of a sub-array, if any (R123). -/
def SubArr.current (x : SubArr) : Option Tile :=
  match x.cur with
  | some b => x.tile b
  | none => none

/-- The buffer an MWL targets: not the current one (R123). -/
def SubArr.target (x : SubArr) : Bool := x.cur = some false

/-- K_t and N_t of a tile under TR (R115). -/
def Tile.kt (t : Tile) (tr : Bool) : Nat := if tr then t.cols else t.rows
def Tile.nt (t : Tile) (tr : Bool) : Nat := if tr then t.rows else t.cols

/-- Register (i, j) of a tile: zero outside it (R115). -/
def Tile.at (t : Tile) (i j : Nat) : Num × Bool := (t.els.getD i []).getD j (.zero, false)

/-- The weight of array row k and column n (R115). -/
def Tile.weight (t : Tile) (tr : Bool) (k n : Nat) : Num × Bool := if tr then t.at n k else t.at k n

/-- Accumulation in INT32: both operands unscaled integers (R40). -/
def intAcc (t : Tile) (dact : Desc) : Bool :=
  fmtInt (dFmt dact) && !dBsc dact && fmtInt t.fmt && !t.bsc

/-- The index vectors of row m of a two-dimensional operand. -/
def rowIx (d : Desc) (m : Nat) : List (List Nat) :=
  (List.range (lExt d 0)).map (fun n => [n, m, 0, 0, 0])

/-- Index vectors of an MTILE operand with N_t columns. -/
def rowIxN (nt m : Nat) : List (List Nat) := (List.range nt).map (fun n => [n, m, 0, 0, 0])

/-- The descriptor an MTILE writes (R125). -/
def MTileOp.out (t : MTileOp) : Desc := if t.last then t.dout else t.dps

/-- Streamed rows: DACT's dimension 1 extent. -/
def MTileOp.rows (t : MTileOp) : Nat := lExt t.dact 1

/-- Every granule a matrix command reads, and writes, for R126 and R131. -/
def MOp.reads (g : Nat) : MOp → List (Loc × Nat)
  | .mwl dw => touchedBy g dw (allIx dw)
  | .mtile t => touchedBy g t.dact (allIx t.dact) ++
      (if t.init then [] else touchedBy g t.dps (allIx t.dps)) ++
      (if t.epi = 0 then [] else touchedBy g t.depi (allIx t.depi))
  | .mmode _ => []

def MOp.writes (g : Nat) : MOp → List (Loc × Nat)
  | .mtile t => touchedBy g t.out (allIx t.out)
  | _ => []

def meets (a b : List (Loc × Nat)) : Bool := a.any (fun x => b.contains x)

/-- Matrix commands begun and not completed. -/
def Mat.live (m : Mat) : List MCmd := m.exec.map (·.cmd) ++ m.loading.map (·.1)

/-- Whether a command must wait for an earlier one under R131, or an MWL's read under R126. -/
def Mat.overlaps (m : Mat) (g : Nat) (c : MCmd) : Bool :=
  m.live.any (fun x => meets (x.op.writes g) (c.op.reads g) ||
    (m.quad && (meets (x.op.writes g) (c.op.writes g) || meets (x.op.reads g) (c.op.writes g))))

/-! ## Begin checks (R116, R117, Table 4-3) -/

def flatDims (d : Desc) : Bool := lExt d 2 = 1 && lExt d 3 = 1 && lExt d 4 = 1

def inSpaces (d : Desc) (l : List Nat) : Bool := l.contains (dSpace d)

/-- MWL's failing code, if any. -/
def mwlCode (quad : Bool) (dw : Desc) : Option Nat :=
  if !(1 ≤ lExt dw 0 && lExt dw 0 ≤ arrDim quad && 1 ≤ lExt dw 1 && lExt dw 1 ≤ arrDim quad && flatDims dw)
  then some 1
  else if !inSpaces dw [0, 2] then some 2 else none

/-- Output formats of Table 4-2. -/
def outFmtOk (d : Desc) : Bool := (dFmt d).toNat ≤ 0xA || dFmt d = 0xC

/-- The region of a descriptor: from the lowest to the highest byte that it addresses, of its elements and, when
block-scaled, of its scale bytes (R117). -/
def regionOf (d : Desc) : Int × Int :=
  let a := spanOf d
  let b := if dBsc d then compSpan d else a
  (min a.1 b.1, max a.2 b.2)

/-- Whether two descriptors of one space address overlapping regions (R117). -/
def spansMeet (a b : Desc) : Bool :=
  dSpace a = dSpace b && decide ((regionOf a).1 ≤ (regionOf b).2 ∧ (regionOf b).1 ≤ (regionOf a).2)

/-- MTILE's lowest failing code, if any. -/
def mtileCode (tile : Option Tile) (t : MTileOp) : Option Nat :=
  let usePs := !t.init || !t.last
  let useEpi := t.epi ≠ 0
  let m := t.rows
  let shapeN (d : Desc) : Bool := lExt d 1 = m && flatDims d &&
    (match tile with | some w => lExt d 0 = w.nt t.tr | none => true)
  let shape := 1 ≤ m && m ≤ 16384 && flatDims t.dact &&
    (match tile with | some w => lExt t.dact 0 = w.kt t.tr | none => true) &&
    (!usePs || shapeN t.dps) && (!t.last || shapeN t.dout) && (!useEpi || shapeN t.depi)
  if !shape then some 1
  else if !inSpaces t.dact [0, 2] || (usePs && !inSpaces t.dps [0]) || (t.last && !inSpaces t.dout [0]) ||
      (useEpi && !inSpaces t.depi [0, 2]) then some 2
  else match tile with
    | none => some 3
    | some w =>
      if usePs && dFmt t.dps ≠ (if intAcc w t.dact then 0xC else 0xA) then some 4
      else if useEpi && !t.last then some 5
      else if (t.last && !outFmtOk t.dout) || (useEpi && !outFmtOk t.depi) then some 6
      else if spansMeet t.out t.dact || (useEpi && spansMeet t.out t.depi) ||
          (t.last && !t.init && spansMeet t.dout t.dps) then some 7
      else none

/-- Raise the ENGINE fault of a matrix command (R116). -/
def State.matFault (s : State) (g : Nat) (c : MCmd) (code : Nat) : State :=
  s.raise g cENGINE (c.q.toNat * 1024 + code) c.pc c.ord

/-! ## Beginning (R123, R124, R130, R132, R144) -/

/-- Checks of the matrix engine whose verdict is awaited. -/
def Core.matChecks (c : Core) : List Check := c.checks.filter (fun k => k.eng = .matrix)

/-- Whether a buffer of a sub-array may be loaded: every MTILE that uses it has streamed its last row
and has its verdicts, and no failed check retains it (R123, R408). -/
def Core.bufFree (c : Core) (q : Lane4) (b : Bool) : Bool :=
  !c.mat.exec.any (fun x => x.cmd.q = q && x.buf = b &&
    (match x.cmd.op with | .mtile t => x.row < t.rows | _ => false)) &&
  !c.matChecks.any (fun k => k.q = q && k.buf = b) && c.retained.isEmpty

/-- Whether the drain-log entry at HEAD is free (R144). -/
def Core.dlogFree (c : Core) : Bool :=
  let i := c.mat.head.toNat
  let e := c.mat.entry i
  !e.valid || (e.done && !c.matChecks.any (fun k => k.dlog = i))

/-- The commands of the array, or of sub-array q in quad mode. -/
def Mat.part (m : Mat) (q : Lane4) : List MExec := m.exec.filter (fun x => x.cmd.q = q || !m.quad)

/-- The array, or sub-array q, is frozen: one of its commands is (R133, R134). -/
def Mat.frozenAt (m : Mat) (q : Lane4) : Bool := (m.part q).any (fun x => x.frz.isSome)

/-- Every row is enabled and none is still to be (R136 to R138). -/
def Mat.on (m : Mat) : Bool := m.rows = 32 && m.rampLeft = 0

/-- Whether a sub-array streams, or has rows left to stream. -/
def Mat.streaming (m : Mat) (q : Lane4) : Bool :=
  m.exec.any (fun x => (x.cmd.q = q || !m.quad) &&
    (match x.cmd.op with | .mtile t => x.row < t.rows | _ => false))

/-- Whether the command at the head can begin: none does while a change of mode is under way or a row is still to be
enabled, nor on a frozen array or sub-array; a mode change waits for every command. An MMODE that names the mode in force
waits for nothing (R132). (DESIGN CHOICE, log entry 156.) -/
def State.matReady (s : State) (g : Nat) (k : MCmd) : Bool :=
  let c := s.core g
  c.mat.modeChg.isNone &&
  match k.op with
  | .mmode quad => quad = c.mat.quad || (c.mat.on && c.mat.live.isEmpty && c.matChecks.isEmpty)
  | .mwl _ => c.mat.on && !c.mat.frozenAt k.q && !c.mat.loading.any (fun x => x.1.q = k.q) &&
      c.bufFree k.q (c.mat.subAt k.q).target && !c.mat.overlaps g k
  | .mtile _ => c.mat.on && !c.mat.frozenAt k.q && !c.mat.loading.any (fun x => x.1.q = k.q) &&
      !c.mat.streaming k.q && c.dlogFree && (!c.mat.quad || !c.mat.overlaps g k)

/-- MEC, and the completed commands above it, after command n completes (R77). -/
def prefixCount (cnt : Word32) (done : List Word32) : Nat → Word32 × List Word32
  | 0 => (cnt, done)
  | k + 1 =>
    if done.contains (cnt + 1) then prefixCount (cnt + 1) (done.filter (· ≠ cnt + 1)) k else (cnt, done)

def Core.matDone (c : Core) (n : Word32) : Core :=
  let r := prefixCount c.seq.mec (n :: c.mat.done) (c.mat.done.length + 1)
  { c with seq := { c.seq with mec := r.1 }, mat := { c.mat with done := r.2 } }

/-- The stationary tile a descriptor gives, row i as view i has it, with its poison and marks (R115, R143, R401). -/
def loadTile (v : Nat → View) (d : Desc) : Tile :=
  let row (i : Nat) : List Elem := (List.range (lExt d 0)).map (fun j => readElem (v i) d [j, i, 0, 0, 0])
  let rows := (List.range (lExt d 1)).map row
  { rows := lExt d 1, cols := lExt d 0, fmt := dFmt d, bsc := dBsc d
    els := rows.map (fun r => r.map (fun e => (e.num (dFmt d), e.bad)))
    marks := rows.foldl (fun m r => r.foldl (fun m e => setUnion m e.marks) m) [] }

def Tile.bad (t : Tile) : Bool := t.els.any (fun r => r.any (·.2))

/-- Put a tile in a buffer. -/
def SubArr.put (x : SubArr) (b : Bool) (t : Tile) : SubArr :=
  if b then { x with b1 := some t } else { x with b0 := some t }

/-- A fresh drain-log entry (R144). -/
def newEntry (c : MCmd) (t : MTileOp) (int : Bool) : Dlog :=
  { Dlog.reset with seq := c.n, q := c.q, valid := true, int := int, init := t.init, last := t.last }

def Mat.setEntry (m : Mat) (i : Nat) (e : Dlog) : Mat := { m with dlog := smPut Dlog.reset m.dlog i e }

/-- Take the entry at HEAD (R144). -/
def Mat.takeEntry (m : Mat) (e : Dlog) : Mat :=
  let i := m.head.toNat
  { m.setEntry i e with
    head := m.head + 1
    wrap := m.wrap || i = 63
    lost := if (m.entry i).valid then satInc m.lost else m.lost }

/-- The checks of an MTILE's check tiles, in row order (R140). -/
def tileChecks (c : MCmd) (quad buf : Bool) (dlog chk n : Nat) : List Check :=
  (List.range n).map (fun j =>
    { id := chk + j, eng := .matrix, q := c.q, quad := quad, buf := buf, n := c.n, ord := c.ord, pc := c.pc
      dlog := dlog, replay := 0, sums := [], reads := [], vals := [], loaded := [], due := 0, ready := false })

/-- Begin an MTILE that passes its checks. -/
def Core.beginTile (c : Core) (k : MCmd) (t : MTileOp) (buf : Bool) (w : Tile) : Core :=
  let int := intAcc w t.dact
  let i := c.mat.head.toNat
  let n := if c.j3 then 0 else (t.rows + arrDim c.mat.quad - 1) / arrDim c.mat.quad
  { c with
    mat := { c.mat.takeEntry (newEntry k t int) with
      exec := c.mat.exec ++ [{ cmd := k, buf := buf, tile := w, quad := c.mat.quad, row := 0, wbuf := []
                               dlog := i, chk := c.nextChk, frz := none, psn := false }] }
    checks := c.checks ++ tileChecks k c.mat.quad buf i c.nextChk n
    nextChk := c.nextChk + n }

/-- Begin the command at the head of the matrix queue. An MTILE that fails its begin checks takes no drain-log
entry. (DESIGN CHOICE, log entry 132.) -/
def State.matBegin (s : State) (g : Nat) : State :=
  let c := s.core g
  match c.mat.queue with
  | [] => s
  | k :: rest =>
    if !s.matReady g k then s
    else
      let s1 := s.setMat g { c.mat with queue := rest }
      match k.op with
      | .mmode quad =>
        if quad = c.mat.quad then s1.setCore g ((s1.core g).matDone k.n)
        else s1.setMat g { (s1.core g).mat with modeChg := some k, modeLeft := 4 }
      | .mwl dw =>
        match mwlCode c.mat.quad dw with
        | some code => s1.matFault g k code
        | none =>
          let s2 := s1.touchDesc g dw (allIx dw)
          let b := (c.mat.subAt k.q).target
          let m := (s2.core g).mat
          s2.setMat g { m.setSub k.q ((m.subAt k.q).put b (loadTile (fun i => s2.dview (s2.reader g (some .matrix) k.ord true) i dw) dw)) with
            loading := m.loading ++ [(k, b)] }
      | .mtile t =>
        match mtileCode (c.mat.subAt k.q).current t with
        | some code => s1.matFault g k code
        | none =>
          match (c.mat.subAt k.q).cur, (c.mat.subAt k.q).current with
          | some b, some w => s1.setCore g ((s1.core g).beginTile k t b w)
          | _, _ => s1

/-! ## Streaming one row -/

/-- A row's results and what it raised. -/
structure RowOut where
  bytes : List PendByte
  flags : BitVec 5
  vals  : List Num
  sat   : List Nat
  flush : Nat
  nan   : Bool
  cvo   : Bool
  bad   : Bool
  deriving DecidableEq, Repr

/-- The code of a partial sum, exactly as computed (R125). -/
def accCode (int : Bool) (v : Num) : Nat :=
  if int then ofSigned v.scaled.1 32 else (convert v 0xA 0 2 0).code

/-- One element's partial sum: its chunk added to p (R42 to R44). -/
def partialSum (int : Bool) (prods : List (Num × BitVec 5)) (p : Num) : Sum :=
  if int then
    let r := chunkAddInt (prods.map Prod.fst) (p.scaled.1 * 2 ^ p.scaled.2.toNat)
    ⟨Num.ofInt r.1, if r.2 then fOVF else 0, r.2, false⟩
  else chunkAdd prods p

/-- The epilogue of R46 on a result. -/
def epilogue (epi : BitVec 2) (x y : Num) : Sum :=
  if epi = 1 then addSum x y else if epi = 2 then mulSum x y else Sum.exact x

/-- The operands an MTILE streams by row. -/
inductive RowOperand | act | sum | epi
  deriving DecidableEq, Repr

def MTileOp.desc (t : MTileOp) : RowOperand → Desc
  | .act => t.dact | .sum => t.dps | .epi => t.depi

/-- One result of a row: its value, flags, saturation, flush, and poison. -/
def rowElem (v : RowOperand → View) (t : MTileOp) (w : Tile) (acts : List Elem) (m n : Nat) :
    Sum × Bool × List Nat :=
  let int := intAcc w t.dact
  let af := dFmt t.dact
  let prods := acts.mapIdx (fun k e => mulNum (e.num af) (w.weight t.tr k n).1)
  let ps := readElem (v .sum) t.dps [n, m, 0, 0, 0]
  let ep := readElem (v .epi) t.depi [n, m, 0, 0, 0]
  let useEpi := t.last && t.epi ≠ 0
  let a := partialSum int prods (if t.init then .zero else ps.num (dFmt t.dps))
  let b := if useEpi then epilogue t.epi a.val (ep.num (dFmt t.depi)) else Sum.exact a.val
  let bad := acts.any (·.bad) || (List.range acts.length).any (fun k => (w.weight t.tr k n).2) ||
    (!t.init && ps.bad) || (useEpi && ep.bad)
  let marks := setUnion (acts.foldl (fun x e => setUnion x e.marks) w.marks)
    (setUnion (if t.init then [] else ps.marks) (if useEpi then ep.marks else []))
  (⟨b.val, a.flags ||| b.flags, a.sat || b.sat, a.flush || b.flush⟩, bad, marks)

/-- The number of row m's access to an operand: each is a read of its own. -/
def rowAccess (m : Nat) : RowOperand → Nat
  | .act => 3 * m | .sum => 3 * m + 1 | .epi => 3 * m + 2

def State.rowReader (s : State) (g : Nat) (x : MExec) : Reader := s.reader g (some .matrix) x.cmd.ord true

/-- What streaming row m of an MTILE sees of an operand. -/
def State.rowView (s : State) (g : Nat) (x : MExec) (t : MTileOp) (m : Nat) (o : RowOperand) : View :=
  s.dview (s.rowReader g x) (rowAccess m o) (t.desc o)

/-- Row m's results; `own` are its own check's marks. -/
def rowOut (s : State) (g : Nat) (x : MExec) (t : MTileOp) (m : Nat) (own : List Nat) : RowOut :=
  let w := x.tile
  let acts := (rowIx t.dact m).map (readElem (s.rowView g x t m .act) t.dact)
  let rs := (List.range (w.nt t.tr)).map (rowElem (s.rowView g x t m) t w acts m)
  let placed := rs.mapIdx (fun n r =>
    (⟨[n, m, 0, 0, 0], r.1.val, r.2.1, setUnion own r.2.2⟩ : Placed))
  let wr : Written := if t.last then convertPlaced x.cmd.seed t.dout placed else
    ⟨placed.map (fun p => ⟨p.ix, accCode (intAcc w t.dact) p.val, p.bad, p.marks⟩), [], 0, placed.map (·.val)⟩
  { bytes := wr.bytes t.out
    flags := rs.foldl (fun f r => f ||| r.1.flags) wr.flags
    vals := wr.vals
    sat := (List.range rs.length).filter (fun n => (rs.getD n (Sum.exact .zero, false, [])).1.sat)
    flush := (rs.filter (fun r => r.1.flush)).length
    nan := rs.any (fun r => r.1.val.isNan) || wr.vals.any Num.isNan
    cvo := t.last && wr.flags.getLsbD 0
    bad := rs.any (fun r => r.2.1) }

/-- Add to a count that holds at 0xFFFF. -/
def sat16 (x : Half) (n : Nat) : Half := if 0xFFFF ≤ x.toNat + n then 0xFFFF else x + BitVec.ofNat 16 n

/-- The drain log after a row (R146). -/
def Mat.logRow (m : Mat) (x : MExec) (row : Nat) (r : RowOut) : Mat :=
  let e := m.entry x.dlog
  let first := !e.sat
  let e1 := { e with
    sat := e.sat || !r.sat.isEmpty
    satCnt := sat16 e.satCnt r.sat.length
    satRow := if first && !r.sat.isEmpty then BitVec.ofNat 16 row else e.satRow
    satCol := if first && !r.sat.isEmpty then BitVec.ofNat 8 (r.sat.headD 0) else e.satCol
    flush := e.flush || 0 < r.flush
    flushCnt := sat16 e.flushCnt r.flush
    nan := e.nan || r.nan
    cvo := e.cvo || r.cvo }
  let m1 := m.setEntry x.dlog e1
  if r.sat.isEmpty then m1
  else { m1 with
    satSeen := true
    firstSat := if m.firstSat = 0 || x.cmd.n.toNat < m.firstSat.toNat then x.cmd.n else m.firstSat }

/-- The granules row m reads. -/
def rowReads (g : Nat) (x : MExec) (t : MTileOp) (m : Nat) : List (Loc × Nat) :=
  touchedBy g t.dact (rowIx t.dact m) ++
    (if t.init then [] else touchedBy g t.dps (rowIxN (x.tile.nt t.tr) m)) ++
    (if t.epi = 0 then [] else touchedBy g t.depi (rowIxN (x.tile.nt t.tr) m))

/-- Granules protected for a row: those of DACT and DEPI (R141). -/
def rowProtects (g : Nat) (x : MExec) (t : MTileOp) (m chk : Nat) : List (Bool × Nat × Nat) :=
  (touchedBy g t.dact (rowIx t.dact m) ++
    (if t.epi = 0 then [] else touchedBy g t.depi (rowIxN (x.tile.nt t.tr) m))).map
    (fun y => ((match y.1 with | .quay _ => true | _ => false), y.2, chk))

/-- Granules protected for the check tile that begins at row m, from its first read (R141). -/
def tileProtects (g : Nat) (x : MExec) (t : MTileOp) (m chk : Nat) : List (Bool × Nat × Nat) :=
  ((List.range (min (arrDim x.quad) (t.rows - m))).flatMap (fun i => rowProtects g x t (m + i) chk)).dedup

/-- The granules of DACT and DEPI as row m reads them (R408). -/
def State.rowOperands (s : State) (g : Nat) (x : MExec) (t : MTileOp) (m : Nat) : List (Nat × Loc × Nat × List Byte) :=
  let of (o : RowOperand) (ixs : List (List Nat)) : List (Nat × Loc × Nat × List Byte) :=
    (touchedBy g (t.desc o) ixs).map (fun y => (m, y.1, y.2, s.seenGran (s.rowReader g x) (rowAccess m o) y.1 y.2))
  of .act (rowIx t.dact m) ++ (if t.epi = 0 then [] else of .epi (rowIxN (x.tile.nt t.tr) m))

/-- The input partial sums of row m as the reader reads them (R142). -/
def State.rowSums (s : State) (g : Nat) (x : MExec) (t : MTileOp) (m : Nat) : List Num :=
  if t.init then [] else
    (rowIxN (x.tile.nt t.tr) m).map (fun ix => (readElem (s.rowView g x t m .sum) t.dps ix).num (dFmt t.dps))

/-- Granules of LSP that a command still has to write. -/
def MExec.pendGrans (x : MExec) : List Nat := (x.wbuf.map (fun b => b.addr / 64)).dedup

/-- An earlier command whose unperformed write a row's read needs (R126). -/
def Mat.waitsFor (m : Mat) (g : Nat) (x : MExec) (t : MTileOp) (row : Nat) : Option Word32 :=
  (m.exec.find? (fun y => y.cmd.ord < x.cmd.ord &&
    meets (y.pendGrans.map (fun n => (Loc.lsp g, n))) (rowReads g x t row))).map (·.cmd.n)

/-- Bytes of input partial sums that a check tile holds in the replay buffer (R142). -/
def replayNeed (x : MExec) (t : MTileOp) (row : Nat) : Nat :=
  if t.init then 0 else min (arrDim x.quad) (t.rows - row) * x.tile.nt t.tr * 4

def replaySize : Nat := 32768

/-- Why streaming row `row` must freeze, if it must (R126, R133, R142). -/
def State.rowFreeze (s : State) (g : Nat) (x : MExec) (t : MTileOp) (row : Nat) : Option Freeze :=
  let c := s.core g
  match c.mat.waitsFor g x t row with
  | some n => some (.earlier n)
  | none =>
    if !c.j3 && row % arrDim x.quad = 0 &&
        replaySize < c.checks.foldl (fun a k => a + k.replay) 0 + replayNeed x t row then some .replay
    else none

def Mat.setExec (m : Mat) (x : MExec) : Mat :=
  { m with exec := m.exec.map (fun y => if y.cmd.n = x.cmd.n then x else y) }

/-- Hold a row's operands and input partial sums, and submit a check tile's residues with its last row; its verdict is due in 48 CCLK cycles (R140, R399). -/
def Core.noteRow (c : Core) (x : MExec) (t : MTileOp) (row now : Nat) (sums : List Num)
    (reads : List (Nat × Loc × Nat × List Byte)) : Core :=
  let d := arrDim x.quad
  let id := x.chk + row / d
  let endsTile := row % d = d - 1 || row + 1 = t.rows
  { c with checks := c.checks.map (fun k =>
      if k.id = id then { k with
        replay := if row % d = 0 then replayNeed x t row else k.replay
        sums := if t.init then k.sums else k.sums ++ [(row, sums)]
        reads := k.reads ++ reads
        ready := k.ready || endsTile
        due := if endsTile then now + 48 else k.due }
      else k) }

/-- A byte of a tile that is drained from none of its computations: its granule is written poisoned, with bytes that no
rule gives (R421). (DESIGN CHOICE, log entry 27.) -/
def PendByte.lost (b : PendByte) (g chk : Nat) : PendByte :=
  { b with byte := Config.containedByte g chk b.addr, poison := true }

/-- Stream row `row` of command x. `lost` says that J3 repeat mode found the row's check tile permanently wrong: its
results go nowhere (R421), are counted in no histogram and raise no flags (R59). (DESIGN CHOICE, log entry 27.) -/
def State.streamRow (s : State) (g : Nat) (x : MExec) (t : MTileOp) (lost : Bool) : State × MExec :=
  let row := x.row
  let s1 := (s.touchDesc g t.dact (rowIx t.dact row))
  let s2 := if t.init then s1 else s1.touchDesc g t.dps (rowIxN (x.tile.nt t.tr) row)
  let s3 := if t.epi = 0 then s2 else s2.touchDesc g t.depi (rowIxN (x.tile.nt t.tr) row)
  let chk := x.chk + row / arrDim x.quad
  let c := s3.core g
  let r := rowOut s3 g x t row (if c.j3 then [] else [chk])
  let x1 := { x with
    row := row + 1, wbuf := x.wbuf ++ (if lost then r.bytes.map (·.lost g chk) else r.bytes), psn := x.psn || r.bad }
  let m := (if lost then c.mat else c.mat.logRow x row r).setExec x1
  let m1 := { m with
    flags := if lost then m.flags else m.flags ||| (r.flags &&& 0xF)
    hist := if t.last && dHist t.dout && !lost then m.hist.countAll r.vals else m.hist
    protect := if c.j3 || row % arrDim x.quad ≠ 0 then m.protect else m.protect ++ tileProtects g x t row chk }
  let c1 := ({ c with mat := m1 }).noteRow x t row (s3.die (dieOf g)).cycles (s3.rowSums g x t row)
    (s3.rowOperands g x t row)
  (s3.setCore g c1, x1)

/-! ## Draining (R120, R126, R141) -/

/-- Granules row m's output lies in. -/
def outGrans (x : MExec) (t : MTileOp) (m : Nat) : List Nat :=
  (rowIxN (x.tile.nt t.tr) m).flatMap (elemGrans t.out)

/-- A granule whose elements are all present: no row still to stream writes it. -/
def MExec.complete (x : MExec) (t : MTileOp) : Option Nat :=
  x.pendGrans.find? (fun n =>
    (List.range (t.rows - x.row)).all (fun i => !(outGrans x t (x.row + i)).contains n))

/-- Whether a granule of the scratchpad is a protected operand for the drain of command x: one of a later command's
check tile is not while that tile has still to read what x writes (R126). (DEDUCED, log entry 119.) -/
def Core.drainProtected (c : Core) (x : MExec) (n : Nat) : Bool :=
  c.mat.protect.any (fun y => !y.1 && y.2.1 = n &&
    !c.checks.any (fun k => k.id = y.2.2 && x.cmd.ord < k.ord))

/-- An earlier command still has to write the granule: the writes come in command order (R126). -/
def Mat.behind (m : Mat) (x : MExec) (n : Nat) : Bool :=
  m.exec.any (fun y => y.cmd.ord < x.cmd.ord && y.pendGrans.contains n)

/-- The bytes of a granule that a command's drain has to write. -/
def MExec.pendIn (x : MExec) (n : Nat) : List PendByte := x.wbuf.filter (fun b => b.addr / 64 = n)

/-- Those of them that stay behind (R226). -/
def State.drainBytes (s : State) (g : Nat) (x : MExec) (n : Nat) : List PendByte :=
  (x.pendIn n).filter (fun b => s.lands (s.core g).op (.engine g .matrix x.cmd.n) (.lsp g, b.addr))

/-- Write one complete granule, or freeze on a protected one (R133, R141); the write waits its turn behind an earlier
command's. (DESIGN CHOICE, log entry 23.) -/
def State.drainGran (s : State) (g : Nat) (x : MExec) (n : Nat) : State :=
  if (s.core g).drainProtected x n then s.setMat g ((s.core g).mat.setExec { x with frz := some (.held n) })
  else if (s.core g).mat.behind x n then s
  else
    let s1 := s.writePendGran (s.core g).op (.engine g .matrix x.cmd.n) (.lsp g) n (x.pendIn n)
    s1.setMat g ((s1.core g).mat.setExec { x with wbuf := x.wbuf.filter (fun b => b.addr / 64 ≠ n) })

/-- Stream rows until a granule is complete, then write it. -/
def drainLoop (g : Nat) (t : MTileOp) : Nat → State → MExec → State
  | 0, s, _ => s
  | k + 1, s, x =>
    match x.complete t with
    | some n => s.drainGran g x n
    | none =>
      if t.rows ≤ x.row then s
      else match s.rowFreeze g x t x.row with
        | some f => s.setMat g ((s.core g).mat.setExec { x with frz := some f })
        | none => let r := s.streamRow g x t false; drainLoop g t k r.1 r.2

/-! ## J3 repeat mode (R420, R421) -/

/-- Rows of the check tile at x.row. -/
def tileRows (x : MExec) (t : MTileOp) : Nat := min (arrDim x.quad) (t.rows - x.row)

/-- The granules that command x reads next: its row's, or in J3 repeat mode its check tile's. -/
def Core.needs (c : Core) (g : Nat) (x : MExec) (t : MTileOp) : List (Loc × Nat) :=
  if c.j3 then (List.range (tileRows x t)).flatMap (fun i => rowReads g x t (x.row + i)) else rowReads g x t x.row

/-- The first row of the next check tile that must freeze. -/
def State.tileFreeze (s : State) (g : Nat) (x : MExec) (t : MTileOp) : Option Freeze :=
  (List.range (tileRows x t)).findSome? (fun i => s.rowFreeze g x t (x.row + i))

def streamRows (g : Nat) (t : MTileOp) (bad : Bool) : Nat → State → MExec → State × MExec
  | 0, s, x => (s, x)
  | k + 1, s, x => let r := s.streamRow g x t bad; streamRows g t bad k r.1 r.2

/-- Count and log the outcome of a check tile in J3 repeat mode: 1 TRANSIENT, 2 PERMANENT. -/
def State.j3Record (s : State) (g : Nat) (x : MExec) (outcome : Nat) (quadrant : Lane4) : State :=
  let s1 := { s with int := { s.int with nJ3 := s.int.nJ3 + 1 } }
  s1.logRec (coreRec 0x0013 (if outcome = 2 then sERROR else sNOTICE) g
    ([BitVec.ofNat 8 outcome, quadrant.setWidth 8] ++ leBytes 4 x.cmd.n.toNat))

/-- The outcome of a check tile in J3 repeat mode (R421). -/
def State.j3Outcome (s : State) (g : Nat) (x : MExec) (j : Repetition) : State :=
  match j with
  | .agree => s
  | .third q => s.j3Record g x 1 q
  | .permanent q =>
    let s1 := (s.j3Record g x 2 q).raise g cRESIDUE 0 x.cmd.pc x.cmd.ord
    let c := s1.core g
    let m := c.mat.setEntry x.dlog { c.mat.entry x.dlog with verdict := 2 }
    (s1.setCore g { c with mat := m, checkFailed := true }).fenceCore g 4 q.toNat

/-- One step of the drain in J3 repeat mode: write a complete granule, or compute the next check tile. -/
def State.drainJ3 (s : State) (g : Nat) (t : MTileOp) (x : MExec) (j : Repetition) : State :=
  match x.complete t with
  | some n => s.drainGran g x n
  | none =>
    if t.rows ≤ x.row then s
    else match s.tileFreeze g x t with
      | some f => s.setMat g ((s.core g).mat.setExec { x with frz := some f })
      | none =>
        let bad := match j with | .permanent _ => true | _ => false
        let r := streamRows g t bad (tileRows x t) s x
        let s1 := r.1.j3Outcome g x j
        match r.2.complete t with
        | some n => s1.drainGran g r.2 n
        | none => s1

def Mat.findExec (m : Mat) (n : Word32) : Option MExec := m.exec.find? (fun x => x.cmd.n = n)

/-- The granule by which a later command of the array, frozen on this command's writes, goes on (R126). -/
def Core.awaited (c : Core) (g : Nat) (x : MExec) : Option Nat :=
  x.pendGrans.find? (fun n => (c.mat.part x.cmd.q).any (fun y =>
    y.frz = some (.earlier x.cmd.n) &&
      (match y.cmd.op with | .mtile t => (c.needs g y t).contains (.lsp g, n) | _ => false)))

/-- MATRIX_DRAIN_WRITE of command n. A frozen array or sub-array holds every stage (R134), but for the write that ends
the freeze of R126. (DEDUCED, log entry 131.) -/
def State.matDrain (s : State) (g : Nat) (n : Word32) (j : Repetition) : State :=
  let c := s.core g
  match c.mat.findExec n with
  | some x =>
    match x.cmd.op with
    | .mtile t =>
      if x.frz.isSome then s
      else if c.mat.frozenAt x.cmd.q then
        match c.awaited g x with
        | some k => s.drainGran g x k
        | none => s
      else if !c.mat.on then s
      else if c.j3 then s.drainJ3 g t x j
      else drainLoop g t (t.rows + 1) s x
    | _ => s
  | none => s

/-! ## Completing -/

/-- The verdict field of an entry once its last check is in (R146, Table 4-10); in J3 repeat mode, which decides by
repetition, once the command has completed. -/
def Core.settleEntry (c : Core) (i : Nat) : Core :=
  let e := c.mat.entry i
  if e.verdict = 0 && (e.done || !c.j3) && !c.matChecks.any (fun k => k.dlog = i) then
    { c with mat := c.mat.setEntry i { e with verdict := 1 } }
  else c

/-- Complete an MTILE whose writes are all performed (R77, R78, R143). A histogram clear that waits for a counted drain
waits while any is in progress, one begun later among them. (DESIGN CHOICE, log entry 145.) -/
def State.completeTile (s : State) (g : Nat) (x : MExec) : State :=
  let c := s.core g
  let m := c.mat
  let m1 := m.setEntry x.dlog { m.entry x.dlog with done := true }
  let m2 := { m1 with exec := m1.exec.filter (fun y => y.cmd.n ≠ x.cmd.n) }
  let c1 := ({ c with mat := { m2 with hist := if m2.counting then m2.hist else m2.hist.settle } }).matDone x.cmd.n
  let s1 := s.setCore g (c1.settleEntry x.dlog)
  if x.psn then s1.raise g cPOISON 0 x.cmd.pc x.cmd.ord else s1

/-- Complete an MWL: its tile becomes current (R123). -/
def State.completeLoad (s : State) (g : Nat) (k : MCmd) (b : Bool) : State :=
  let c := s.core g
  let sub := c.mat.subAt k.q
  let m := { c.mat.setSub k.q { sub with cur := some b } with
    loading := c.mat.loading.filter (fun y => y.1.n ≠ k.n) }
  let s1 := s.setCore g (({ c with mat := m }).matDone k.n)
  if (match sub.tile b with | some t => t.bad | none => false) then s1.raise g cPOISON 0 k.pc k.ord else s1

/-- Complete an MMODE that changes the mode: both buffers of every sub-array are emptied (R132). -/
def State.completeMode (s : State) (g : Nat) (k : MCmd) : State :=
  let c := s.core g
  let quad := match k.op with | .mmode q => q | _ => c.mat.quad
  s.setCore g (({ c with
    mat := { c.mat with quad := quad, sub := Vector.replicate 4 SubArr.empty, modeChg := none } }).matDone k.n)

/-- MATRIX_COMMAND_COMPLETE of command n. -/
def State.matComplete (s : State) (g : Nat) (n : Word32) : State :=
  let m := (s.core g).mat
  match m.findExec n, m.loading.find? (fun y => y.1.n = n), m.modeChg with
  | some x, _, _ =>
    match x.cmd.op with
    | .mtile t => if t.rows ≤ x.row && x.wbuf.isEmpty then s.completeTile g x else s
    | _ => s
  | none, some y, _ => if m.frozenAt y.1.q || !m.on then s else s.completeLoad g y.1 y.2
  | none, none, some k => if k.n = n && m.modeLeft = 0 then s.completeMode g k else s
  | none, none, none => s

/-- Whether the cause of a freeze has cleared (R134). -/
def State.freezeOver (s : State) (g : Nat) (x : MExec) (t : MTileOp) : Freeze → Bool
  | .held n => !(s.core g).drainProtected x n
  | .replay => s.rowFreeze g x t x.row ≠ some .replay
  | .earlier n => !(s.core g).mat.exec.any (fun y => y.cmd.n = n &&
      meets (y.pendGrans.map (fun k => (Loc.lsp g, k))) ((s.core g).needs g x t))

def State.matResume (s : State) (g : Nat) (n : Word32) : State :=
  let m := (s.core g).mat
  match m.findExec n with
  | some x =>
    match x.cmd.op, x.frz with
    | .mtile t, some f => if s.freezeOver g x t f then s.setMat g (m.setExec { x with frz := none }) else s
    | _, _ => s
  | none => s

/-! ## The activity ramp (R136 to R139) -/

/-- Whether the array has a command or work in its pipeline. -/
def Mat.hasWork (m : Mat) : Bool :=
  !m.queue.isEmpty || !m.exec.isEmpty || !m.loading.isEmpty || m.modeChg.isSome

/-- The sub-arrays that have work; in full mode the whole array counts as one. -/
def Mat.parts (m : Mat) : List Lane4 :=
  (if m.quad then [0, 1, 2, 3] else [0]).filter (fun q =>
    !(m.part q).isEmpty || m.loading.any (fun x => x.1.q = q || !m.quad))

/-- Some part of the array with work is not frozen (R135). -/
def Mat.advances (m : Mat) : Bool := m.parts.any (fun q => !m.frozenAt q)

/-- The array is frozen: it has work, and no part of it advances (R135, R138). -/
def Mat.allFrozen (m : Mat) : Bool := !m.parts.isEmpty && !m.advances

/-! ## Rows -/

/-- MATRIX_COMMAND_BEGIN (R116, R123, R124, R130 to R132, R144). -/
def execMatrixCommandBegin (g : Gcn) (s : State) : Res := .next (s.matBegin g.toNat)

/-- MATRIX_DRAIN_WRITE (R120, R126, R141, R420, R421). -/
def execMatrixDrainWrite (g : Gcn) (n : Word32) (j : Repetition) (s : State) : Res :=
  .next (s.matDrain g.toNat n j)

/-- MATRIX_COMMAND_COMPLETE (R77, R78). -/
def execMatrixCommandComplete (g : Gcn) (n : Word32) (s : State) : Res :=
  .next ((s.matComplete g.toNat n).settleMarks g.toNat)

/-- MATRIX_RESUME: a frozen array or sub-array goes on where it stopped (R134). -/
def execMatrixResume (g : Gcn) (n : Word32) (s : State) : Res := .next (s.matResume g.toNat n)

/-- The array has no row enabled and holds no command: it is idle (R136). -/
def Mat.atIdle (m : Mat) : Bool := m.enabled = 0 && m.exec.isEmpty && m.loading.isEmpty

/-- The die's pilot holds power credit for core g's array beside its other activity (R139, R441). -/
def State.creditFor (s : State) (g : Nat) : Bool :=
  let d := s.die (dieOf g)
  d.idle < d.hold && s.priced (dieOf g) d.mhz (Config.arrayPrice d.mhz)

/-- ARRAY_RAMP_UP: the rows not enabled are enabled one per cycle (R136 to R138); from idle, once the pilot holds credit
for the array (R139). -/
def execArrayRampUp (g : Gcn) (s : State) : Res :=
  let m := (s.core g.toNat).mat
  if m.hasWork && m.rows < 32 && !m.allFrozen && (!m.atIdle || s.creditFor g.toNat) then
    .next (s.setMat g.toNat { m with rows := 32, rampLeft := 32 - m.enabled, rampDown := false, idleCyc := 0 })
  else .next s

/-- ARRAY_RAMP_DOWN: an array without command or work for 16 cycles disables its rows (R136). -/
def execArrayRampDown (g : Gcn) (s : State) : Res :=
  let m := (s.core g.toNat).mat
  if !m.hasWork && 0 < m.rows && 16 ≤ m.idleCyc then
    .next (s.setMat g.toNat { m with rows := 0, rampLeft := m.rows, rampDown := true })
  else .next s

/-- FROZEN_RAMP_DOWN: an array frozen for 64 consecutive cycles disables its rows, holding its state
(R138). -/
def execFrozenRampDown (g : Gcn) (s : State) : Res :=
  let m := (s.core g.toNat).mat
  if m.allFrozen && 0 < m.rows && 64 ≤ m.frozenCyc then
    .next (s.setMat g.toNat { m with rows := 0, rampLeft := m.rows, rampDown := true })
  else .next s

end Sys2Proof.Machine
end

