-- ==== Sys2Proof/Machine/Frame.lean ====
section
/-!
DEFINITION. The bytes of a frame: its control granule, its flits and the transactions in them (spec 10, R324, R325,
Tables 10-3, 10-5, 10-6).
-/

namespace Sys2Proof.Machine

/-! ## Transactions (Table 10-5) -/

/-- Traffic class of a transaction. -/
def kindClass (k : Byte) : Nat :=
  match k.toNat with
  | 1 => 4 | 2 => 4
  | 3 => 3 | 4 => 3 | 5 => 3 | 6 => 3
  | 7 => 1 | 8 => 1 | 10 => 1 | 11 => 1
  | 9 => 2
  | _ => 0

/-- Flits of a transaction. -/
def flits (k : Byte) (x : Txn) : Nat :=
  match k.toNat with
  | 1 => 1 + 2 * x.count.toNat
  | 4 => 1 + 2 * x.count.toNat
  | 9 => if x.data.length = 256 then 9 else 5
  | _ => 1

/-- Flits of one frame (R325). -/
def frameFlits : Nat := 38

/-- The header flit (Table 10-6). -/
def headerFlit (k : Byte) (x : Txn) : List Byte :=
  [k, BitVec.ofNat 8 (kindClass k + 8 * ofBool x.poison + 16 * ofBool x.psub)] ++
  leBytes 2 x.src.toNat ++ leBytes 2 x.dst.toNat ++ leBytes 2 x.count.toNat ++ leBytes 4 x.tag.toNat ++
  leBytes 8 x.addr.toNat ++ leBytes 8 x.aux.toNat ++ leBytes 4 0

/-- A list cut or filled with zeros to n bytes. -/
def padTo (n : Nat) (l : List Byte) : List Byte := (l ++ List.replicate n 0).take n

/-- A transaction's flits: its header and, where it has them, its data. -/
def txnBytes (k : Byte) (x : Txn) : List Byte :=
  headerFlit k x ++ padTo (32 * (flits k x - 1)) x.data

/-! ## Frames (R325, Table 10-3) -/

/-- Bytes 0 to 59 of a control granule, with the link message's bytes as given. -/
def controlBytes (seq ack : BitVec 12) (nak : Bool) (credits : List Nat) (lmsg : List Byte) : List Byte :=
  leBytes 2 seq.toNat ++ leBytes 2 (ack.toNat + 4096 * ofBool nak) ++
  ((List.range 5).flatMap (fun c => leBytes 2 (credits.getD c 0))) ++ List.replicate 10 0 ++ padTo 32 lmsg ++
  List.replicate 4 0

/-- The 1,280 bytes of a frame; the CRC is taken with its own field as 0. Flits that no transaction takes hold 0.
(DESIGN CHOICE, log entry 39.) -/
def frameBytes (seq ack : BitVec 12) (nak : Bool) (credits : List Nat) (lmsg : List Byte) (ts : List OutTxn) :
    List Byte :=
  let head := controlBytes seq ack nak credits lmsg
  let flits := padTo 1216 (ts.flatMap (fun t => txnBytes t.kind t.x))
  head ++ leBytes 4 (crc32 (head ++ List.replicate 4 0 ++ flits)).toNat ++ flits

/-- The FEC corrects a frame with up to 32 symbols in error (R324, Table 10-1). -/
def frameSymbols (f : FrameIn) : Nat := f.errors.sum

def frameFecOk (f : FrameIn) : Bool := frameSymbols f ≤ 32

/-- The CRC matches. -/
def frameCrcOk (f : FrameIn) : Bool :=
  (crc32 (f.data.take 60 ++ List.replicate 4 0 ++ f.data.drop 64)).toNat = fieldAt f.data 60 4

def frameSeq (f : FrameIn) : BitVec 12 := BitVec.ofNat 12 (fieldAt f.data 0 2)
def frameAck (f : FrameIn) : BitVec 12 := BitVec.ofNat 12 (fieldAt f.data 2 2)
def frameNak (f : FrameIn) : Bool := (fieldAt f.data 2 2).testBit 12
def frameCredits (f : FrameIn) : List Nat := (List.range 5).map (fun c => fieldAt f.data (4 + 2 * c) 2)

end Sys2Proof.Machine
end

