-- ==== Sys2Proof/Machine/Net.lean ====
section
/-!
DEFINITION. Routing, frames, credits and transactions on the links (spec 10, R324 to R341), and the
back-invalidation of signal-window lines before they are written (spec 11, R375).
-/

namespace Sys2Proof.Machine

/-! ## Routing (R338, R339) -/

inductive Route
  | here
  | out (p : Port)
  | unreachable
  deriving DecidableEq, Repr

def LinkState.carries : LinkState → Bool
  | .up => true
  | _ => false

def PortSt.up (x : PortSt) : Bool := x.la.state.carries || x.lb.state.carries

/-- The entry for coordinate c of a routing table. -/
def entryAt (tbl c : Nat) : Nat := bitsOf tbl (2 * c) 2

/-- Follow an entry: 1 the plus port, 2 the minus port; a port with no link UP takes nothing. -/
def State.takeEntry (s : State) (e : Nat) (plus minus : Port) : Route :=
  if e = 1 then (if (s.port plus).up then .out plus else .unreachable)
  else if e = 2 then (if (s.port minus).up then .out minus else .unreachable)
  else .unreachable

def State.route (s : State) (dst : Coord) : Route :=
  let o := s.own
  if cx dst ≠ cx o then s.takeEntry (entryAt s.lnk.routeX.toNat (cx dst)) .xp .xn
  else if cy dst ≠ cy o then s.takeEntry (entryAt s.lnk.routeY.toNat (cy dst)) .yp .yn
  else if cz dst ≠ cz o then s.takeEntry (entryAt s.lnk.routeZ.toNat (cz dst)) .zp .zn
  else .here

/-! ## Links -/

def State.link (s : State) (p : Port) : LinkId → Link
  | .a => (s.port p).la
  | .b => (s.port p).lb

def State.setLink (s : State) (p : Port) (l : LinkId) (x : Link) : State :=
  match l with
  | .a => s.setPort p { s.port p with la := x }
  | .b => s.setPort p { s.port p with lb := x }

/-- Change one class's number in a list of five. -/
def onClass (l : List Nat) (c : Nat) (f : Nat → Nat) : List Nat := l.set c (f (l.getD c 0))

/-! ## Priority (R296, R328, Table 10-4) -/

/-- The sailings a step lists: its primary sailing, then each alternative (R297, Table 9-4). -/
def laterSailings : Nat → List Nat → List Nat
  | _, [] => []
  | k, a :: t => (k + a) :: laterSailings (k + a) t

def Step.sailings (st : Step) (start : Nat) : List Nat :=
  (start + st.sail) :: laterSailings (start + st.sail) st.alts

/-- Whether tide time lies in a sailing that a SEND step of a running collective lists on the port. -/
def State.ownSailing (s : State) (p : Port) : Bool :=
  s.col.toList.any (fun e => match e.run with
    | none => false
    | some c => c.steps.any (fun st => !st.recv && st.port = (portNum p).val &&
        (st.sailings c.start).contains (s.tt.now / 2 ^ c.log2)))

/-- A block that another device sent and this one passes on. -/
def OutTxn.forwarded (t : OutTxn) : Bool := kindClass t.kind = 2 && t.via.isSome

/-- What a port sends by turns: a traffic class, of which during the device's own sailing its own blocks and those it
passes on are apart (R328). -/
inductive Turn
  | all (c : Nat)
  | own
  | forwarded
  deriving DecidableEq, Repr

def Turn.takes : Turn → OutTxn → Bool
  | .all c, t => kindClass t.kind = c
  | .own, t => kindClass t.kind = 2 && !t.forwarded
  | .forwarded, t => t.forwarded

def Turn.class : Turn → Nat
  | .all c => c
  | .own => 2
  | .forwarded => 2

/-- The turns in the order a link serves them: a class of priority 3 to 5 that has sent nothing for 2 µs goes ahead of
the others of priority 3 to 5. During the device's own sailing responses come before the blocks passed on, of equal
priority. (DESIGN CHOICE, log entry 134.) -/
def State.classOrder (s : State) (p : Port) (l : LinkId) : List Turn :=
  let low := if s.ownSailing p then [.own, .all 3, .forwarded, .all 4] else [.all 3, .all 2, .all 4]
  let starved (t : Turn) : Bool := (s.link p l).sentAt.getD t.class 0 + 2000 ≤ s.wall
  [.all 0, .all 1] ++ low.filter starved ++ low.filter (fun t => !starved t)

/-! ## Sending (R326, R328, R329, R333) -/

/-- A link that is UP and has room in its replay buffer. -/
def Link.open_ (l : Link) : Bool := l.state.carries && l.replay.length < 512

/-- Flits by class of some transactions. -/
def flitsOf (ts : List OutTxn) : List Nat :=
  ts.foldl (fun h t => onClass h (kindClass t.kind) (· + flits t.kind t.x)) [0, 0, 0, 0, 0]

/-- The transmitter holds a credit for each flit (R329). -/
def Link.holds (l : Link) (ts : List OutTxn) : Bool :=
  (List.range 5).all (fun c => (flitsOf ts).getD c 0 ≤ l.held.getD c 0)

/-- The link without the credits that some transactions take. -/
def Link.spend (l : Link) (ts : List OutTxn) : Link :=
  { l with held := (List.range 5).map (fun c => l.held.getD c 0 - (flitsOf ts).getD c 0) }

def zero5 : List Nat := [0, 0, 0, 0, 0]

/-- The bytes of the link message of a frame: what they say in operation the spec does not lay down. -/
def lmsgOf (draw : Nat) : List Byte := (List.range 32).map (Config.lmsgByte draw)

/-- The classes of some transactions have been sent now (R328). -/
def Link.sends (l : Link) (ts : List OutTxn) (now : Nat) : Link :=
  { l with sentAt := ts.foldl (fun v t => v.set (kindClass t.kind) now) l.sentAt }

/-- Send one frame on a link, carrying the credits owed and some transactions. -/
def State.frameOut (s : State) (p : Port) (l : LinkId) (ts : List OutTxn) : State :=
  let lk := (s.link p l).sends ts s.wall
  let t := s.setLink p l { lk with txSeq := lk.txSeq + 1, owe := zero5, replay := lk.replay ++ [⟨lk.txSeq, lk.owe, ts⟩] }
  { t with freeCtr := t.freeCtr + 1 }.emit
    (.frame p l (frameBytes lk.txSeq lk.rxSeq lk.nak lk.owe (lmsgOf t.freeCtr) ts) ts)

/-- A credit limit in force for a class. -/
def PortSt.limit (x : PortSt) (c : Nat) : Nat := x.limits.getD c 0

/-- n flits of a class have left a link's buffer: their credits are returned, or retired while the
granted credits exceed the limit (R329, R330); of a link that is down they are parked (R332). -/
def State.creditBack (s : State) (p : Port) (l : LinkId) (c n : Nat) : State :=
  let lk := s.link p l
  if lk.state = .up ∨ lk.state = .slack then
    let r := min n (lk.granted.getD c 0 - (s.port p).limit c)
    s.setLink p l { lk with
      granted := onClass lk.granted c (· - r)
      owe := onClass lk.owe c (· + (n - r))
      ret := onClass lk.ret c (· + (n - r)) }
  else s.setLink p l { lk with park := onClass lk.park c (· + n) }

/-- Flits stay in a link's buffer. -/
def State.keepFlits (s : State) (p : Port) (l : LinkId) (c n : Nat) : State :=
  let lk := s.link p l
  s.setLink p l { lk with buffer := onClass lk.buffer c (· + n) }

/-- Flits leave a link's buffer, and their credits go back (R329). -/
def State.freeFlits (s : State) (p : Port) (l : LinkId) (c n : Nat) : State :=
  let lk := s.link p l
  (s.setLink p l { lk with buffer := onClass lk.buffer c (· - n) }).creditBack p l c n

/-- A passed-on transaction has left its buffer. -/
def State.leaveBuffer (s : State) (t : OutTxn) : State :=
  match t.via with
  | none => s
  | some (p, l) => s.freeFlits p l (kindClass t.kind) (flits t.kind t.x)

/-- The next transaction a link can send. -/
def State.nextTxn (s : State) (p : Port) (l : LinkId) : Option OutTxn :=
  (s.classOrder p l).findSome? (fun c =>
    match (s.port p).txq.find? c.takes with
    | none => none
    | some t => if (s.link p l).holds [t] then some t else none)

/-- A transaction leaves a port's queue for a link: it gets its number in its class (R333) and takes its credits. -/
def State.takeTxn (s : State) (p : Port) (l : LinkId) (t : OutTxn) : State × OutTxn :=
  let x := s.port p
  let c := kindClass t.kind
  let s1 := s.setPort p { x with txq := x.txq.erase t, txNum := onClass x.txNum c (· + 1) }
  let k := s1.link p l
  (s1.setLink p l { k.spend [t] with sentAt := k.sentAt.set c s.wall },
    { t with x := { t.x with num := x.txNum.getD c 0, link := l } })

/-- Gather transactions for one frame while they fit in its flits. -/
def State.loadFrame (p : Port) (l : LinkId) : Nat → Nat → State → List OutTxn → State × List OutTxn
  | 0, _, s, ts => (s, ts)
  | k + 1, room, s, ts =>
    match s.nextTxn p l with
    | none => (s, ts)
    | some t =>
      let n := flits t.kind t.x
      if n ≤ room then
        let r := s.takeTxn p l t
        State.loadFrame p l k (room - n) r.1 (ts ++ [r.2])
      else (s, ts)

/-- Send what a link can send: first the frames to be sent again, in order (R332). -/
def State.pumpLink (p : Port) (l : LinkId) : Nat → State → State
  | 0, s => s
  | k + 1, s =>
    if !(s.link p l).open_ then s
    else match (s.port p).resend with
      | ts :: rest =>
        if (s.link p l).holds ts then
          let s1 := s.setPort p { s.port p with resend := rest }
          let again := ts.map (fun t => { t with x := { t.x with link := l } })
          State.pumpLink p l k ((s1.setLink p l ((s1.link p l).spend ts)).frameOut p l again)
        else s
      | [] =>
        match s.loadFrame p l frameFlits frameFlits [] with
        | (_, []) => s
        | (s1, ts) => State.pumpLink p l k (ts.foldl State.leaveBuffer (s1.frameOut p l ts))

/-- Send a frame without a transaction where credits are owed. -/
def State.flushOwed (s : State) (p : Port) (l : LinkId) : State :=
  let lk := s.link p l
  if lk.open_ && lk.owe ≠ zero5 then s.frameOut p l [] else s

def allPorts : List Port := [.xp, .xn, .yp, .yn, .zp, .zn]

/-! ### Blocks of this device's collectives (R295) -/

def txnColl (x : Txn) : Word32 := x.addr.setWidth 32
def txnBlock (x : Txn) : Nat := x.addr.toNat / 2 ^ 32
def txnStep (x : Txn) : Nat := x.aux.toNat % 4096

/-- The sailing of a block still to be sent is over: it may not leave any more. -/
def OutTxn.late (t : OutTxn) (now : Nat) : Bool := t.until_.any (fun u => u ≤ now)

/-- A block that did not leave in its sailing is unsent again, and missed. -/
def ColEng.takeBack (g : ColEng) (x : Txn) : ColEng :=
  match g.run with
  | some c =>
    if c.collId = txnColl x then
      { g with run := some { c with sent := c.sent.erase (txnStep x, txnBlock x) }, missed := g.missed + 1 }
    else g
  | none => g

/-- Blocks of this device's collectives that have not left by the end of their sailing less 32 ns stay behind. -/
def State.holdBack (s : State) (p : Port) : State :=
  let x := s.port p
  let late := x.txq.filter (fun t => t.late s.tt.now)
  let s1 := s.setPort p { x with txq := x.txq.filter (fun t => !t.late s.tt.now) }
  late.foldl (fun t b => { t with col := t.col.map (fun g => g.takeBack b.x) }) s1

/-- Take back a collective's blocks that have not left their ports. -/
def State.withdrawBlocks (s : State) (id : Word32) : State :=
  { s with lnk := { s.lnk with ports := s.lnk.ports.map (fun x =>
      { x with txq := x.txq.filter (fun t => t.until_.isNone || txnColl t.x ≠ id) }) } }

/-- Blocks of a collective that wait in a port for credits. -/
def State.blocksWait (s : State) (id : Word32) : Bool :=
  allPorts.any (fun p => (s.port p).txq.any (fun t => t.until_.isSome && txnColl t.x = id))

/-- Both links of a port send what they can. While no link of the port carries traffic, what is queued on it and what is to
be sent again stays, and leaves when one is UP again. (DESIGN CHOICE, log entry 166.) -/
def State.pumpPort (s : State) (p : Port) : State :=
  let t := s.holdBack p
  let n := (t.port p).txq.length + (t.port p).resend.length
  State.pumpLink p .b n (State.pumpLink p .a n t)

/-- Every port sends what it can. -/
def State.pump (s : State) : State :=
  let s1 := allPorts.foldl State.pumpPort s
  allPorts.foldl (fun t p => (t.flushOwed p .a).flushOwed p .b) s1

/-- Queue a transaction on a port; one of a sailing must leave before a tide time. -/
def State.postTill (s : State) (p : Port) (kind : Byte) (x : Txn) (via : Option (Port × LinkId)) (till : Option Nat) : State :=
  let o := s.port p
  s.setPort p { o with txq := o.txq ++ [⟨kind, x, via, till⟩] }

def State.post (s : State) (p : Port) (kind : Byte) (x : Txn) (via : Option (Port × LinkId)) : State :=
  s.postTill p kind x via none

/-- Send a transaction of this device; none when no route takes it (R339). -/
def State.sendTxn (s : State) (kind : Byte) (x : Txn) : Option State :=
  match s.route x.dst with
  | .out p => some (s.post p kind x none).pump
  | _ => none

/-- Send an answer; one that cannot be routed is discarded and counted (R339). -/
def State.sendAnswer (s : State) (kind : Byte) (x : Txn) : State :=
  match s.sendTxn kind x with
  | some t => t
  | none => { s with lnk := { s.lnk with unroutable := s.lnk.unroutable + 1 } }

/-- The answer of this device to a transaction: its tag and address come back. -/
def State.replyTo (s : State) (x : Txn) (count : Nat) (aux : Nat) (poison : Bool) (data : List Byte) : Txn :=
  { poison := poison, psub := x.psub, src := s.own, dst := x.src, count := BitVec.ofNat 16 count
    tag := x.tag, addr := x.addr, aux := BitVec.ofNat 64 aux, num := 0, link := .a, cover := [], data := data }

/-! ## Receiving (R333, R338, R339) -/

/-- Pass a received transaction on towards its destination, or return UNROUTABLE. -/
def State.passOn (s : State) (p : Port) (l : LinkId) (kind : Byte) (x : Txn) : State :=
  let c := kindClass kind
  let n := flits kind x
  match s.route x.dst with
  | .out q => (s.keepFlits p l c n).post q kind x (some (p, l))
  | _ =>
    let s1 := s.creditBack p l c n
    if c = 3 || kind = 0x08 then { s1 with lnk := { s1.lnk with unroutable := s1.lnk.unroutable + 1 } }
    else s1.sendAnswer 0x06 (s1.replyTo x 0 0 false [])

/-! ## Writes to the signal window (R375) -/

/-- Signal-window lines among a list of DMEM lines. -/
def windowLines (l : List Nat) : List Nat := (l.filter (fun n => inWindow (n * 64))).dedup

/-- Whether every line may be written: outside CXL mode no snoop is needed. -/
def State.windowReady (s : State) (lines : List Nat) : Bool :=
  s.hrw.mode ≠ 1 || (windowLines lines).all (fun n => s.hrw.inval.contains n)

/-- Send a snoop of a line for a purpose. -/
def State.snoop (s : State) (line : Nat) (data : Bool) (why : Snoop) : State :=
  { s with hrw := { s.hrw with snoops := s.hrw.snoops ++ [(line, why)] } }.emit (.snoop line data)

/-- Ask for the lines not yet invalidated. -/
def State.askInv (s : State) (lines : List Nat) : State :=
  (windowLines lines).foldl (fun t n =>
    if t.hrw.inval.contains n || t.hrw.snoops.any (fun x => x.1 = n && x.2 = .inv) then t
    else t.snoop n false .inv) s

/-- The lines have been written. -/
def State.usedInv (s : State) (lines : List Nat) : State :=
  { s with hrw := { s.hrw with inval := s.hrw.inval.filter (fun n => !lines.contains n) } }

end Sys2Proof.Machine
end

