-- ==== Sys2Proof/Machine/Ferry.lean ====
section
/-!
DEFINITION. The ferry engine (spec 06, R194 to R219): beginning commands, moving and converting elements,
gather and scatter, and transfers that leave the core.
-/

namespace Sys2Proof.Machine

def State.setFer (s : State) (g : Nat) (f : Fer) : State := s.setCore g { s.core g with fer := f }

/-! ## Begin checks (R195 to R202, Table 6-5) -/

/-- The dimension a gather or scatter indexes is that of its table. -/
def FCmd.table (c : FCmd) : Desc := if c.op = .fgath then c.dsrc else c.ddst
def FCmd.rows (c : FCmd) : Desc := if c.op = .fgath then c.ddst else c.dsrc

/-- The shape rules of R196, R201 and R202. -/
def ferShapeOk (c : FCmd) : Bool :=
  if c.op.indexed then
    let g := dRank c.table - 1
    let ri := dRank c.didx
    dRank c.rows = g + ri && g + ri ≤ 5 &&
      (List.range g).all (fun k => lExt c.rows k = lExt c.table k) &&
      (List.range ri).all (fun k => lExt c.rows (g + k) = lExt c.didx k) &&
      !((dBsc c.dsrc || dBsc c.ddst) && g < 1)
  else lExts c.dsrc = lExts c.ddst

/-- The spaces of Table 6-4 and R195. -/
def ferSpaceOk (c : FCmd) : Bool :=
  let a := dSpace c.dsrc
  let b := dSpace c.ddst
  match c.op with
  | .fcopy => b ≠ 2 && !(4 ≤ a && 4 ≤ b)
  | .fconv => b ≠ 2 && !(4 ≤ a && 4 ≤ b)
  | .fgath => a ≤ 3 && b = 0 && (dSpace c.didx = 0 || dSpace c.didx = 2)
  | .fscat => a = 0 && (b = 0 || b = 1 || b = 3) && (dSpace c.didx = 0 || dSpace c.didx = 2)
  | .fscadd => a = 0 && (b = 0 || b = 1 || b = 3) && (dSpace c.didx = 0 || dSpace c.didx = 2)
  | .fqbc => (a = 0 || a = 1 || a = 3) && b = 2

/-- The format pairings of Table 6-4. FCONV takes equal formats too. (DESIGN CHOICE, log entry 146.) -/
def ferFmtOk (c : FCmd) : Bool :=
  match c.op with
  | .fconv => true
  | .fscadd =>
    let f := (dFmt c.ddst).toNat
    !dBsc c.ddst && (if fmtInt (dFmt c.dsrc) then f = 0xC || f = 0xD else 8 ≤ f && f ≤ 0xB)
  | _ => dFmt c.dsrc = dFmt c.ddst && dBsc c.dsrc = dBsc c.ddst

def ferCode (c : FCmd) : Option Nat :=
  if !ferShapeOk c then some 1 else if !ferSpaceOk c then some 2 else if !ferFmtOk c then some 3 else none

/-! ## Elements moved (R196, R202 to R206) -/

/-- One element to write: its place in the destination, the source element (none for a row that reads
as zero), and the checks its index element awaits. -/
structure Move where
  dst   : List Nat
  src   : Option (List Nat)
  marks : List Nat
  deriving DecidableEq, Repr

/-- What an index tensor comes to: the moves, the counts of R203 and R206, and the element that fails:
its position, its value, and whether it was poisoned. -/
structure Plan where
  moves : List Move
  clamp : Nat
  zero  : Nat
  dup   : Nat
  seen  : List Nat
  fail  : Option (Nat × Int × Bool)
  deriving DecidableEq, Repr

def Plan.start : Plan := ⟨[], 0, 0, 0, [], none⟩

/-- What an index value resolves to (R203): a row, a row of zeros or none, or failure; with what is counted. -/
inductive Resolved
  | row (x : Nat)
  | clamped (x : Nat)
  | zeroed
  | failed
  deriving DecidableEq, Repr

def resolve (i : Int) (n : Nat) (policy : BitVec 2) : Resolved :=
  if 0 ≤ i ∧ i < n then .row i.toNat
  else if policy = 1 then .clamped (if i < 0 then 0 else n - 1)
  else if policy = 2 then .zeroed
  else if policy = 3 ∧ -(n : Int) ≤ i ∧ i < 0 then .row (n + i).toNat
  else .failed

def pad5 (l : List Nat) : List Nat := (l ++ [0, 0, 0, 0, 0]).take 5

/-- Logical indices 0 to g − 1 of a table, in canonical order. -/
def innerIx (d : Desc) (g : Nat) : List (List Nat) :=
  let e := (lExts d).take g
  (List.range (e.foldl (· * ·) 1)).map (unflatten e)

/-- The moves of one index element. `x` is the resolved row, none for zeros. -/
def elementMoves (c : FCmd) (j : List Nat) (x : Option Nat) (marks : List Nat) : List Move :=
  let g := dRank c.table - 1
  let jj := j.take (dRank c.didx)
  (innerIx c.table g).map (fun t =>
    if c.op = .fgath then ⟨pad5 (t ++ jj), x.map (fun r => pad5 (t ++ [r])), marks⟩
    else ⟨pad5 (t ++ [x.getD 0]), some (pad5 (t ++ jj)), marks⟩)

/-- Take one more index element into a plan (R203 to R206). Repeats are counted where they save a read of the table: of
FGATH and FSCADD, not of FSCAT, and not of rows of zeros. (DESIGN CHOICE, log entry 147.) -/
def Plan.step (c : FCmd) (v : View) (p : Plan) (pos : Nat) : Plan :=
  if p.fail.isSome then p
  else
    let j := indicesOf c.didx pos
    let e := readElem v c.didx j
    let i := toSigned e.code (fmtBits (dFmt c.didx))
    let seen := if pos % 64 = 0 then [] else p.seen
    if e.bad then { p with fail := some (pos, i, true) }
    else
      let use (x : Nat) (clamp : Nat) : Plan :=
        { p with
          moves := p.moves ++ elementMoves c j (some x) e.marks
          clamp := p.clamp + clamp
          dup := if c.op ≠ .fscat && seen.contains x then p.dup + 1 else p.dup
          seen := if seen.contains x then seen else x :: seen }
      match resolve i (lExt c.table (dRank c.table - 1)) (dIdxp c.didx) with
      | .row x => use x 0
      | .clamped x => use x 1
      | .zeroed => { p with
          moves := if c.op = .fgath then p.moves ++ elementMoves c j none e.marks else p.moves
          zero := p.zero + 1, seen := seen }
      | .failed => { p with fail := some (pos, i, false) }

/-- The plan of a command; `v` views its index tensor. -/
def planOf (c : FCmd) (v : View) : Plan :=
  if c.op.indexed then (List.range (elemCount c.didx)).foldl (Plan.step c v) Plan.start
  else { Plan.start with moves := (allIx c.ddst).map (fun ix => ⟨ix, some ix, []⟩) }

/-- The moves in the canonical order of their destination, those to one element in the order of their sources
(R191, R207). -/
def sortMoves (d : Desc) (l : List Move) : List Move :=
  ((l.map (fun m => (linearOf d m.dst, m))).foldr ins []).map Prod.snd
where
  /-- Put a move before the first whose place is not lower. -/
  ins (x : Nat × Move) : List (Nat × Move) → List (Nat × Move)
    | [] => [x]
    | y :: t => if x.1 ≤ y.1 then x :: y :: t else y :: ins x t

/-! ## Reading the source -/

/-- A logical dimension 0 is contiguous (chapter 6, "Rates"). -/
def contiguous (d : Desc) : Bool := dPacked d || (lStride d 0).natAbs = dBytes d

/-- Bytes received from another device or the host, seen as the source descriptor addresses them. -/
def FExec.rxView (x : FExec) : View := ⟨byteAt x.rx, fun n => x.rxPoison.contains n, fun _ => []⟩

/-- The command's destination lies in its own core's scratchpad. -/
def State.ownDest (s : State) (g : Nat) (d : Desc) : Bool :=
  !s.isRemote d && (match locOf g d (dBase d) with
    | some (.lsp h, _) => h = g
    | _ => false)

/-- The core and the check that has failed of those an LSP granule awaits: no verdict on it is awaited. -/
def State.failedBy (s : State) (l : Loc) (n : Nat) : Option (Nat × Nat) :=
  match l with
  | .lsp g => ((s.marksOf l n).find? (fun id => !(s.core g).checks.any (fun k => k.id = id))).map (fun id => (g, id))
  | _ => none

/-- An LSP granule marked by a check that has failed (R403). -/
def State.failedMark (s : State) (l : Loc) (n : Nat) : Bool := (s.failedBy l n).isSome

def Loc.isLsp : Loc → Bool
  | .lsp _ => true
  | _ => false

/-- A byte of a scratchpad as it leaves its core under poison: a free value, since no wrong result does (R404). (DESIGN
CHOICE, log entry 27.) -/
def State.hiddenByte (s : State) (l : Loc) (a : Nat) : Byte :=
  match l with
  | .lsp g => Config.containedByte g (((s.failedBy l (a / 64)).map Prod.snd).getD 0) a
  | _ => s.readByte l a

/-- A byte as a party outside the core reads it. -/
def State.outByte (s : State) (l : Loc) (a : Nat) : Byte :=
  if l.isLsp && (s.poisoned l (a / 64) || s.failedMark l (a / 64)) then s.hiddenByte l a else s.readByte l a

/-- The reads of a channel's command: writing its own scratchpad, it reads its own unverified granules (R212). -/
def State.ferReader (s : State) (g : Nat) (x : FExec) : Reader :=
  { core := g, eng := some .ferry, ord := x.cmd.ord
    op := match x.copyOf with | some id => some id | none => (s.core g).op
    inside := s.ownDest g x.cmd.ddst }

/-- What access k of a ferry command sees through a descriptor: writing its own scratchpad, it reads its
own unverified granules as they stand; otherwise one released by a failed verdict reads poisoned, and none under poison
gives what stands in it (R212, R403, R404). -/
def State.ferView (s : State) (r : Reader) (k : Nat) (d : Desc) : View :=
  let v := s.dview r k d
  let outside (l : Loc) : Bool := !(r.inside && l = .lsp r.core)
  let at' (n : Nat) (f : Loc → Nat → Bool) : Bool := match locOf r.core d (n * 64) with
    | some (l, x) => f l (x / 64)
    | none => false
  { byte := fun a => match locOf r.core d a with
      | some (l, x) =>
        if l.isLsp && outside l && (s.seenBad r k l (x / 64) || s.failedMark l (x / 64)) then s.hiddenByte l x else v.byte a
      | none => v.byte a
    bad := fun n => v.bad n || at' n (fun l m => outside l && s.failedMark l m)
    marks := fun n => if at' n (fun l _ => !outside l) then v.marks n else [] }

/-- Where the access begins that reads or writes an element: the elements of one contiguous row are read in one access for
each granule, others each in their own; `narrow` says that each is. A dimension of stride 0 gives every index one access
(R189, Tables 6-8 and 7-3). -/
def accessAt (d : Desc) (narrow : Bool) (ix : List Nat) : Nat :=
  let a := elemAddr d (if contiguous d && !narrow then 0 :: ix.drop 1 else ix)
  8 * a.1 + a.2

/-- The number of the access that reads the source of a move. FGATH reads each row once for a window of 64 index elements,
and serves every repeat within it from that read (R206). -/
def FCmd.access (c : FCmd) (m : Move) : Nat :=
  let g := dRank c.table - 1
  let at_ := accessAt c.dsrc (c.op = .fgath && g = 0) (m.src.getD [])
  if c.op = .fgath then linearOf c.didx (m.dst.drop g) / 64 * 2 ^ 48 + at_ else at_

/-- The number of the access that reads a sum's destination: one for each granule of a contiguous row (R209). -/
def FCmd.sumAccess (c : FCmd) (m : Move) : Nat := accessAt c.ddst (dRank c.table = 1) m.dst

/-- The view by which a move reads its source, and by which a sum reads its destination (FSCADD). -/
def State.srcView (s : State) (g : Nat) (x : FExec) (m : Move) : View :=
  if s.isRemote x.cmd.dsrc || isHost x.cmd.dsrc then x.rxView
  else s.ferView (s.ferReader g x) (2 * x.cmd.access m + 1) x.cmd.dsrc

def State.sumView (s : State) (g : Nat) (x : FExec) (m : Move) : View :=
  s.ferView (s.ferReader g x) (2 * x.cmd.sumAccess m + 2) x.cmd.ddst

/-- An element's code with the state of its own granules alone. -/
def readCode (v : View) (d : Desc) (ix : List Nat) : Elem :=
  let gs := ((elemBytes d ix).map (· / 64)).dedup
  ⟨codeAt v d ix, none, gs.any v.bad, gs.foldl (fun m x => setUnion m (v.marks x)) []⟩

/-- The scale byte of an element's block with the state of its granule. -/
def readScale (v : View) (d : Desc) (ix : List Nat) : Elem :=
  let a := scaleAddr d ix
  ⟨(v.byte a).toNat, none, v.bad (a / 64), v.marks (a / 64)⟩

/-- The writes of one access group: the elements of one row, and scale bytes. -/
structure Group where
  els   : List WElem
  scale : List PendByte
  deriving DecidableEq, Repr

/-- A copied element, with its block's scale byte at the block's first element (R198, R202, R204). -/
def copyElem (v : View) (c : FCmd) (m : Move) : WElem × List PendByte :=
  let first := dBsc c.ddst && m.dst.getD 0 0 % 32 = 0
  match m.src with
  | none => (⟨m.dst, 0, false, m.marks⟩, if first then [⟨scaleAddr c.ddst m.dst, 0x7F, false, m.marks⟩] else [])
  | some ix =>
    let e := readCode v c.dsrc ix
    let k := readScale v c.dsrc ix
    (⟨m.dst, e.code, e.bad, setUnion m.marks e.marks⟩,
      if first then [⟨scaleAddr c.ddst m.dst, BitVec.ofNat 8 k.code, k.bad, setUnion m.marks k.marks⟩] else [])

/-- Elements written in one access: those of one contiguous row, in rising order. -/
def sameAccess (d : Desc) (a b : WElem) : Bool :=
  contiguous d && a.ix.drop 1 = b.ix.drop 1 &&
    (a.ix.getD 0 0 < b.ix.getD 0 0 || (dPacked d && a.ix.getD 0 0 = b.ix.getD 0 0))

def groupEls (d : Desc) : List WElem → List (List WElem)
  | [] => []
  | a :: t =>
    match groupEls d t with
    | (b :: l) :: r => if sameAccess d a b then (a :: b :: l) :: r else [a] :: (b :: l) :: r
    | r => [a] :: r

/-- The byte groups that element writes and scale bytes come to, in order. -/
def writeGroups (d : Desc) (els : List WElem) (scale : List PendByte) : List (List PendByte) :=
  (groupEls d els).map (bytesOfWrites d) ++ (if scale.isEmpty then [] else [scale])

/-! ## FCONV (R199, R200) -/

def convElem (v : View) (c : FCmd) (m : Move) : Placed :=
  match m.src with
  | none => ⟨m.dst, .zero, false, m.marks⟩
  | some ix =>
    let e := readElem v c.dsrc ix
    ⟨m.dst, e.num (dFmt c.dsrc), e.bad, setUnion m.marks e.marks⟩

/-! ## FSCADD (R208) -/

/-- A destination address's sum so far. -/
structure Acc where
  addr  : Nat × Nat
  ix    : List Nat
  num   : Num
  int   : Nat
  bad   : Bool
  marks : List Nat
  deriving DecidableEq, Repr

/-- The format additions round to: binary64 for a binary64 destination, else binary32. -/
def addFmt (d : Desc) : Fmt := if dFmt d = 0xB then 0xB else 0xA

/-- One floating addition of R208: the exact sum rounded once, with IEEE special values. (DESIGN CHOICE, log entry 14.) -/
def scatterAdd (f : Fmt) (v term : Num) : Num × BitVec 5 :=
  if v.isNan || term.isNan then (.nan, 0)
  else
    let r := ieeeSum f 0 v false term false
    (decodeNum f r.code, r.flags)

/-- Add one term to an address's sum; flags so far come with it. -/
def Acc.add (c : FCmd) (a : Acc) (e : Elem) (marks : List Nat) : Acc × BitVec 5 :=
  let term := e.num (dFmt c.dsrc)
  let a1 := { a with bad := a.bad || e.bad, marks := setUnion a.marks (setUnion marks e.marks) }
  if fmtInt (dFmt c.ddst) then
    let t := convert term (dFmt c.ddst) 0 0 0
    ({ a1 with int := (a.int + t.code) % 2 ^ fmtBits (dFmt c.ddst) }, t.flags)
  else
    let r := scatterAdd (addFmt c.ddst) a.num term
    ({ a1 with num := r.1 }, r.2)

/-- The sum's start: the destination value before the command. -/
def Acc.start (v : View) (d : Desc) (ix : List Nat) : Acc :=
  let e := readElem v d ix
  ⟨elemAddr d ix, ix, decodeNum (dFmt d) e.code, e.code, e.bad, e.marks⟩

/-- Take a move into the sums. -/
def accMove (c : FCmd) (sv dv : Move → View) (st : List Acc × BitVec 5) (m : Move) : List Acc × BitVec 5 :=
  let e := readElem (sv m) c.dsrc (m.src.getD [])
  let k := elemAddr c.ddst m.dst
  let old := (st.1.find? (fun a => a.addr = k)).getD (Acc.start (dv m) c.ddst m.dst)
  let r := old.add c e m.marks
  (if st.1.any (fun a => a.addr = k) then st.1.map (fun a => if a.addr = k then r.1 else a) else st.1 ++ [r.1],
    st.2 ||| r.2)

/-- The final conversion of a sum. -/
def Acc.final (d : Desc) (a : Acc) : WElem × BitVec 5 :=
  if fmtInt (dFmt d) then (⟨a.ix, a.int, a.bad, a.marks⟩, 0)
  else
    let r := convert a.num (dFmt d) 0 (dOvf d) 0
    (⟨a.ix, r.code, a.bad, a.marks⟩, r.flags)

/-- The sums in the destination's canonical order. -/
def sortAcc (d : Desc) (l : List Acc) : List Acc :=
  (l.foldl (fun m a => smIns (linearOf d a.ix) a m) []).map Prod.snd

/-! ## What a command writes -/

/-- The byte groups a plan writes, and the flags of its conversions. -/
def State.ferOutput (s : State) (g : Nat) (x : FExec) (p : Plan) : List (List PendByte) × BitVec 5 :=
  let c := x.cmd
  let v := s.srcView g x
  match c.op with
  | .fconv =>
    let w := convertPlaced c.seed c.ddst (p.moves.map (fun m => convElem (v m) c m))
    (writeGroups c.ddst w.els w.scale, w.flags &&& 0xF)
  | .fscadd =>
    let r := p.moves.foldl (accMove c v (s.sumView g x)) ([], 0)
    let fin := (sortAcc c.ddst r.1).map (Acc.final c.ddst)
    (writeGroups c.ddst (fin.map Prod.fst) [], (fin.foldl (fun f w => f ||| w.2) r.2) &&& 0xF)
  | _ =>
    let ws := (if c.op = .fscat then sortMoves c.ddst p.moves else p.moves).map (fun m => copyElem (v m) c m)
    (writeGroups c.ddst (ws.map Prod.fst) (ws.flatMap Prod.snd), 0)

/-- The granules of this device that a plan reads, by descriptor: place and number. -/
def State.ferReading (s : State) (g : Nat) (c : FCmd) (p : Plan) : List (Desc × List (Loc × Nat)) :=
  [(c.dsrc, if s.isRemote c.dsrc || isHost c.dsrc then [] else touchedBy g c.dsrc (p.moves.filterMap (·.src))),
    (c.ddst, if c.op = .fscadd then touchedBy g c.ddst (p.moves.map (·.dst)) else []),
    (c.didx, if c.op.indexed then touchedBy g c.didx (allIx c.didx) else [])]

def State.ferTouched (s : State) (g : Nat) (c : FCmd) (p : Plan) : List (Loc × Nat) :=
  (s.ferReading g c p).flatMap Prod.snd

/-- The granules of this device that byte groups write. -/
def State.ferStored (s : State) (g : Nat) (c : FCmd) (l : List (List PendByte)) : List (Loc × Nat) :=
  if s.isRemote c.ddst || isHost c.ddst then []
  else ((l.flatMap (fun b => b.map (fun y => y.addr / 64))).dedup).filterMap (fun n =>
    (locOf g c.ddst (n * 64)).map (fun y => (y.1, y.2 / 64)))

/-- Whether an access of a descriptor to a granule of this device is refused: firmware's DMEM, or a fenced core's
scratchpad through GSP or PEER (R222, R417, Table 6-5). -/
def State.ferRefuses (s : State) (d : Desc) (l : List (Loc × Nat)) : Bool :=
  l.any (fun x => match x.1 with
    | .dmem => decide (x.2 * 64 < dmemReserved)
    | .lsp g => dSpace d ≠ 0 && s.int.fenced.contains g
    | .quay _ => false)

/-- Whether any access of a transfer is refused. -/
def State.ferRefused (s : State) (g : Nat) (c : FCmd) (p : Plan) (stored : List (Loc × Nat)) : Bool :=
  (s.ferReading g c p).any (fun x => s.ferRefuses x.1 x.2) || s.ferRefuses c.ddst stored

/-- Whether a read must wait for a verdict (R212, Table 12-3). -/
def State.ferWaits (s : State) (g : Nat) (own : Bool) (l : List (Loc × Nat)) : Bool :=
  l.any (fun x => !(own && x.1 = .lsp g) && !(s.marksOf x.1 x.2).isEmpty && !s.failedMark x.1 x.2)

/-- Whether a write must wait for a check tile's protected operands (R141). -/
def State.ferProtected (s : State) (l : List (Loc × Nat)) : Bool := l.any (fun x => s.protectedAt x.1 x.2)

/-! ## Faults -/

/-- End a COPY: its operation has reported (R257, R270). -/
def State.copyReport (s : State) (id : Nat) (fail : Option Nat) (flags : BitVec 5) : State :=
  { s with sch := { s.sch with ops := s.sch.ops.map (fun o =>
      if o.id = id then
        { o with
          waiting := []
          flags := flags.setWidth 8
          status := if o.status.isSome then o.status else some (if fail.isSome then .failed else .done)
          cause := if o.status.isSome then o.cause else if fail.isSome then 0x0A else 0
          info := if o.status.isSome then o.info else BitVec.ofNat 32 (fail.getD 0) }
      else o) } }

def Fer.dropChan (f : Fer) (ch : Nat) : Fer := { f with chans := f.chans.filter (fun x => x.1 ≠ ch) }

def State.putChan (s : State) (g : Nat) (x : FExec) : State :=
  let f := (s.core g).fer
  s.setFer g { f with chans := smIns x.cmd.ch.toNat x (smDel x.cmd.ch.toNat f.chans) }

/-- A failed command leaves its channel, and a COPY reports, once every write that it sent has been answered: its
operation does not end before (R239, R243). -/
def State.ferSettle (s : State) (g : Nat) (x : FExec) (code : Nat) : State :=
  if x.tags.isEmpty then
    let t := (s.setFer g ((s.core g).fer.dropChan x.cmd.ch.toNat)).settleMarks g
    match x.copyOf with
    | some id => t.copyReport id (some code) x.copyFlags
    | none => t
  else s.putChan g { x with phase := .failing code }

/-- Stop the command of a channel with a fault of the ferry engine (R197, R205, R214): DETAIL[11:10]
names the channel of an ENGINE fault. A command that has failed already faults no more. -/
def State.ferFail (s : State) (g : Nat) (x : FExec) (cause code : Nat) : State :=
  match x.phase with
  | .failing k => s.ferSettle g x k
  | _ =>
    let s1 := s.ferSettle g { x with tags := if x.phase = .reading then [] else x.tags } code
    match x.copyOf with
    | some _ => s1
    | none => s1.raise g cause (0x2000 + (if cause = cENGINE then x.cmd.ch.toNat * 1024 else 0) + code) x.cmd.pc x.cmd.ord

/-! ## Beginning (R77, R194, R197, R213, R379) -/

/-- Runs of consecutive bytes. -/
def byteRuns : List PendByte → List (List PendByte)
  | [] => []
  | b :: t =>
    match byteRuns t with
    | (d :: l) :: r => if d.addr = b.addr + 1 then (b :: d :: l) :: r else [b] :: (d :: l) :: r
    | r => [b] :: r

/-- A remote transaction's header from this device. -/
def State.remoteTxn (s : State) (d : Desc) (addr count : Nat) (poison : Bool) (data : List Byte) : Txn :=
  { poison := poison, psub := dPsub d, src := s.own, dst := dPdev d, count := BitVec.ofNat 16 count
    tag := s.lnk.nextTag, addr := BitVec.ofNat 64 addr, aux := 0, num := 0, link := .a, cover := [], data := data }

/-- Send one remote read or write of a channel; none when no route takes it. -/
def State.sendRemote (s : State) (g : Nat) (ch : Channel) (kind : Byte) (x : Txn) : Option State :=
  let s1 := { s with lnk := { s.lnk with
    nextTag := s.lnk.nextTag + 1
    txns := s.lnk.txns ++ [(⟨x.tag, g, ch, x.addr.toNat, s.wall⟩ : RTxn)] } }
  s1.sendTxn kind x

/-- Granules of a source in another device or the host. -/
def srcGrans (d : Desc) : List Nat := ((allIx d).flatMap (elemGrans d)).dedup

/-- Ask another device for the source, a granule in each transaction. -/
def askPeer (g : Nat) : List Nat → State → FExec → State
  | [], s, x => s.putChan g x
  | n :: t, s, x =>
    let r := s.remoteTxn x.cmd.dsrc (n * 64) 1 false []
    match s.sendRemote g x.cmd.ch 0x02 r with
    | some s1 => askPeer g t s1 { x with tags := x.tags ++ [r.tag] }
    | none => s.ferFail g x cENGINE 6

/-- Ask the host for the source, a granule in each request (R229, R379). -/
def State.askHost (s : State) (l : List Nat) : State :=
  l.foldl (fun t n => t.emit (.hostRead (t.hrw.apBase + n * 64) 64)) s

/-- Begin a command on its channel: a source elsewhere is asked for. -/
def State.startFer (s : State) (g : Nat) (c : FCmd) (copyOf : Option Nat) : State :=
  let x : FExec := { cmd := c, copyOf := copyOf, phase := .ready, rx := [], rxPoison := [], tags := []
                     pend := [], copyFlags := 0, psn := false }
  if s.isRemote c.dsrc then askPeer g (srcGrans c.dsrc) s { x with phase := .reading }
  else if isHost c.dsrc then
    (s.askHost (srcGrans c.dsrc)).putChan g { x with phase := .reading, pend := srcGrans c.dsrc }
  else s.putChan g x

def Fer.chan (f : Fer) (ch : Nat) : Option FExec := (f.chans.find? (fun x => x.1 = ch)).map Prod.snd

/-- Begin the command at the head of the ferry queue. -/
def State.ferBegin (s : State) (g : Nat) : State :=
  let f := (s.core g).fer
  match f.queue with
  | [] => s
  | c :: rest =>
    if s.ferHeld g c then s
    else
      let s1 := s.setFer g { f with queue := rest }
      match ferCode c with
      | some code => s1.raise g cENGINE (0x2000 + c.ch.toNat * 1024 + code) c.pc c.ord
      | none => s1.startFer g c none

/-! ## Writing -/

/-- The bytes that accesses write: one that several packed elements share counts once (R526, Table 3-22). -/
def countBytes (l : List (List PendByte)) : Nat := l.foldl (fun n b => n + ((b.map (·.addr)).dedup).length) 0

/-- Count the bytes channel ch writes (Table 3-22). -/
def Core.feCount (c : Core) (ch : Channel) (n : Nat) : Core :=
  { c with ctr := { c.ctr with
    feBytes := c.ctr.feBytes.set ch.toNat (c.ctr.feBytes[ch.toNat] + BitVec.ofNat 64 n) } }

/-- A group's granule writes as runs of bytes: address, bytes, poison. -/
def runsOf (l : List (List PendByte)) : List (Nat × List Byte × Bool) :=
  l.flatMap (fun b => (groupPend b).flatMap (fun y =>
    (byteRuns (addrSorted y.2)).map (fun r => ((r.head?.map (·.addr)).getD 0, r.map (·.byte), y.2.any (·.poison)))))
where
  /-- Bytes of one granule in rising order, a later write of a byte replacing an earlier one. -/
  addrSorted (l : List PendByte) : List PendByte :=
    (l.foldl (fun m b => smIns b.addr b (smDel b.addr m)) []).map Prod.snd

/-- Send the runs to another device, counting the bytes of each. -/
def sendRuns (g : Nat) : List (Nat × List Byte × Bool) → State → FExec → State
  | [], s, x => s.putChan g { x with phase := .acking }
  | (a, b, psn) :: t, s, x =>
    let r := s.remoteTxn x.cmd.ddst a 1 psn b
    match s.sendRemote g x.cmd.ch 0x01 r with
    | some s1 =>
      sendRuns g t (s1.setCore g ((s1.core g).feCount x.cmd.ch b.length)) { x with tags := x.tags ++ [r.tag] }
    | none => s.ferFail g x cENGINE 6

/-- Send the runs to the host, then the read of R236. -/
def State.hostRuns (s : State) (g : Nat) (x : FExec) (l : List (Nat × List Byte × Bool)) : State :=
  let s1 := l.foldl (fun t r => t.emit (.hostWrite (t.hrw.apBase + r.1) r.2.1 r.2.2)) s
  (s1.emit (.hostRead s.hrw.apBase 0)).putChan g { x with phase := .flushing }

/-- Record an index tensor's counts (R203, R206); a COPY has none. -/
def Fer.count (f : Fer) (p : Plan) : Fer :=
  let up32 (x : Word32) (n : Nat) : Word32 := if 2 ^ 32 ≤ x.toNat + n then BitVec.allOnes 32 else x + BitVec.ofNat 32 n
  let up64 (x : Word64) (n : Nat) : Word64 := if 2 ^ 64 ≤ x.toNat + n then BitVec.allOnes 64 else x + BitVec.ofNat 64 n
  { f with clampCnt := up32 f.clampCnt p.clamp, zeroCnt := up32 f.zeroCnt p.zero, dupHits := up64 f.dupHits p.dup }

/-- The transfer's flags and counts, with n bytes written here. -/
def State.ferNote (s : State) (g : Nat) (x : FExec) (p : Plan) (flags : BitVec 5) (n : Nat) : State :=
  let c := (s.core g).feCount x.cmd.ch n
  match x.copyOf with
  | some _ => s.setCore g c
  | none => s.setCore g { c with fer := { (c.fer.count p) with flags := c.fer.flags ||| flags } }

/-- Finish a command whose writes are performed (R77, R78, R213). -/
def State.ferFinish (s : State) (g : Nat) (x : FExec) : State :=
  match x.copyOf with
  | some id =>
    (s.setFer g ((s.core g).fer.dropChan x.cmd.ch.toNat)).copyReport id (if x.psn then some 0 else none) x.copyFlags
  | none =>
    let c := s.core g
    let r := prefixCount c.seq.fec (x.cmd.n :: c.fer.done) (c.fer.done.length + 1)
    let s1 := s.setCore g { c with
      seq := { c.seq with fec := r.1 }
      fer := { (c.fer.dropChan x.cmd.ch.toNat) with done := r.2 } }
    (if x.psn then s1.raise g cPOISON 0x2000 x.cmd.pc x.cmd.ord else s1).settleMarks g

/-- The DMEM lines among granules. -/
def dmemLines (l : List (Loc × Nat)) : List Nat := l.filterMap (fun y => if y.1 = .dmem then some y.2 else none)

/-- The transfer of a command whose source is at hand. `done` says what follows its writes. -/
def State.ferPerform (s : State) (g : Nat) (x : FExec) (p : Plan) (done : State → FExec → State) : State :=
  let c := x.cmd
  let reads := s.ferTouched g c p
  let t := reads.foldl (fun t y => t.touch y.1 y.2) s
  let out := t.ferOutput g x p
  let stored := t.ferStored g c out.1
  let own := s.ownDest g c.ddst
  if s.ferRefused g c p stored then s.ferFail g x cENGINE 8
  else if s.ferWaits g own reads || s.ferProtected stored || s.linesHeld (dmemLines (reads ++ stored)) then s
  else
    let lines := dmemLines stored
    if !s.windowReady lines then s.askInv lines
    else
      let psn := x.psn || out.1.any (fun b => b.any (·.poison))
      let x1 := { x with psn := psn, copyFlags := x.copyFlags ||| out.2 }
      let t1 := t.ferNote g x1 p out.2 (if s.isRemote c.ddst then 0 else countBytes out.1)
      if s.isRemote c.ddst then sendRuns g (runsOf out.1) t1 x1
      else if isHost c.ddst then t1.hostRuns g x1 (runsOf out.1)
      else done ((t1.writeAs (s.ferReader g x).op (.engine g .ferry c.n) g c.ddst out.1).usedInv lines) x1

/-- The plan of a channel's command. -/
def State.ferPlan (s : State) (g : Nat) (x : FExec) : Plan := planOf x.cmd (s.ferView (s.ferReader g x) 0 x.cmd.didx)

/-- Whether an index tensor's elements may be read now. -/
def State.idxTouch (s : State) (g : Nat) (x : FExec) : State :=
  if x.cmd.op.indexed then s.touchDesc g x.cmd.didx (allIx x.cmd.didx) else s

/-- Perform, or finish, the command of a channel. -/
def State.ferComplete (s : State) (g : Nat) (ch : Channel) : State :=
  match (s.core g).fer.chan ch.toNat with
  | none => s
  | some x =>
    match x.phase with
    | .ready =>
      let s1 := s.idxTouch g x
      let p := s1.ferPlan g x
      if p.fail.isSome then s else s1.ferPerform g x p (fun t y => t.ferFinish g y)
    | .acking => if x.tags.isEmpty then s.ferFinish g x else s
    | _ => s

/-! ## Failing indices (R205, R213, R218) -/

/-- Record the kernel's first failing index. -/
def Fer.noteIndex (f : Fer) (c : FCmd) (pos : Nat) (i : Int) (psn : Bool) : Fer :=
  match f.idxFault with
  | some _ => f
  | none =>
    let r : IdxFault := ⟨decide (i < 0), c.ch, dIdxp c.didx, psn, c.n.setWidth 16, BitVec.ofNat 64 pos, BitVec.ofInt 64 i⟩
    { f with idxFault := some r }

/-- Every write of the earlier index elements, then the fault: INDEX alone, also when poisoned rows were moved before. (DESIGN CHOICE, log entry 148.) -/
def State.ferIndexFault (s : State) (g : Nat) (ch : Channel) : State :=
  match (s.core g).fer.chan ch.toNat with
  | none => s
  | some x =>
    let s1 := s.idxTouch g x
    let p := s1.ferPlan g x
    match x.phase, p.fail with
    | .ready, some (pos, i, psn) =>
      s1.ferPerform g x p (fun t y =>
        let t1 := t.setFer g ((t.core g).fer.noteIndex y.cmd pos i psn)
        if psn then t1.ferFail g y cPOISON 0 else t1.ferFail g y cENGINE 5)
    | _, _ => s

/-! ## Rows -/

/-- FERRY_COMMAND_BEGIN (R194, R197). -/
def execFerryCommandBegin (g : Gcn) (s : State) : Res := .next (s.ferBegin g.toNat)

/-- FERRY_COMMAND_COMPLETE (R78, R198 to R213): the transfer is performed, and once its writes are
acknowledged the command completes. -/
def execFerryCommandComplete (g : Gcn) (ch : Channel) (s : State) : Res := .next (s.ferComplete g.toNat ch)

/-- FERRY_INDEX_FAULT (R205, R213). -/
def execFerryIndexFault (g : Gcn) (ch : Channel) (s : State) : Res := .next (s.ferIndexFault g.toNat ch)

end Sys2Proof.Machine
end

