-- ==== Sys2Proof/Machine/Sched.lean ====
section
/-!
DEFINITION. The dispatcher's shared operations (spec 08): commands and operation blocks, readiness and the
choice among queues, ending operations, completion records, tickets and ledgers.
-/

namespace Sys2Proof.Machine

/-! ## Fields of commands and blocks -/

def QCmd.opcode (c : QCmd) : Nat := fieldAt c.bytes 0 1
def QCmd.irq (c : QCmd) : Bool := (fieldAt c.bytes 1 1).testBit 0
def QCmd.ordered (c : QCmd) : Bool := (fieldAt c.bytes 1 1).testBit 1
def QCmd.blkAddr (c : QCmd) : Nat := fieldAt c.bytes 8 8

def zeroBytes (l : List Byte) (lo hi : Nat) : Bool := ((l.drop lo).take (hi - lo)).all (· = 0)

/-- The lowest offset among the fields that fail. -/
def firstBad (l : List (Bool × Nat)) : Option Nat :=
  l.foldl (fun a x => if x.1 then a else match a with
    | none => some x.2
    | some o => some (if x.2 < o then x.2 else o)) none

/-- DEV of a signal (Table 8-5). -/
def devOk (v : Nat) : Bool := if v.testBit 15 then !v.testBit 14 else v = 0

/-- An operation block's address (R255). -/
def blkAddrOk (a : Nat) : Bool := a % 64 = 0 && dmemReserved ≤ a && a + 1024 ≤ dmemEnd

/-- The byte offset of a command's first bad field (R255, Tables 8-1 and 8-2). The reserved bytes beyond a command's operands are
one field, named by its first byte. (DESIGN CHOICE, log entry 162.) -/
def QCmd.invalid (c : QCmd) : Option Nat :=
  let b := c.bytes
  let head : List (Bool × Nat) := [(decide (fieldAt b 1 1 < 4), 1), (zeroBytes b 2 4, 2)]
  match c.opcode with
  | 1 => firstBad (head ++ [(blkAddrOk c.blkAddr, 8), (zeroBytes b 16 64, 16)])
  | 2 => firstBad (head ++ [(blkAddrOk c.blkAddr, 8), (zeroBytes b 16 64, 16)])
  | 3 => firstBad (head ++ [(blkAddrOk c.blkAddr, 8), (zeroBytes b 16 64, 16)])
  | 4 => firstBad (head ++ [(zeroBytes b 10 12, 10), (zeroBytes b 20 64, 20)])
  | 5 => firstBad (head ++ [(devOk (fieldAt b 10 2), 10), (zeroBytes b 16 64, 16)])
  | 6 => firstBad (head ++ [(zeroBytes b 8 64, 8)])
  | 7 => firstBad (head ++ [(zeroBytes b 8 64, 8)])
  | _ => some 0

/-- A ticket signal entry (Table 8-5). -/
structure Sig where
  ticket : Half
  remote : Bool
  dev    : Coord
  always : Bool
  value  : Word32
  deriving DecidableEq, Repr

/-- A region entry (Table 8-6). -/
structure Region where
  base  : Nat
  space : Nat
  out   : Bool
  len   : Nat
  deriving DecidableEq, Repr

def nWait (b : List Byte) : Nat := fieldAt b 0x244 1
def nSig (b : List Byte) : Nat := fieldAt b 0x245 1
def nReg (b : List Byte) : Nat := fieldAt b 0x246 1

/-- Ticket waits: ticket and target. -/
def waitsOf (b : List Byte) : List (Nat × Word32) :=
  (List.range (nWait b)).map (fun k => (fieldAt b (0x248 + 8 * k) 2, BitVec.ofNat 32 (fieldAt b (0x24C + 8 * k) 4)))

def signalsOf (b : List Byte) : List Sig :=
  (List.range (nSig b)).map (fun k =>
    let o := 0x288 + 16 * k
    let d := fieldAt b (o + 2) 2
    ⟨BitVec.ofNat 16 (fieldAt b o 2), d.testBit 15, BitVec.ofNat 14 d, fieldAt b (o + 4) 1 = 0, BitVec.ofNat 32 (fieldAt b (o + 8) 4)⟩)

def regionsOf (b : List Byte) : List Region :=
  (List.range (nReg b)).map (fun k =>
    let o := 0x308 + 16 * k
    let d := fieldAt b (o + 5) 1
    ⟨fieldAt b o 5, d % 8, d.testBit 4, fieldAt b (o + 8) 5⟩)

/-- The core set of a LAUNCH (Table 8-3). -/
def coreSet (b : List Byte) : List Nat :=
  (((b.drop 0x40).take 512).zipIdx).flatMap (fun x =>
    (List.range 8).filterMap (fun i => if x.1.getLsbD i then some (8 * x.2 + i) else none))

/-- A region's BASE in its space's form (Tables 6-2 and 8-6). -/
def regionForm (r : Region) : Bool :=
  match r.space with
  | 0 => r.base < 2 ^ 23
  | 1 => r.base < 2 ^ 35
  | _ => true

/-- A region within its space's bound, and outside the firmware's DMEM: the range of its LEN (Table 8-6). -/
def regionOk (ap : Nat) (r : Region) : Bool :=
  match r.space with
  | 0 => r.base + r.len ≤ 2 ^ 23
  | 1 => r.base < 2 ^ 35 && r.base % 2 ^ 23 + r.len ≤ 2 ^ 23
  | 3 => dmemReserved ≤ r.base && r.base + r.len ≤ dmemEnd
  | 4 => r.base + r.len ≤ ap
  | _ => true

/-- Checks of the common part (Tables 8-4 to 8-6, R258). -/
def commonChecks (ap : Nat) (b : List Byte) : List (Bool × Nat) :=
  let entry (k n o : Nat) (own rest : List (Bool × Nat)) : List (Bool × Nat) :=
    if k < n then own else rest.map (fun x => (x.1, o + x.2))
  let z (o lo hi : Nat) : Bool × Nat := (zeroBytes b (o + lo) (o + hi), lo)
  ([(decide (nWait b ≤ 8), 0x244), (decide (nSig b ≤ 8), 0x245), (decide (nReg b ≤ 15), 0x246),
    (zeroBytes b 0x247 0x248, 0x247)] : List (Bool × Nat)) ++
  (List.range 8).flatMap (fun k =>
    let o := 0x248 + 8 * k
    entry k (nWait b) o [(zeroBytes b (o + 2) (o + 4), o + 2)] [z o 0 2, z o 2 4, z o 4 8]) ++
  (List.range 8).flatMap (fun k =>
    let o := 0x288 + 16 * k
    entry k (nSig b) o
      [(devOk (fieldAt b (o + 2) 2), o + 2), (fieldAt b (o + 4) 1 ≤ 1, o + 4),
        (zeroBytes b (o + 5) (o + 8), o + 5), (zeroBytes b (o + 12) (o + 16), o + 12)]
      [z o 0 2, z o 2 4, z o 4 5, z o 5 8, z o 8 12, z o 12 16]) ++
  (List.range 15).flatMap (fun k =>
    let o := 0x308 + 16 * k
    let d := fieldAt b (o + 5) 1
    let r : Region := ⟨fieldAt b o 5, d % 8, d.testBit 4, fieldAt b (o + 8) 5⟩
    entry k (nReg b) o
      [(regionForm r, o), (d / 32 = 0 && !d.testBit 3 && [0, 1, 3, 4].contains (d % 8), o + 5),
        (zeroBytes b (o + 6) (o + 8), o + 6), (1 ≤ r.len && regionOk ap r, o + 8), (zeroBytes b (o + 13) (o + 16), o + 13)]
      [z o 0 5, z o 5 6, z o 6 8, z o 8 13, z o 13 16]) ++
  [(zeroBytes b 0x3F8 0x400, 0x3F8)]

/-- Checks of the LAUNCH part (Table 8-3). A code or argument image that reaches past the end of DMEM is invalid. (DESIGN CHOICE,
log entry 164.) -/
def launchChecks (b : List Byte) : List (Bool × Nat) :=
  let code := fieldAt b 0 8
  let clen := fieldAt b 8 4
  let alen := fieldAt b 0xC 4
  let arg := fieldAt b 0x10 8
  let aoff := fieldAt b 0x18 4
  [(code % 64 = 0 && code + clen ≤ dmemEnd, 0), (clen % 8 = 0 && 8 ≤ clen && clen ≤ 65536, 8),
    (alen % 64 = 0 && alen ≤ 65536, 0xC), (arg % 64 = 0 && arg + alen ≤ dmemEnd, 0x10),
    (aoff % 64 = 0 && aoff + alen ≤ 2 ^ 23, 0x18), (fieldAt b 0x1C 4 ≤ 1, 0x1C),
    (zeroBytes b 0x28 0x40, 0x28), (!zeroBytes b 0x40 0x240, 0x40)]

def descAt (b : List Byte) (o : Nat) : Desc := BitVec.ofNat 512 (fieldAt b o 64)

/-- The failing check of a COPY descriptor, as FAULT_INFO[31:16] gives it (R257). -/
def copyDescBad (ap : Nat) (role : Role) (d : Desc) : Option Nat :=
  if dSpace d = 0 || dSpace d = 2 then some 0x100 else validate ap role false d

def copyChecks (b : List Byte) : List (Bool × Nat) :=
  [(fieldAt b 0x80 1 ≤ 1, 0x80), (zeroBytes b 0x81 0x88, 0x81), (zeroBytes b 0x90 0x240, 0x90)]

/-- FAULT_INFO of an invalid block; none for a valid one (R257, R258). -/
def blockBad (ap opcode : Nat) (b : List Byte) : Option Nat :=
  match opcode with
  | 1 => firstBad (launchChecks b ++ commonChecks ap b)
  | 2 =>
    match copyDescBad ap .source (descAt b 0), copyDescBad ap (.dest false) (descAt b 0x40) with
    | some k, _ => some (k * 65536)
    | none, some k => some (k * 65536 + 0x40)
    | none, none => firstBad (copyChecks b ++ commonChecks ap b)
  | _ => firstBad (commonChecks ap b)

/-- The 1,024 bytes of a command's operation block as the dispatcher reads them. -/
def State.block (s : State) (c : QCmd) : List Byte := s.dispBytes c.seq 0 c.blkAddr 1024

def QCmd.hasBlock (c : QCmd) : Bool := c.opcode = 1 || c.opcode = 2 || c.opcode = 3

/-! ## Operations -/

def State.opOf (s : State) (id : Nat) : Option Op := s.sch.ops.find? (fun o => o.id = id)

def State.mapOps (s : State) (f : Op → Op) : State := { s with sch := { s.sch with ops := s.sch.ops.map f } }

def State.updOp (s : State) (id : Nat) (f : Op → Op) : State := s.mapOps (fun o => if o.id = id then f o else o)

/-- Fix an operation's status by the first event that the dispatcher takes (R270). -/
def Op.fix (o : Op) (st : OpStatus) (cause info : Nat) : Op :=
  if o.status.isSome then o
  else { o with status := some st, cause := BitVec.ofNat 8 cause, info := BitVec.ofNat 32 info }

/-- A new operation for a command. -/
def State.newOp (s : State) (q : Nat) (c : QCmd) (kind : OpKind) (blk : List Byte) : Op where
  id := s.sch.nextOp
  q := q
  seq := c.seq
  bytes := c.bytes
  kind := kind
  blk := blk
  status := none
  cause := 0
  info := 0
  tLaunch := 0
  wdog := if fieldAt blk 0x240 4 = 0 then s.sch.wdogDef.toNat else fieldAt blk 0x240 4
  waiting := []
  set := []
  unread := false
  nDone := 0
  nFailed := 0
  nCancel := 0
  fault := none
  wdogAt := none
  discarded := 0
  reports := []
  deferred := []
  applied := 0
  dropped := 0
  settled := false
  sigDone := 0
  sigGone := 0
  flags := 0

def State.addOp (s : State) (o : Op) : State :=
  { s with sch := { s.sch with ops := s.sch.ops ++ [o], nextOp := s.sch.nextOp + 1 } }

/-! ## Tickets (R263, R264) -/

/-- The lines of a command's operation block. -/
def QCmd.blkLines (c : QCmd) : List Nat := if c.hasBlock then granulesOf c.blkAddr 1024 else []

/-- The dispatcher reads the block of a command: its errors are found (R361). -/
def State.touchBlock (s : State) (c : QCmd) : State := s.touchAll .dmem c.blkLines

/-- Note which ticket waits of a command are satisfied, for good (R264). -/
def State.latchCmd (s : State) (c : QCmd) : QCmd :=
  let sat := fun (k : Nat) (w : Nat × Word32) => if reached (s.ticket w.1) w.2 then setAdd k else id
  if c.opcode = 4 then
    { c with sat := sat 0 (fieldAt c.bytes 8 2, BitVec.ofNat 32 (fieldAt c.bytes 12 4)) c.sat }
  else if c.hasBlock then
    { c with sat := ((waitsOf (s.block c)).zipIdx).foldl (fun l x => sat x.2 x.1 l) c.sat }
  else c

/-- The first unlaunched commands whose blocks the dispatcher can read: a valid block address, and no line held (R366). -/
def State.heads (s : State) : List QCmd :=
  s.sch.queues.filterMap (fun x => match x.2.cmds with
    | [] => none
    | c :: _ => if c.invalid.isNone && !s.linesHeld c.blkLines then some c else none)

/-- The dispatcher looks at the waits of each queue's first unlaunched command. -/
def State.latch (s : State) : State :=
  let t := s.heads.foldl State.touchBlock s
  { t with sch := { t.sch with queues := t.sch.queues.map (fun x =>
      match x.2.cmds with
      | [] => x
      | c :: l => if s.linesHeld c.blkLines then x else (x.1, { x.2 with cmds := t.latchCmd c :: l })) } }

/-- Apply an increment: the dispatcher has looked at the waits before it, those of blocks that came within reach since
the last one too (R366), and looks at them again after it. -/
def State.increment (s : State) (t : Nat) (v : Word32) : State := (s.latch.addTicket t v).latch

/-- Wait k of a command, for a ticket to reach a target, has been found satisfied, or is now. -/
def State.waitMet (s : State) (c : QCmd) (k : Nat) (w : Nat × Word32) : Bool :=
  c.sat.contains k || reached (s.ticket w.1) w.2

/-- Whether every wait of a command is satisfied. -/
def State.waitsMet (s : State) (c : QCmd) : Bool :=
  if c.opcode = 4 then s.waitMet c 0 (fieldAt c.bytes 8 2, BitVec.ofNat 32 (fieldAt c.bytes 12 4))
  else ((waitsOf (s.block c)).zipIdx).all (fun x => s.waitMet c x.2 x.1)

/-! ## Cores held from launches (R257, R260, R410, R419, R423; Table 14-2) -/

/-- A core that an arbitration, clearance or patrol, or its die's reload, keeps from launches. -/
def State.coreHeld (s : State) (g : Nat) : Bool :=
  s.int.arbs.any (fun a => (match a.who with | .core h => h.toNat = g | .coll _ => false) || a.witness = some g) ||
  s.int.clearing.any (fun x => x.1 = g || x.2 = g) ||
  s.int.patrols.any (fun x => x.lower = g || x.upper = g) ||
  (s.die (dieOf g)).pilotDown

/-- A COPY runs on the core: it has not ended (R257). -/
def State.copying (s : State) (g : Nat) : Bool := s.sch.copies.any (fun x => x.1 = g)

/-- The core may take a kernel now. -/
def State.coreFree (s : State) (g : Nat) : Bool :=
  (s.core g).op.isNone && !s.copying g && !s.int.suspects.contains g && !s.coreHeld g

/-- The cores a LAUNCH uses, after SKIP_FENCED (R261). -/
def State.launchSet (s : State) (b : List Byte) : List Nat :=
  (coreSet b).filter (fun g => !s.int.fenced.contains g)

/-- R261: the launch fails for a fenced core. -/
def State.fencedLaunch (s : State) (b : List Byte) : Bool :=
  (fieldAt b 0x1C 4 % 2 = 0 && (coreSet b).any (fun g => s.int.fenced.contains g)) || (s.launchSet b).isEmpty

/-! ## Readiness (R259, R260, R264, R308) -/

/-- A snoop whose answer lets a completion record be written. -/
def Snoop.isRecord : Snoop → Bool
  | .record _ _ _ _ _ => true
  | _ => false

/-- A record of queue q waits for a snoop's answer. -/
def Snoop.recordOf (q : Nat) : Snoop → Bool
  | .record _ p _ _ _ => p = q
  | _ => false

/-- A record of queue q for a slot before seq waits for a snoop's answer. -/
def Snoop.recordBefore (q seq : Nat) : Snoop → Bool
  | .record _ p n _ _ => p = q && n < seq
  | _ => false

/-- No earlier command of the queue lacks its record. -/
def State.allEarlierDone (s : State) (q seq : Nat) : Bool :=
  !s.sch.ops.any (fun o => o.q = q && o.seq < seq) && !s.hrw.snoops.any (fun x => x.2.recordBefore q seq)

/-- Adders of an engine all fenced (R418). -/
def State.engFenced (s : State) (e : Nat) : Bool := (List.range 4).all (fun a => s.int.adders.getLsbD (4 * e + a))

/-- The engine a collective runs on: the other one while all four adders of the one it names are fenced. -/
def State.collEngine (s : State) (named : Nat) : Nat :=
  if s.engFenced named && !s.engFenced (1 - named % 2) then 1 - named % 2 else named % 2

/-- An engine held for arbitration of one of its adders (R410). -/
def State.engHeld (s : State) (e : Nat) : Bool :=
  s.int.arbs.any (fun a => match a.who with | .coll x => x.val = e | .core _ => false)

/-- The transfer of a COPY block. -/
def copyCmdOf (b : List Byte) (ch : Channel) : FCmd where
  n := 0
  ord := 0
  pc := 0
  op := if fieldAt b 0x80 1 = 1 then .fconv else .fcopy
  ch := ch
  dsrc := descAt b 0
  ddst := descAt b 0x40
  didx := 0
  seed := BitVec.ofNat 64 (fieldAt b 0x88 8)

/-- The core can take a COPY on a channel. (DESIGN CHOICE, log entry 30.) -/
def State.canCopy (s : State) (g : Nat) (k : FCmd) : Bool :=
  let c := s.core g
  c.op.isNone && !s.int.suspects.contains g && !s.int.fenced.contains g && !s.coreHeld g &&
    (c.fer.chan k.ch.toNat).isNone && !s.ferConflict g k

/-- A COPY whose transfer names HOST waits while an aperture change is pending (R380). -/
def State.copyApHeld (s : State) (b : List Byte) : Bool :=
  s.hrw.apPend.isSome && (isHost (descAt b 0) || isHost (descAt b 0x40))

/-- Some core can take the COPY on some channel. (DEDUCED, log entry 121.) -/
def State.copyReady (s : State) (b : List Byte) : Bool :=
  !s.copyApHeld b &&
    (List.range 4096).any (fun g => (List.range 4).any (fun ch => s.canCopy g (copyCmdOf b (BitVec.ofNat 2 ch))))

/-- Whether the first unlaunched command of a queue is ready. An invalid block is found once ORDERED and the lines that hold it allow
its reading, before its ticket waits are met (R258). (DESIGN CHOICE, log entry 163.) -/
def State.headReady (s : State) (q : Nat) : Bool :=
  let x := s.queue q
  if !x.enabled || x.halted then false
  else match x.cmds with
    | [] => false
    | c :: _ =>
      if c.invalid.isSome then true
      else if s.linesHeld c.blkLines then false
      else if c.ordered && !s.allEarlierDone q c.seq then false
      else if c.hasBlock && (blockBad s.hrw.apSize c.opcode (s.block c)).isSome then true
      else match c.opcode with
        | 1 => s.waitsMet c && (s.fencedLaunch (s.block c) || (s.launchSet (s.block c)).all s.coreFree)
        | 2 => s.waitsMet c && s.copyReady (s.block c)
        | 3 =>
          let e := s.collEngine (fieldAt (s.block c) 6 1)
          s.waitsMet c && (s.col[e % 2]'(Nat.mod_lt _ (by decide))).run.isNone && !s.engHeld e
        | 4 => s.waitsMet c
        | _ => true

/-- The dispatcher runs commands: it does not in recovery, nor in the fatal state (R461, R470). -/
def State.schedOn (s : State) : Bool := s.released && s.hrw.alive && s.sec.state = .running

/-- The dispatcher launches nothing during an activation or under a ledger fault (R278, R279). -/
def State.launching (s : State) : Bool := s.schedOn && !s.sch.paused && !s.sch.ledger

/-- Queue numbers in round-robin order after the one last served. (DEDUCED, log entry 72.) -/
def roundRobin (last : Nat) : List Nat := (List.range 64).map (fun i => (last + 1 + i) % 64)

/-- The queue whose head is launched next: highest priority, then round-robin (R260). -/
def State.chosen (s : State) : Option Nat :=
  [3, 2, 1, 0].findSome? (fun p =>
    (roundRobin (s.sch.turn.toList.getD p 0)).find? (fun q => (s.queue q).prio.toNat = p && s.headReady q))

/-- Take the first unlaunched command off a queue. -/
def State.takeHead (s : State) (q : Nat) : State :=
  let x := s.queue q
  let s1 := s.setQueue q { x with cmds := x.cmds.drop 1, firstAt := s.wall }
  ({ s1 with sch := { s1.sch with turn := s1.sch.turn.set (x.prio.toNat % 4) q (Nat.mod_lt _ (by decide)) } }).latch

/-! ## MSI-X (R268, R383) -/

/-- An entry of the MSI-X table. -/
def Hrw.msixEntry (h : Hrw) (v : Nat) : Msix := smGet Msix.reset h.msix v

/-- The message of a vector is sent, with its entry's address and data. -/
def State.sendMsix (s : State) (v : Nat) : State := s.emit (.msix v (s.hrw.msixEntry v).addr (s.hrw.msixEntry v).data)

/-- A vector may be sent: MSI-X is enabled, and neither the function nor the vector is masked. (PRESUMED, log entry
138.) -/
def State.msixSends (s : State) (v : Nat) : Bool := s.hrw.cfg.msixOn && !s.hrw.cfg.msixMask && !(s.hrw.msixEntry v).masked

def State.raiseMsix (s : State) (v : Nat) : State :=
  if s.msixSends v then s.sendMsix v
  else { s with hrw := { s.hrw with msixPend := setAdd v s.hrw.msixPend } }

/-! ## Completion records (R268, R269, R382) -/

def opStatusCode : Option OpStatus → Nat
  | some .done => 1 | some .failed => 2 | some .cancelled => 3 | none => 0

def Queue.size (x : Queue) : Nat := 2 ^ x.cfg.log2

/-- The record of an operation, written now (Table 8-7). (DESIGN CHOICE, log entry 29.) -/
def State.recordOf (s : State) (o : Op) : List Byte :=
  let x := s.queue o.q
  let phase := 1 - o.seq / x.size % 2
  (o.bytes.drop 4).take 4 ++ [BitVec.ofNat 8 (fieldAt o.bytes 0 1)] ++
  [BitVec.ofNat 8 (phase * 128 + opStatusCode o.status), o.cause, BitVec.ofNat 8 o.q] ++
  leBytes 8 o.seq ++ leBytes 8 o.tLaunch ++ leBytes 8 s.tt.now ++
  leBytes 2 (match o.fault with | some f => f.1 | none => 0xFFFF) ++
  leBytes 2 (match o.fault with | some f => f.2.toNat | none => 0) ++
  leBytes 4 o.info.toNat ++ leBytes 2 o.nDone ++ leBytes 2 o.nFailed ++ leBytes 2 o.nCancel ++ [0, 0] ++
  leBytes 4 o.discarded ++ [BitVec.ofNat 8 o.sigDone, BitVec.ofNat 8 o.sigGone, o.flags, 0] ++
  leBytes 4 o.applied ++ leBytes 4 o.dropped

/-- A record with the tide time at which it is written as its T_END. -/
def stampEnd (now : Nat) (b : List Byte) : List Byte := b.take 0x18 ++ leBytes 8 now ++ b.drop 0x20

/-- The contiguous run of written records grows as far as it can (R382). -/
def countUp : Nat → Nat → List Nat → Nat × List Nat
  | 0, n, l => (n, l)
  | k + 1, n, l => if l.contains n then countUp k (n + 1) (setDel n l) else (n, l)

/-- A record of a queue has been written: a COPY has ended, the counts advance, then MSI-X. -/
def State.recordDone (s : State) (q seq : Nat) (irq : Bool) : State :=
  let x := s.queue q
  let r := countUp (x.beyond.length + 1) x.count (setAdd seq x.beyond)
  let t := { s with sch := { s.sch with copies := s.sch.copies.filter (fun y => y.2 ≠ (q, seq)) } }
  let s1 := t.setQueue q { x with written := x.written + 1, count := r.1, beyond := r.2 }
  if irq then s1.raiseMsix x.vector.toNat else s1

/-- Byte offset of a queue's completion slot for a command. -/
def Queue.cplSlot (x : Queue) (seq : Nat) : Nat := x.cfg.cplOff * 64 + seq % x.size * 64

def opIrq (o : Op) : Bool := (fieldAt o.bytes 1 1).testBit 0

/-! ## Ledgers (R276, R279) -/

/-- Each ticket equals the sum of the increments applied to it. -/
def State.ticketLedger (s : State) : Bool := s.sch.tickets = s.sch.ticketSum

/-- Records written less CONSUMED lie within the ring, and no more are written than commands accepted. -/
def Queue.balanced (x : Queue) : Bool :=
  x.consumed ≤ x.written && x.written - x.consumed ≤ x.size && x.written ≤ x.accepted

def State.recordLedger (s : State) : Bool := s.sch.queues.all (fun x => x.2.balanced)

/-- The signals that a command declares: of a TICKET_SIGNAL its increment, of another the entries of its block. -/
def Op.declared (o : Op) : Nat := if o.kind = .ticketSignal then 1 else (signalsOf o.blk).length

/-- An operation's part of the ticket ledger. -/
def State.opPart (s : State) (o : Op) : OpLedger :=
  ⟨o.id, o.declared, o.sigDone, o.sigGone, (s.sch.xsigs.filter (fun x => x.op = o.id)).length,
    o.deferred.length, o.applied, o.dropped⟩

/-- Deferred increments are applied or dropped, once the step that does so has been taken. -/
def Op.deferredBalanced (o : Op) : Bool := !o.settled || o.deferred.length = o.applied + o.dropped

/-- Signals declared are applied, withdrawn or pending, pending being those sent and those whose turn has not come. -/
def State.opBalanced (s : State) (o : Op) : Bool :=
  let p := s.opPart o
  p.applied + p.withdrawn + p.pending ≤ p.declared && o.deferredBalanced

/-- At its end no signal's turn is still to come. -/
def State.endBalanced (s : State) (o : Op) : Bool :=
  let p := s.opPart o
  p.declared = p.applied + p.withdrawn + p.pending && o.deferredBalanced

def State.opLedger (s : State) : Bool := s.sch.ops.all s.opBalanced

/-- The terms of an operation's balance. -/
def OpLedger.terms (p : OpLedger) : List Byte :=
  [p.declared, p.applied, p.withdrawn, p.pending, p.recorded, p.defApplied, p.defDropped].flatMap (leBytes 4)

/-- A ledger check has failed, of a kind: 1 tickets, 2 records, 4 link credits, 8 power credits. -/
def State.ledgerFlag (s : State) (kind : Nat) (terms : List Byte) : State :=
  ({ s with sch := { s.sch with ledger := true, kind := s.sch.kind ||| BitVec.ofNat 4 kind } }).logRec
    ⟨0x0040, 8, sFATAL, 0, [BitVec.ofNat 8 kind] ++ terms⟩

/-- An operation ends with its record: its own part of the ticket ledger is checked for the last time (R276), and nothing
of it reads memory any more. -/
def State.dropOp (s : State) (o : Op) : State :=
  let t := if s.endBalanced o then s else s.ledgerFlag 1 (s.opPart o).terms
  ({ t with sch := { t.sch with ops := t.sch.ops.filter (fun x => x.id ≠ o.id) } }).endReads o.id

/-! ## Ending an operation (R272) -/

/-- Poison the outputs of an operation: every granule of each output region. -/
def State.poisonRegion (op : Nat) (set : List Nat) (s : State) (r : Region) : State :=
  if !r.out then s
  else match r.space with
    | 0 => set.foldl (fun t g => t.poisonAs (.dispatcher op) (.lsp g) r.base r.len) s
    | 1 => s.poisonAs (.dispatcher op) (.lsp (r.base / 2 ^ 23 % 4096)) (r.base % 2 ^ 23) r.len
    | 3 => s.poisonAs (.dispatcher op) .dmem r.base r.len
    | 4 => s.emit (.hostWrite (s.hrw.apBase + r.base) (List.replicate r.len 0) true)
    | _ => s

/-- A TICKET_WITHDRAWN record: target, message sequence, ticket, value (Table 15-5). -/
def State.logWithdrawn (s : State) (dst : Coord) (m : Word32) (t : Half) (v : Word32) : State :=
  s.logRec ⟨0x0033, 8, sERROR, 0, leBytes 2 dst.toNat ++ leBytes 4 m.toNat ++ leBytes 2 t.toNat ++ leBytes 4 v.toNat⟩

/-- The ticket message of a pending increment (Table 10-6, R337). -/
def State.ticketTxn (s : State) (x : XSig) : Txn :=
  { poison := false, psub := false, src := s.own, dst := x.dst, count := 0, tag := x.m
    addr := BitVec.ofNat 64 (x.ticket.toNat + x.value.toNat * 2 ^ 32), aux := BitVec.ofNat 64 x.expiry
    num := 0, link := .a, cover := [], data := [] }

/-- Send, or resend, a ticket message; with no route it waits to be resent (R266, R339). -/
def State.sendTicket (s : State) (x : XSig) : State := (s.sendTxn 0x07 (s.ticketTxn x)).getD s

/-- Apply an increment here, or send it to the device that holds the ticket (R266). -/
def State.signal (s : State) (id : Nat) (sg : Sig) : State :=
  if !sg.remote || sg.dev = s.own then
    (s.increment sg.ticket.toNat sg.value).updOp id (fun o => { o with sigDone := o.sigDone + 1 })
  else
    let x : XSig := ⟨s.sch.nextMsg, id, sg.dev, sg.ticket, sg.value, s.tt.now + s.sch.xsigMs.toNat * 1000000⟩
    ({ s with sch := { s.sch with xsigs := s.sch.xsigs ++ [x], nextMsg := s.sch.nextMsg + 1 } }).sendTicket x

/-- The increment of a TICKET_SIGNAL (Table 8-5). -/
def QCmd.sig (c : QCmd) : Sig :=
  let d := fieldAt c.bytes 10 2
  ⟨BitVec.ofNat 16 (fieldAt c.bytes 8 2), d.testBit 15, BitVec.ofNat 14 d, true, BitVec.ofNat 32 (fieldAt c.bytes 12 4)⟩

/-- Withdraw an increment that is never sent. -/
def State.withdraw (s : State) (id : Nat) (sg : Sig) : State :=
  (s.updOp id (fun o => { o with sigGone := o.sigGone + 1 })).logWithdrawn
    (if sg.remote then sg.dev else s.own) 0 sg.ticket sg.value

/-- Bytes of one element of a collective's formats. -/
def collElem (f : Nat) : Nat := if f % 16 = 8 then 2 else 4

/-- The output regions of a collective beside those declared (R310): its spans in SRC, WORK and DST.
`pos` is this member's position, `n` the number of positions. -/
def collRegions (b : List Byte) (pos n : Nat) : List Region :=
  let blocks := fieldAt b 0x38 4
  let lo := pos * blocks / n
  let hi := (pos + 1) * blocks / n
  [⟨fieldAt b 0x20 8, 3, true, blocks * 64 * collElem (fieldAt b 8 1)⟩, ⟨fieldAt b 0x28 8, 3, true, blocks * 256⟩,
    ⟨fieldAt b 0x30 8, 3, true, (hi - lo) * 64 * collElem (fieldAt b 9 1)⟩]

/-- The dimensions of the torus, from the installation record in use (R353). -/
def State.dims (s : State) : Nat × Nat × Nat :=
  match s.lnk.irec with
  | some r => (r.x, r.y, r.z)
  | none => (0, 0, 0)

/-- Coordinates relative to a block's origin (R303). -/
def State.relTo (s : State) (ox oy oz : Nat) (c : Coord) : Nat × Nat × Nat :=
  let (x, y, z) := s.dims
  ((cx c + x - ox % x) % x, (cy c + y - oy % y) % y, (cz c + z - oz % z) % z)

/-- The number of positions of a collective's group (R304). -/
def collN (b : List Byte) : Nat := fieldAt b 0x51 1 * fieldAt b 0x52 1 * fieldAt b 0x53 1

/-- This device's position in a collective's group, if it is a member (R304). -/
def State.collPos (s : State) (b : List Byte) : Option Nat :=
  let (xr, yr, zr) := s.relTo (fieldAt b 0x48 1) (fieldAt b 0x49 1) (fieldAt b 0x4A 1) s.own
  let (x0, y0, z0) := (fieldAt b 0x4E 1, fieldAt b 0x4F 1, fieldAt b 0x50 1)
  let (gx, gy, gz) := (fieldAt b 0x51 1, fieldAt b 0x52 1, fieldAt b 0x53 1)
  if x0 ≤ xr && xr < x0 + gx && y0 ≤ yr && yr < y0 + gy && z0 ≤ zr && zr < z0 + gz
  then some (xr - x0 + gx * (yr - y0) + gx * gy * (zr - z0)) else none

/-- The part of a collective's span that lies in DMEM outside the firmware's. (DEDUCED, log entry 149.) -/
def Region.clip (r : Region) : Region :=
  let lo := max dmemReserved r.base
  { r with base := lo, len := min dmemEnd (r.base + r.len) - lo }

/-- The output regions of an operation. -/
def State.regions (s : State) (o : Op) : List Region :=
  regionsOf o.blk ++ (match fieldAt o.bytes 0 1, s.collPos o.blk with
    | 3, some p => (collRegions o.blk p (collN o.blk)).map Region.clip
    | 3, none => ((collRegions o.blk 0 0).take 2).map Region.clip
    | _, _ => [])

/-- Increments and poisoning of R272. -/
def State.settle (s : State) (o : Op) : State :=
  let done := o.status = some .done
  let s1 :=
    if done then
      (o.deferred.foldl (fun t d => t.increment d.1.toNat d.2) s).updOp o.id (fun x => { x with applied := o.deferred.length })
    else
      ((s.regions o).foldl (State.poisonRegion o.id o.set) s).updOp o.id (fun x => { x with dropped := o.deferred.length })
  s1.updOp o.id (fun x => { x with settled := true })

/-- The DMEM lines that the poisoning of R272 writes. (DEDUCED, log entry 123.) -/
def State.poisonLines (s : State) (o : Op) : List Nat :=
  if o.settled || o.status = some .done then []
  else (s.regions o).flatMap (fun r => if r.out && r.space = 3 then granulesOf r.base r.len else [])

/-- Whether an operation has increments sent and not yet acknowledged or withdrawn. -/
def State.signalsPending (s : State) (id : Nat) : Bool := s.sch.xsigs.any (fun x => x.op = id)

/-- The signals of an operation from the next on, each applied, acknowledged or withdrawn before the one
after it begins (R272). (DEDUCED, log entry 46.) -/
def takeSignals (id : Nat) (done : Bool) : List Sig → State → State
  | [], s => s
  | sg :: rest, s =>
    if s.signalsPending id then s
    else takeSignals id done rest (if sg.always || done then s.signal id sg else s.withdraw id sg)

/-- Write an operation's record: in the signal window after the host's invalidation of the line, or to
the HOST aperture unless an aperture change is pending (R268, R375, R380). -/
def State.putRecord (s : State) (o : Op) : State :=
  let x := s.queue o.q
  let slot := x.cplSlot o.seq
  if x.cfg.cplHost then
    if s.hrw.apPend.isSome then s
    else ((s.dropOp o).emit (.hostWrite (s.hrw.apBase + slot) (s.recordOf o) false)).recordDone o.q o.seq (opIrq o)
  else if s.linesHeld [(dmemReserved + slot) / 64] then s
  else if s.hrw.mode = 1 then
    (s.dropOp o).snoop ((dmemReserved + slot) / 64) false (.record o.id o.q o.seq (opIrq o) (s.recordOf o))
  else ((s.dropOp o).writeRunAs none (.dispatcher o.id) none .dmem (dmemReserved + slot) (s.recordOf o) false).recordDone o.q o.seq (opIrq o)

/-- The block of a command that is ended unlaunched is read and checked (R275); under a ledger halt it is cancelled
whatever it holds (R279). (DESIGN CHOICE, log entry 47.) -/
def State.readUnlaunched (s : State) (o : Op) : State :=
  let c : QCmd := ⟨o.seq, o.bytes, []⟩
  if !o.unread || s.linesHeld c.blkLines then s
  else
    let t := s.touchBlock c
    let blk := t.block c
    match blockBad t.hrw.apSize c.opcode blk with
    | some off => t.updOp o.id (fun x => { (if x.cause = 7 then x else
        { x with status := some .failed, cause := 4, info := BitVec.ofNat 32 off }) with unread := false, settled := true })
    | none => t.updOp o.id (fun x => { x with
        unread := false, blk := blk, set := if c.opcode = 1 then t.launchSet blk else [] })

/-- One pass of the procedure of R272, on an operation whose block needs no reading any more. Poison marks are writes of their lines: a line of the signal window is
invalidated first (R375), and a held line waits (R366). -/
def State.endRead (s : State) (id : Nat) : State :=
  match s.opOf id with
  | none => s
  | some o =>
    if o.unread || !o.waiting.isEmpty || o.status.isNone || s.sec.state = .fatal then s
    else if s.linesHeld (s.poisonLines o) then s
    else if !s.windowReady (s.poisonLines o) then s.askInv (s.poisonLines o)
    else
      let s0 := if o.settled then s else (s.settle o).usedInv (s.poisonLines o)
      let s1 := takeSignals o.id (o.status = some .done) ((signalsOf o.blk).drop (o.sigDone + o.sigGone)) s0
      if s1.signalsPending id then s1
      else match s1.opOf id with
        | some o1 => s1.putRecord o1
        | none => s1

/-- One pass of R272. -/
def State.endOp (s : State) (id : Nat) : State :=
  match s.opOf id with
  | none => s
  | some o => (s.readUnlaunched o).endRead id

/-! ## Ledger checks and faults (R276, R277, R279) -/

/-- The ticket and record ledgers as they stand at a check (R277). -/
def State.noteLedgers (s : State) : State :=
  { s with sch := { s.sch with checked := { s.sch.checked with
      tickets := s.sch.tickets
      sums := s.sch.ticketSum
      signals := s.sch.ops.map s.opPart
      records := s.sch.queues.map (fun x => (x.1, x.2.accepted, x.2.written, x.2.consumed)) } } }

/-- The terms of the first balance of tickets that fails: a ticket, its value and its sum, or an operation's part. -/
def State.ticketTerms (s : State) : List Byte :=
  match ((s.sch.tickets.map Prod.fst) ++ (s.sch.ticketSum.map Prod.fst)).find? (fun t => s.ticket t ≠ smGet 0 s.sch.ticketSum t) with
  | some t => leBytes 2 t ++ leBytes 4 (s.ticket t).toNat ++ leBytes 4 (smGet 0 s.sch.ticketSum t).toNat
  | none => match s.sch.ops.find? (fun o => !s.opBalanced o) with
    | some o => (s.opPart o).terms
    | none => []

/-- The terms of the first queue's balance that fails: the queue, its accepted commands, its records, CONSUMED. -/
def State.recordTerms (s : State) : List Byte :=
  match s.sch.queues.find? (fun x => !x.2.balanced) with
  | some x => [BitVec.ofNat 8 x.1] ++ [x.2.accepted, x.2.written, x.2.consumed].flatMap (leBytes 8)
  | none => []

/-- The ticket and record ledgers are checked. -/
def State.judgeLedgers (s : State) : State :=
  let t := s.noteLedgers
  let u := if t.ticketLedger && t.opLedger then t else t.ledgerFlag 1 t.ticketTerms
  if u.recordLedger then u else u.ledgerFlag 2 u.recordTerms

/-- End a command that was never launched, as CANCELLED (R275, R279); its blocks' outputs are poisoned
and its signals handled. An invalid command acts on nothing: it fails instead under R275, and is cancelled
like every other command under a ledger halt (R279). (DESIGN CHOICE, log entry 47.) -/
def State.endUnlaunched (s : State) (q : Nat) (c : QCmd) (cause info : Nat) : State :=
  let o := s.newOp q c .unlaunched []
  match c.invalid with
  | some off =>
    (s.addOp { (if cause = 7 then o.fix .cancelled cause info else o.fix .failed 3 off) with settled := true }).endOp o.id
  | none =>
    let t := s.addOp { o.fix .cancelled cause info with
      unread := c.hasBlock, kind := if c.opcode = 5 then .ticketSignal else .unlaunched }
    (if c.opcode = 5 then t.withdraw o.id c.sig else t).endOp o.id

/-- From s to t a record of queue q may have been written: its operation has ended. -/
def State.ended (t s : State) (q : Nat) : Bool := !decide ((t.queue q).written = (s.queue q).written)

/-- End every command of a queue that has been read and not launched, each with the check that comes last. -/
def haltQueue (q : Nat) : Nat → State → State
  | 0, s => s
  | k + 1, s =>
    match (s.queue q).cmds with
    | [] => s
    | c :: _ =>
      let t := (s.takeHead q).endUnlaunched q c 7 s.sch.kind.toNat
      haltQueue q k (if t.ended s q then t.judgeLedgers else t)

/-- Under a ledger fault no command waits to be launched. -/
def State.ledgerHalt (s : State) : State :=
  if s.sch.ledger then (s.sch.queues.map Prod.fst).foldl (fun t q => haltQueue q (t.queue q).cmds.length t) s else s

/-- Raise a ledger fault. -/
def State.ledgerFault (s : State) (kind : Nat) (terms : List Byte) : State := (s.ledgerFlag kind terms).ledgerHalt

/-- The checks at every launch and every end of an operation (R276). -/
def State.checkLedgers (s : State) : State := s.judgeLedgers.ledgerHalt

/-- From s to t an operation of queue q may have ended: if its record is written, the ledgers are checked. -/
def State.checkEnd (t s : State) (q : Nat) : State := if t.ended s q then t.checkLedgers else t

/-- End an operation, and check the ledgers once its record is written (R272, R276). -/
def State.endOpCheck (s : State) (id q : Nat) : State := (s.endOp id).checkEnd s q

/-- As `endUnlaunched`, with the check that comes last at an operation's end. -/
def State.endUnlaunchedCheck (s : State) (q : Nat) (c : QCmd) (cause info : Nat) : State :=
  (s.endUnlaunched q c cause info).checkEnd s q

/-- The MCLK cycle of the present instant: 800 MHz (Table 13-7). -/
def State.mclk (s : State) : Nat := s.wall * 4 / 5

end Sys2Proof.Machine
end

