-- ==== Sys2Proof/Machine/Coll.lean ====
section
/-!
DEFINITION. The collective engines (spec 09, R293 to R321): launch checks, schedules, sailings, additions,
output, failure.
-/

namespace Sys2Proof.Machine

/-! ## The operation block and schedule (Tables 9-3, 9-4) -/

/-- No step is concerned (R321). -/
def noStep : Nat := 0xFFFFFF

def cPARAM : Nat := 1
def cSCHEDULE : Nat := 2
def cNOT_MEMBER : Nat := 3
def cORDER : Nat := 4
def cTIME_UNLOCKED : Nat := 5
def cDMEM_REFUSED : Nat := 6
def cEXHAUSTED : Nat := 7
def cTREE_ORDER : Nat := 8
def cCOVERAGE : Nat := 9
def cCOLL_RESIDUE : Nat := 10
def cCOLL_POISON : Nat := 11
def cPEER_FAILED : Nat := 12
def cPEER_UNREACHABLE : Nat := 13

/-- Coordinates of the member at a position (R303, R304). -/
def State.memberAt (s : State) (b : List Byte) (p : Nat) : Coord :=
  let (x, y, z) := s.dims
  let (gx, gy) := (fieldAt b 0x51 1, fieldAt b 0x52 1)
  mkCoord ((fieldAt b 0x48 1 + fieldAt b 0x4E 1 + p % gx) % x)
    ((fieldAt b 0x49 1 + fieldAt b 0x4F 1 + p / gx % gy) % y)
    ((fieldAt b 0x4A 1 + fieldAt b 0x50 1 + p / (gx * gy)) % z)

/-- Every field within Table 9-3. -/
def State.collFieldsOk (s : State) (b : List Byte) : Bool :=
  let (x, y, z) := s.dims
  let l := fieldAt b 7 1
  let inF := fieldAt b 8 1
  let out := fieldAt b 9 1
  let ext (o dim : Nat) : Bool := 1 ≤ fieldAt b o 1 && fieldAt b o 1 ≤ dim
  let bl := fieldAt b 0x38 4
  fieldAt b 4 1 = 1 && fieldAt b 5 1 ≤ 1 && fieldAt b 6 1 ≤ 1 && (l = 0 || (9 ≤ l && l ≤ 18)) &&
  (inF = 8 || inF = 10) && (out % 16 = 8 || out % 16 = 10) && out / 16 % 4 < 2 && out / 64 < 3 &&
  zeroBytes b 0xC 0x10 && fieldAt b 0x20 8 % 64 = 0 && fieldAt b 0x28 8 % 256 = 0 && fieldAt b 0x30 8 % 64 = 0 &&
  1 ≤ bl && bl ≤ 2 ^ 26 && 1 ≤ fieldAt b 0x3C 4 && fieldAt b 0x3C 4 ≤ 4096 && fieldAt b 0x40 8 % 64 = 0 &&
  (collRegions b ((s.collPos b).getD 0) (collN b)).all (fun r => r.base + r.len ≤ dmemEnd) &&
  fieldAt b 0x40 8 + fieldAt b 0x3C 4 * 32 ≤ dmemEnd &&
  ext 0x4B x && ext 0x4C y && ext 0x4D z &&
  fieldAt b 0x4E 1 + fieldAt b 0x51 1 ≤ fieldAt b 0x4B 1 && fieldAt b 0x4F 1 + fieldAt b 0x52 1 ≤ fieldAt b 0x4C 1 &&
  fieldAt b 0x50 1 + fieldAt b 0x53 1 ≤ fieldAt b 0x4D 1 && zeroBytes b 0x54 0x240

/-- The alternatives of a step entry, up to the first 0. -/
def altsOf (e : List Byte) : List Nat := (((e.drop 4).take 4).map BitVec.toNat).takeWhile (· ≠ 0)

def stepOf (e : List Byte) : Step where
  sail := fieldAt e 0 4
  alts := altsOf e
  recv := fieldAt e 8 1 = 1
  port := fieldAt e 9 1
  peer := fieldAt e 10 2
  first := fieldAt e 12 4
  nblk := fieldAt e 16 4
  bstr := fieldAt e 20 4

/-- A step entry within Table 9-4, for n positions, this member's position and bl blocks. -/
def stepOk (n bl : Nat) (pos : Option Nat) (e : List Byte) : Bool :=
  let k := fieldAt e 8 1
  let nb := fieldAt e 16 4
  ((((e.drop 4).take 4).map BitVec.toNat).drop (altsOf e).length).all (· = 0) && k ≤ 1 &&
  (if k = 0 then fieldAt e 9 1 ≤ 5 else fieldAt e 9 1 = 0) && fieldAt e 10 2 < n && pos ≠ some (fieldAt e 10 2) &&
  1 ≤ nb && (nb = 1 || 1 ≤ fieldAt e 20 4) && fieldAt e 12 4 + (nb - 1) * fieldAt e 20 4 < bl && zeroBytes e 24 32

/-- The entries of a schedule in DMEM. -/
def State.entries (s : State) (b : List Byte) : List (List Byte) :=
  (List.range (fieldAt b 0x3C 4)).map (fun k => bytesAt s.dmem.cells (fieldAt b 0x40 8 + 32 * k) 32)

/-- The lines of the schedule that a launch reads: none of one whose block fails before (R309). -/
def State.schedLines (s : State) (b : List Byte) : List Nat :=
  if s.collFieldsOk b && dmemReserved ≤ fieldAt b 0x40 8 then granulesOf (fieldAt b 0x40 8) (fieldAt b 0x3C 4 * 32) else []

def spansTouch (a b : Region) : Bool :=
  1 ≤ a.len && 1 ≤ b.len && a.base < b.base + b.len && b.base < a.base + a.len

/-- Whether SRC, WORK and DST overlap one another. -/
def spansOverlap (l : List Region) : Bool :=
  l.zipIdx.any (fun x => l.zipIdx.any (fun y => x.2 < y.2 && spansTouch x.1 y.1))

/-- A span reaches into the firmware-reserved DMEM. -/
def spanReserved (r : Region) : Bool := r.base < dmemReserved

/-- The first bad step. -/
def firstBadStep (n bl : Nat) (pos : Option Nat) (l : List (List Byte)) : Option Nat :=
  l.findIdx? (fun e => !stepOk n bl pos e)

/-- The code and step of the check a collective fails at launch (R309, R418). (DESIGN CHOICE, log entry 58.) -/
def State.collBad (s : State) (b : List Byte) : Option (Nat × Nat) :=
  let n := collN b
  let pos := s.collPos b
  let regs := collRegions b (pos.getD 0) n
  if !s.collFieldsOk b || (s.engFenced 0 && s.engFenced 1) then some (cPARAM, noStep)
  else if fieldAt b 0x40 8 < dmemReserved then some (cDMEM_REFUSED, noStep)
  else match firstBadStep n (fieldAt b 0x38 4) pos (s.entries b) with
    | some k => some (cSCHEDULE, k)
    | none =>
      if spansOverlap regs then some (cPARAM, noStep)
      else if regs.any spanReserved then some (cDMEM_REFUSED, noStep)
      else if pos.isNone then some (cNOT_MEMBER, noStep)
      else if fieldAt b 5 1 = 0 && 512 < n then some (cORDER, noStep)
      else if s.tt.state = .acquire || s.tt.state = .unlocked then some (cTIME_UNLOCKED, noStep)
      else none

/-! ## Messages to members -/

/-- A collective's message: announcement, abort or block. -/
def State.collTxn (s : State) (c : Coll) (peer block step : Nat) (poison : Bool) (cover : List Nat)
    (data : List Byte) : Txn :=
  { poison := poison, psub := false, src := s.own, dst := c.members.getD peer 0, count := 0, tag := 0
    addr := BitVec.ofNat 64 (c.collId.toNat + block * 2 ^ 32), aux := BitVec.ofNat 64 step, num := 0
    link := .a
    cover := cover, data := data }

/-- The peers of the steps that satisfy f, each once. -/
def Coll.peers (c : Coll) (f : Step → Bool) : List Nat := ((c.steps.filter f).map (·.peer)).dedup

/-! ## Listed sailings that have gone by (R297, R323) -/

/-- The blocks of a step. -/
def Step.blks (st : Step) : List Nat := (List.range st.nblk).map (fun i => st.first + i * st.bstr)

/-- The blocks due on a port in a sailing: step, block (R297). -/
def Coll.due (c : Coll) (p sail : Nat) : List (Nat × Step × Nat) :=
  (c.steps.zipIdx.map (fun x => (x.2, x.1))).flatMap (fun x =>
    if !x.2.recv && x.2.port = p && (x.2.sailings c.start).contains sail then
      ((x.2.blks).filter (fun b => !c.sent.contains (x.1, b))).map (fun b => (x.1, x.2, b))
    else [])

/-- The time of departure, 32 ns into the sailing, has gone by without a departure (R295). -/
def Coll.passed (c : Coll) (now p sail : Nat) : Bool :=
  sail * 2 ^ c.log2 + 34 ≤ now && !c.left.contains (p, sail)

/-- The listed sailings that have gone by so: port, sailing. -/
def Coll.passedAll (c : Coll) (now : Nat) : List (Nat × Nat) :=
  ((c.steps.filter (fun st => !st.recv)).flatMap (fun st =>
    ((st.sailings c.start).filter (c.passed now st.port)).map (fun k => (st.port, k)))).dedup

/-- A block due in a listed sailing that has gone by was not sent in it: it is counted in COL_MISSED. -/
def ColEng.catchUp (g : ColEng) (now : Nat) : ColEng :=
  match g.run with
  | none => g
  | some c =>
    let l := c.passedAll now
    { g with
      run := some { c with left := c.left ++ l }
      missed := g.missed + BitVec.ofNat 64 (l.map (fun x => (c.due x.1 x.2).length)).sum }

/-- What has gone by is settled first: blocks whose sailing is over stay behind on every port, due again (R295, R297), and
listed sailings that passed without a departure are missed. -/
def State.catchUp (s : State) (e : EngineId) : State :=
  let t := allPorts.foldl State.holdBack s
  t.setEng e ((t.eng e).catchUp t.tt.now)

/-! ## Failure and end (R320, R321) -/

def collInfo (code step : Nat) : Nat := step % 2 ^ 24 * 256 + code

/-- Return the credits withheld for blocks in the receive buffer. -/
def State.releaseHeld (s : State) (l : List RxBlk) : State :=
  l.foldl (fun t r => match r.via with
    | some (p, k) =>
      let n := if r.data.length = 256 then 9 else 5
      let lk := t.link p k
      (t.setLink p k { lk with buffer := onClass lk.buffer 2 (· - n) }).creditBack p k 2 n
    | none => t) s

/-- The engine has stopped: its operation has its report. -/
def State.collReport (s : State) (e : EngineId) : State :=
  match (s.eng e).run with
  | none => s
  | some c =>
    let s1 := s.setEng e { s.eng e with run := none, holding := false }
    ((s1.releaseHeld c.rx).updOp c.op (fun o => { o with waiting := [] })).pump

/-- A stopped collective ends once its verdicts are in. -/
def State.collStopped (s : State) (e : EngineId) : State :=
  match (s.eng e).run with
  | some c => if c.failed && c.checks.isEmpty then s.collReport e else s
  | none => s

/-- The engine stops sending, blocks still in its ports among them, and aborts its peers (R320). -/
def State.collHalt (s : State) (e : EngineId) : State :=
  match (s.eng e).run with
  | none => s
  | some c =>
    if c.failed then s
    else
      let s1 := (s.setEng e { s.eng e with run := some { c with failed := true } }).withdrawBlocks c.collId
      ((c.peers (fun _ => true)).foldl (fun t p => (t.sendTxn 0x0B (t.collTxn c p 0 0 false [] [])).getD t) s1).collStopped e

/-- The collective on an engine fails (R320). -/
def State.collFail (s : State) (e : EngineId) (code step : Nat) : State :=
  match (s.eng e).run with
  | none => s
  | some c =>
    if c.failed then s
    else
      let s0 := s.catchUp e
      let s1 := s0.setEng e { s0.eng e with lastCode := BitVec.ofNat 8 code }
      (s1.updOp c.op (fun o => o.fix .failed 9 (collInfo code step))).collHalt e

/-! ## Launch (R308, R418) -/

/-- The running collective of a valid block. -/
def State.newColl (s : State) (e : EngineId) (op : Nat) (b : List Byte) (pos : Nat) : Coll where
  op := op
  collId := BitVec.ofNat 32 (fieldAt b 0 4)
  tree := fieldAt b 5 1 = 1
  log2 := if fieldAt b 7 1 = 0 then 12 else fieldAt b 7 1
  inFmt := BitVec.ofNat 4 (fieldAt b 8 1)
  outFmt := BitVec.ofNat 4 (fieldAt b 9 1)
  outRnd := BitVec.ofNat 2 (fieldAt b 9 1 / 16)
  outOvf := BitVec.ofNat 2 (fieldAt b 9 1 / 64)
  tag := BitVec.ofNat 16 (fieldAt b 0xA 2)
  seed := BitVec.ofNat 64 (fieldAt b 0x10 8)
  start := fieldAt b 0x18 8
  src := fieldAt b 0x20 8
  work := fieldAt b 0x28 8
  dst := fieldAt b 0x30 8
  b := fieldAt b 0x38 4
  n := collN b
  pos := pos
  members := (List.range (collN b)).map (s.memberAt b)
  steps := (s.entries b).map stepOf
  blocks := []
  sent := []
  announced := (((s.eng e).ann.filter (fun a => a.1 = BitVec.ofNat 32 (fieldAt b 0 4))).filterMap (fun a =>
    ((List.range (collN b)).map (s.memberAt b)).findIdx? (· = a.2))).dedup
  left := []
  rx := []
  checks := []
  output := none
  failed := false

/-- Announce to the peers of the RECV steps; one that cannot be reached fails the collective. -/
def announceAll (e : EngineId) (c : Coll) : List Nat → State → State
  | [], s => s
  | p :: t, s =>
    match s.sendTxn 0x0A (s.collTxn c p 0 0 false [] []) with
    | some s1 => announceAll e c t s1
    | none => s.collFail e cPEER_UNREACHABLE ((c.steps.findIdx? (fun x => x.recv && x.peer = p)).getD noStep)

/-- Start a collective that passed its checks. -/
def State.startColl (s : State) (e : EngineId) (op : Nat) (b : List Byte) (pos : Nat) : State :=
  let c := s.newColl e op b pos
  let drop (x : ColEng) : ColEng := { x with ann := x.ann.filter (fun a => a.1 ≠ c.collId) }
  let s1 := { s with col := s.col.map drop }
  let s2 := (s1.setEng e { s1.eng e with run := some c, id := c.collId }).catchUp e
  announceAll e c (c.peers (·.recv)) s2

/-- The running, unfailed collective of an engine. -/
def State.coll (s : State) (e : EngineId) : Option Coll :=
  match (s.eng e).run with
  | some c => if c.failed then none else some c
  | none => none

def State.setColl (s : State) (e : EngineId) (c : Coll) : State := s.setEng e { s.eng e with run := some c }

/-! ## Blocks -/

def Coll.blk (c : Coll) (b : Nat) : Blk := smGet ⟨[c.pos], false, [], false⟩ c.blocks b

def Coll.setBlk (c : Coll) (b : Nat) (x : Blk) : Coll :=
  { c with blocks := smPut ⟨[c.pos], false, [], false⟩ c.blocks b x }

def Step.has (st : Step) (b : Nat) : Bool :=
  if st.bstr = 0 then b = st.first
  else st.first ≤ b && (b - st.first) % st.bstr = 0 && (b - st.first) / st.bstr < st.nblk

def Coll.inSize (c : Coll) : Nat := 64 * collElem c.inFmt.toNat

/-- Where a block's present value lies in DMEM: in WORK after its first addition, else in SRC (R312). -/
def Coll.blkSpan (c : Coll) (b : Nat) : Nat × Nat :=
  if (c.blk b).inWork then (c.work + 256 * b, 256) else (c.src + c.inSize * b, c.inSize)

/-- An engine's collective reads a DMEM range, in its read number k: errors are found; its bytes and whether any line
comes poisoned, an older value where a copy serves the read (R237). -/
def State.readDmem (s : State) (e : EngineId) (op k a len : Nat) : State × List Byte × Bool :=
  let t := s.touchAll .dmem (granulesOf a len)
  let r : Reader := ⟨collReader e.val, none, 0, some op, false⟩
  (t, (List.range len).map (fun i => t.seenByte r k .dmem (a + i)), (granulesOf a len).any (t.seenBad r k .dmem))

/-- The values of a block's bytes in a format; the byte count tells bfloat16 from binary32. -/
def blockNums (data : List Byte) : List Num :=
  let w := if data.length = 128 then 2 else 4
  (List.range 64).map (fun i => decodeNum (if w = 2 then 8 else 0xA) (fieldAt data (w * i) w))

/-- The steps, with their numbers, that receive a block. -/
def Coll.recvSteps (c : Coll) (b : Nat) : List (Nat × Step) :=
  (c.steps.zipIdx.map (fun x => (x.2, x.1))).filter (fun x => x.2.recv && x.2.has b)

/-! ## Sailings (R294 to R299) -/

/-- Whether [lo, hi] meets a window of length w that starts at phase o of every period p. -/
def windowMeets (p o w lo hi : Nat) : Bool :=
  p ≠ 0 && (let k := if lo < o then 0 else (lo - o) / p
    (List.range (hi / p - k + 2)).any (fun i => let a := (k + i) * p + o
      a ≤ hi && lo < a + w))

/-- The ends of a port's links agree on slack settings (R300). -/
def State.slackAgrees (s : State) (p : Port) : Bool :=
  s.tt.offers.any (fun x => x.1 = (portNum p).val && x.2.slack = s.tt.slack)

/-- Slack water on either link of the port meets the sailing (R295, R300). -/
def State.slackMeets (s : State) (port : Port) (lo hi : Nat) : Bool :=
  let p := s.tt.slack.period * 1000
  let o := s.tt.slack.offset * 1000
  s.slackAgrees port && (windowMeets p o s.tt.slack.len lo hi || windowMeets p (o + p / 2) s.tt.slack.len lo hi)

/-- Bytes per ns of a port in a sailing: both links have been up since it began (R295). (DEDUCED, log entry 60.) -/
def State.sailRate (s : State) (p : Port) (lo hi : Nat) : Nat :=
  let x := s.port p
  let up (l : Link) : Bool := (l.state = .up || l.state = .slack) && l.trainAt + (s.tt.now - lo) ≤ s.wall
  if up x.la && up x.lb && !s.slackMeets p lo hi then 380 else 190

/-- Wire bytes of a block: a 32-byte header and its data. -/
def Coll.wire (c : Coll) (b : Nat) : Nat := 32 + (c.blkSpan b).2

/-- Ready under R299 and R318. -/
def Coll.ready (c : Coll) (k : Nat) (st : Step) (b : Nat) : Bool :=
  ((c.recvSteps b).filter (fun x => x.1 < k)).all (fun x => (c.blk b).applied.contains x.1) &&
  !c.checks.any (fun h => h.block = b) && c.announced.contains st.peer

/-- Send one block, which leaves before a tide time. -/
def State.sendBlock (s : State) (e : EngineId) (p : Port) (c : Coll) (k : Nat) (st : Step) (b till : Nat) : State × Coll :=
  let span := c.blkSpan b
  let (t, data, bad) := s.readDmem e c.op k span.1 span.2
  let x := c.blk b
  let c1 := { (if bad then c.setBlk b { x with poison := true } else c) with sent := c.sent ++ [(k, b)] }
  ((t.postTill p 0x09 (t.collTxn c st.peer b k (bad || x.poison) x.cover data) none (some till)).setColl e c1, c1)

/-- Send due blocks in order while they fit; the rest are missed. `used` counts bytes. A block that does not fit, or whose
lines are held, is passed over. (DESIGN CHOICE, log entry 152.) -/
def sendDue (e : EngineId) (p : Port) (cap till : Nat) : List (Nat × Step × Nat) → State → Coll → Nat → Nat →
    State × Nat × Nat
  | [], s, _, used, missed => (s, used, missed)
  | (k, st, b) :: t, s, c, used, missed =>
    if c.ready k st b && used + c.wire b ≤ cap && !s.linesHeld (granulesOf (c.blkSpan b).1 (c.blkSpan b).2) then
      let r := s.sendBlock e p c k st b till
      sendDue e p cap till t r.1 r.2 (used + c.wire b) missed
    else sendDue e p cap till t s c used (missed + 1)

/-- Engine 0 goes first where both engines have a departure at one time (R297). -/
def State.goesFirst (s : State) (e : EngineId) (p : Port) (lo : Nat) : Bool :=
  e.val = 0 || (match s.coll 0 with
    | some c => !(lo % 2 ^ c.log2 = 0 && !(c.due (portNum p).val (lo / 2 ^ c.log2)).isEmpty &&
        !c.left.contains ((portNum p).val, lo / 2 ^ c.log2))
    | none => true)

/-- A departure of an engine's blocks on a port, at the sailing's start plus 32 ns (R295 to R299). Tide time may pass
over one ns (R284). (DEDUCED, log entry 60.) What another collective's overlapping sailings carried counts whole. (DESIGN
CHOICE, log entry 152.) -/
def State.depart (s : State) (e : EngineId) (p : Port) (sail : Nat) : State :=
  match s.coll e with
  | none => s
  | some c =>
    let len := 2 ^ c.log2
    let lo := sail * len
    let hi := lo + len - 1
    let pn := (portNum p).val
    let due := c.due pn sail
    if s.tt.now < lo + 32 || lo + 34 ≤ s.tt.now || due.isEmpty || c.left.contains (pn, sail) || !s.goesFirst e p lo then s
    else if !(s.port p).up then
      s.collFail e cPEER_UNREACHABLE ((due.head?.map Prod.fst).getD noStep)
    else
      let rate := s.sailRate p lo hi
      let old := (s.port p).sailed.filter (fun x => lo ≤ x.2.1)
      let before := old.foldl (fun n x => if x.1 ≤ hi then n + x.2.2 else n) 0
      let cap := (len - 64) * rate - before
      let c1 := { c with left := c.left ++ [(pn, sail)] }
      let (t, used, missed) := sendDue e p cap (lo + len - 32) due (s.setColl e c1) c1 0 0
      let g := t.eng e
      let t1 := t.setEng e { g with
        missed := g.missed + BitVec.ofNat 64 missed
        half := if rate = 190 && 0 < used then g.half + 1 else g.half }
      (t1.setPort p { t1.port p with sailed := old ++ (if 0 < used then [(lo, hi, used)] else []) }).pump

/-- The last sailing a step lists. -/
def Step.lastSail (st : Step) (start : Nat) : Nat := (st.sailings start).getLastD 0

/-- Whether a step has run out of sailings (R298). -/
def Coll.exhausted (c : Coll) (now k : Nat) (st : Step) : Bool :=
  let len := 2 ^ c.log2
  let last := st.lastSail c.start
  if st.recv then
    (last + 1) * len + 1000000 ≤ now &&
      st.blks.any (fun b => !(c.blk b).applied.contains k && !c.rx.any (fun r => r.step = k && r.block = b))
  else
    (decide (last * len + 34 ≤ now) || (last * len + 32 ≤ now && c.left.contains (st.port, last))) &&
      st.blks.any (fun b => !c.sent.contains (k, b))

/-- A step of an engine's collective has run out of sailings. -/
def State.outOfSailings (s : State) (e : EngineId) (k : Nat) : Bool :=
  (s.coll e).any (fun c => c.steps[k]?.any (c.exhausted s.tt.now k))

/-- A collective with such a step fails; blocks that the end of their sailing leaves behind may be what is missing. -/
def State.exhaust (s : State) (e : EngineId) (k : Nat) : State :=
  if s.outOfSailings e k then s.collFail e cEXHAUSTED k
  else
    let t := s.catchUp e
    if t.outOfSailings e k then t.collFail e cEXHAUSTED k else t

/-! ## Receiving (R314, R320) -/

def rxLimit : Nat := 16777216

def rxBytes (l : List RxBlk) : Nat := l.foldl (fun n r => if r.via.isSome then n else n + r.data.length) 0

/-- The engine that runs a collective, if any does. (DEDUCED, log entry 59.) -/
def State.engineOf (s : State) (id : Word32) : Option EngineId :=
  if (s.coll 0).any (·.collId = id) then some 0
  else if (s.coll 1).any (·.collId = id) then some 1 else none

/-- Count a block or abort that names no running collective: on engine 1 when it ran that collective
last, else on engine 0 (R323). -/
def State.stray (s : State) (id : Word32) : State :=
  let e : EngineId := if (s.eng 1).id = id && (s.eng 0).id ≠ id then 1 else 0
  s.setEng e { s.eng e with stray := satInc (s.eng e).stray }

/-- The RECV step a block from a member belongs to: the first that names it and has not received it. -/
def Coll.stepFor (c : Coll) (src : Coord) (b : Nat) : Option Nat :=
  ((c.recvSteps b).find? (fun x => c.members.getD x.2.peer 0 = src && !(c.blk b).applied.contains x.1 &&
    !c.rx.any (fun r => r.step = x.1 && r.block = b))).map Prod.fst

/-- A block arrives. One for a running collective that no open step expects is discarded, and not counted: COL_STRAY
counts what names no running collective. The answer says whether its credits are withheld. (DESIGN CHOICE, log entry
135.) -/
def State.takeBlock (s : State) (x : Txn) (via : Port × LinkId) : State × Bool :=
  match s.engineOf (txnColl x) with
  | none => (s.stray (txnColl x), false)
  | some e =>
    match s.coll e with
    | none => (s, false)
    | some c =>
      match c.stepFor x.src (txnBlock x) with
      | none => (s, false)
      | some k =>
        let full := rxLimit < rxBytes c.rx + x.data.length
        let r : RxBlk := ⟨k, txnBlock x, x.cover, x.poison, x.data, if full then some via else none⟩
        let s1 := s.setEng e { s.eng e with
          run := some { c with rx := c.rx ++ [r] }, holding := (s.eng e).holding || full }
        (s1, full)

/-- Take in blocks held back while room has been made, and return their credits. -/
def State.letIn (s : State) (e : EngineId) : State :=
  match (s.eng e).run with
  | none => s
  | some c =>
    let room := rxLimit - rxBytes c.rx
    let step (a : Nat × List RxBlk × List RxBlk) (r : RxBlk) : Nat × List RxBlk × List RxBlk :=
      if r.via.isSome && r.data.length ≤ a.1 then (a.1 - r.data.length, a.2.1 ++ [{ r with via := none }], a.2.2 ++ [r])
      else (a.1, a.2.1 ++ [r], a.2.2)
    let (_, rx, freed) := c.rx.foldl step (room, [], [])
    let s1 := s.setEng e { s.eng e with run := some { c with rx := rx }, holding := rx.any (·.via.isSome) }
    s1.releaseHeld freed

/-- An announcement (R308): kept for a collective not yet running here. -/
def State.takeAnnouncement (s : State) (x : Txn) : State :=
  match s.engineOf (txnColl x) with
  | some e =>
    match s.coll e with
    | some c =>
      match c.members.findIdx? (· = x.src) with
      | some p => s.setColl e { c with announced := if c.announced.contains p then c.announced else c.announced ++ [p] }
      | none => s
    | none => s
  | none =>
    let keep (g : ColEng) : ColEng :=
      if g.ann.contains (txnColl x, x.src) then g else { g with ann := g.ann ++ [(txnColl x, x.src)] }
    { s with col := s.col.map keep }

/-- An abort (R320). -/
def State.takeAbort (s : State) (x : Txn) : State :=
  match s.engineOf (txnColl x) with
  | some e => s.collFail e cPEER_FAILED noStep
  | none => s.stray (txnColl x)

/-! ## Additions (R311 to R315, R318, R319) -/

/-- The split of tree node (lo, hi) (R313). -/
def powerBelow : Nat → Nat → Nat → Nat
  | 0, _, h => h
  | k + 1, n, h => if 2 * h < n then powerBelow k n (2 * h) else h

def splitAt (lo hi : Nat) : Nat := lo + powerBelow 64 (hi - lo) 1

/-- Whether (lo, hi) is a node of tree(a, b). -/
def treeNode (lo hi : Nat) : Nat → Nat → Nat → Bool
  | 0, _, _ => false
  | k + 1, a, b =>
    if a = lo && b = hi then true
    else if b - a ≤ 1 then false
    else
      let m := splitAt a b
      if hi ≤ m then treeNode lo hi k a m else if m ≤ lo then treeNode lo hi k m b else false

/-- The range lo to hi − 1 that a coverage is, if it is one. -/
def rangeOf (l : List Nat) : Option (Nat × Nat) :=
  match l with
  | [] => none
  | x :: t =>
    let lo := t.foldl min x
    let hi := t.foldl max x + 1
    if hi - lo = l.length && l.dedup.length = l.length then some (lo, hi) else none

/-- How two partial sums are to be added: none when R314 or R315 forbids it; true when the first is
the left operand. -/
def Coll.pairing (c : Coll) (a b : List Nat) : Option Bool :=
  if c.tree then
    match rangeOf a, rangeOf b with
    | some (l1, h1), some (l2, h2) =>
      if h1 = l2 && treeNode l1 h2 (c.n + 1) 0 c.n && splitAt l1 h2 = h1 then some true
      else if h2 = l1 && treeNode l2 h1 (c.n + 1) 0 c.n && splitAt l2 h1 = h2 then some false
      else none
    | _, _ => none
  else if a.any b.contains then none else some true

/-- The adder that adds a block: number modulo 4, the next one not fenced (R412, R418). -/
def State.adderFor (s : State) (e : EngineId) (b : Nat) : Nat :=
  ((List.range 4).map (fun i => (b + i) % 4)).find? (fun a => !s.int.adders.getLsbD (adderCode e.val a)) |>.getD (b % 4)

/-- The next received block of block number b to be added. -/
def Coll.nextRx (c : Coll) (b : Nat) : Option RxBlk :=
  if c.tree then
    match (c.recvSteps b).find? (fun x => !(c.blk b).applied.contains x.1) with
    | some (k, _) => c.rx.find? (fun r => r.block = b && r.step = k && r.via.isNone)
    | none => none
  else c.rx.find? (fun r => r.block = b && r.via.isNone)

/-- 32 FCLK cycles at 2.0 GHz, in ns (Table 12-2, Table 13-6). (DESIGN CHOICE, log entry 61.) -/
def collDeadline : Nat := 16

/-- The engine adds nothing for 64 FCLK cycles, 32 ns, after a droop of its die (R454, Table 13-6). -/
def State.collDroops (s : State) (e : EngineId) : Bool := (s.pwr.ioDroop[e]).any (fun t => s.wall < t + 32)

/-- Add a received block to the member's partial sum. -/
def State.collAdd (s : State) (e : EngineId) (b : Nat) : State :=
  match s.coll e with
  | none => s
  | some c =>
    match c.nextRx b with
    | none => s
    | some r =>
      let x := c.blk b
      let lines := granulesOf (c.work + 256 * b) 256
      match c.pairing x.cover r.cover with
      | none => s.collFail e (if c.tree then cTREE_ORDER else cCOVERAGE) r.step
      | some left =>
        let span := c.blkSpan b
        if s.linesHeld (lines ++ granulesOf span.1 span.2) || s.collDroops e then s
        else if !s.windowReady lines then s.askInv lines
        else
          let (t, data, bad) := s.readDmem e c.op (c.steps.length + (s.eng e).nextChk) span.1 span.2
          let own := blockNums data
          let got := blockNums r.data
          let sums := List.zipWith (fun u v => if left then adderAdd u v else adderAdd v u) own got
          let psn := bad || x.poison || r.poison
          let bytes := sums.flatMap (fun v => leBytes 4 (convert v.1 0xA 0 2 0).code)
          let t1 := (t.writeRunAs (some c.op) (.collective e) none .dmem (c.work + 256 * b) bytes psn).usedInv lines
          let g := t1.eng e
          let c1 := { c.setBlk b ⟨if left then x.cover ++ r.cover else r.cover ++ x.cover, true, x.applied ++ [r.step], psn⟩ with
            rx := c.rx.erase r
            checks := c.checks ++ [⟨g.nextChk, r.step, b, s.adderFor e b, s.wall + collDeadline, (own, got)⟩] }
          ((t1.setEng e { g with
            run := some c1, adds := g.adds + 1, nextChk := g.nextChk + 1
            flags := g.flags ||| (sums.foldl (fun f v => f ||| v.2) 0 &&& 0xF) }).letIn e).pump

/-! ## Output (R316, R317) -/

def Coll.shardLo (c : Coll) : Nat := c.pos * c.b / c.n
def Coll.shardHi (c : Coll) : Nat := (c.pos + 1) * c.b / c.n

def Coll.shard (c : Coll) : List Nat := (List.range (c.shardHi - c.shardLo)).map (· + c.shardLo)

/-- Every step has been applied: blocks sent, and received blocks added. -/
def Coll.stepsDone (c : Coll) : Bool :=
  c.steps.zipIdx.all (fun x => x.1.blks.all (fun b =>
    if x.1.recv then (c.blk b).applied.contains x.2 else c.sent.contains (x.2, b)))

/-- A block of the shard covers every position. -/
def Coll.covers (c : Coll) (b : Nat) : Bool := (List.range c.n).all ((c.blk b).cover.contains ·)

/-- The codes of a block's converted elements, and the flags raised. -/
def Coll.outBlock (c : Coll) (b : Nat) (data : List Byte) : List Nat × BitVec 5 :=
  let cs := (blockNums data).mapIdx (fun i v => convert v c.outFmt c.outRnd c.outOvf (rand24 c.seed c.tag (64 * b + i)))
  (cs.map (·.code), flagsOf cs)

/-- Bytes of the shard at DST for a block, by its place in the shard. -/
def Coll.outSize (c : Coll) : Nat := 64 * collElem c.outFmt.toNat

/-- Convert block b of the shard and submit its check. -/
def State.convertBlock (s : State) (e : EngineId) (b : Nat) : State :=
  match (s.eng e).run with
  | none => s
  | some c =>
    let (t, data, bad) := s.readDmem e c.op (c.steps.length + (s.eng e).nextChk) (c.blkSpan b).1 (c.blkSpan b).2
    let g := t.eng e
    let o := c.outBlock b data
    t.setEng e { g with
      run := some { (if bad then c.setBlk b { c.blk b with poison := true } else c) with
        output := some (c.output.getD [] ++ [(b, o.1.flatMap (leBytes (collElem c.outFmt.toNat)))])
        checks := c.checks ++ [⟨g.nextChk, noStep, b, s.adderFor e b, s.wall + collDeadline, (blockNums data, [])⟩] }
      nextChk := g.nextChk + 1, flags := g.flags ||| (o.2 &&& 0xF) }

/-- Convert the shard, block by block. (DESIGN CHOICE, log entry 62.) -/
def State.convertShard (s : State) (e : EngineId) (c : Coll) : State :=
  c.shard.foldl (fun t b => t.convertBlock e b) (s.setColl e { c with output := some [] })

/-- Write the converted shard to DST. -/
def State.writeShard (s : State) (e : EngineId) (c : Coll) : State :=
  (c.output.getD []).foldl (fun t x =>
    t.writeRunAs (some c.op) (.collective e) none .dmem (c.dst + c.outSize * (x.1 - c.shardLo)) x.2 (c.blk x.1).poison) s

/-- Any sum or contribution of the collective was poisoned (R319). -/
def Coll.poisoned (c : Coll) : Bool := c.blocks.any (fun x => x.2.poison)

def State.collOutput (s : State) (e : EngineId) : State :=
  match s.coll e with
  | none => s
  | some c =>
    if !c.stepsDone || s.blocksWait c.collId || !c.checks.isEmpty || s.linesHeld (c.shard.flatMap (fun b => granulesOf (c.blkSpan b).1 (c.blkSpan b).2)) then s
    else if c.output.isNone then
      if c.shard.all c.covers then s.convertShard e c else s.collFail e cCOVERAGE noStep
    else
      let lines := granulesOf c.dst (c.outSize * c.shard.length)
      if s.linesHeld lines then s
      else if !s.windowReady lines then s.askInv lines
      else
        let t := (s.writeShard e c).usedInv lines
        if c.poisoned then t.collFail e cCOLL_POISON noStep
        else (t.updOp c.op (fun o => o.fix .done 0 0)).collReport e

end Sys2Proof.Machine
end

