-- ==== Sys2Proof/Machine/Verdict.lean ====
section
/-!
DEFINITION. Verdicts, arbitration, charges and clearance (spec 12), and a core's cancellation and report
(spec 03, R107 to R109).
-/

namespace Sys2Proof.Machine

/-! ## Marks -/

/-- Take a passed check out of a map of marks. -/
def stripMarks (id : Nat) (m : List (Nat × List Nat)) : List (Nat × List Nat) :=
  (m.map (fun x => (x.1, setDel id x.2))).filter (fun x => !x.2.isEmpty)

def Tile.strip (id : Nat) (t : Tile) : Tile := { t with marks := setDel id t.marks }

def SubArr.strip (id : Nat) (x : SubArr) : SubArr :=
  { x with b0 := x.b0.map (Tile.strip id), b1 := x.b1.map (Tile.strip id) }

def MExec.strip (id : Nat) (x : MExec) : MExec :=
  { x with tile := x.tile.strip id, wbuf := x.wbuf.map (fun b => { b with marks := setDel id b.marks }) }

/-- Granules protected for a check are so no more (R141). -/
def Mat.unprotect (id : Nat) (m : Mat) : Mat := { m with protect := m.protect.filter (fun x => x.2.2 ≠ id) }

/-- A check has passed: nothing waits for it any more (R401). -/
def Core.clearCheck (c : Core) (id : Nat) : Core :=
  { c with
    marks := stripMarks id c.marks
    vec := { c.vec with marks := stripMarks id c.vec.marks }
    mat := { c.mat.unprotect id with
      sub := c.mat.sub.map (SubArr.strip id), exec := c.mat.exec.map (MExec.strip id) } }

/-- Nor do older values of the core's granules wait for it. -/
def State.clearOld (s : State) (g id : Nat) : State :=
  { s with old := s.old.map (fun o =>
      if o.loc = .lsp g then { o with
        was := { o.was with marks := setDel id o.was.marks }, put := { o.put with marks := setDel id o.put.marks } }
      else o) }

def Core.findCheck (c : Core) (id : Nat) : Option Check := c.checks.find? (fun k => k.id = id)

def Core.dropCheck (c : Core) (id : Nat) : Core := { c with checks := c.checks.filter (fun k => k.id ≠ id) }

/-! ## Witness (R409) -/

/-- Cores of a die after core g, in the order of R409. -/
def afterCore (g : Nat) : List Nat := (List.range 511).map (fun i => g / 512 * 512 + (g % 512 + 1 + i) % 512)

def State.trusted (s : State) (g : Nat) : Bool := !s.int.fenced.contains g && !s.int.suspects.contains g

/-- The witness of a core, and a suspect core's third core (R409, R419). (DESIGN CHOICE, log entry 120.) -/
def State.witnessOf (s : State) (g : Nat) : Option Nat := (afterCore g).find? s.trusted

/-! ## Failed checks (R403, R405, R408, R413) -/

/-- A scalar load that waits on a granule a failed check marked receives it poisoned (R84, R403). -/
def State.releaseLoad (s : State) (g id : Nat) : State :=
  let c := s.core g
  match c.seq.cond with
  | .held (.load _ _ quay _) w =>
    if !quay && (c.marksOf (c.accAddr w / 64)).contains id then s.setCore g (c.issueFault cPOISON 0x3000) else s
  | .held .dld w =>
    if (c.marksOf (c.accAddr w / 64)).contains id then s.setCore g (c.issueFault cPOISON 0x3000) else s
  | _ => s

/-- The stationary tile of a matrix check: its command's, or what its weight buffer still holds. -/
def Mat.tileOf (m : Mat) (k : Check) : Option Tile :=
  match m.exec.find? (fun x => x.cmd.n = k.n) with
  | some x => some x.tile
  | none => let b := m.subAt k.q; if k.buf then b.b1 else b.b0

/-- The operands of a failed check of core g, as they were read (R408). -/
def State.retain (s : State) (g : Nat) (k : Check) : Retained :=
  { chk := k.id, eng := k.eng
    tile := if k.eng = .matrix then (s.core g).mat.tileOf k else none
    grans := k.reads, sums := k.sums, vals := k.vals, loaded := k.loaded }

/-- The unit that a failed check names: in quad mode its own sub-array, else the quadrant or lane group given (R412). -/
def Check.unit (k : Check) (g : Nat) (n : Lane4) : FaultUnit :=
  if k.eng = .matrix then .quadrant g (if k.quad then k.q.toNat else n.toNat) else .lanes g n.toNat

/-- A check of core g has failed; `n` is the quadrant or lane group that it names. Its operands are retained and no
longer protected (R141, R408). (DEDUCED, log entry 32.) -/
def State.failCheck (s : State) (g : Nat) (k : Check) (n : Lane4) : State :=
  let c := (s.core g).dropCheck k.id
  let m := if k.eng = .matrix then c.mat.setEntry k.dlog { c.mat.entry k.dlog with verdict := 2 } else c.mat
  let s1 := (s.setCore g { c with retained := c.retained ++ [s.retain g k], checkFailed := true, mat := m.unprotect k.id }).releaseLoad g k.id
  let s2 := s1.healthInc (dieHealth (dieOf g).val + 0x60) 8
  let unit := k.unit g n
  let a : Arb := ⟨.core (BitVec.ofNat 12 g), k.id, unit, s.witnessOf g, none⟩
  let s3 := { s2 with int := { s2.int with arbs := s2.int.arbs ++ [a] } }
  (s3.raise g cRESIDUE (engCode k.eng * 0x1000) k.pc k.ord).settleMarks g

/-- A check of a collective engine has failed (R318, R407). -/
def State.failColl (s : State) (e : EngineId) (k : CollChk) : State :=
  match (s.eng e).run with
  | none => s
  | some c =>
    let s0 := s.setColl e { c with checks := c.checks.filter (fun x => x.id ≠ k.id) }
    let s1 := s0.setEng e { s0.eng e with retained := (s0.eng e).retained ++ [k] }
    let s2 := s1.healthInc (dieHealth (8 + e.val) + 0x60) 8
    let a : Arb := ⟨.coll e, k.id, .adder e.val k.adder, none, none⟩
    let s3 := { s2 with int := { s2.int with arbs := s2.int.arbs ++ [a] } }
    (s3.collFail e cCOLL_RESIDUE k.step).collStopped e

/-- A core's verdict within its deadline. (DEDUCED, log entry 34.) -/
def State.coreVerdict (s : State) (g id : Nat) (bad : Option Lane4) : State :=
  match (s.core g).findCheck id with
  | none => s
  | some k =>
    if !k.ready || k.due < (s.die (dieOf g)).cycles then s
    else match bad with
      | some n => s.failCheck g k n
      | none =>
        let c := ((s.core g).dropCheck id).clearCheck id
        (s.setCore g (if k.eng = .matrix then c.settleEntry k.dlog else c)).clearOld g id

def ColEng.findCheck (x : ColEng) (id : Nat) : Option CollChk :=
  match x.run with
  | some c => c.checks.find? (fun k => k.id = id)
  | none => none

/-- A collective engine's verdict within its deadline. -/
def State.collVerdict (s : State) (e : EngineId) (id : Nat) (bad : Bool) : State :=
  match (s.eng e).findCheck id, (s.eng e).run with
  | some k, some c =>
    if k.due < s.wall then s
    else if bad then s.failColl e k
    else (s.setColl e { c with checks := c.checks.filter (fun x => x.id ≠ id) }).collStopped e
  | _, _ => s

/-- Count a late verdict (R400). -/
def State.countLate (s : State) (die : Nat) : State :=
  ({ s with int := { s.int with nLate := s.int.nLate + 1 } }).healthInc (dieHealth die + 0x7C) 4

/-- A check whose deadline has passed counts as failed; which unit it charges no checker said. (DESIGN CHOICE, log entry 33.) -/
def State.lateVerdict (s : State) (u : Checker) (id : Nat) : State :=
  match u with
  | .core g =>
    match (s.core g.toNat).findCheck id with
    | some k =>
      if k.ready && k.due < (s.die (dieOf g.toNat)).cycles then
        ({ s with freeCtr := s.freeCtr + 1 }.countLate (dieOf g.toNat).val).failCheck g.toNat k (Config.lateUnit s.freeCtr)
      else s
    | none => s
  | .coll e =>
    match (s.eng e).findCheck id with
    | some k => if k.due < s.wall then (s.countLate (8 + e.val)).failColl e k else s
    | none => s

/-! ## Arbitration (R410 to R417) -/

/-- Table 12-4. -/
def arbOutcome (rdiff pweq pres wres : Bool) : ArbOutcome :=
  if !rdiff && pweq && wres then .checker
  else if rdiff && pweq && pres && wres then .transient
  else if !rdiff && !pweq && !pres && wres then .persistent
  else .unresolved

def outcomeCode : ArbOutcome → Nat
  | .checker => 1 | .transient => 2 | .persistent => 3 | .unresolved => 4 | .interrupted => 5

/-- KIND and INDEX of a unit (Table 12-10), as one byte. -/
def unitByte : FaultUnit → Nat
  | .quadrant _ n => n % 4
  | .lanes _ n => 0x10 + n % 4
  | .adder e a => 0x20 + 4 * e + a
  | .checker _ => 0x30
  | .collChecker e => 0x30 + 1 + e

/-- The unit an outcome charges (R412). -/
def chargedUnit (o : ArbOutcome) (a : Arb) : FaultUnit :=
  match o with
  | .checker => match a.who with | .core g => .checker g.toNat | .coll e => .collChecker e.val
  | _ => a.unit

/-- Confirmed faults of an outcome (Table 12-5). -/
def outcomeCharge : ArbOutcome → Nat
  | .checker => 1 | .transient => 1 | .persistent => 2 | _ => 0

/-- Confirmed faults of a unit within so many seconds of powered-on time. -/
def State.faultsIn (s : State) (u : FaultUnit) (sec : Nat) : Nat :=
  (s.log.history.filter (fun x => x.1 = u && s.log.pot ≤ x.2 + sec)).length

/-- Confirmed faults enter the unit's history, through the journal (R415, R492). -/
def State.chargeUnit (s : State) (u : FaultUnit) (n : Nat) : State :=
  if n = 0 then s
  else { s with log := s.log.jwrite (.history (s.log.history ++ List.replicate n (u, s.log.pot))) }

/-- R416. -/
def State.permanent (s : State) (u : FaultUnit) : Bool := 3 ≤ s.faultsIn u 2592000 || 2 ≤ s.faultsIn u 86400

/-- Count an outcome (Table 12-7, Table 15-7). -/
def State.countOutcome (s : State) (o : ArbOutcome) (die : Nat) : State :=
  let i := s.int
  let n := match o with
    | .checker => { i with nChecker := i.nChecker + 1 }
    | .transient => { i with nTransient := i.nTransient + 1 }
    | .persistent => { i with nPersistent := i.nPersistent + 1 }
    | _ => { i with nUnresolved := i.nUnresolved + 1 }
  let off := match o with | .checker => 0x68 | .transient => 0x6C | .persistent => 0x70 | _ => 0x74
  { s with int := n }.healthInc (dieHealth die + off) 4

def arbDie (w : Checker) : Nat := match w with | .core g => (dieOf g.toNat).val | .coll e => 8 + e.val

/-- Fence what a permanent unit belongs to (R417, R418). -/
def State.fenceUnit (s : State) (u : FaultUnit) : State :=
  match u with
  | .quadrant g _ => s.fenceCore g 3 (unitByte u)
  | .lanes g _ => s.fenceCore g 3 (unitByte u)
  | .checker g => s.fenceCore g 3 (unitByte u)
  | .adder e a => s.fenceAdder e a 3 (unitByte u)
  | .collChecker e => (List.range 4).foldl (fun t a => t.fenceAdder e a 3 (unitByte u)) s

/-- What a permanent unit belongs to is not yet fenced. -/
def State.unfenced (s : State) (u : FaultUnit) : Bool :=
  match u with
  | .quadrant g _ => !s.int.fenced.contains g
  | .lanes g _ => !s.int.fenced.contains g
  | .checker g => !s.int.fenced.contains g
  | .adder e a => !s.int.adders.getLsbD (adderCode e a)
  | .collChecker e => (List.range 4).any (fun a => !s.int.adders.getLsbD (adderCode e a))

/-- The retained operands of a check are freed (R410). -/
def State.freeRetained (s : State) (a : Arb) : State :=
  match a.who with
  | .core g =>
    let c := s.core g.toNat
    s.setCore g.toNat { c with retained := c.retained.filter (fun r => r.chk ≠ a.chk) }
  | .coll e => s.setEng e { s.eng e with retained := (s.eng e).retained.filter (fun r => r.id ≠ a.chk) }

/-- The end of an arbitration: outcome, counters, history, INT_ARB_LAST, record, fence, release. -/
def State.arbEnd (s : State) (a : Arb) (o : ArbOutcome) (rdiff pweq pres wres : Bool) : State :=
  let die := arbDie a.who
  let u := chargedUnit o a
  let s1 := (s.countOutcome o die).freeRetained a
  let s2 := ({ s1 with int := { s1.int with arbs := s1.int.arbs.erase a } }).chargeUnit u (outcomeCharge o)
  let perm := 0 < outcomeCharge o && s2.permanent u
  let now := perm && s2.unfenced u
  let gcn := match a.who with | .core g => g.toNat | .coll _ => 0xFFF
  let v := gcn * 2 ^ 52 + a.witness.getD 0xFFF * 2 ^ 40 + unitByte u * 2 ^ 32 + outcomeCode o * 2 ^ 28 +
    ofBool rdiff * 2 ^ 27 + ofBool pweq * 2 ^ 26 + ofBool pres * 2 ^ 25 + ofBool wres * 2 ^ 24 +
    min 255 (s2.faultsIn u 2592000) * 2 ^ 16 + min 255 (s2.faultsIn u 86400) * 2 ^ 8 + ofBool now * 2 + 1
  let s3 := { s2 with int := { s2.int with arbLast := BitVec.ofNat 64 v } }
  let unit := match a.unit with | .adder e n => adderCode e n | _ => gcn % 512
  let s4 := s3.logRec ⟨0x0012, BitVec.ofNat 8 die, sERROR, BitVec.ofNat 16 unit, leBytes 8 v⟩
  let s5 := if perm then s4.fenceUnit u else s4
  match o, a.who with
  | .unresolved, .core g => a.witness.toList.foldl (fun t w => t.suspectCore w) (s5.suspectCore g.toNat)
  | .interrupted, .core g => a.witness.toList.foldl (fun t w => t.suspectCore w) (s5.suspectCore g.toNat)
  | _, _ => s5

/-- The arbitration of a checker's failures in progress: the earliest (R413). (DEDUCED, log entry 35.) -/
def State.arbOf (s : State) (u : Checker) : Option Arb := s.int.arbs.find? (fun a => a.who = u)

def State.setArb (s : State) (a b : Arb) : State :=
  { s with int := { s.int with arbs := s.int.arbs.map (fun x => if x = a then b else x) } }

/-- No kernel, patrol kernel or COPY runs on the core, and its pilot runs. -/
def State.coreAtRest (s : State) (g : Nat) : Bool :=
  (s.core g).op.isNone && !s.copying g && !(s.die (dieOf g)).pilotDown &&
    !s.int.patrols.any (fun x => x.lower = g || x.upper = g)

/-- Step 1: the check is computed again on the same unit. -/
def State.arbReplay (s : State) (u : Checker) (rdiff pres : Bool) : State :=
  match s.arbOf u with
  | none => s
  | some a =>
    let free := match u with | .core g => s.coreAtRest g.toNat | .coll _ => true
    if a.replay.isSome || !free then s else s.setArb a { a with replay := some (rdiff, pres) }

/-- Steps 2 to 4, once the witness is free; with no witness the outcome is UNRESOLVED. -/
def State.arbWitness (s : State) (u : Checker) (pweq wres : Bool) : State :=
  match s.arbOf u with
  | none => s
  | some a =>
    match a.replay with
    | none => s
    | some (rdiff, pres) =>
      match u, a.witness, a.unit with
      | .core g, some w, _ =>
        if s.coreAtRest w && s.coreAtRest g.toNat then s.arbEnd a (arbOutcome rdiff pweq pres wres) rdiff pweq pres wres else s
      | .coll e, _, .adder _ n =>
        if s.int.adders.getLsbD (adderCode (1 - e.val) n) then s.arbEnd a .unresolved rdiff false pres false
        else s.arbEnd a (arbOutcome rdiff pweq pres wres) rdiff pweq pres wres
      | _, _, _ => s.arbEnd a .unresolved rdiff false pres false

/-! ## A core's cancellation and report (R107 to R109, R405) -/

/-- Stop a cancelled core at an instruction boundary; an instruction that is held, and has had no effect, counts as not
begun. (DESIGN CHOICE, log entry 142.) -/
def State.stopCancelled (s : State) (g : Nat) : State :=
  let c := s.core g
  match c.cancel, c.seq.cond with
  | true, .idle => s
  | true, .stopping => s
  | true, _ => s.setCore g c.stop
  | false, _ => s

/-- Whether the core can report, and whether it reached END. (DEDUCED, log entry 118.) -/
def Core.canReport (c : Core) : Bool :=
  match c.seq.cond with
  | .ending => c.seq.allDrained && c.checks.isEmpty
  | .stopping => c.enginesStopped && c.checks.isEmpty
  | _ => false

/-- Cancel the cores of a kernel that have not reported (R271). -/
def State.cancelCores (s : State) (o : Op) : State :=
  o.waiting.foldl (fun t g => if (t.core g).op = some o.id then t.setCore g { t.core g with cancel := true } else t) s

/-- What a core reports (R107, R108). -/
def Core.toReport (c : Core) (g : Nat) : CoreReport where
  core := g
  ended := c.seq.cond = .ending
  fault := c.seq.faultWord
  issued := ⟨c.seq.mIssued.toNat, c.seq.vIssued.toNat, c.seq.fIssued.toNat⟩
  completed := ⟨c.seq.mec.toNat, c.seq.vec.toNat, c.seq.fec.toNat⟩
  discarded := c.discarded

/-- A core's fault decides, also over an expiry of the watchdog that the dispatcher took in the same MCLK cycle (R270). -/
def Op.fixFault (o : Op) (word now : Nat) : Op :=
  if o.cause = 2 && o.wdogAt = some now then { o with status := some .failed, cause := 1, info := BitVec.ofNat 32 word }
  else o.fix .failed 1 word

/-- The operation takes a core's report in MCLK cycle `now` (R108, R268, R270, R271). -/
def Op.report (o : Op) (g : Nat) (c : Core) (now : Nat) : Op :=
  let ended := c.seq.cond = .ending
  let left := setDel g o.waiting
  let o1 := { o with
    waiting := left
    nDone := if ended then o.nDone + 1 else o.nDone
    nFailed := if !ended && c.seq.fault.isSome then o.nFailed + 1 else o.nFailed
    nCancel := if !ended && c.seq.fault.isNone then o.nCancel + 1 else o.nCancel
    discarded := o.discarded + c.discarded.total
    reports := o.reports ++ [c.toReport g]
    deferred := o.deferred ++ c.seq.deferred
    fault := match o.fault, c.seq.fault with
      | none, some f => some (g, f.pc)
      | x, _ => x }
  let o2 := if c.seq.fault.isSome then o1.fixFault c.seq.faultWord.toNat now else o1
  if left.isEmpty then o2.fix .done 0 0 else o2

def State.coreReport (s : State) (g : Nat) : State :=
  let c := s.core g
  match c.op with
  | none => s
  | some id =>
    if !c.canReport then s
    else
      let c1 := { c.poisonMarked with seq := { c.seq with cond := .idle }, op := none, cancel := false }
      let s1 := (s.setCore g c1).updOp id (fun o => o.report g c s.mclk)
      match s1.opOf id with
      | some o => if c.seq.fault.isSome then s1.cancelCores o else s1
      | none => s1

/-! ## Rows -/

/-- CORE_CANCEL (R109). -/
def execCoreCancel (g : Gcn) (s : State) : Res := .next (s.stopCancelled g.toNat)

/-- CORE_REPORT (R107, R108, R405). -/
def execCoreReport (g : Gcn) (s : State) : Res := .next (s.coreReport g.toNat)

/-- VERDICT (R399, R401, R405, R407). -/
def execVerdict (u : Checker) (id : Nat) (bad : Option Lane4) (s : State) : Res :=
  match u with
  | .core g => .next (s.coreVerdict g.toNat id bad)
  | .coll e => .next (s.collVerdict e id bad.isSome)

/-- LATE_VERDICT (R400). -/
def execLateVerdict (u : Checker) (id : Nat) (s : State) : Res := .next (s.lateVerdict u id)

/-- ARBITRATION_REPLAY (R410 step 1, R413). -/
def execArbitrationReplay (u : Checker) (rdiff pres : Bool) (s : State) : Res := .next (s.arbReplay u rdiff pres)

/-- ARBITRATION_WITNESS (R410 steps 2 to 4, R411, R412, R415 to R418). -/
def execArbitrationWitness (u : Checker) (pweq wres : Bool) (s : State) : Res := .next (s.arbWitness u pweq wres)

end Sys2Proof.Machine
end

