-- ==== Sys2Proof/Machine/Hrw.lean ====
section
/-!
DEFINITION. Register writes through the Host Register Window: errors, gates and field checks (spec 11,
R386 to R389).
-/

namespace Sys2Proof.Machine

/-! ## HRW_ERR (Tables 11-9, 11-13) -/

def eRSVD : Nat := 1
def eRANGE : Nat := 2
def eNOREG : Nat := 3
def eBADSIZE : Nat := 4
def eUNSELECTED : Nat := 5
def eSELECTED : Nat := 6
def eIN_USE : Nat := 7
def eREADONLY : Nat := 8
def eFENCED : Nat := 9

/-- Record a failed access: the first holds, later ones set MULTI. (DEDUCED, log entry 81.) -/
def State.hrwErr (s : State) (off reason : Nat) : State :=
  if s.hrw.errValid then { s with hrw := { s.hrw with errMulti := true } }
  else { s with hrw := { s.hrw with
    errOff := BitVec.ofNat 32 off, errReason := BitVec.ofNat 8 reason, errValid := true } }

/-! ## Gates (R389, R470) -/

/-- The registers that answer before an interface version is selected. -/
def earlyReg (off : Nat) : Bool := off ≤ 0x10 || off = 0x18 || off = 0x1C

/-- The blocks that answer under recovery: HRW, SEC and LOG. -/
def recoveryReg (off : Nat) : Bool :=
  off < 0x10000 || (0x90000 ≤ off && off < 0xA0000) || (0x100000 ≤ off && off < 0x200000)

/-- The host link is out of the reset in which PERST# low holds it (R520). -/
def State.hostUp (s : State) : Bool := !s.pins.perstLow

/-- The Host Register Window answers the host. -/
def State.hrwOn (s : State) : Bool := s.hrw.alive && s.hostUp

/-- A register write that reaches its register: `rsv` are its reserved bits, `bad` the reason its range
check fails for, if it fails. -/
def State.regWrite (s : State) (off v rsv : Nat) (bad : Option Nat) (f : State → State) : State :=
  if !s.hrwOn then s
  else if !s.hrw.locked && !earlyReg off then s.hrwErr off eUNSELECTED
  else if s.sec.state = .recovery && !recoveryReg off then s.hrwErr off eNOREG
  else if v &&& rsv ≠ 0 then s.hrwErr off eRSVD
  else match bad with
    | some k => s.hrwErr off k
    | none => f s

/-- A range check as a reason. -/
def rangeIf (bad : Bool) : Option Nat := if bad then some eRANGE else none

end Sys2Proof.Machine
end

