-- ==== Sys2Proof/Machine/Kernels.lean ====
section
/-!
DEFINITION. The dispatcher's rows (spec 08): doorbells, reading, launching, waiting, cancelling, queue
control and ledgers.
-/

namespace Sys2Proof.Machine

/-! ## Doorbells (R250 to R253, R278, R389) -/

/-- A submit doorbell's SUBMIT. -/
def State.submit (s : State) (q : Nat) (v : Word32) : State :=
  let x := s.queue q
  let d := (v - BitVec.ofNat 32 x.accepted).toNat
  if d = 0 || 2 ^ 31 ≤ d then s
  else if !x.enabled || s.sch.ledger || min x.depth x.size < x.accepted + d - x.written then
    s.setQueue q { x with refused := true }
  else s.setQueue q { x with accepted := x.accepted + d }

/-- A completion doorbell's CONSUMED; one that has not passed the count held is ignored. (DEDUCED, log entry 64.) -/
def State.consume (s : State) (q : Nat) (v : Word32) : State :=
  let x := s.queue q
  let d := (v - BitVec.ofNat 32 x.consumed).toNat
  if 2 ^ 31 ≤ d then s else s.setQueue q { x with consumed := x.consumed + d }

def State.doorbell (s : State) (sub : Bool) (q : Nat) (v : Word32) : State :=
  if sub then s.submit q v else s.consume q v

/-- A doorbell write: discarded while no version is selected or no dispatcher runs; kept during an
activation. -/
def State.ring (s : State) (sub : Bool) (q : Nat) (v : Word32) : State :=
  if !s.schedOn || !s.hrw.locked || !s.hostUp then s
  else if s.sch.paused then { s with sch := { s.sch with kept := s.sch.kept ++ [(sub, q, v)] } }
  else s.doorbell sub q v

/-- Doorbells kept during an activation are acted on (R278). -/
def State.ringKept (s : State) : State :=
  s.sch.kept.foldl (fun t k => t.doorbell k.1 k.2.1 k.2.2) { s with sch := { s.sch with kept := [] } }

/-! ## Reading commands (R251, R375) -/

/-- The DMEM address of a command's ring slot. -/
def Queue.slot (x : Queue) (seq : Nat) : Nat := dmemReserved + x.cfg.offset * 64 + seq % x.size * 64

/-- The dispatcher may read the next command. -/
def State.canRead (s : State) (q : Nat) : Bool :=
  let x := s.queue q
  s.schedOn && x.read < x.accepted && x.read - x.consumed < x.size &&
    (x.enabled || s.sch.ledger || x.dead.any (fun d => d.1 = x.read))

/-- Read the next command and place it last among those not launched, or end it at once. -/
def State.readCmd (s : State) (q : Nat) : State :=
  let x := s.queue q
  let t := s.touchLine (x.slot x.read / 64)
  let c : QCmd := ⟨x.read, t.dispBytes x.read 1 (x.slot x.read) 64, []⟩
  let y := { x with read := x.read + 1, dead := x.dead.filter (fun d => d.1 ≠ x.read) }
  match x.dead.find? (fun d => d.1 = x.read) with
  | some d => (t.setQueue q y).endUnlaunchedCheck q c d.2.toNat 0
  | none =>
    if s.sch.ledger then (t.setQueue q y).endUnlaunchedCheck q c 7 s.sch.kind.toNat
    else (t.setQueue q { y with
      cmds := x.cmds ++ [c], firstAt := if x.cmds.isEmpty then s.wall else x.firstAt }).latch

/-- COMMAND_READ: in CXL mode a BISnpData goes first, and the line is read after its response. -/
def State.commandRead (s : State) (q : Nat) : State :=
  let x := s.queue q
  if !s.canRead q || s.linesHeld [x.slot x.read / 64] then s
  else if s.hrw.mode = 1 then
    if s.hrw.snoops.any (fun y => match y.2 with | .cmd p _ => p = q | _ => false) then s
    else s.snoop (x.slot x.read / 64) true (.cmd q x.read)
  else s.readCmd q

/-! ## Taking a turn (R255, R258 to R260) -/

/-- End a command at its turn with nothing done. -/
def State.endCmd (s : State) (q : Nat) (c : QCmd) (st : OpStatus) (cause info : Nat) (blk : List Byte)
    (set : List Nat) (settled : Bool) : State :=
  let o := (s.newOp q c .unlaunched blk).fix st cause info
  (s.addOp { o with set := set, settled := settled }).endOpCheck o.id q

/-- The command at the head of the chosen queue takes its turn. `ops` says which opcodes the row acts
on, `hold` whether it must wait; `f` launches a valid one. -/
def State.turn (s : State) (q : Nat) (ops : Nat → Bool) (hold : QCmd → List Byte → Bool)
    (f : State → QCmd → List Byte → State) : State :=
  if !s.launching || s.chosen ≠ some q then s
  else match (s.queue q).cmds with
    | [] => s
    | c :: _ =>
      if !ops c.opcode then s
      else match c.invalid with
        | some off => (s.takeHead q).endCmd q c .failed 3 off [] [] true
        | none =>
          let u := s.touchBlock c
          let t := u.takeHead q
          let blk := if c.hasBlock then u.block c else []
          match (if c.hasBlock then blockBad u.hrw.apSize c.opcode blk else none) with
          | some info => t.endCmd q c .failed 4 info [] [] true
          | none => if hold c blk then s else f t c blk

/-- A command that is complete when launched. -/
def State.doneNow (s : State) (q : Nat) (c : QCmd) : State :=
  let o := (s.newOp q c .unlaunched []).fix .done 0 0
  ((s.addOp { o with tLaunch := s.tt.now }).checkLedgers).endOpCheck o.id q

/-! ## LAUNCH (R67, R68, R261, R262, R422) -/

/-- The sequencer at kernel entry (Table 3-2). -/
def entrySeq (g rank count argOff : Nat) (seed : Word64) : Seq :=
  { Seq.reset with
    s := ((Seq.reset.s.set 1 (BitVec.ofNat 64 g)).set 2 (BitVec.ofNat 64 rank)).set 3 (BitVec.ofNat 64 count)
    a := Seq.reset.a.set 1 (BitVec.ofNat 40 argOff)
    seed := seed
    cond := .running }

/-- The drain log at kernel entry: no entry is valid (R145). (DEDUCED, log entry 68.) -/
def clearDlog (l : List (Nat × Dlog)) : List (Nat × Dlog) :=
  l.foldl (fun m x => smPut Dlog.reset m x.1 { x.2 with valid := false }) []

/-- The matrix engine at kernel entry: full mode, no tile, flags and histogram as they were. -/
def Mat.entered (m : Mat) : Mat :=
  { Mat.reset with
    rows := m.rows, rampLeft := m.rampLeft, rampDown := m.rampDown, idleCyc := m.idleCyc, frozenCyc := 0
    flags := m.flags, hist := m.hist, dlog := clearDlog m.dlog, protect := m.protect }

/-- The ferry engine at kernel entry (R218). -/
def Fer.entered (f : Fer) : Fer := { Fer.reset with flags := f.flags }

/-- A core at kernel entry. -/
def Core.entered (c : Core) (op g rank count argOff : Nat) (seed : Word64) (j3 : Bool) (code : List Byte) : Core :=
  { c with
    seq := entrySeq g rank count argOff seed
    imem := putBytes c.imem 0 code
    marks := []
    mat := c.mat.entered
    vec := { Vec.reset with busy := c.vec.busy, flags := c.vec.flags, hist := c.vec.hist }
    fer := c.fer.entered
    checks := []
    checkFailed := false
    op := some op
    cancel := false
    discarded := .zero
    j3 := j3 }

/-- Load the argument block into a core's scratchpad for an operation, a granule at a time, poison and all. -/
def State.loadArgs (s : State) (op g arg off len : Nat) : State :=
  (List.range (len / 64)).foldl (fun t i =>
    t.orderGran none (.dispatcher op) none (.lsp g) (off / 64 + i)
      (addressed (off + 64 * i) (t.dispBytes op g (arg + 64 * i) 64))
      (t.seenBad (readOfDispatcher op) g .dmem (arg / 64 + i)) []) s

/-- Start one core of a kernel. (DESIGN CHOICE, log entry 67.) -/
def State.startCore (s : State) (op : Nat) (b : List Byte) (set : List Nat) (g : Nat) : State :=
  let arg := fieldAt b 0x10 8
  let off := fieldAt b 0x18 4
  let t := s.loadArgs op g arg off (fieldAt b 0xC 4)
  let code := t.dispBytes op g (fieldAt b 0 8) (fieldAt b 8 4)
  t.setCore g ((t.core g).entered op g (set.filter (· < g)).length set.length off
    (BitVec.ofNat 64 (fieldAt b 0x20 8)) t.int.j3 code)

/-- The lowest fenced core a block names. -/
def State.lowestFenced (s : State) (b : List Byte) : Nat :=
  ((coreSet b).find? (fun g => s.int.fenced.contains g)).getD 0

/-- Launch a kernel. -/
def State.launchKernel (s : State) (q : Nat) (c : QCmd) (b : List Byte) : State :=
  let set := s.launchSet b
  if s.fencedLaunch b then s.endCmd q c .failed 5 (s.lowestFenced b) b set false
  else
    let o := { s.newOp q c .launch b with set := set, waiting := set, tLaunch := s.tt.now }
    let t := (s.addOp o).touchAll .dmem
      (granulesOf (fieldAt b 0 8) (fieldAt b 8 4) ++ granulesOf (fieldAt b 0x10 8) (fieldAt b 0xC 4))
    (set.foldl (fun u g => u.startCore o.id b set g) t).checkLedgers

/-! ## COPY (R257, R527) -/

/-- Start a COPY. -/
def State.launchCopy (s : State) (q g : Nat) (ch : Channel) (c : QCmd) (b : List Byte) : State :=
  let k := copyCmdOf b ch
  let o := { s.newOp q c .copy b with waiting := [g], tLaunch := s.tt.now }
  let u := s.addOp o
  let t := { u with sch := { u.sch with copies := u.sch.copies ++ [(g, q, c.seq)] } }
  (match ferCode k with
    | some code => t.copyReport o.id (some code) 0
    | none => t.startFer g k (some o.id)).checkLedgers

/-! ## COLLECTIVE (R308, R309, R321) -/

def engineNum (n : Nat) : EngineId := ⟨n % 2, Nat.mod_lt _ (by decide)⟩

def State.launchColl (s0 : State) (q : Nat) (c : QCmd) (b : List Byte) : State :=
  let s := s0.touchAll .dmem (s0.schedLines b)
  match s.collBad b, s.collPos b with
  | none, some pos =>
    let o := { s.newOp q c .collective b with waiting := [0], tLaunch := s.tt.now }
    ((s.addOp o).startColl (engineNum (s.collEngine (fieldAt b 6 1))) o.id b pos).checkLedgers
  | some (code, step), _ =>
    let e := engineNum (fieldAt b 6 1)
    (s.setEng e { s.eng e with lastCode := BitVec.ofNat 8 code }).endCmd q c .failed 9 (collInfo code step) b [] false
  | none, none => s.endCmd q c .failed 9 (collInfo cNOT_MEMBER noStep) b [] false

/-! ## Tickets and fences (R236, R264 to R267) -/

/-- TICKET_SIGNAL. -/
def State.launchSignal (s : State) (q : Nat) (c : QCmd) : State :=
  let o := { s.newOp q c .ticketSignal [] with tLaunch := s.tt.now }
  let t := ((s.addOp o).signal o.id c.sig).checkLedgers
  if t.signalsPending o.id then t
  else (t.updOp o.id (fun x => x.fix .done 0 0)).endOpCheck o.id q

/-- Every earlier command of the queue has completed: a MARKER is DONE, and a HOST_FENCE sends the read of R236. -/
def State.afterEarlier (s : State) (id : Nat) : State :=
  match s.opOf id with
  | none => s
  | some o =>
    if o.status.isSome || !o.waiting.isEmpty || !s.allEarlierDone o.q o.seq then s
    else match o.kind with
      | .marker => s.updOp id (fun x => x.fix .done 0 0)
      | .hostFence => (s.updOp id (fun x => { x with waiting := [0] })).emit (.hostRead s.hrw.apBase 0)
      | _ => s

/-- MARKER and HOST_FENCE at their turns: each goes on at once when no earlier command of its queue lacks its
record, and at END_OPERATION later otherwise. (DEDUCED, log entry 122.) -/
def State.launchAfter (s : State) (kind : OpKind) (q : Nat) (c : QCmd) : State :=
  let o := { s.newOp q c kind [] with tLaunch := s.tt.now }
  let t := ((s.addOp o).afterEarlier o.id).checkLedgers
  if kind = .marker && s.allEarlierDone q c.seq then t.endOpCheck o.id q else t

/-- A queue's first unlaunched command, a TICKET_WAIT, has waited its TIMEOUT (R267). (DEDUCED, log entry 65.) -/
def State.waitTimeout (s : State) (q : Nat) : State :=
  let x := s.queue q
  match x.cmds with
  | [] => s
  | c :: _ =>
    let us := fieldAt c.bytes 16 4
    let tk := fieldAt c.bytes 8 2
    if s.launching && x.enabled && !x.halted && c.opcode = 4 && c.invalid.isNone && us ≠ 0 && !s.waitsMet c &&
        x.firstAt + us * 1000 ≤ s.wall then
      let t := s.takeHead q
      (t.setQueue q { t.queue q with halted := true }).endCmd q c .failed 8 (s.ticket tk).toNat [] [] false
    else s

/-- Stop an operation's cores or collective engine. -/
def State.stopOp (s : State) (o : Op) : State :=
  let t := s.cancelCores o
  [(0 : EngineId), 1].foldl (fun u e => if (u.eng e).run.any (·.op = o.id) then u.collHalt e else u) t

/-- An operation's watchdog has expired (R271). -/
def State.watchdog (s : State) (id : Nat) : State :=
  match s.opOf id with
  | none => s
  | some o =>
    let timed := o.kind = .launch || o.kind = .copy || o.kind = .collective
    if s.schedOn && timed && o.status.isNone && o.tLaunch + o.wdog * 1000 ≤ s.tt.now then
      (s.updOp id (fun x => { x.fix .failed 2 o.wdog with wdogAt := some s.mclk })).stopOp o
    else s

/-! ## Cancellation (R274, R275) -/

def State.cancelResult (s : State) (count result : Nat) : State :=
  { s with sch := { s.sch with canCount := BitVec.ofNat 16 (min count 0xFFFF), canResult := BitVec.ofNat 2 result } }

/-- Cancel a command that has been read and not launched. -/
def State.cancelRead (s : State) (q : Nat) (c : QCmd) : State :=
  let x := s.queue q
  let first := x.cmds.head? = some c
  ((s.setQueue q { x with
    cmds := x.cmds.filter (fun y => y.seq ≠ c.seq), firstAt := if first then s.wall else x.firstAt }).latch).endUnlaunchedCheck q c 6 0

/-- Cancel a running operation. -/
def State.cancelOp (s : State) (o : Op) : State :=
  (s.updOp o.id (fun x => x.fix .cancelled 6 0)).stopOp o

/-- Mark an accepted command that has not been read: it is ended when it is. -/
def State.cancelUnread (s : State) (q n : Nat) : State :=
  let x := s.queue q
  s.setQueue q { x with dead := x.dead ++ [(n, (6 : Byte))] }

/-- Accepted commands not yet read, and not yet marked. -/
def Queue.unread (x : Queue) : List Nat :=
  ((List.range (x.accepted - x.read)).map (x.read + ·)).filter (fun n => !x.dead.any (fun d => d.1 = n))

/-- Cancel one command, named by the low 32 bits of its SEQ. -/
def State.cancelOne (s : State) (q seq : Nat) : State :=
  let x := s.queue q
  let is (n : Nat) : Bool := n % 2 ^ 32 = seq
  match x.cmds.find? (fun c => is c.seq), s.sch.ops.find? (fun o => o.q = q && is o.seq), x.unread.find? is with
  | some c, _, _ => (s.cancelRead q c).cancelResult 1 1
  | none, some o, _ =>
    if o.status.isSome then s.cancelResult 0 2 else (s.cancelOp o).cancelResult 1 1
  | none, none, some n => (s.cancelUnread q n).cancelResult 1 1
  | none, none, none =>
    s.cancelResult 0 (if seq < x.accepted || 2 ^ 32 ≤ x.accepted then 2 else 3)

/-- Cancel the commands of a queue that have been read and not launched, and count them: one that the ledger halt at an
earlier one's end has ended is not among them any more (R273, R279). -/
def cancelReads (q : Nat) : List QCmd → State → State × Nat
  | [], s => (s, 0)
  | c :: rest, s =>
    if (s.queue q).cmds.any (fun y => y.seq = c.seq) then
      let r := cancelReads q rest (s.cancelRead q c)
      (r.1, r.2 + 1)
    else cancelReads q rest s

/-- Commands of a queue whose status is fixed and whose records are not written. -/
def State.anyFixed (s : State) (q : Nat) : Bool :=
  s.sch.ops.any (fun o => o.q = q && o.status.isSome) || s.hrw.snoops.any (fun y => y.2.recordOf q) ||
    !(s.queue q).dead.isEmpty

/-- Cancel every outstanding command of a queue. -/
def State.cancelQueue (s : State) (q : Nat) : State :=
  let x := s.queue q
  let live := s.sch.ops.filter (fun o => o.q = q && o.status.isNone)
  let s1 := x.unread.foldl (fun t k => t.cancelUnread q k) s
  let r := cancelReads q x.cmds s1
  let n := r.2 + live.length + x.unread.length
  (live.foldl (fun t o => t.cancelOp o) r.1).cancelResult n (if 0 < n then 1 else if s.anyFixed q then 2 else 3)

/-- A write of SCH_CANCEL (Table 8-19). -/
def State.writeCancel (s : State) (v : Word64) : State :=
  s.regWrite 0x10010 v.toNat 0xFFFFFEC0 none (fun t =>
    if v.getLsbD 8 then t.cancelQueue (v.toNat % 64) else t.cancelOne (v.toNat % 64) (v.toNat / 2 ^ 32))

/-! ## Queue control (R254, R283, Table 8-15) -/

def Queue.outstanding (x : Queue) : Nat := x.accepted - x.written

/-- Apply a queue's pending configuration; the gangway reports it (R254, R394). -/
def State.applyQueue (s : State) (q : Nat) : State :=
  let x := s.queue q
  match x.pend with
  | none => s
  | some c =>
    let t := s.setQueue q { x with cfg := c, pend := none }
    if t.hrw.gGroup.toNat = 0x40 + q && t.hrw.gResult = 1 then { t with hrw := { t.hrw with gResult := 2 } } else t

/-- ENABLE goes from 0 to 1. -/
def State.enableQueue (s : State) (q : Nat) : State :=
  let x := s.queue q
  if x.outstanding ≠ 0 then s.setQueue q { x with enabled := true }
  else
    let t := s.applyQueue q
    t.setQueue q { t.queue q with
      enabled := true, accepted := 0, read := 0, written := 0, consumed := 0, count := 0, beyond := [], dead := [] }

/-- ENABLE goes from 1 to 0. -/
def State.disableQueue (s : State) (q : Nat) : State :=
  let x := s.queue q
  let t := s.setQueue q { x with enabled := false }
  if x.outstanding = 0 then t.applyQueue q else t

/-- A write of SCH_Qn_CTRL. -/
def State.writeQCtrl (s : State) (q : Nat) (v : Word32) : State :=
  s.regWrite (0x11010 + 0x40 * q) v.toNat 0xFFFCC800 none (fun t =>
    let x := t.queue q
    let y := { x with
      prio := BitVec.ofNat 2 (bitsOf v.toNat 12 2), vector := BitVec.ofNat 11 v.toNat
      halted := x.halted && !v.getLsbD 17 }
    let u := t.setQueue q y
    if v.getLsbD 16 && !x.enabled then u.enableQueue q
    else if !v.getLsbD 16 && x.enabled then u.disableQueue q
    else u)

/-! ## Ledger reports (R276, R331, R443) -/

/-- The link ledger G = H + B + T + K, class by class. -/
def Link.balanced (l : Link) (held : List Nat) : Bool :=
  (List.range 5).all (fun c =>
    l.granted.getD c 0 = held.getD c 0 + l.buffer.getD c 0 + l.ret.getD c 0 + l.park.getD c 0)

/-- The ledger of a link whose other end reports what it holds. -/
def Link.ledger (l : Link) (held : List Nat) : LinkLedger := ⟨l.granted, held, l.buffer, l.ret, l.park⟩

/-- The terms of a link's ledger, G, H, B, T and K of the first class that is out of balance. -/
def Link.terms (l : Link) (held : List Nat) : List Byte :=
  let bad (c : Nat) : Bool := l.granted.getD c 0 ≠ held.getD c 0 + l.buffer.getD c 0 + l.ret.getD c 0 + l.park.getD c 0
  match (List.range 5).find? bad with
  | some c => [BitVec.ofNat 8 c] ++ [l.granted, held, l.buffer, l.ret, l.park].flatMap (fun x => leBytes 2 (x.getD c 0))
  | none => []

/-- A link's ledger, as checked (R277). -/
def State.noteLink (s : State) (p : Port) (l : LinkId) (x : LinkLedger) : State :=
  let k := 2 * (portNum p).val + (match l with | .a => 0 | .b => 1)
  { s with sch := { s.sch with checked := { s.sch.checked with links := smPut .none_ s.sch.checked.links k x } } }

/-- A pilot's part of the power ledger, as checked. -/
def State.noteHolding (s : State) (d holding : Nat) : State :=
  { s with sch := { s.sch with checked := { s.sch.checked with holding := smPut 0 s.sch.checked.holding d holding } } }

/-- The lockkeeper's part. -/
def State.noteParts (s : State) (parts : List Nat) : State :=
  { s with sch := { s.sch with checked := { s.sch.checked with parts := parts } } }

def State.takeReport (s : State) : LedgerReport → State
  | .link p l held =>
    let k := s.link p l
    let s := s.noteLink p l (k.ledger held)
    if k.balanced held then s
    else s.ledgerFault 4 ([BitVec.ofNat 8 (portNum p).val, match l with | .a => 0 | .b => 1] ++ k.terms held)
  | .pilot d holding =>
    let s := s.noteHolding d.val holding
    if holding = (s.die d).hold then s
    else s.ledgerFault 8 ([BitVec.ofNat 8 d.val] ++ leBytes 2 holding ++ leBytes 2 (s.die d).hold)
  | .lockkeeper pool reserve transit =>
    let s := s.noteParts [pool, reserve, transit]
    let h := s.pwr.dies.toList.foldl (fun n d => n + d.hold) 0
    if pool + reserve + transit + h = 4600 then s
    else s.ledgerFault 8 (leBytes 2 pool ++ leBytes 2 reserve ++ leBytes 2 transit ++ leBytes 2 h)

/-! ## Rows -/

/-- SUBMIT_DOORBELL (R250, R253). -/
def execSubmitDoorbell (q : QueueId) (v : Word32) (s : State) : Res := .next (s.ring true q.toNat v)

/-- COMPLETION_DOORBELL (R252). -/
def execCompletionDoorbell (q : QueueId) (v : Word32) (s : State) : Res := .next (s.ring false q.toNat v)

/-- COMMAND_READ (R251, R375). -/
def execCommandRead (q : QueueId) (s : State) : Res := .next (s.commandRead q.toNat)

/-- LAUNCH (R260 to R262); a command with a reserved opcode ends here too (R255). (DEDUCED, log entry 63.) -/
def execLaunch (q : QueueId) (s : State) : Res :=
  .next (s.turn q.toNat (fun k => k ≤ 1 || 7 < k)
    (fun _ b => s.linesHeld (granulesOf (fieldAt b 0 8) (fieldAt b 8 4) ++ granulesOf (fieldAt b 0x10 8) (fieldAt b 0xC 4)))
    (fun t c b => t.launchKernel q.toNat c b))

/-- COPY on a channel of a core that the dispatcher chooses (R257, R380). -/
def execCopyCmd (q : QueueId) (g : Gcn) (ch : Channel) (s : State) : Res :=
  .next (s.turn q.toNat (· = 2)
    (fun _ b => !s.canCopy g.toNat (copyCmdOf b ch) ||
      s.copyApHeld b)
    (fun t c b => t.launchCopy q.toNat g.toNat ch c b))

/-- COLLECTIVE (R308, R309). -/
def execCollective (q : QueueId) (s : State) : Res :=
  .next (s.turn q.toNat (· = 3) (fun _ b => s.linesHeld (s.schedLines b)) (fun t c b => t.launchColl q.toNat c b))

/-- TICKET_WAIT (R264). -/
def execTicketWait (q : QueueId) (s : State) : Res :=
  .next (s.turn q.toNat (· = 4) (fun _ _ => false) (fun t c _ => t.doneNow q.toNat c))

/-- TICKET_SIGNAL (R265, R266). -/
def execTicketSignal (q : QueueId) (s : State) : Res :=
  .next (s.turn q.toNat (· = 5) (fun _ _ => false) (fun t c _ => t.launchSignal q.toNat c))

/-- MARKER (R255). -/
def execMarker (q : QueueId) (s : State) : Res :=
  .next (s.turn q.toNat (· = 6) (fun _ _ => false) (fun t c _ => t.launchAfter .marker q.toNat c))

/-- HOST_FENCE (R236). -/
def execHostFence (q : QueueId) (s : State) : Res :=
  .next (s.turn q.toNat (· = 7) (fun _ _ => false) (fun t c _ => t.launchAfter .hostFence q.toNat c))

/-- TICKET_WAIT_TIMEOUT (R267). -/
def execTicketWaitTimeout (q : QueueId) (s : State) : Res := .next (s.waitTimeout q.toNat)

/-- WATCHDOG_EXPIRY (R271). -/
def execWatchdogExpiry (op : Nat) (s : State) : Res := .next (s.watchdog op)

/-- END_OPERATION (R272): of a MARKER or HOST_FENCE whose turn came earlier, what its wait was for. -/
def execEndOperation (op : Nat) (s : State) : Res :=
  match s.opOf op with
  | some o => .next ((s.afterEarlier op).endOpCheck op o.q)
  | none => .next s

/-- TICKET_MESSAGE_RESEND (R266). -/
def execTicketMessageResend (m : Nat) (s : State) : Res :=
  match s.sch.xsigs.find? (fun x => x.m.toNat = m) with
  | some x => .next (s.sendTicket x)
  | none => .next s

/-- Withdraw an increment that was sent (R266, R337). (DEDUCED, log entry 43.) -/
def State.withdrawSent (s : State) (x : XSig) : State :=
  let t := ({ s with sch := { s.sch with xsigs := s.sch.xsigs.erase x } }).logWithdrawn x.dst x.m x.ticket x.value
  match t.opOf x.op with
  | none => t
  | some o =>
    let u := t.updOp o.id (fun y => { y with sigGone := y.sigGone + 1 })
    (if o.kind = .ticketSignal then u.updOp o.id (fun y => y.fix .failed 0x0B (fieldAt o.bytes 10 2)) else u).endOpCheck o.id o.q

/-- SIGNAL_WITHDRAW: no acknowledgement by the expiry plus twice LNK_TXN_TIMEOUT (R337). -/
def execSignalWithdraw (m : Nat) (s : State) : Res :=
  match s.sch.xsigs.find? (fun x => x.m.toNat = m) with
  | some x => if x.expiry + 2 * s.lnk.txnUs * 1000 ≤ s.tt.now then .next (s.withdrawSent x) else .next s
  | none => .next s

/-- CANCEL (R274, R275). -/
def execCancel (v : Word64) (s : State) : Res := .next (s.writeCancel v)

/-- CANCEL_ALL (R274, R275). -/
def execCancelAll (v : Word64) (s : State) : Res := .next (s.writeCancel v)

/-- QUEUE_ENABLE (R283). -/
def execQueueEnable (q : QueueId) (v : Word32) (s : State) : Res := .next (s.writeQCtrl q.toNat v)

/-- QUEUE_DISABLE (R254). -/
def execQueueDisable (q : QueueId) (v : Word32) (s : State) : Res := .next (s.writeQCtrl q.toNat v)

/-- QUEUE_RESUME (R267). -/
def execQueueResume (q : QueueId) (v : Word32) (s : State) : Res := .next (s.writeQCtrl q.toNat v)

/-- LEDGER_REPORT (R276). -/
def execLedgerReport (r : LedgerReport) (s : State) : Res := .next (s.takeReport r)

end Sys2Proof.Machine
end

