-- ==== Sys2Proof/Machine/Timetable.lean ====
section
/-!
DEFINITION. The timetable unit (spec 09, R284 to R292; spec 16, R516) and the sailing and collective rows.
-/

namespace Sys2Proof.Machine

/-! ## Neighbours (R15) -/

/-- The coordinate of the neighbour on a port, by the torus dimensions of the record in use. -/
def State.neighbour (s : State) (p : Port) : Coord :=
  let (x, y, z) := s.dims
  let o := s.own
  match p with
  | .xp => mkCoord ((cx o + 1) % x) (cy o) (cz o)
  | .xn => mkCoord ((cx o + x - 1) % x) (cy o) (cz o)
  | .yp => mkCoord (cx o) ((cy o + 1) % y) (cz o)
  | .yn => mkCoord (cx o) ((cy o + y - 1) % y) (cz o)
  | .zp => mkCoord (cx o) (cy o) ((cz o + 1) % z)
  | .zn => mkCoord (cx o) (cy o) ((cz o + z - 1) % z)

/-- The neighbour's port at the other end of a port's links (R15). -/
def facing : Port → Port
  | .xp => .xn | .xn => .xp | .yp => .yn | .yn => .yp | .zp => .zn | .zn => .zp

/-! ## Masters, offers and parents (R285, R286, R289) -/

/-- The device is the time master: coordinate (0, 0, 0), by valid straps and a record. (DEDUCED, log entry 48.) -/
def State.isMaster (s : State) : Bool := s.lnk.strapsOk && s.lnk.irec.isSome && s.own = 0

/-- The master runs under BOARD. -/
def State.boardMaster (s : State) : Bool := s.isMaster && s.lnk.irec.any (·.board)

/-- The port order of R289. -/
def parentOrder : List Port := [.xn, .xp, .yn, .yp, .zn, .zp]

def State.offerOf (s : State) (p : Port) : Option Offer :=
  (s.tt.offers.find? (fun x => x.1 = (portNum p).val)).map Prod.snd

/-- The depth a neighbour on a port offers tide time at, if it does. -/
def State.offeredDepth (s : State) (p : Port) : Option Nat :=
  if (s.port p).up then (s.offerOf p).bind (fun o => if o.offers then some o.depth else none) else none

/-- The smallest depth offered, the first port in order among equals. -/
def bestOffer (s : State) : Option (Port × Nat) :=
  parentOrder.foldl (fun b p => match s.offeredDepth p, b with
    | none, _ => b
    | some d, none => some (p, d)
    | some d, some (_, e) => if d < e then some (p, d) else b) none

def State.setTT (s : State) (t : TT) : State := { s with tt := t }

/-- The ends of some link disagree on slack settings (R300). -/
def State.slackClash (s : State) : Bool :=
  allPorts.any (fun p => (s.port p).up && (s.offerOf p).any (fun o => o.slack ≠ s.tt.slack))

/-- Choose the parent again (R289, R292). A master that has left ACQUIRE follows none (R287). -/
def State.reparent (s : State) : State :=
  let t := { s.tt with slackMM := s.slackClash }
  if s.isMaster && t.state ≠ .acquire then s.setTT { t with parent := none, depth := 0 }
  else match bestOffer s with
    | some (p, d) =>
      let st := if t.state = .holdover || t.state = .unlocked then .locked else t.state
      s.setTT { t with
        parent := some p, depth := d + 1, state := st
        since := if st = t.state then t.since else s.wall }
    | none =>
      if t.state = .locked then s.setTT { t with parent := none, state := .holdover, since := s.wall }
      else s.setTT { t with parent := none }

/-- A port has gained or lost its last link: what its neighbour offered and its delay go with it. -/
def State.portChanged (s : State) (p : Port) : State :=
  if (s.port p).up then s.reparent
  else (s.setTT { s.tt with
    offers := s.tt.offers.filter (fun x => x.1 ≠ (portNum p).val)
    linkDly := s.tt.linkDly.set (portNum p) 0
    sentAt := s.tt.sentAt.set (portNum p) none }).reparent

/-! ## Originating and locking (R286 to R288, R292) -/

/-- A master originates: it enters LOCKED at once. Where it took a neighbour's tide time and then lost it, it goes on
from the count it has, which never decreases (R284). (DESIGN CHOICE, log entry 136.) -/
def State.originate (s : State) (now src : Nat) : State :=
  s.setTT { s.tt with
    now := if s.tt.runs then s.tt.now else now
    frac := if s.tt.runs then s.tt.frac else 0
    ppb := 0, left := 0, leftAt := s.wall, runs := true, state := .locked, since := s.wall
    depth := 0, parent := none, src := BitVec.ofNat 2 src }

/-- No neighbour offers tide time, nor can one yet turn out to: no link is training, and every neighbour
reached has said that it offers none. -/
def State.noneOffers (s : State) : Bool :=
  allPorts.all (fun p => (s.port p).la.state ≠ .training && (s.port p).lb.state ≠ .training &&
    (!(s.port p).up || (s.offerOf p).any (fun o => o.heard && !o.offers)))

/-- A master under LINK_REF in ACQUIRE with no neighbour offering tide time originates at 0. -/
def State.tryOriginate (s : State) : State :=
  if s.isMaster && !s.boardMaster && s.tt.state = .acquire && s.noneOffers then s.originate 0 1 else s

/-- Lock achieved: a master then originates, a follower follows its parent. -/
def State.lock (s : State) : State :=
  if s.isMaster then
    s.setTT { s.tt with
      state := .locked, since := s.wall, depth := 0, parent := none, src := if s.boardMaster then 2 else 1
      ppb := 0, left := 0, leftAt := s.wall }
  else s.setTT { s.tt with state := .locked, since := s.wall }

/-! ## Steering (R287, R290) -/

/-- A rate within a bound, in parts in 10^9. -/
def clampRate (bound : Nat) (r : Int) : Int := max (-(bound : Int)) (min (bound : Int) r)

/-- What takes an offset in sixteenths of a ns away in 62.5 µs, as a rate against it: of a magnitude that leaves at most
0.25 ns of it, which the spec leaves open. (DEDUCED, log entry 49.) -/
def steerRate (draw : Nat) (ofs : Int) : Int :=
  let lo := (ofs.natAbs - 4) * 1000
  let m := lo + Config.steer draw % (ofs.natAbs * 1000 - lo + 1)
  if 0 < ofs then -(m : Int) else (m : Int)

/-- The parent's rate as two messages show it: this device's own, less the growth of the offset between them. -/
def State.parentRate (s : State) (p : Port) (ofs : Int) : Int :=
  match s.tt.lastOfs with
  | some (q, w, o) =>
    if q = p && w < s.wall then clampRate 50000 (s.tt.ppb - (ofs - o) * 62500000 / ((s.wall - w : Nat) : Int)) else 0
  | none => 0

/-- A follower steers by an offset in sixteenths of a ns: at its parent's rate and against the offset, by at most 50 ppm
(R290, R291). (DEDUCED, log entry 49.) -/
def State.follow (s : State) (p : Port) (ofs : Int) : State :=
  { s with
    tt := { s.tt with
      ppb := clampRate 50000 (s.parentRate p ofs + steerRate s.freeCtr ofs), lastOfs := some (p, s.wall, ofs) }
    freeCtr := s.freeCtr + 1 }

/-- By how many parts in 10^9 a master's rate changes from one exchange to the next: over the 40 exchanges in which the
farthest follower comes to know of it, it gains 1 ns (R291). (DESIGN CHOICE, log entry 50.) -/
def slewStep : Nat := 20

/-- A speed at which a master may run against an offset in 10^9ths of a ns: within the bound, and one from which it comes
to rest, a step at each 62.5 µs, before the offset is gone. -/
def slewFits (bound left : Nat) (v : Int) : Bool := v ≤ bound && v * v * 62500 ≤ 2 * slewStep * left

/-- The next speed against an offset: a step faster where it can still come to rest in time, else as it is or a step
slower. -/
def slewSpeed (bound left : Nat) (v : Int) : Int :=
  if v < 0 then min 0 (v + slewStep)
  else if slewFits bound left (v + slewStep) then v + slewStep
  else if slewFits bound left v then v
  else max 0 (v - slewStep)

/-- A master's next rate, from its present one and the offset still to be lost. -/
def slewRate (bound : Nat) (left ppb : Int) : Int :=
  if 0 < left then -(slewSpeed bound left.natAbs (-ppb)) else slewSpeed bound left.natAbs ppb

/-- The offset to lose as it is now. -/
def State.offsetLeft (s : State) : Int := s.tt.left + s.tt.ppb * ((s.wall - s.tt.leftAt : Nat) : Int)

/-- The bound of a master's rate: 25 ppm, or 50 while it comes back from lost edges (R287, R516). -/
def State.slewBound (s : State) : Nat := if s.tt.refLost then 50000 else 25000

/-- At each exchange a master under BOARD changes its rate by a step, so that the offset it found at the last TT_SYNC edge
goes and none comes back (R285, R287), and its followers keep to it (R291). While the edges are lost its rate stands
(R516). (DESIGN CHOICE, log entry 50.) -/
def State.slew (s : State) : State :=
  if s.boardMaster && s.tt.state ≠ .acquire && s.pins.ttRef then
    s.setTT { s.tt with
      ppb := slewRate s.slewBound s.offsetLeft s.tt.ppb, left := s.offsetLeft, leftAt := s.wall }
  else s

/-! ## Messages (R290, R300) -/

/-- Tide time in sixteenths of a ns. -/
def TT.sixteenths (t : TT) : Nat := t.now * 16 + t.frac / 62500000

/-- The device offers tide time. -/
def State.offersTime (s : State) : Bool := s.tt.state = .locked || s.tt.state = .holdover

/-- The timetable message to a neighbour. Its layout is the model's. -/
def State.timeTxn (s : State) (p : Port) : Txn :=
  { poison := false, psub := false, src := s.own, dst := s.neighbour p, count := 0
    tag := BitVec.ofNat 32 (ofBool s.offersTime * 64 + min s.tt.depth 63)
    addr := BitVec.ofNat 64 s.tt.sixteenths
    aux := BitVec.ofNat 64 (s.tt.slack.period + s.tt.slack.offset * 2 ^ 20 + s.tt.slack.len * 2 ^ 40)
    num := 0, link := .a, cover := [], data := [] }

/-- Every 62.5 µs messages go to every neighbour reached, the parent among them, and a master's rate takes a step. -/
def State.exchange (s : State) : State :=
  let t := s.tryOriginate
  if t.tt.lastExch.any (fun w => t.wall < w + 62500) then t
  else
    let reached := allPorts.filter (fun p => (t.port p).up)
    let t1 := reached.foldl (fun u p => u.post p 0x0C (u.timeTxn p) none) t.slew
    (t1.setTT { t1.tt with
      lastExch := some t1.wall
      sentAt := reached.foldl (fun v p => v.set (portNum p) (some t1.wall)) t1.tt.sentAt
      sent := if t1.tt.parent.any reached.contains then t1.tt.sent + 1 else t1.tt.sent }).pump

/-- The one-way delay of a port in sixteenths of a ns: half the round trip of the last message, less the time its
answer waited, corrected by the lane-skew asymmetry; as last measured where no message has been sent (R290). -/
def State.oneWay (s : State) (p : Port) (turn : Nat) : Nat :=
  match s.tt.sentAt[portNum p] with
  | some w => ((((s.wall - w) * 16 - turn) / 2 : Nat) + s.tt.skew[portNum p] : Int).toNat
  | none => (s.tt.linkDly[portNum p]).toNat

/-- Offset of this device's tide time from a message's, in sixteenths of a ns. -/
def offsetOf (t : TT) (m : TimeMsg) (delay : Nat) : Int := (t.sixteenths : Nat) - (m.now + delay : Nat)

/-- What a message from the parent on a port does. (DEDUCED, log entry 49.) -/
def State.fromParent (s : State) (p : Port) (m : TimeMsg) (delay : Nat) : State :=
  if s.tt.state = .acquire && !s.tt.runs then
    s.setTT { s.tt with
      now := (m.now + delay) / 16, frac := (m.now + delay) % 16 * 62500000, ppb := 0, runs := true, lastOfs := none }
  else
    let ofs := offsetOf s.tt m delay
    let s1 := s.setTT { s.tt with offset := BitVec.ofInt 32 ofs }
    if s.tt.state = .acquire && decide (ofs.natAbs ≤ 16) then (s1.follow p ofs).lock else s1.follow p ofs

/-- A message of a neighbour on a port. -/
def State.timeMessage (s : State) (p : Port) (m : TimeMsg) : State :=
  let n := (portNum p).val
  let delay := s.oneWay p m.turn
  let s1 := (s.setTT { s.tt with
    offers := s.tt.offers.filter (fun x => x.1 ≠ n) ++ [(n, ⟨true, m.offers, m.depth, m.slack⟩)]
    linkDly := s.tt.linkDly.set (portNum p) (BitVec.ofNat 32 delay) }).reparent
  if s1.tt.parent = some p then s1.fromParent p m delay else s1.tryOriginate

/-! ## TT_SYNC (R285 to R288, R516) -/

/-- The offset of tide time from the nearest multiple of 10^9 ns. (DESIGN CHOICE, log entry 50.) -/
def secondOffset (now : Nat) : Int :=
  let r := now % 1000000000
  if r ≤ 500000000 then (r : Int) else (r : Int) - 1000000000

/-- A rising edge of TT_SYNC: a master that runs notes the offset it finds. -/
def State.syncEdge (s : State) : State :=
  let s0 := { s with pins := { s.pins with ttRef := true } }
  if !s.boardMaster then s0
  else
    let s1 := s0.setTT { s0.tt with lastSync := some s.wall }
    if s1.tt.state = .acquire then
      if s1.noneOffers then
        { s1.originate (Config.syncSecond s1.freeCtr * 1000000000) 2 with freeCtr := s1.freeCtr + 1 }
      else s1
    else
      let ofs := secondOffset s1.tt.now
      let near := decide (ofs.natAbs ≤ 2)
      s1.setTT { s1.tt with
        src := 2, refLost := s1.tt.refLost && !near
        left := ofs * 1000000000 + s1.tt.frac, leftAt := s.wall }

/-- TT_REF edges, or TT_SYNC edges, have gone missing. -/
def State.refLoss (s : State) : State :=
  let s0 := { s with pins := { s.pins with ttRef := false } }
  if s.boardMaster && s.tt.runs then s0.setTT { s0.tt with refLost := true } else s0

def State.boardTimeout (s : State) : State :=
  if s.boardMaster && s.tt.state = .acquire && (bestOffer s).isNone && s.tt.lastSync.all (· < s.tt.since) &&
      s.tt.since + 2000000000 ≤ s.wall then
    (s.originate 0 1).logRec ⟨Config.boardEventType, 9, sNOTICE, 0, []⟩
  else s

def State.holdoverTimeout (s : State) : State :=
  if s.tt.state = .holdover && s.tt.since + 10000000 ≤ s.wall then
    s.setTT { s.tt with state := .unlocked, since := s.wall }
  else s

/-! ## Rows -/

/-- TIMETABLE_EXCHANGE (R290). -/
def execTimetableExchange (s : State) : Res := .next s.exchange

/-- HOLDOVER_TIMEOUT (R292). (DESIGN CHOICE, log entry 52.) -/
def execHoldoverTimeout (s : State) : Res := .next s.holdoverTimeout

/-- BOARD_SOURCE_TIMEOUT (R288). -/
def execBoardSourceTimeout (s : State) : Res := .next s.boardTimeout

/-- TT_SYNC_EDGE (R285 to R288, R516). -/
def execTtSyncEdge (s : State) : Res := .next s.syncEdge

/-- TT_REF_LOSS (R516). -/
def execTtRefLoss (s : State) : Res := .next s.refLoss

/-- SEND steps of a collective that have run out of sailings (R298). -/
def State.exhaustSends (s : State) (e : EngineId) : State :=
  match s.coll e with
  | none => s
  | some c =>
    match c.steps.zipIdx.find? (fun x => !x.1.recv && c.exhausted s.tt.now x.2 x.1) with
    | some x => s.exhaust e x.2
    | none => s

/-- SAILING_DEPARTURE (R295 to R298). -/
def execSailingDeparture (e : EngineId) (p : Port) (sail : Nat) (s : State) : Res :=
  .next (((s.catchUp e).depart e p sail).exhaustSends e)

/-- SAILING_EXHAUSTED (R298). -/
def execSailingExhausted (e : EngineId) (step : Nat) (s : State) : Res := .next (s.exhaust e step)

/-- COLLECTIVE_ADD (R311, R312, R314, R315, R318, R319). -/
def execCollectiveAdd (e : EngineId) (b : Nat) (s : State) : Res := .next (s.collAdd e b)

/-- COLLECTIVE_OUTPUT (R316, R317, R319). -/
def execCollectiveOutput (e : EngineId) (s : State) : Res := .next (s.collOutput e)

end Sys2Proof.Machine
end

