-- ==== Sys2Proof/Machine/Record.lean ====
section
/-!
DEFINITION. The SPI NOR flash and the installation record: its check, its copies, and the routing tables
computed from it (spec 10, R338 to R341, R353, R354; spec 14, R462).
-/

namespace Sys2Proof.Machine

/-! ## Flash (R462) -/

/-- A flash byte; an unlisted byte reads as erased. (DESIGN CHOICE, log entry 8.) -/
def flashByte (m : List Host.Cell) (a : Nat) : Byte := smGet 0xFF m a

def flashBytes (m : List Host.Cell) (a n : Nat) : List Byte := (List.range n).map (fun i => flashByte m (a + i))

def flashPut (m : List Host.Cell) (a : Nat) : List Byte → List Host.Cell
  | [] => m
  | b :: t => flashPut (smPut 0xFF m a b) (a + 1) t

/-- Erase n bytes. -/
def flashErase (m : List Host.Cell) (a n : Nat) : List Host.Cell := m.filter (fun c => c.1 < a || a + n ≤ c.1)

def State.setFlash (s : State) (m : List Host.Cell) : State := { s with sec := { s.sec with flash := m } }

/-- Where a copy of the installation record lies (Table 14-3). -/
def recordAt (copy : Bool) : Nat := if copy then 0x0C100000 else 0x0C000000

/-- A record holds at most this many bytes: a torus of 16,384 devices (Table 10-10). -/
def recordMax : Nat := 0x20 + 16384 + 64

/-! ## The record (R353, Table 10-10) -/

/-- Byte index of a device's CABLING byte. -/
def cableIx (x y i j k : Nat) : Nat := i + x * (j + y * k)

/-- One device's cabling: reserved bits 0, no port of an axis of dimension 1, and each plus port marked as
the minus port of the neighbour is. -/
def cableOk (x y z : Nat) (cab : List Byte) (i j k : Nat) : Bool :=
  let at_ (i j k : Nat) : Byte := cab.getD (cableIx x y i j k) 0
  let b := at_ i j k
  b.toNat < 64 && (x ≠ 1 || b.toNat % 4 = 0) && (y ≠ 1 || b.toNat / 4 % 4 = 0) && (z ≠ 1 || b.toNat / 16 = 0) &&
  b.getLsbD 0 == (at_ ((i + 1) % x) j k).getLsbD 1 && b.getLsbD 2 == (at_ i ((j + 1) % y) k).getLsbD 3 &&
  b.getLsbD 4 == (at_ i j ((k + 1) % z)).getLsbD 5

def cablingOk (x y z : Nat) (cab : List Byte) : Bool :=
  (List.range z).all (fun k => (List.range y).all (fun j => (List.range x).all (fun i => cableOk x y z cab i j k)))

/-- Length of a record's bytes before its digest. -/
def recordLen (l : List Byte) : Nat := 0x20 + fieldAt l 0x10 1 * fieldAt l 0x11 1 * fieldAt l 0x12 1

def recordDims (l : List Byte) : Bool :=
  let ok (o n : Nat) : Bool := 1 ≤ fieldAt l o 1 && fieldAt l o 1 ≤ n
  ok 0x10 32 && ok 0x11 32 && ok 0x12 16

/-- Every field within Table 10-10. -/
def recordFields (l : List Byte) : Bool :=
  fieldAt l 0 4 = 0x52495846 && fieldAt l 4 2 = 1 && zeroBytes l 6 8 && fieldAt l 8 8 ≠ 0 && recordDims l &&
  fieldAt l 0x13 1 ≤ 1 && zeroBytes l 0x18 0x20 &&
  cablingOk (fieldAt l 0x10 1) (fieldAt l 0x11 1) (fieldAt l 0x12 1) ((l.drop 0x20).take (recordLen l - 0x20))

def recordDigestOk (l : List Byte) : Bool := (l.drop (recordLen l)).take 64 = shake (l.take (recordLen l))

def recordOf (l : List Byte) : IRec where
  id := BitVec.ofNat 64 (fieldAt l 8 8)
  x := fieldAt l 0x10 1
  y := fieldAt l 0x11 1
  z := fieldAt l 0x12 1
  board := fieldAt l 0x13 1 = 1
  gen := fieldAt l 0x14 4
  cabling := (l.drop 0x20).take (recordLen l - 0x20)
  digest := (l.drop (recordLen l)).take 64

/-- A flash copy, if it is valid. -/
def validRecord (flash : List Host.Cell) (copy : Bool) : Option IRec :=
  let l := flashBytes flash (recordAt copy) recordMax
  if recordFields l && recordDigestOk l then some (recordOf l) else none

/-- The copy in use after reset: the valid one with the higher GEN. -/
def chooseRecord (flash : List Host.Cell) : Option (IRec × Bool) :=
  match validRecord flash false, validRecord flash true with
  | some a, some b => if a.gen < b.gen then some (b, true) else some (a, false)
  | some a, none => some (a, false)
  | none, some b => some (b, true)
  | none, none => none

/-! ## LNK_IREC_CMD (R354, Table 10-14) -/

def State.irecResult (s : State) (r : Nat) : State := { s with lnk := { s.lnk with cmdRes := BitVec.ofNat 3 r } }

/-- A staged record is checked and written to the copy not in use. (DEDUCED, log entry 56.) -/
def State.takeIrec (s : State) (a : Nat) : State :=
  let l := bytesAt s.dmem.cells a recordMax
  let t := s.touchAll .dmem (granulesOf a (if recordDims l then recordLen l + 64 else 0x20))
  if !recordFields l then t.irecResult 3
  else if !recordDigestOk l then t.irecResult 4
  else
    let gen := match s.lnk.irec with
      | some r => r.gen + 1
      | none => 1
    let body := l.take 0x14 ++ leBytes 4 gen ++ (l.drop 0x18).take (recordLen l - 0x18)
    let copy := s.lnk.irec.isSome && !s.lnk.irecCopy
    (t.setFlash (flashPut t.sec.flash (recordAt copy) (body ++ shake body))).irecResult 2

/-- LNK_IREC_CMD.WRITE: while a stack that holds the record retrains, the command is busy (R366). -/
def State.writeIrec (s : State) : State :=
  let a := s.lnk.irecAddr.toNat
  if a % 64 ≠ 0 || a < dmemReserved || dmemEnd ≤ a then s.irecResult 5
  else if s.linesHeld (granulesOf a recordMax) then
    ({ s with lnk := { s.lnk with irecHeld := some a } }).irecResult 1
  else s.takeIrec a

/-! ## Routing tables (R340, R341) -/

/-- The plus port of an axis (0 x, 1 y, 2 z) is cabled on every device. -/
def IRec.wrapped (r : IRec) (axis : Nat) : Bool := r.cabling.all (fun b => b.getLsbD (2 * axis))

/-- An entry of the whole torus, for axis length n and own coordinate o. -/
def wholeEntry (n : Nat) (wrap : Bool) (o c : Nat) : Nat :=
  if n ≤ c then 3
  else if c = o then 0
  else if wrap then (if (c + n - o) % n ≤ (o + n - c) % n then 1 else 2)
  else if o < c then 1 else 2

/-- An entry under a job block of origin b and extent e. -/
def blockEntry (n : Nat) (wrap : Bool) (o b e c : Nat) : Nat :=
  let rel (c : Nat) : Nat := (c + n - b % n) % n
  if n ≤ c then 3
  else if e ≤ rel c then 3
  else if e = n then wholeEntry n wrap o c
  else if c = o then 0
  else if rel o < rel c then 1 else 2

/-- A routing table of up to 32 entries. -/
def tableOf (len n : Nat) (wrap : Bool) (o b e : Nat) : Nat :=
  (List.range len).foldl (fun t c => t + (if e = 0 then wholeEntry n wrap o c else blockEntry n wrap o b e c) * 4 ^ c) 0

/-- Compute the three tables from the record in use and the block in force; no record leaves them 0. (PRESUMED, log entry 5.) -/
def State.routes (s : State) : State :=
  match s.lnk.irec with
  | none => { s with lnk := { s.lnk with routeX := 0, routeY := 0, routeZ := 0 } }
  | some r =>
    let o := s.own
    let b := s.lnk.origin
    { s with lnk := { s.lnk with
      routeX := BitVec.ofNat 64 (tableOf 32 r.x (r.wrapped 0) (cx o) (cx b) s.lnk.extX)
      routeY := BitVec.ofNat 64 (tableOf 32 r.y (r.wrapped 1) (cy o) (cy b) s.lnk.extY)
      routeZ := BitVec.ofNat 32 (tableOf 16 r.z (r.wrapped 2) (cz o) (cz b) s.lnk.extZ) } }

/-- The range check of a commit of group 0x21 fails (R341). -/
def State.blockRefused (s : State) (o : Coord) (ex ey ez : Nat) : Bool :=
  let (x, y, z) := s.dims
  let (rx, ry, rz) := s.relTo (cx o) (cy o) (cz o) s.own
  let all0 := ex = 0 && ey = 0 && ez = 0
  !all0 && (ex = 0 || ey = 0 || ez = 0 || x < ex || y < ey || z < ez || ex ≤ rx || ey ≤ ry || ez ≤ rz)

end Sys2Proof.Machine
end

