-- ==== Sys2Proof/Machine/Links.lean ====
section
/-!
DEFINITION. Links: frames, credits, failure, training, slack water, and the LNK control rows (spec 10, R324 to
R332, R342 to R351, R355).
-/

namespace Sys2Proof.Machine

/-! ## Reasons (R355, Table 10-11) -/

def rSTRAPS : BitVec 4 := 1
def rNO_RECORD : BitVec 4 := 2
def rOUTSIDE : BitVec 4 := 3
def rNOT_CABLED : BitVec 4 := 4
def rRECORD_ID : BitVec 4 := 5
def rCABLING : BitVec 4 := 6
def rVERSION : BitVec 4 := 7
def rLANE : BitVec 4 := 8
def rNO_SIGNAL : BitVec 4 := 9
def rRETRY_LIMIT : BitVec 4 := 10
def rDISABLED : BitVec 4 := 11

/-- The I/O die of a port (Table 1-1). (DESIGN CHOICE, log entry 57.) -/
def portDie : Port → Nat
  | .xp => 8 | .xn => 8 | .yp => 8 | _ => 9

def linkBit : LinkId → Nat
  | .a => 0 | .b => 1

def otherLink : LinkId → LinkId
  | .a => .b | .b => .a

/-- Set a link's state and reason, with a record of a change of reason. -/
def State.setReason (s : State) (p : Port) (l : LinkId) (st : LinkState) (r : BitVec 4) : State :=
  let k := s.link p l
  let t := s.setLink p l { k with state := st, reason := r }
  if r = k.reason then t
  else t.logRec ⟨0x0030, BitVec.ofNat 8 (portDie p), sNOTICE, BitVec.ofNat 16 (portNum p).val,
    leBytes 2 (portNum p).val ++ [BitVec.ofNat 8 (linkBit l), k.reason.setWidth 8, r.setWidth 8]⟩

/-- The link carries traffic, or does outside its slack water. -/
def Link.inUse (k : Link) : Bool := k.state = .up || k.state = .slack

/-- Held for a reason of the whole port, until reset. -/
def Link.portHeld (k : Link) : Bool := 1 ≤ k.reason.toNat && k.reason.toNat ≤ 4

/-! ## Going down (R332, R346, R347, R350) -/

/-- Both ends park the link's credits: as a transmitter those it holds, as a receiver every credit it has granted that is
not a flit in its buffer. -/
def Link.parked (k : Link) : Link :=
  { k with
    txPark := k.held, held := zero5, ret := zero5, owe := zero5, replay := [], nak := false, version := 0
    park := (List.range 5).map (fun c => k.granted.getD c 0 - k.buffer.getD c 0) }

/-- The frames not acknowledged that carry transactions, in order. -/
def Link.unacked (k : Link) : List (List OutTxn) :=
  (k.replay.map (fun f => f.txns.map (fun o => { o with via := none, until_ := none }))).filter (fun l => !l.isEmpty)

/-- A link goes down: its credits are parked and its unacknowledged frames go to the other link. -/
def State.linkDown (s : State) (p : Port) (l : LinkId) (st : LinkState) (r : BitVec 4) : State :=
  let k := s.link p l
  let t := s.setReason p l st r
  if !k.inUse then t.setLink p l { t.link p l with downAt := s.wall }
  else
    let t1 := t.setLink p l { (t.link p l).parked with downAt := s.wall }
    let t2 := t1.setPort p { t1.port p with resend := (t1.port p).resend ++ k.unacked }
    let o := t2.link p (otherLink l)
    let t3 := if o.state = .slack then t2.setLink p (otherLink l) { o with state := .up } else t2
    (t3.portChanged p).pump

/-- A RETRY_LIMIT hold begins. -/
def State.retryLimit (s : State) (p : Port) (l : LinkId) : State :=
  (s.linkDown p l .held rRETRY_LIMIT).healthInc (portHealth (portNum p).val + 0x54) 4

/-- An hour and a second of wall time, in ns. -/
def hourNs : Nat := 3600000000000
def secondNs : Nat := 1000000000

/-- A lane of a port fails (R345, R346). -/
def State.laneFails (s : State) (p : Port) (lane : Lane16) : State :=
  let l : LinkId := if lane.toNat < 8 then .a else .b
  let k := s.link p l
  if !k.inUse then s
  else
    let downs := s.wall :: k.laneDowns.filter (fun t => s.wall < t + hourNs)
    let t := (s.setPort p { s.port p with failLane := lane }).healthInc (portHealth (portNum p).val + 0x50) 4
    let t1 := t.setLink p l { t.link p l with laneDowns := downs }
    if 3 ≤ downs.length then t1.retryLimit p l else t1.linkDown p l .down rLANE

/-! ## Training (R342 to R346) -/

/-- A link starts its first training step. -/
def State.startTraining (s : State) (p : Port) (l : LinkId) : State :=
  let t := s.setReason p l .training 0
  t.setLink p l { t.link p l with trainAt := s.wall }

/-- Training has not reached UP within 100 ms, or the link reference is absent (R342, R346, R515). -/
def State.trainTimeout (s : State) (p : Port) (l : LinkId) : State :=
  let k := s.link p l
  if k.state ≠ .training || (s.wall < k.trainAt + 100000000 && s.pins.linkRef) then s
  else
    let t := s.setLink p l { k with trainFails := k.trainFails + 1 }
    if 3 ≤ k.trainFails + 1 then t.retryLimit p l else t.linkDown p l .down rNO_SIGNAL

/-- One second after going down for LANE or NO_SIGNAL (R346). -/
def State.retrainTimer (s : State) (p : Port) (l : LinkId) : State :=
  let k := s.link p l
  if k.state = .down && (k.reason = rLANE || k.reason = rNO_SIGNAL) && k.downAt + secondNs ≤ s.wall then s.startTraining p l
  else s

/-- The highest version both ends support; bit v − 1 stands for version v (R343). -/
def commonVersion (a b : Nat) : Option Nat :=
  ((List.range 16).reverse.find? (fun i => a.testBit i && b.testBit i)).map (· + 1)

/-- Versions this device supports: LNK_VERS. -/
def lnkVers : Nat := 1

/-- The reason the checks of steps 4 and 5 fail for, if they do (R343, R344). -/
def State.trainRefusal (s : State) (p : Port) (l : LinkId) (t : Partner) : Option (BitVec 4) :=
  let o := s.link p (otherLink l)
  match commonVersion lnkVers t.vers.toNat with
  | none => some rVERSION
  | some v =>
    if o.inUse && o.version ≠ v then some rVERSION
    else if s.lnk.irec.any (fun r => r.id ≠ t.recordId) then some rRECORD_ID
    else if t.coord ≠ s.neighbour p || t.port ≠ facing p then some rCABLING
    else none

def addFive (a b : List Nat) : List Nat := (List.range 5).map (fun c => a.getD c 0 + b.getD c 0)
def subFive (a b : List Nat) : List Nat := (List.range 5).map (fun c => a.getD c 0 - b.getD c 0)

/-- The link is UP: parked credits are restored up to the limits in force, the excess is retired, and the
partner's limits are granted to this transmitter, less its flits still in the partner's buffer (R329, R332). The port's
numbers of R333 go on. (DESIGN CHOICE, log entry 167.) -/
def Link.brought (k : Link) (limits theirs buffered : List Nat) (v now : Nat) : Link :=
  let g := (List.range 5).map (fun c => max (limits.getD c 0) (k.buffer.getD c 0))
  { k with
    state := .up, reason := 0, trainAt := now, trainFails := 0, version := v, txSeq := 0, rxSeq := 0xFFF, nak := false
    held := subFive theirs buffered, granted := g, ret := zero5, owe := zero5, park := zero5, txPark := zero5, replay := [], recent := [] }

/-- This end's part of the exchange of step 4 (Table 10-8, R343): the versions it supports, its RECORD_ID, coordinate,
port, slack settings and credit limits, and what its buffer still holds (R332). (DESIGN CHOICE, log entry 168.) -/
def State.sendLinkMsg (s : State) (p : Port) (l : LinkId) : State :=
  s.emit (.linkMsg p l (BitVec.ofNat 16 lnkVers) ((s.lnk.irec.map (·.id)).getD 0) s.own s.tt.slack (s.port p).limits
    (s.link p l).buffer)

/-- A link completes its exchange with the partner; one that does so later than 100 ms after its first step goes DOWN
(R342). A training that its checks refuse is not one of the failed ones of R346, and does not end their row. (DESIGN
CHOICE, log entry 165.) -/
def State.trained (s : State) (p : Port) (l : LinkId) (t : Partner) : State :=
  let k := s.link p l
  if k.state ≠ .training || !s.pins.linkRef then s
  else if k.trainAt + 100000000 < s.wall then s.trainTimeout p l
  else match s.trainRefusal p l t with
    | some r => (s.sendLinkMsg p l).linkDown p l .down r
    | none =>
      let v := (commonVersion lnkVers t.vers.toNat).getD 0
      let n := (portNum p).val
      let old := s.offerOf p
      let s1 := s.setLink p l (k.brought (s.port p).limits t.limits t.buffered v s.wall)
      let s2 := s1.setTT { s1.tt with
        linkDly := s1.tt.linkDly.set (portNum p) (BitVec.ofNat 32 t.delay)
        skew := s1.tt.skew.set (portNum p) t.skew
        offers := s1.tt.offers.filter (fun x => x.1 ≠ n) ++
          [(n, match old with
            | some o => { o with slack := t.slack }
            | none => ⟨false, false, 0, t.slack⟩)] }
      (s2.sendLinkMsg p l).reparent.pump

/-- A partner's signal lost and regained retrains a link held off by its checks (R355). A receiver finds a signal by
LINK_REFCLK, which is back where it was absent (R515; DEDUCED, log entry 155). -/
def State.signalRegained (s : State) (p : Port) (l : LinkId) : State :=
  let t := { s with pins := { s.pins with linkRef := true } }
  let k := t.link p l
  if k.state = .down && 5 ≤ k.reason.toNat && k.reason.toNat ≤ 7 then t.startTraining p l else t

/-! ## LNK_Pp_CTRL (R332, R346, R355, Table 10-15) -/

/-- RETRAIN of one link: nothing trains before the strap samples are valid (R519). (DEDUCED, log entry 55.) -/
def State.retrain (s : State) (p : Port) (l : LinkId) : State :=
  let k := s.link p l
  if k.portHeld || k.reason = rDISABLED || !s.lnk.strapsOk then s
  else
    let t := if k.inUse then s.linkDown p l .down k.reason else s
    let t1 := t.setLink p l { t.link p l with laneDowns := [], trainFails := 0 }
    t1.startTraining p l

/-- DISABLE of one link takes a value. A link enabled before the strap samples are valid is down until then (R519). -/
def State.disableLink (s : State) (p : Port) (l : LinkId) (on : Bool) : State :=
  let x := s.port p
  let was := match l with | .a => x.disA | .b => x.disB
  let t := s.setPort p (match l with | .a => { x with disA := on } | .b => { x with disB := on })
  let k := s.link p l
  if on = was || k.portHeld then t
  else if on then t.linkDown p l .held rDISABLED
  else if !s.lnk.strapsOk then t.setReason p l .down 0
  else t.startTraining p l

/-- A write of LNK_Pp_CTRL. -/
def State.writeLinkCtrl (s : State) (p : Port) (v : Word32) : State :=
  s.regWrite (0x31000 + 0x100 * (portNum p).val) v.toNat 0xFFFFFFCC none (fun t =>
    let t1 := (t.disableLink p .a (v.getLsbD 0)).disableLink p .b (v.getLsbD 1)
    let t2 := if v.getLsbD 4 then t1.retrain p .a else t1
    if v.getLsbD 5 then t2.retrain p .b else t2)

/-! ## Frames (R326, R327, R329, R330) -/

/-- Count a received frame's corrected symbols and damage. -/
def State.countFrame (s : State) (p : Port) (l : LinkId) (f : FrameIn) : State :=
  let x := s.port p
  let n := BitVec.ofNat 64 (if frameFecOk f then frameSymbols f else 0)
  let d : Word64 := if frameFecOk f && frameCrcOk f then 0 else 1
  let h := portHealth (portNum p).val
  let t := s.setPort p (match l with
    | .a => { x with fecA := x.fecA + n, badA := x.badA + d }
    | .b => { x with fecB := x.fecB + n, badB := x.badB + d })
  let t1 := if n = 0 then t else t.healthSet (h + 0x40) 8 (healthVal t (h + 0x40) 8 + n.toNat)
  if d = 0 then t1 else t1.healthInc (h + 0x48) 8

/-- A received frame that held errors is remembered for 1 ms. -/
def State.noteErrors (s : State) (p : Port) (l : LinkId) (f : FrameIn) : State :=
  let k := s.link p l
  let late := k.recent.filter (fun x => s.wall < x.1 + 1000000)
  let bad := !(frameFecOk f && frameCrcOk f)
  s.setLink p l { k with recent := if bad || 0 < frameSymbols f then late ++ [(s.wall, bad, f.errors)] else late }

/-- Symbols of 10 bits that one lane carries in 1 ms: 136 of each frame of 6.4 ns; more errors than a 10,000th of them
fail the lane (R345). (DEDUCED, log entry 137.) -/
def laneErrorLimit : Nat := 2125

/-- The lane of the link that errors have failed: one with too many symbols in error, or, after more than 64 damaged
frames within 1 ms, one that the spec does not name (R345). -/
def Link.badLane (k : Link) (draw : Nat) : Option Nat :=
  match (List.range 8).find? (fun i => laneErrorLimit < (k.recent.map (fun x => x.2.2.getD i 0)).sum) with
  | some i => some i
  | none => if 64 < (k.recent.filter (·.2.1)).length then some (Config.failedLane draw % 8) else none

/-- The frames an acknowledgement covers, and the rest: those up to the frame numbered ack. -/
def ackSplit (ack : BitVec 12) (r : List SentFrame) : List SentFrame × List SentFrame :=
  match r.findIdx? (fun f => f.seq = ack) with
  | some i => (r.take (i + 1), r.drop (i + 1))
  | none => ([], r)

/-- Frames are acknowledged: the credits they carried have reached the other end. -/
def Link.acked (k : Link) (done rest : List SentFrame) : Link :=
  { k with replay := rest, ret := done.foldl (fun r x => subFive r x.credits) k.ret }

/-- An accepted frame's control granule: acknowledgement and credits. -/
def Link.takeGranule (k : Link) (f : FrameIn) : Link :=
  let r := ackSplit (frameAck f) k.replay
  let k1 := k.acked r.1 r.2
  { k1 with rxSeq := frameSeq f, nak := false, held := addFive k1.held (frameCredits f) }

/-- A frame is sent again. -/
def State.resendFrame (p : Port) (l : LinkId) (s : State) (f : SentFrame) : State :=
  let k := s.link p l
  { s.setLink p l (k.sends f.txns s.wall) with freeCtr := s.freeCtr + 1 }.emit
    (.frame p l (frameBytes f.seq k.rxSeq k.nak f.credits (lmsgOf s.freeCtr) f.txns) f.txns)

/-- On NAK the transmitter sends again every frame not acknowledged. -/
def State.resendFrames (s : State) (p : Port) (l : LinkId) : State :=
  let t := (s.link p l).replay.foldl (State.resendFrame p l) s
  t.setPort p { t.port p with replays := (t.port p).replays + 1 }

/-- A frame is accepted, or discarded with NAK (R326). (DEDUCED, log entry 40.) -/
def State.takeFrame (s : State) (p : Port) (l : LinkId) (f : FrameIn) : State :=
  let k := s.link p l
  if frameFecOk f && frameCrcOk f && frameSeq f = k.rxSeq + 1 then
    let t := s.setLink p l (k.takeGranule f)
    (if frameNak f then t.resendFrames p l else t).pump
  else
    let t := s.setLink p l { k with nak := true }
    if !k.nak && k.open_ then t.frameOut p l [] else t

/-- A frame arrives on a link; errors may fail one of its lanes (R345). -/
def State.frameIn (s : State) (p : Port) (l : LinkId) (f : FrameIn) : State :=
  if !(s.link p l).inUse then s
  else
    let t := (s.countFrame p l f).noteErrors p l f
    match (t.link p l).badLane t.freeCtr with
    | none => t.takeFrame p l f
    | some i => { t with freeCtr := t.freeCtr + 1 }.laneFails p (BitVec.ofNat 4 (i + 8 * linkBit l))

/-! ## Slack water (R300, R349 to R351) -/

/-- Tide time lies in a link's slack water window. -/
def State.inSlack (s : State) (p : Port) (l : LinkId) : Bool :=
  let per := s.tt.slack.period * 1000
  let o := s.tt.slack.offset * 1000 + (match l with | .a => 0 | .b => per / 2)
  s.tt.runs && s.slackAgrees p && windowMeets per o s.tt.slack.len s.tt.now s.tt.now

/-- The first margins of a lane (Table 15-2). -/
def State.eyeBase (s : State) (lane : Nat) (v h : Byte) : State :=
  let b := s.log.baselines
  if b.eyes.any (fun x => x.1 = lane) then s
  else { s with log := s.log.jwrite (.baselines { b with eyes := b.eyes ++ [(lane, v, h)] }) }

/-- A lane has been scanned: its register, its record and its health entry. (DESIGN CHOICE, log entry 54.) -/
def State.scanned (s : State) (p : Port) (lane : Nat) (v h : Byte) : State :=
  let n := (portNum p).val
  let x := s.port p
  let t := (s.eyeBase (16 * n + lane) v h).setPort p { x with eyes := x.eyes.filter (fun e => e.1 ≠ lane) ++ [(lane, v, h)] }
  let a := portHealth n
  let t1 := (t.healthSet (a + 2 * lane) 1 v.toNat).healthSet (a + 2 * lane + 1) 1 h.toNat
  ((t1.healthLow (a + 0x21 + 2 * lane) 1 h.toNat).healthLow (a + 0x20 + 2 * lane) 1 v.toNat).logRec
    ⟨0x0031, BitVec.ofNat 8 (portDie p), sINFO, BitVec.ofNat 16 (16 * n + lane), [BitVec.ofNat 8 n, BitVec.ofNat 8 lane, v, h]⟩

/-- The lanes a window has time for (Table 10-9). -/
def scanRoom (w : Nat) : Nat := if w < 775 then 0 else (w - 600) / 175

/-- Scan lanes in rotation. -/
def scanLanes (p : Port) (l : LinkId) : Nat → List Eye → State → State
  | 0, _, s => s
  | _, [], s => s
  | k + 1, e :: t, s =>
    let x := s.link p l
    let n := x.scan % 8
    if e.lane.toNat = n then
      scanLanes p l k t ((s.setLink p l { x with scan := (n + 1) % 8 }).scanned p (n + 8 * linkBit l) e.v e.h)
    else s

/-- A link's window opens: its outstanding frames are acknowledged (Table 10-9). -/
def State.slackStart (s : State) (p : Port) (l : LinkId) (eyes : List Eye) : State :=
  let k := s.link p l
  if k.state ≠ .up || !s.inSlack p l then s
  else if (s.link p (otherLink l)).state ≠ .up then
    s.setPort p { s.port p with slackSkip := satInc (s.port p).slackSkip }
  else scanLanes p l (scanRoom s.tt.slack.len) eyes (s.setLink p l { k.acked k.replay [] with state := .slack })

/-- Lane skew and delay have been measured again. -/
def State.remeasure (s : State) (p : Port) : State :=
  { s with
    tt := { s.tt with
      linkDly := s.tt.linkDly.set (portNum p) (BitVec.ofNat 32 (Config.linkDelay s.freeCtr))
      skew := s.tt.skew.set (portNum p) (Config.laneSkew s.freeCtr) }
    freeCtr := s.freeCtr + 1 }

/-- A link's window closes: it resumes with the same SEQ, credits and version. -/
def State.slackEnd (s : State) (p : Port) (l : LinkId) : State :=
  let k := s.link p l
  if k.state ≠ .slack || s.inSlack p l then s else ((s.setLink p l { k with state := .up }).remeasure p).pump

/-! ## Retraining of a stack (R366) -/

/-- Tide time lies in a stack's retraining window (Table 9-2). -/
def State.inRetrain (s : State) (n : StackId) : Bool :=
  let per := s.tt.slack.period * 1000
  s.tt.runs && windowMeets per (s.tt.slack.offset * 1000 + (n.val + 1) * per / 32) s.tt.slack.len s.tt.now s.tt.now

def State.retrainStart (s : State) (n : StackId) : State :=
  if s.inRetrain n then s.setStack n { s.stack n with retrain := true } else s

def State.retrainEnd (s : State) (n : StackId) : State :=
  if s.inRetrain n then s else s.setStack n { s.stack n with retrain := false }

/-! ## Rows -/

/-- SLACK_WATER_START (R349 to R351). -/
def execSlackWaterStart (p : Port) (l : LinkId) (eyes : List Eye) (s : State) : Res := .next (s.slackStart p l eyes)

/-- SLACK_WATER_END (R349). -/
def execSlackWaterEnd (p : Port) (l : LinkId) (s : State) : Res := .next (s.slackEnd p l)

/-- HBM_RETRAIN_START (R366). -/
def execHbmRetrainStart (n : StackId) (s : State) : Res := .next (s.retrainStart n)

/-- HBM_RETRAIN_END (R366). -/
def execHbmRetrainEnd (n : StackId) (s : State) : Res := .next (s.retrainEnd n)

/-- FRAME_RECEIVED (R326, R327, R329). -/
def execFrameReceived (p : Port) (l : LinkId) (f : FrameIn) (s : State) : Res := .next (s.frameIn p l f)

/-- LANE_FAILURE (R345, R346). -/
def execLaneFailure (p : Port) (lane : Lane16) (s : State) : Res := .next (s.laneFails p lane)

/-- LINK_RETRAIN_TIMER (R346). -/
def execLinkRetrainTimer (p : Port) (l : LinkId) (s : State) : Res := .next (s.retrainTimer p l)

/-- LINK_TRAINING_TIMEOUT (R342, R346). -/
def execLinkTrainingTimeout (p : Port) (l : LinkId) (s : State) : Res := .next (s.trainTimeout p l)

/-- LINK_UP (R342 to R344). -/
def execLinkUp (p : Port) (l : LinkId) (t : Partner) (s : State) : Res := .next (s.trained p l t)

/-- LINK_SIGNAL_REGAINED (R355). -/
def execLinkSignalRegained (p : Port) (l : LinkId) (s : State) : Res := .next (s.signalRegained p l)

/-- LINK_RETRAIN (R346). -/
def execLinkRetrain (p : Port) (v : Word32) (s : State) : Res := .next (s.writeLinkCtrl p v)

/-- LINK_DISABLE (R332, R355). -/
def execLinkDisable (p : Port) (v : Word32) (s : State) : Res := .next (s.writeLinkCtrl p v)

/-- LINK_ENABLE (R355). -/
def execLinkEnable (p : Port) (v : Word32) (s : State) : Res := .next (s.writeLinkCtrl p v)

/-- IREC_WRITE: a write of LNK_IREC_CMD (R354). -/
def execIrecWrite (v : Word32) (s : State) : Res :=
  .next (s.regWrite 0x30020 v.toNat 0xFFFFFFFE none (fun t => if v.getLsbD 0 then t.writeIrec else t))

end Sys2Proof.Machine
end

