-- ==== Sys2Proof/Machine/Remote.lean ====
section
/-!
DEFINITION. Transactions that arrive on the links: remote reads and writes, their answers, ticket messages and
collective messages (spec 10, R333 to R339; spec 09, R308, R314, R320; spec 07, R222).
-/

namespace Sys2Proof.Machine

/-! ## Remote accesses (R222, R335, R336, R402, R417) -/

/-- The place and first byte an address reaches (Table 6-2). -/
def remotePlace (x : Txn) : Loc × Nat :=
  let a := x.addr.toNat
  if x.psub then (.lsp (a / 2 ^ 23 % 4096), a % 2 ^ 23) else (.dmem, a)

/-- The access is refused: an address out of range, a fenced core, or the firmware's DMEM (Table 6-5). -/
def State.remoteRefuses (s : State) (x : Txn) (len : Nat) : Bool :=
  let a := x.addr.toNat
  if x.psub then 2 ^ 35 ≤ a || 2 ^ 23 < a % 2 ^ 23 + len || s.int.fenced.contains (a / 2 ^ 23 % 4096)
  else a < dmemReserved || dmemEnd < a + len

/-- Granules of an access. -/
def remoteGrans (x : Txn) (len : Nat) : List (Loc × Nat) :=
  (granulesOf (remotePlace x).2 len).map (fun n => ((remotePlace x).1, n))

/-- A write's bytes are placed, and it is acknowledged. -/
def State.remoteStore (s : State) (x : Txn) : State :=
  let at_ := remotePlace x
  let gs := remoteGrans x x.data.length
  let t := (s.writeRunAs none (.device x.src) none at_.1 at_.2 x.data x.poison).usedInv (dmemLines gs)
  t.sendAnswer 0x03 (t.replyTo x 0 0 false [])

/-- A remote write reaches its target: lines of the signal window go to the host for invalidation first. (DEDUCED, log entry 44.) -/
def State.remoteWrite (s : State) (x : Txn) : State :=
  let lines := dmemLines (remoteGrans x x.data.length)
  if s.remoteRefuses x x.data.length then s.sendAnswer 0x05 (s.replyTo x 0 0 false [])
  else if s.windowReady lines then s.remoteStore x
  else (windowLines lines).foldl (fun t n => if t.hrw.inval.contains n then t else t.snoop n false (.remote x)) s

/-- A remote read reaches its target. -/
def State.remoteRead (s : State) (x : Txn) : State :=
  let len := 64 * x.count.toNat
  let at_ := remotePlace x
  if s.remoteRefuses x len then s.sendAnswer 0x05 (s.replyTo x 0 0 false [])
  else
    let gs := remoteGrans x len
    let t := gs.foldl (fun u g => u.touch g.1 g.2) s
    let bad := gs.any (fun g => t.poisoned g.1 g.2 || t.failedMark g.1 g.2)
    t.sendAnswer 0x04 (t.replyTo x x.count.toNat 0 bad ((List.range len).map (fun i => t.outByte at_.1 (at_.2 + i))))

/-- An access that must wait: for a verdict, for a check tile's operands, or for a stack. -/
def State.remoteWaits (s : State) (kind : Byte) (x : Txn) : Bool :=
  let wr := kind = 0x01
  let len := if wr then x.data.length else 64 * x.count.toNat
  let gs := remoteGrans x len
  !s.remoteRefuses x len && (s.linesHeld (dmemLines gs) || (if wr then s.ferProtected gs else s.ferWaits 0 false gs))

/-- Perform an access. -/
def State.remoteAccess (s : State) (kind : Byte) (x : Txn) : State :=
  if kind = 0x01 then s.remoteWrite x else s.remoteRead x

/-! ## Answers (R214, R334 to R336) -/

def State.late (s : State) : State := { s with lnk := { s.lnk with late := s.lnk.late + 1 } }

def State.txnOf (s : State) (tag : Word32) : Option RTxn := s.lnk.txns.find? (fun r => r.tag = tag)

def State.dropTxn (s : State) (tag : Word32) : State :=
  { s with lnk := { s.lnk with txns := s.lnk.txns.filter (fun r => r.tag ≠ tag) } }

/-- The channel command that waits for a transaction. -/
def State.waiter (s : State) (r : RTxn) : Option FExec :=
  match (s.core r.core).fer.chan r.ch.toNat with
  | some f => if f.tags.contains r.tag then some f else none
  | none => none

/-- An answer arrives: `f` acts on the command that waits for it. (DESIGN CHOICE, log entry 45.) -/
def State.answered (s : State) (x : Txn) (f : State → RTxn → FExec → State) : State :=
  match s.txnOf x.tag with
  | none => s.late
  | some r =>
    let t := s.dropTxn x.tag
    match t.waiter r with
    | some k => f t r { k with tags := k.tags.erase r.tag }
    | none => t

/-- A write is acknowledged. -/
def State.takeAck (s : State) (r : RTxn) (k : FExec) : State :=
  match k.phase with
  | .failing c => s.ferSettle r.core k c
  | _ => s.putChan r.core k

/-- Read data arrive; with the last, the command goes on. -/
def State.takeData (x : Txn) (s : State) (r : RTxn) (k : FExec) : State :=
  s.putChan r.core { k with
    rx := putBytes k.rx r.addr x.data
    rxPoison := if x.poison then (granulesOf r.addr x.data.length).foldl (fun l n => setAdd n l) k.rxPoison else k.rxPoison
    phase := if k.tags.isEmpty && k.phase = .reading then .ready else k.phase }

/-- The collective that an UNROUTABLE return names fails; a return that names none comes late (R334). (DESIGN CHOICE, log
entry 45.) -/
def State.collUnroutable (s : State) (x : Txn) : State :=
  match s.engineOf (txnColl x) with
  | none => s.late
  | some e =>
    match s.coll e with
    | none => s
    | some c =>
      let step := ((c.sent.find? (fun y => y.2 = txnBlock x)).map Prod.fst).getD noStep
      s.collFail e cPEER_UNREACHABLE step

/-- An UNROUTABLE return: a ferry command fails, a collective fails, a ticket message is resent in time. -/
def State.takeUnroutable (s : State) (x : Txn) : State :=
  match s.txnOf x.tag with
  | some r => if r.addr = x.addr.toNat then s.answered x (fun t r k => t.ferFail r.core k cENGINE 6) else s.collUnroutable x
  | none =>
    if s.sch.xsigs.any (fun y => y.m = x.tag && x.addr = (s.ticketTxn y).addr) then s else s.collUnroutable x

/-- A transaction gets no answer within LNK_TXN_TIMEOUT (R334). -/
def State.txnTimeout (s : State) (tag : Word32) : State :=
  match s.txnOf tag with
  | none => s
  | some r =>
    if s.wall < r.sent + s.lnk.txnUs * 1000 then s
    else
      let t := s.dropTxn tag
      match t.waiter r with
      | some k => t.ferFail r.core { k with tags := k.tags.erase tag } cENGINE 7
      | none => t

/-! ## Ticket messages (R337) -/

/-- Acknowledge a ticket message: 0 applied, 1 already applied, 2 expired. -/
def State.ticketAck (s : State) (x : Txn) (r : Nat) : State := s.sendAnswer 0x08 (s.replyTo x 0 r false [])

def State.takeTicket (s : State) (x : Txn) : State :=
  let t := x.addr.toNat % 2 ^ 16
  let v := BitVec.ofNat 32 (x.addr.toNat / 2 ^ 32)
  if !s.schedOn then s
  else if s.sch.appliedMsgs.any (fun e => e.1 = x.src && e.2.1 = x.tag) then s.ticketAck x 1
  else if x.aux.toNat ≤ s.tt.now then
    ({ s with lnk := { s.lnk with tkExpired := s.lnk.tkExpired + 1 } }).ticketAck x 2
  else if 65536 ≤ s.sch.appliedMsgs.length then s
  else
    let s1 := { s with sch := { s.sch with appliedMsgs := s.sch.appliedMsgs ++ [(x.src, x.tag, x.aux.toNat)] } }
    ((s1.increment t v).logRec ⟨0x0032, 8, sNOTICE, 0,
      leBytes 2 x.src.toNat ++ leBytes 4 x.tag.toNat ++ leBytes 2 t ++ leBytes 4 v.toNat⟩).ticketAck x 0

/-- A sent increment has been applied at its target. -/
def State.signalApplied (s : State) (y : XSig) : State :=
  let t := { s with sch := { s.sch with xsigs := s.sch.xsigs.erase y } }
  match t.opOf y.op with
  | none => t
  | some o =>
    let u := t.updOp o.id (fun z => { z with sigDone := z.sigDone + 1 })
    (if o.kind = .ticketSignal then u.updOp o.id (fun z => z.fix .done 0 0) else u).endOpCheck o.id o.q

/-- An acknowledgement. One that says expired applied nothing: the increment is withdrawn in its time (R266, R337).
(DEDUCED, log entry 43.) -/
def State.takeTicketAck (s : State) (x : Txn) : State :=
  match s.sch.xsigs.find? (fun y => y.m = x.tag && y.dst = x.src) with
  | none => s
  | some y => if x.aux = 2 then s else s.signalApplied y

/-- An entry of the applied messages is dropped 1 µs after its expiry. -/
def State.dropEntry (s : State) (src : Coord) (m : Word32) : State :=
  { s with sch := { s.sch with
      appliedMsgs := s.sch.appliedMsgs.filter (fun e => !(e.1 = src && e.2.1 = m && e.2.2 + 1000 < s.tt.now)) } }

/-! ## Arriving at a port (R327, R333) -/

def Early.class : Early → Nat
  | .txn k _ => kindClass k
  | .time _ => 0

def Early.num : Early → Nat
  | .txn _ x => x.num
  | .time m => m.num

def Early.link : Early → LinkId
  | .txn _ x => x.link
  | .time m => m.link

def Early.flits : Early → Nat
  | .txn k x => Sys2Proof.Machine.flits k x
  | .time _ => 1

/-- A remote access acts at once, or waits behind what it must wait for and behind those that wait already. -/
def State.actAccess (s : State) (p : Port) (kind : Byte) (x : Txn) : State × Bool :=
  if (s.port p).waiting.isEmpty && !s.remoteWaits kind x then (s.remoteAccess kind x, false)
  else (s.setPort p { s.port p with waiting := (s.port p).waiting ++ [(kind, x)] }, true)

/-- A transaction for this device acts here. A block held back, or an access that must wait, stays in its link's buffer:
the answer says so. (DEDUCED, log entry 44.) -/
def State.act (s : State) (p : Port) (kind : Byte) (x : Txn) : State × Bool :=
  match kind.toNat with
  | 0x01 => s.actAccess p 0x01 x
  | 0x02 => s.actAccess p 0x02 x
  | 0x03 => (s.answered x State.takeAck, false)
  | 0x04 => (s.answered x (State.takeData x), false)
  | 0x05 => (s.answered x (fun u r k => u.ferFail r.core k cENGINE 8), false)
  | 0x06 => (s.takeUnroutable x, false)
  | 0x07 => (s.takeTicket x, false)
  | 0x08 => (s.takeTicketAck x, false)
  | 0x09 => s.takeBlock x (p, x.link)
  | 0x0A => (s.takeAnnouncement x, false)
  | 0x0B => (s.takeAbort x, false)
  | _ => (s, false)

/-- A transaction whose turn it is goes on: a message of the timetable to its unit; for another device it is passed on;
for this one it acts, and its credits return once it has left the buffer (R329). -/
def State.deliver (s : State) (p : Port) (e : Early) : State :=
  let o := s.port p
  let s1 := s.setPort p { o with rxNum := onClass o.rxNum e.class (· + 1) }
  match e with
  | .time m => (s1.timeMessage p m).creditBack p m.link 0 1
  | .txn k x =>
    if s1.route x.dst = .here then
      let r := s1.act p k x
      if r.2 then r.1.keepFlits p x.link e.class e.flits else r.1.creditBack p x.link e.class e.flits
    else s1.passOn p x.link k x

/-- Whether it is the turn of something that came early. -/
def State.isDue (s : State) (p : Port) (e : Early) : Bool := e.num = (s.port p).rxNum.getD e.class 0

/-- What came early and is now due leaves its place in the buffer and goes on. -/
def State.drainEarly (p : Port) : Nat → State → State
  | 0, s => s
  | k + 1, s =>
    match (s.port p).early.find? (s.isDue p) with
    | none => s
    | some e =>
      let lk := s.link p e.link
      let s1 := s.setLink p e.link { lk with buffer := onClass lk.buffer e.class (· - e.flits) }
      State.drainEarly p k ((s1.setPort p { s1.port p with early := (s1.port p).early.erase e }).deliver p e)

/-- A transaction arrives at a port: the transactions of a class go on in the order of their numbers; one that comes
before its turn waits in its link's buffer, and one that came before is discarded, its credits returned (R333). -/
def State.arrive (s : State) (p : Port) (e : Early) : State :=
  if !(s.port p).up then s
  else
    let turn := (s.port p).rxNum.getD e.class 0
    if e.num < turn || (s.port p).early.any (fun x => x.class = e.class && x.num = e.num) then
      (s.creditBack p e.link e.class e.flits).pump
    else if e.num = turn then
      let s1 := s.deliver p e
      (State.drainEarly p (s1.port p).early.length s1).pump
    else (s.setPort p { s.port p with early := (s.port p).early ++ [e] }).keepFlits p e.link e.class e.flits

/-- Accesses that waited are performed in order once nothing holds them (R366, R402, R454). -/
def State.wakePort (p : Port) : Nat → State → State
  | 0, s => s
  | k + 1, s =>
    match (s.port p).waiting with
    | [] => s
    | (kind, x) :: rest =>
      if s.remoteWaits kind x then s
      else
        let s1 := s.setPort p { s.port p with waiting := rest }
        State.wakePort p k ((s1.remoteAccess kind x).freeFlits p x.link (kindClass kind) (flits kind x))

def State.wakeRemote (s : State) : State :=
  if allPorts.all (fun p => (s.port p).waiting.isEmpty) then s
  else (allPorts.foldl (fun t p => State.wakePort p (t.port p).waiting.length t) s).pump

/-! ## Rows -/

/-- TIMETABLE_MESSAGE (R284, R286, R287, R289 to R292, R333). -/
def execTimetableMessage (p : Port) (m : TimeMsg) (s : State) : Res := .next (s.arrive p (.time m))

/-- REMOTE_WRITE (R222, R335, R336, R338, R339). -/
def execRemoteWrite (p : Port) (x : Txn) (s : State) : Res := .next (s.arrive p (.txn 0x01 x))

/-- REMOTE_READ (R222, R335, R338, R339, R402). -/
def execRemoteRead (p : Port) (x : Txn) (s : State) : Res := .next (s.arrive p (.txn 0x02 x))

/-- WRITE_ACK (R78, R334). -/
def execWriteAck (p : Port) (x : Txn) (s : State) : Res := .next (s.arrive p (.txn 0x03 x))

/-- READ_DATA (R334, R336). -/
def execReadData (p : Port) (x : Txn) (s : State) : Res := .next (s.arrive p (.txn 0x04 x))

/-- REFUSED (R214, R335). -/
def execRefusedAnswer (p : Port) (x : Txn) (s : State) : Res := .next (s.arrive p (.txn 0x05 x))

/-- UNROUTABLE (R214, R339). -/
def execUnroutable (p : Port) (x : Txn) (s : State) : Res := .next (s.arrive p (.txn 0x06 x))

/-- TICKET_MESSAGE (R263, R337). -/
def execTicketMessage (p : Port) (x : Txn) (s : State) : Res := .next (s.arrive p (.txn 0x07 x))

/-- TICKET_ACK (R266, R337). -/
def execTicketAck (p : Port) (x : Txn) (s : State) : Res := .next (s.arrive p (.txn 0x08 x))

/-- COLLECTIVE_BLOCK (R308, R314). -/
def execCollectiveBlock (p : Port) (x : Txn) (s : State) : Res := .next (s.arrive p (.txn 0x09 x))

/-- COLLECTIVE_ANNOUNCEMENT (R299, R308). -/
def execCollectiveAnnouncement (p : Port) (x : Txn) (s : State) : Res := .next (s.arrive p (.txn 0x0A x))

/-- COLLECTIVE_ABORT (R320). -/
def execCollectiveAbort (p : Port) (x : Txn) (s : State) : Res := .next (s.arrive p (.txn 0x0B x))

/-- TXN_TIMEOUT (R214, R334). -/
def execTxnTimeout (tag : Word32) (s : State) : Res := .next (s.txnTimeout tag)

/-- TICKET_ENTRY_EXPIRY (R337). -/
def execTicketEntryExpiry (src : Coord) (m : Word32) (s : State) : Res := .next (s.dropEntry src m)

end Sys2Proof.Machine
end

