-- ==== Sys2Proof/Machine/Gangway.lean ====
section
/-!
DEFINITION. Gangway groups: checks, commits and safe points (spec 11, R393 to R395; Table 11-8).
-/

namespace Sys2Proof.Machine

/-! ## Range checks: the offset of the first failing register (R282, R322, R330, R341, R380) -/

/-- Group 0x10. -/
def slackBad (x : Slack) : Option Nat :=
  if x.period % 4 ≠ 0 || x.period < 1000 || 1000000 < x.period then some 0x20
  else if x.len < 600 || x.period * 1000 / 64 < x.len then some 0x24
  else if x.period ≤ x.offset then some 0x28 else none

/-- Group 0x21. -/
def State.blockBad (s : State) : Option Nat :=
  let l := s.lnk
  let (x, y, z) := s.dims
  let zeroMix := (l.shX = 0 || l.shY = 0 || l.shZ = 0) && !(l.shX = 0 && l.shY = 0 && l.shZ = 0)
  if zeroMix || x < l.shX || y < l.shY || z < l.shZ then some 0x34
  else if s.blockRefused l.shOrigin l.shX l.shY l.shZ then some 0x30 else none

/-- Least credits of a class (Table 10-4). -/
def leastCredits : List Nat := [4, 16, 64, 64, 64]

/-- Groups 0x30 to 0x35. -/
def creditBad (l : List Nat) : Bool :=
  (List.range 5).any (fun c => l.getD c 0 < leastCredits.getD c 0) || 2048 < l.foldl (· + ·) 0

/-- The signal window's length. -/
def windowLen : Nat := 0x10000000

/-- A ring as space (true for the aperture), offset and length. -/
def QCfg.cmdRing (c : QCfg) : Bool × Nat × Nat := (false, c.offset * 64, 2 ^ c.log2 * 64)
def QCfg.cplRing (c : QCfg) : Bool × Nat × Nat := (c.cplHost, c.cplOff * 64, 2 ^ c.log2 * 64)

def ringsMeet (a b : Bool × Nat × Nat) : Bool := a.1 = b.1 && a.2.1 < b.2.1 + b.2.2 && b.2.1 < a.2.1 + a.2.2

/-- A ring overlaps a ring of another enabled queue. -/
def State.ringTaken (s : State) (q : Nat) (r : Bool × Nat × Nat) : Bool :=
  s.sch.queues.any (fun x => x.1 ≠ q && x.2.enabled && (ringsMeet r x.2.cfg.cmdRing || ringsMeet r x.2.cfg.cplRing))

/-- Groups 0x40 to 0x7F. -/
def State.queueBad (s : State) (q : Nat) : Option Nat :=
  let c := (s.queue q).shadow
  let a := c.cmdRing
  let b := c.cplRing
  if c.log2 < 6 || 16 < c.log2 || windowLen < a.2.1 + a.2.2 || s.ringTaken q a then some (0x1000 + 0x40 * q)
  else if (if c.cplHost then s.hrw.apSize else windowLen) < b.2.1 + b.2.2 || s.ringTaken q b then some (0x1008 + 0x40 * q)
  else none

/-- Group 0x80. -/
def State.apertureBad (s : State) : Option Nat :=
  let b := s.hrw.shBase
  let z := s.hrw.shSize
  let ring := s.sch.queues.any (fun x => x.2.enabled && x.2.cfg.cplHost && z < x.2.cfg.cplRing.2.1 + x.2.cfg.cplRing.2.2)
  if b % 4096 ≠ 0 || 2 ^ 64 < b + z then some 0x310
  else if z % 4096 ≠ 0 || 2 ^ 40 < z || ring then some 0x318 else none

/-! ## Groups -/

/-- The port of groups 0x30 to 0x35. -/
def groupPort (g : Nat) : Option Port := if 0x30 ≤ g then portOf (g - 0x30) else none

def isGroup (g : Nat) : Bool := g = 0x10 || g = 0x21 || (0x30 ≤ g && g ≤ 0x35) || (0x40 ≤ g && g ≤ 0x80)

/-- A group's earlier commit is pending. -/
def State.groupPending (s : State) (g : Nat) : Bool :=
  if g = 0x10 then s.tt.pend.isSome
  else if g = 0x21 then s.lnk.pend.isSome
  else if g = 0x80 then s.hrw.apPend.isSome
  else match groupPort g with
    | some p => (s.port p).pend.isSome
    | none => (s.queue (g - 0x40)).pend.isSome

/-- The first failing register of a group's shadow copies. -/
def State.groupBad (s : State) (g : Nat) : Option Nat :=
  if g = 0x10 then slackBad s.tt.shadow
  else if g = 0x21 then s.blockBad
  else if g = 0x80 then s.apertureBad
  else match groupPort g with
    | some p => if creditBad (s.port p).shadow then some (0x1010 + 0x100 * (portNum p).val) else none
    | none => s.queueBad (g - 0x40)

/-- Take the snapshot of a group's shadow copies. -/
def State.groupSnap (s : State) (g : Nat) : State :=
  if g = 0x10 then s.setTT { s.tt with pend := some s.tt.shadow, pendAt := s.tt.now }
  else if g = 0x21 then { s with lnk := { s.lnk with pend := some (s.lnk.shOrigin, s.lnk.shX, s.lnk.shY, s.lnk.shZ) } }
  else if g = 0x80 then { s with hrw := { s.hrw with apPend := some (s.hrw.shBase, s.hrw.shSize) } }
  else match groupPort g with
    | some p => s.setPort p { s.port p with pend := some (s.port p).shadow }
    | none => s.setQueue (g - 0x40) { s.queue (g - 0x40) with pend := some (s.queue (g - 0x40)).shadow }

def State.gangway (s : State) (g res why fofs : Nat) : State :=
  { s with hrw := { s.hrw with
      gGroup := BitVec.ofNat 8 g, gResult := BitVec.ofNat 2 res, gReason := BitVec.ofNat 4 why, gFofs := BitVec.ofNat 16 fofs } }

/-- Commit a group (R394, R395). -/
def State.commit (s : State) (g : Nat) : State :=
  if !isGroup g then s.gangway g 3 3 0
  else if s.groupPending g then s.gangway g 3 2 0
  else match s.groupBad g with
    | some off => s.gangway g 3 1 off
    | none => (s.groupSnap g).gangway g 1 0 0

/-! ## Safe points (R254, R322, R330, R341, R380) -/

/-- The last committed group has been applied. -/
def State.applied (s : State) (g : Nat) : State :=
  if s.hrw.gGroup.toNat = g && s.hrw.gResult = 1 then { s with hrw := { s.hrw with gResult := 2 } } else s

/-- A slack period starts now, later than the commit: tide time has just passed its offset in a period. (DEDUCED, log
entry 53.) -/
def State.periodTurned (s : State) : Bool :=
  let per := s.tt.slack.period * 1000
  let into := (s.tt.now + per - s.tt.slack.offset * 1000 % per) % per
  !s.tt.runs || per = 0 || (into < 2 && s.tt.pendAt + into < s.tt.now)

def State.applySlack (s : State) : State :=
  match s.tt.pend with
  | some x => if s.periodTurned then ((s.setTT { s.tt with slack := x, pend := none }).reparent).applied 0x10 else s
  | none => s

def State.applyBlock (s : State) : State :=
  match s.lnk.pend with
  | some (o, x, y, z) =>
    if s.lnk.txns.isEmpty && (s.eng 0).run.isNone && (s.eng 1).run.isNone then
      (({ s with lnk := { s.lnk with origin := o, extX := x, extY := y, extZ := z, pend := none } }).routes).applied 0x21
    else s
  | none => s

/-- Raised limits are granted on a link in use, in its next control granule; lowered ones are not (R330). -/
def Link.raised (k : Link) (new : List Nat) : Link :=
  if k.inUse then
    let up := (List.range 5).map (fun c => new.getD c 0 - k.granted.getD c 0)
    { k with granted := addFive k.granted up, owe := addFive k.owe up, ret := addFive k.ret up }
  else k

def State.applyCredit (s : State) (p : Port) : State :=
  let x := s.port p
  match x.pend with
  | some l =>
    ((s.setPort p { x with limits := l, pend := none, la := x.la.raised l, lb := x.lb.raised l }).applied
      (0x30 + (portNum p).val)).pump
  | none => s

/-- A ferry command naming HOST lies between issue and completion on a core. -/
def Fer.namesHost (f : Fer) : Bool :=
  f.queue.any (fun c => isHost c.dsrc || isHost c.ddst) || f.chans.any (fun x => isHost x.2.cmd.dsrc || isHost x.2.cmd.ddst)

/-- Commands held at issue go on, validated against the new values. -/
def State.releaseHost (s : State) : State :=
  s.cores.foldl (fun t x => match (t.core x.1).seq.cond with
    | .apertureHeld i => t.reissue x.1 i
    | _ => t) s

def State.applyAperture (s : State) : State :=
  match s.hrw.apPend with
  | some (b, z) =>
    if s.cores.any (fun x => x.2.fer.namesHost) then s
    else ((({ s with hrw := { s.hrw with apBase := b, apSize := z, apPend := none } }).applied 0x80).releaseHost)
  | none => s

def State.applyGroup (s : State) (g : Nat) : State :=
  if g = 0x10 then s.applySlack
  else if g = 0x21 then s.applyBlock
  else if g = 0x80 then s.applyAperture
  else match groupPort g with
    | some p => s.applyCredit p
    | none =>
      let x := s.queue (g - 0x40)
      if 0x40 ≤ g && g < 0x80 && !x.enabled && x.outstanding = 0 then s.applyQueue (g - 0x40) else s

/-! ## Rows -/

/-- HRW_GANGWAY_COMMIT (R394, R395). -/
def execHrwGangwayCommit (v : Word32) (s : State) : Res :=
  .next (s.regWrite 0x20 v.toNat 0xFFFFFF00 none (fun t => t.commit (v.toNat % 256)))

/-- GANGWAY_APPLY: a group's safe point (R254, R322, R330, R341, R380). -/
def execGangwayApply (group : Byte) (s : State) : Res := .next (s.applyGroup group.toNat)

end Sys2Proof.Machine
end

