-- ==== Sys2Proof/Machine/Slh.lean ====
section
/-!
DEFINITION. SLH-DSA with SHAKE and 32-byte hashes, by which images are signed and reports attested (R463, R473, R475,
Table 14-7). The functions are those of FIPS 205, which the spec names (PRESUMED, log entry 10).
-/

namespace Sys2Proof.Machine

/-- A parameter set: height, layers, height of one tree, and of FORS the height, the trees and the digest's bytes. -/
structure SlhSet where
  h  : Nat
  d  : Nat
  hp : Nat
  a  : Nat
  k  : Nat
  m  : Nat

def slh256s : SlhSet := ⟨64, 8, 8, 14, 22, 47⟩
def slh256f : SlhSet := ⟨68, 17, 4, 9, 35, 49⟩

/-- Bytes of a hash. -/
def slhN : Nat := 32

/-- Chains of a one-time key. -/
def slhLen : Nat := 67

/-! ## Integers and digits, most significant first -/

def beNat (l : List Byte) : Nat := l.foldl (fun n b => n * 256 + b.toNat) 0

def beBytes : Nat → Nat → List Byte
  | 0, _ => []
  | n + 1, v => beBytes n (v / 256) ++ [BitVec.ofNat 8 v]

/-- The first n digits of b bits. -/
def digits (b n : Nat) (l : List Byte) : List Nat :=
  (List.range n).map (fun i =>
    let first := b * i / 8
    let last := (b * i + b + 7) / 8
    beNat ((l.drop first).take (last - first)) / 2 ^ (8 * last - (b * i + b)) % 2 ^ b)

/-- The n-byte pieces of a list, k of them. -/
def pieces (n : Nat) : Nat → List Byte → List (List Byte)
  | 0, _ => []
  | k + 1, l => l.take n :: pieces n k (l.drop n)

/-! ## Addresses and hashes -/

/-- An address: layer, tree, type and three words that the type lays out. -/
structure Adrs where
  layer : Nat
  tree  : Nat
  kind  : Nat
  w1    : Nat
  w2    : Nat
  w3    : Nat

def Adrs.bytes (x : Adrs) : List Byte :=
  beBytes 4 x.layer ++ beBytes 12 x.tree ++ beBytes 4 x.kind ++ beBytes 4 x.w1 ++ beBytes 4 x.w2 ++ beBytes 4 x.w3

/-- F, H, T and PRF: the hash of data under the public seed and an address. -/
def slhHash (pk : List Byte) (x : Adrs) (data : List Byte) : List Byte := shake256 (pk ++ x.bytes ++ data) slhN

/-! ## One-time signatures (WOTS+) -/

/-- Apply the chain s times from step i. -/
def chain (pk : List Byte) (x : Adrs) : Nat → Nat → List Byte → List Byte
  | _, 0, v => v
  | i, s + 1, v => chain pk x (i + 1) s (slhHash pk { x with w3 := i } v)

/-- A message's digits with their checksum. -/
def wotsDigits (msg : List Byte) : List Nat :=
  let l := digits 4 64 msg
  let sum := (l.map (fun v => 15 - v)).foldl (· + ·) 0
  l ++ digits 4 3 (beBytes 2 (sum * 16))

/-- The key of the ends of the chains. -/
def wotsCompress (pk : List Byte) (x : Adrs) (ends : List (List Byte)) : List Byte :=
  slhHash pk { x with kind := 1, w2 := 0, w3 := 0 } ends.flatten

def wotsSecret (sk pk : List Byte) (x : Adrs) (i : Nat) : List Byte := slhHash pk { x with kind := 5, w2 := i, w3 := 0 } sk

/-- The public key of leaf x.w1. -/
def wotsPk (sk pk : List Byte) (x : Adrs) : List Byte :=
  wotsCompress pk x ((List.range slhLen).map (fun i =>
    chain pk { x with kind := 0, w2 := i, w3 := 0 } 0 15 (wotsSecret sk pk x i)))

def wotsSign (sk pk : List Byte) (x : Adrs) (msg : List Byte) : List Byte :=
  ((wotsDigits msg).zipIdx.map (fun v =>
    chain pk { x with kind := 0, w2 := v.2, w3 := 0 } 0 v.1 (wotsSecret sk pk x v.2))).flatten

def wotsFromSig (pk : List Byte) (x : Adrs) (sig msg : List Byte) : List Byte :=
  let s := pieces slhN slhLen sig
  wotsCompress pk x ((wotsDigits msg).zipIdx.map (fun v =>
    chain pk { x with kind := 0, w2 := v.2, w3 := 0 } v.1 (15 - v.1) (s.getD v.2 [])))

/-! ## Trees -/

/-- Node i of height z of a tree whose leaves `leaf` gives; tree nodes are hashed under kind and keypair. -/
def treeOf (pk : List Byte) (x : Adrs) (leaf : Nat → List Byte) : Nat → Nat → List Byte
  | 0, i => leaf i
  | z + 1, i =>
    slhHash pk { x with w2 := z + 1, w3 := i } (treeOf pk x leaf z (2 * i) ++ treeOf pk x leaf z (2 * i + 1))

/-- Climb from node i of height z by the siblings of its path. -/
def climb (pk : List Byte) (x : Adrs) : Nat → Nat → List Byte → List (List Byte) → List Byte
  | _, _, v, [] => v
  | z, i, v, y :: t =>
    climb pk x (z + 1) (i / 2) (slhHash pk { x with w2 := z + 1, w3 := i / 2 } (if i % 2 = 0 then v ++ y else y ++ v)) t

/-- The siblings of leaf i's path. -/
def authPath (node : Nat → Nat → List Byte) (height i : Nat) : List (List Byte) :=
  (List.range height).map (fun j => node j (if i / 2 ^ j % 2 = 0 then i / 2 ^ j + 1 else i / 2 ^ j - 1))

/-! ## The hypertree -/

def xmssNode (sk pk : List Byte) (layer tree : Nat) : Nat → Nat → List Byte :=
  treeOf pk ⟨layer, tree, 2, 0, 0, 0⟩ (fun i => wotsPk sk pk ⟨layer, tree, 0, i, 0, 0⟩)

def xmssSign (p : SlhSet) (sk pk : List Byte) (layer tree leaf : Nat) (msg : List Byte) : List Byte :=
  wotsSign sk pk ⟨layer, tree, 0, leaf, 0, 0⟩ msg ++ (authPath (xmssNode sk pk layer tree) p.hp leaf).flatten

def xmssFromSig (p : SlhSet) (pk : List Byte) (layer tree leaf : Nat) (sig msg : List Byte) : List Byte :=
  climb pk ⟨layer, tree, 2, 0, 0, 0⟩ 0 leaf (wotsFromSig pk ⟨layer, tree, 0, leaf, 0, 0⟩ (sig.take (slhN * slhLen)) msg)
    (pieces slhN p.hp (sig.drop (slhN * slhLen)))

/-- Bytes of one layer's signature. -/
def SlhSet.xmssLen (p : SlhSet) : Nat := slhN * (slhLen + p.hp)

/-- Sign upwards from a layer, k layers still to do. -/
def htSign (p : SlhSet) (sk pk : List Byte) : Nat → Nat → Nat → Nat → List Byte → List Byte
  | 0, _, _, _, _ => []
  | k + 1, layer, tree, leaf, msg =>
    let sig := xmssSign p sk pk layer tree leaf msg
    sig ++ htSign p sk pk k (layer + 1) (tree / 2 ^ p.hp) (tree % 2 ^ p.hp) (xmssFromSig p pk layer tree leaf sig msg)

/-- The root that a hypertree signature leads to. -/
def htRoot (p : SlhSet) (pk : List Byte) : Nat → Nat → Nat → Nat → List Byte → List Byte → List Byte
  | 0, _, _, _, _, msg => msg
  | k + 1, layer, tree, leaf, sig, msg =>
    htRoot p pk k (layer + 1) (tree / 2 ^ p.hp) (tree % 2 ^ p.hp) (sig.drop p.xmssLen)
      (xmssFromSig p pk layer tree leaf (sig.take p.xmssLen) msg)

/-! ## FORS -/

def forsSecret (sk pk : List Byte) (x : Adrs) (i : Nat) : List Byte := slhHash pk { x with kind := 6, w2 := 0, w3 := i } sk

def forsNode (sk pk : List Byte) (x : Adrs) : Nat → Nat → List Byte :=
  treeOf pk x (fun i => slhHash pk { x with w2 := 0, w3 := i } (forsSecret sk pk x i))

def forsSign (p : SlhSet) (sk pk : List Byte) (x : Adrs) (md : List Byte) : List Byte :=
  ((digits p.a p.k md).zipIdx.map (fun v =>
    let i := v.2 * 2 ^ p.a + v.1
    forsSecret sk pk x i ++ (authPath (forsNode sk pk x) p.a i).flatten)).flatten

def forsFromSig (p : SlhSet) (pk : List Byte) (x : Adrs) (sig md : List Byte) : List Byte :=
  let parts := pieces (slhN * (p.a + 1)) p.k sig
  let roots := (digits p.a p.k md).zipIdx.map (fun v =>
    let s := parts.getD v.2 []
    let i := v.2 * 2 ^ p.a + v.1
    climb pk x 0 i (slhHash pk { x with w2 := 0, w3 := i } (s.take slhN)) (pieces slhN p.a (s.drop slhN)))
  slhHash pk { x with kind := 4, w2 := 0, w3 := 0 } roots.flatten

/-! ## Signatures -/

/-- The message as signed: no prehash, the empty context string. -/
def slhMessage (msg : List Byte) : List Byte := [0, 0] ++ msg

/-- The FORS digest, the tree and the leaf that a message digest names. -/
def slhSplit (p : SlhSet) (dg : List Byte) : List Byte × Nat × Nat :=
  let n1 := (p.k * p.a + 7) / 8
  let n2 := (p.h - p.hp + 7) / 8
  let n3 := (p.hp + 7) / 8
  (dg.take n1, beNat ((dg.drop n1).take n2) % 2 ^ (p.h - p.hp), beNat ((dg.drop (n1 + n2)).take n3) % 2 ^ p.hp)

/-- Whether a signature of a set verifies under a public key: its seed, then its root. -/
def slhCheck (p : SlhSet) (key msg sig : List Byte) : Bool :=
  let pk := key.take slhN
  let r := sig.take slhN
  let forsLen := slhN * (p.k * (p.a + 1))
  let (md, tree, leaf) := slhSplit p (shake256 (r ++ key ++ slhMessage msg) p.m)
  let f := forsFromSig p pk ⟨0, tree, 3, leaf, 0, 0⟩ ((sig.drop slhN).take forsLen) md
  sig.length = slhN * (1 + p.k * (p.a + 1)) + p.d * p.xmssLen && key.length = 2 * slhN &&
    htRoot p pk p.d 0 tree leaf (sig.drop (slhN + forsLen)) f = key.drop slhN

/-- An image's signature verifies (R463). -/
@[irreducible] def slhVerify (key msg sig : List Byte) : Bool := slhCheck slh256s key msg sig

/-- PK.root of the fused seeds SK.seed, SK.prf, PK.seed (R474). -/
def slhRoot (p : SlhSet) (sk pk : List Byte) : List Byte := xmssNode sk pk (p.d - 1) 0 p.hp 0

/-- The public key of the fused seeds (R474). -/
@[irreducible] def slhPublic (seeds : List Byte) : List Byte :=
  let pk := (seeds.drop (2 * slhN)).take slhN
  pk ++ slhRoot slh256f (seeds.take slhN) pk

/-- A signature under fused seeds, with a randomizer. -/
def slhMake (p : SlhSet) (seeds rnd msg : List Byte) : List Byte :=
  let sk := seeds.take slhN
  let prf := (seeds.drop slhN).take slhN
  let pk := (seeds.drop (2 * slhN)).take slhN
  let r := shake256 (prf ++ rnd ++ slhMessage msg) slhN
  let (md, tree, leaf) := slhSplit p (shake256 (r ++ pk ++ slhRoot p sk pk ++ slhMessage msg) p.m)
  let x : Adrs := ⟨0, tree, 3, leaf, 0, 0⟩
  let s := forsSign p sk pk x md
  r ++ s ++ htSign p sk pk p.d 0 tree leaf (forsFromSig p pk x s md)

/-- The attestation signature (R475). -/
@[irreducible] def slhSign (seeds rnd msg : List Byte) : List Byte := slhMake slh256f seeds rnd msg

end Sys2Proof.Machine
end

