-- ==== Sys2Proof/Machine/HostLink.lean ====
section
/-!
DEFINITION. The host link and device memory (spec 11): CXL.mem, decoders, snoops, completions, BAR4, resets of the
link and function, MSI-X, DOE, the memory device mailbox, and the HBM controllers' rows.
-/

namespace Sys2Proof.Machine

/-! ## Configuration space (R370, R383, Tables 11-4 and 11-5) -/

/-- An uncorrectable error is noted in its status bit of advanced error reporting. (PRESUMED, log entry 138.) -/
def State.noteAer (s : State) (bit : Nat) : State :=
  { s with hrw := { s.hrw with cfg := { s.hrw.cfg with uncStatus := s.hrw.cfg.uncStatus ||| BitVec.ofNat 32 (2 ^ bit) } } }

/-- A poisoned write or completion, and a completion that has not come: PCIe's numbers of their status bits. -/
def aerPoisoned : Nat := 12
def aerTimeout : Nat := 14

/-- The size of BAR0, BAR2 or BAR4 (Table 11-5). -/
def barSize (n : Fin 3) : Nat := 2 ^ (if n = 0 then 24 else if n = 1 then 16 else 28)

/-- BAR4 is there in PCIe mode only. -/
def State.hasBar (s : State) (n : Fin 3) : Bool := n ≠ 2 || s.hrw.mode = 2

/-- A 32-bit word of configuration space; a BAR shows that it takes 64 bits. -/
def State.cfgWord (s : State) : CfgReg → Nat
  | .bar n hi =>
    if !s.hasBar n then 0
    else if hi then s.hrw.cfg.bars[n].toNat / 2 ^ 32 else s.hrw.cfg.bars[n].toNat % 2 ^ 32 + 4
  | .msixControl => 2047 + ofBool s.hrw.cfg.msixMask * 2 ^ 14 + ofBool s.hrw.cfg.msixOn * 2 ^ 15
  | .uncStatus => s.hrw.cfg.uncStatus.toNat
  | .uncMask => s.hrw.cfg.uncMask.toNat
  | .uncSeverity => s.hrw.cfg.uncSeverity.toNat
  | .corStatus => s.hrw.cfg.corStatus.toNat
  | .corMask => s.hrw.cfg.corMask.toNat

/-- A BAR with one of its words written: the bits below its size stay 0. -/
def putBar (n : Fin 3) (hi : Bool) (old : Word64) (v : Nat) : Word64 :=
  let x := if hi then v % 2 ^ 32 * 2 ^ 32 + old.toNat % 2 ^ 32 else old.toNat / 2 ^ 32 * 2 ^ 32 + v % 2 ^ 32
  BitVec.ofNat 64 (x / barSize n * barSize n)

/-- A write of a word; a status bit is cleared by writing 1. -/
def Cfg.put (c : Cfg) (r : CfgReg) (v : Word32) : Cfg :=
  match r with
  | .bar n hi => { c with bars := c.bars.set n (putBar n hi c.bars[n] v.toNat) }
  | .msixControl => { c with msixOn := v.getLsbD 15, msixMask := v.getLsbD 14 }
  | .uncStatus => { c with uncStatus := c.uncStatus &&& ~~~v }
  | .uncMask => { c with uncMask := v }
  | .uncSeverity => { c with uncSeverity := v }
  | .corStatus => { c with corStatus := c.corStatus &&& ~~~v }
  | .corMask => { c with corMask := v }

/-- Vectors whose pending bits are set, and that may be sent now, are sent (R383). -/
def State.sendPending (s : State) : State :=
  let l := s.hrw.msixPend.filter s.msixSends
  l.foldl State.sendMsix { s with hrw := { s.hrw with msixPend := s.hrw.msixPend.filter (fun v => !s.msixSends v) } }

/-- Configuration space answers once the host link has trained, whatever the interface version (R389). -/
def State.cfgOn (s : State) : Bool := s.hostUp && s.hrw.mode ≠ 0

def State.writeCfg (s : State) (r : CfgReg) (v : Word32) : State :=
  if !s.cfgOn || (match r with | .bar n _ => !s.hasBar n | _ => false) then s
  else ({ s with hrw := { s.hrw with cfg := s.hrw.cfg.put r v } }).sendPending

def State.readCfg (s : State) (r : CfgReg) : Nat := if s.cfgOn then s.cfgWord r else 0

/-- A reset of the link or of the function: MSI-X is off, its table masked and nothing pending, and the BARs are 0; error
reporting stands (R383). (PRESUMED, log entry 138.) -/
def Hrw.functionReset (h : Hrw) : Hrw :=
  { h with msix := [], msixPend := [], cfg := { h.cfg with bars := Cfg.reset.bars, msixOn := false, msixMask := false } }

/-! ## CXL.mem and BAR4 (R361, R362, R372 to R374) -/

/-- The DMEM address of a DPA (Table 11-1). -/
def dpaAddr (dpa : Nat) : Nat := dpa + dmemReserved

/-- A line is served by a committed decoder in CXL mode. -/
def State.hdmServes (s : State) (dpa : Nat) : Bool :=
  s.hrw.mode = 1 &&
    (if dpa < windowLen then s.hrw.dec0.committed
     else s.hrw.dec1.committed && dpa < windowLen + s.hrw.dec1.size)

/-- The host's copy of a window line ends its earlier invalidation. -/
def State.hostHas (s : State) (line : Nat) : State := s.usedInv [line]

/-- Bytes of an access through BAR4. -/
def bar4Len (wr : Option (List Byte)) (len : Nat) : Nat :=
  match wr with
  | some d => d.length
  | none => len

def bar4Lines (off : Nat) (wr : Option (List Byte)) (len : Nat) : List Nat := granulesOf (dmemReserved + off) (bar4Len wr len)

/-- The lines that an access of the host reaches. -/
def HostAccess.lines : HostAccess → List Nat
  | .read dpa => [dpaAddr dpa / 64]
  | .write dpa _ _ => [dpaAddr dpa / 64]
  | .bar4 off wr len _ => bar4Lines off wr len
  | .snoop line => [line]

/-- The accesses of the host that wait in the queue of the controller of a line's stack. -/
def State.queueAt (s : State) (line : Nat) : Nat :=
  (s.hrw.waiting.filter (fun x => x.lines.any (fun n => stackOf (n * 64) = stackOf (line * 64)))).length

/-- A CXL.mem answer of a line reports DevLoad, by the occupancy of the controller's queue (Table 11-4). (DESIGN CHOICE,
log entry 169.) -/
def State.withLoad (s : State) (line : Nat) : State :=
  { s with
    reply := { s.reply with devLoad := Config.devLoad (s.queueAt line) s.freeCtr }, freeCtr := s.freeCtr + 1 }

/-- A host read of a line (R361). -/
def State.hostRead (s : State) (dpa : Nat) : State :=
  let line := dpaAddr dpa / 64
  let t := s.touchLine line
  ((t.hostHas line).answer 0 (bytesAt t.dmem.cells (line * 64) 64) (t.poisoned .dmem line)).withLoad line

/-- A host write of a whole line, with the mark it carries (R362). -/
def State.hostWrite (s : State) (dpa : Nat) (data : List Byte) (poison : Bool) : State :=
  let line := dpaAddr dpa / 64
  let t := s.writeRunAs none .host none .dmem (line * 64) ((data ++ List.replicate 64 0).take 64) poison
  ((t.hostHas line).answer 0 [] false).withLoad line

/-- An access through BAR4 (R372). -/
def State.bar4 (s : State) (off : Nat) (wr : Option (List Byte)) (len : Nat) (poison : Bool) : State :=
  let a := dmemReserved + off
  let lines := bar4Lines off wr len
  match wr with
  | some d =>
    let t := s.writeRunAs none .host none .dmem a d poison
    if poison then t.noteAer aerPoisoned else t
  | none =>
    let t := s.touchAll .dmem lines
    t.answer 0 (bytesAt t.dmem.cells a len) (lines.any (t.poisoned .dmem))

/-! ## Decoders (R373, R470) -/

/-- Bytes of a unit of HRW_HDMH_SIZE. -/
def hdmUnit : Nat := 0x10000000

/-- A commit keeps the limits of its decoder. -/
def State.decoderOk (s : State) (n : Bool) (dpa size ways : Nat) : Bool :=
  s.hrw.mode = 1 && s.sec.state ≠ .recovery && ways = 1 &&
    (if n then dpa = windowLen && 0 < size && size % hdmUnit = 0 && size ≤ s.hrw.hdmh * hdmUnit
     else dpa = 0 && size = windowLen)

/-- A commit reaches its decoder while the host link is out of reset (R520). -/
def State.commitDecoder (s : State) (n : Bool) (dpa size ways : Nat) (base : Word64) : State :=
  if !s.hostUp then s else
  let d : Decoder :=
    if s.decoderOk n dpa size ways then ⟨true, false, size, base⟩ else ⟨false, true, size, base⟩
  if n then { s with hrw := { s.hrw with dec1 := d } } else { s with hrw := { s.hrw with dec0 := d } }

/-- A write of HRW_HDMH_SIZE (R378). -/
def State.writeHdmh (s : State) (v : Word32) : State :=
  let bad := if 2299 < v.toNat % 4096 then some eRANGE
    else if s.hrw.dec1.committed && v.toNat % 4096 * hdmUnit < s.hrw.dec1.size then some eIN_USE else none
  s.regWrite 0x320 v.toNat 0xFFFFF000 bad (fun t => { t with hrw := { t.hrw with hdmh := v.toNat % 4096 } })

/-! ## Back-invalidation (R375) -/

/-- The host has given a line back. -/
def State.invalidated (s : State) (line : Nat) : State :=
  { s with hrw := { s.hrw with inval := if s.hrw.inval.contains line then s.hrw.inval else s.hrw.inval ++ [line] } }

/-- A snoop sent for a remote write serves nobody any more. -/
def Snoop.without (x : Txn) (y : Nat × Snoop) : Nat × Snoop := if y.2 = .remote x then (y.1, .inv) else y

/-- A remote write asks for its lines: the host answers for one of them. Once it has given back all, the write is
performed, when its stacks accept it; if it has taken one again meanwhile, that one is asked for again. -/
def State.remoteSnooped (s : State) (line : Nat) (x : Txn) : State :=
  let t := s.invalidated line
  let lines := dmemLines (remoteGrans x x.data.length)
  if t.windowReady lines then
    if t.linesHeld lines then
      { s with hrw := { s.hrw with snoops := s.hrw.snoops ++ [(line, .remote x)], waiting := s.hrw.waiting ++ [.snoop line] } }
    else ({ t with hrw := { t.hrw with snoops := t.hrw.snoops.map (Snoop.without x) } }).remoteStore x
  else if t.hrw.snoops.any (fun y => y.2 = .remote x) then t
  else t.remoteWrite x

/-- What an answered snoop was sent for is done. -/
def State.snooped (s : State) (line : Nat) : Snoop → State
  | .cmd q seq => if (s.queue q).read = seq && s.canRead q then s.readCmd q else s
  | .record op q seq irq bytes =>
    if s.sec.state = .fatal then s
    else ((s.writeRunAs none (.dispatcher op) none .dmem (line * 64) (stampEnd s.tt.now bytes) false).recordDone q seq irq).checkLedgers
  | .remote x => s.remoteSnooped line x
  | .inv => s.invalidated line

/-- The host answers a snoop of a line: the oldest one. -/
def State.snoopAnswer (s : State) (line : Nat) : State :=
  match s.hrw.snoops.find? (fun x => x.1 = line) with
  | none => s
  | some x => ({ s with hrw := { s.hrw with snoops := s.hrw.snoops.erase x } }).snooped line x.2

/-! ## Accesses that wait for their stack (R366, R454) -/

/-- The access reaches DMEM at all: the host link is out of reset, and it is a line of a committed decoder, or the window
in PCIe mode (R372, R373, R520). -/
def State.hostReaches (s : State) (x : HostAccess) : Bool :=
  s.hostUp && (match x with
    | .read dpa => s.hdmServes dpa
    | .write dpa _ _ => s.hdmServes dpa
    | .bar4 off wr len _ => s.hrw.mode = 2 && off + bar4Len wr len ≤ windowLen
    | .snoop _ => true)

def State.hostPerform (s : State) : HostAccess → State
  | .read dpa => s.hostRead dpa
  | .write dpa data poison => s.hostWrite dpa data poison
  | .bar4 off wr len poison => s.bar4 off wr len poison
  | .snoop line => s.snoopAnswer line

/-- An access of the host: it waits while its stack accepts none, and behind those that wait already. -/
def State.hostAccess (s : State) (x : HostAccess) : State :=
  if !s.hostReaches x then s
  else if s.hrw.waiting.isEmpty && !s.linesHeld x.lines then s.hostPerform x
  else { s with hrw := { s.hrw with waiting := s.hrw.waiting ++ [x] } }

/-- Accesses of the host that waited are performed in order. -/
def State.wakeHost : Nat → State → State
  | 0, s => s
  | k + 1, s =>
    match s.hrw.waiting with
    | [] => s
    | x :: rest =>
      if s.linesHeld x.lines then s
      else State.wakeHost k (({ s with hrw := { s.hrw with waiting := rest } }).hostPerform x)

/-- A record staged in DMEM is read once its stacks accept the access. -/
def State.wakeIrec (s : State) : State :=
  match s.lnk.irecHeld with
  | some a =>
    if s.linesHeld (granulesOf a recordMax) then s
    else ({ s with lnk := { s.lnk with irecHeld := none } }).takeIrec a
  | none => s

/-- Whatever waited for a stack or a verdict goes on, where it can. -/
def State.wake (s : State) : State := (State.wakeHost s.hrw.waiting.length s).wakeRemote.wakeIrec

/-! ## CXL.io completions (R213, R236, R379) -/

/-- The read of a HOST_FENCE has returned. (DESIGN CHOICE, log entry 71.) -/
def State.fenceReturned (s : State) (q : Nat) : State :=
  match s.sch.ops.find? (fun o => o.q = q && o.kind = .hostFence && !o.waiting.isEmpty) with
  | none => s
  | some o => (s.updOp o.id (fun x => { x.fix .done 0 0 with waiting := [] })).endOpCheck o.id q

/-- A granule of a HOST source arrives. -/
def State.hostData (s : State) (g : Nat) (x : FExec) (bytes : List Byte) (poison : Bool) : State :=
  match x.pend with
  | [] => s
  | n :: rest =>
    (if poison then s.noteAer aerPoisoned else s).putChan g { x with
      pend := rest
      rx := putBytes x.rx (n * 64) (bytes.take 64)
      rxPoison := if poison then setAdd n x.rxPoison else x.rxPoison
      phase := if rest.isEmpty then .ready else .reading }

/-- The channel's command waits for the host. -/
def FExec.onHost (x : FExec) : Bool := x.phase = .flushing || (x.phase = .reading && !x.pend.isEmpty)

def State.hostCompletion (s : State) (r : Requester) (c : Completion) : State :=
  if !s.hostUp then s else match r, c with
  | .fence q, _ => s.fenceReturned q.toNat
  | .ferry g ch, c =>
    match (s.core g.toNat).fer.chan ch.toNat with
    | none => s
    | some x =>
      if !x.onHost then s
      else match c with
        | .error => s.ferFail g.toNat x cENGINE 8
        | .data b p => if x.phase = .flushing then s.ferFinish g.toNat x else s.hostData g.toNat x b p
        | .flushed => if x.phase = .flushing then s.ferFinish g.toNat x else s

def State.hostTimeout (s : State) (g : Nat) (ch : Channel) : State :=
  match (s.core g).fer.chan ch.toNat with
  | some x => if x.onHost then (s.noteAer aerTimeout).ferFail g x cENGINE 8 else s
  | none => s

/-! ## Interface version and resets (R371, R390, R392) -/

/-- Interface versions the running firmware supports. -/
def intfVersions : Nat := 1

/-- A write of HRW_INTF_SELECT. -/
def State.selectIntf (s : State) (v : Word32) : State :=
  let n := v.toNat % 256
  let bad := if s.hrw.locked then some eSELECTED
    else if n = 0 || !intfVersions.testBit (n - 1) then some eRANGE else none
  s.regWrite 0x0C v.toNat 0xFFFFFE00 bad (fun t =>
    { t with hrw := { t.hrw with version := BitVec.ofNat 8 n, locked := true } })

def State.unselect (s : State) : State := { s with hrw := { s.hrw with version := 0, locked := false } }

def rateCode : LinkRate → BitVec 3
  | .gt16 => 1 | .gt32 => 2 | .gt64 => 3

def widthCode : LinkWidth → BitVec 5
  | .x4 => 4 | .x8 => 8 | .x16 => 16

/-- One snoop of each remote write. -/
def snoopsOnce : List (Nat × Snoop) → List (Nat × Snoop)
  | [] => []
  | x :: t =>
    let r := snoopsOnce t
    match x.2 with
    | .remote _ => if r.any (fun y => y.2 = x.2) then r else x :: r
    | _ => x :: r

/-- What a snoop was for is done without an answer, or waits for its stack. -/
def State.unsnooped (s : State) (x : Nat × Snoop) : State :=
  if s.linesHeld [x.1] then
    { s with hrw := { s.hrw with snoops := s.hrw.snoops ++ [x], waiting := s.hrw.waiting ++ [.snoop x.1] } }
  else s.snooped x.1 x.2

/-- Snoops in flight when the host link resets: in PCIe mode none is needed, and what waited for one is
done; in CXL mode each is sent again. -/
def State.settleSnoops (s : State) : State :=
  let l := s.hrw.snoops
  let t := { s with hrw := { s.hrw with snoops := [], inval := [] } }
  if s.hrw.mode = 1 then
    l.foldl (fun u x => u.snoop x.1 (match x.2 with | .cmd _ _ => true | _ => false) x.2) t
  else (snoopsOnce l).foldl State.unsnooped t

/-- The host link is reset and trains: PERST# high, its reference present, and boot at step 3 or later (R371, R468, R515,
R520). (DEDUCED, log entry 78.) -/
def State.linkReset (s : State) (cxl : Bool) (rate : LinkRate) (width : LinkWidth) : State :=
  if s.pins.perstLow || !s.pins.cxlRef || s.pins.inReset || s.pwr.stage ≠ .operating then s
  else
    let t := s.unselect
    ({ t with hrw := { t.hrw.functionReset with
      mode := if cxl then 1 else 2, rate := rateCode rate, width := widthCode width, waiting := [] } }).settleSnoops

/-- A function-level reset. (DEDUCED, log entry 70.) -/
def State.flr (s : State) : State :=
  if !s.hostUp then s else
  let t := (List.range 64).foldl (fun u q =>
    (u.setQueue q { u.queue q with enabled := false }).cancelQueue q) s
  ({ t with
    sch := { t.sch with canCount := s.sch.canCount, canResult := s.sch.canResult }, hrw := t.hrw.functionReset }).unselect

/-! ## MSI-X and BAR2 (R381 to R383, Table 11-6) -/

/-- An entry of the MSI-X table is written; a vector that may then be sent and has its pending bit set is raised.
(PRESUMED, log entry 138.) -/
def State.putMsix (s : State) (v : Nat) (e : Msix) : State :=
  let t := { s with hrw := { s.hrw with msix := smPut Msix.reset s.hrw.msix v e } }
  if t.msixSends v && s.hrw.msixPend.contains v then
    ({ t with hrw := { t.hrw with msixPend := setDel v t.hrw.msixPend } }).sendMsix v
  else t

def State.unmask (s : State) (v : Nat) : State := if !s.hostUp then s else s.putMsix v { s.hrw.msixEntry v with masked := false }

/-- The four words of an entry. -/
def Msix.word (e : Msix) (k : Nat) : Nat :=
  match k with
  | 0 => e.addr.toNat % 2 ^ 32
  | 1 => e.addr.toNat / 2 ^ 32
  | 2 => e.data.toNat
  | _ => ofBool e.masked

def Msix.putWord (e : Msix) (k v : Nat) : Msix :=
  match k with
  | 0 => { e with addr := BitVec.ofNat 64 (e.addr.toNat / 2 ^ 32 * 2 ^ 32 + v) }
  | 1 => { e with addr := BitVec.ofNat 64 (v * 2 ^ 32 + e.addr.toNat % 2 ^ 32) }
  | 2 => { e with data := BitVec.ofNat 32 v }
  | _ => { e with masked := v.testBit 0 }

/-- A 32-bit word of BAR2. -/
def State.bar2Word (s : State) (off : Nat) : Nat :=
  if 0x1000 ≤ off && off < 0x1200 then
    let c := (s.queue ((off - 0x1000) / 8)).count
    if off % 8 = 0 then c % 2 ^ 32 else c / 2 ^ 32 % 2 ^ 32
  else if 0x2000 ≤ off && off < 0x2100 then
    (List.range 32).foldl (fun n i => if s.hrw.msixPend.contains (8 * (off - 0x2000) + i) then n + 2 ^ i else n) 0
  else if 0x8000 ≤ off then (s.hrw.msixEntry ((off - 0x8000) / 16)).word (off / 4 % 4)
  else 0

/-- A read of BAR2: naturally aligned, of 32 or 64 bits; a doorbell reads as 0. -/
def State.readBar2 (s : State) (off bits : Nat) : Nat :=
  if bits = 32 && off % 4 = 0 then s.bar2Word off
  else if bits = 64 && off % 8 = 0 then s.bar2Word off + s.bar2Word (off + 4) * 2 ^ 32
  else 0

/-- A write of BAR2: a doorbell takes 32 bits only, and a completion count nothing. -/
def State.writeBar2 (s : State) (off bits : Nat) (v : Word64) : State :=
  let put (t : State) (o n : Nat) : State :=
    let i := (o - 0x8000) / 16
    t.putMsix i ((t.hrw.msixEntry i).putWord (o / 4 % 4) (n % 2 ^ 32))
  if !s.hostUp then s
  else if off < 0x200 then
    if bits = 32 && off % 4 = 0 then s.ring (off % 8 = 0) (off / 8) (v.setWidth 32) else s
  else if 0x8000 ≤ off && off < 0x10000 then
    if bits = 32 && off % 4 = 0 then put s off v.toNat
    else if bits = 64 && off % 8 = 0 then put (put s off v.toNat) (off + 4) (v.toNat / 2 ^ 32)
    else s
  else s

/-- A core register through the core window: an access that is not naturally aligned or of 32 or 64 bits, or that finds no
register, reads 0 and changes nothing (R387); one of a fenced core is recorded (R388). -/
def State.windowRead (s : State) (off bits : Nat) : State :=
  let g := s.hrw.coreSel.toNat
  let base := if csrWide (off / 8 * 8) then off / 8 * 8 else off
  if !s.hrw.alive || !s.hrw.locked || s.sec.state = .recovery || !(bits = 32 || bits = 64) || off % (bits / 8) ≠ 0 then
    s.answer 0 [] false
  else match s.coreReg g base with
    | none => s.answer 0 [] false
    | some v =>
      if s.int.fenced.contains g then (s.hrwErr (0xC0000 + off) eFENCED).answer 0 [] false
      else s.answer (if bits = 64 then (if csrWide off then v else 0) else if base = off then v % 2 ^ 32 else v / 2 ^ 32) [] false

/-! ## DOE (R384, R464, R474, R475) -/

/-- The harbour master runs and answers DOE. -/
def State.doeOn (s : State) : Bool := s.sec.state = .running || s.sec.state = .recovery

def State.doeReply (s : State) (d : Doe) (l : List Byte) : State :=
  if s.doeOn && s.hostUp then ({ s with hrw := { s.hrw with doe := some d } }).answer 0 l false else s

/-- The figures of a CDAT entry: 1 and 2 the DSMAS entries of the ranges of Table 11-1; 3 to 8 the DSLBIS
entries of each range for read latency, write latency and bandwidth. -/
def cdatFigures (h : Nat) : List Byte :=
  match h with
  | 1 => leBytes 8 0 ++ leBytes 8 windowLen
  | 2 => leBytes 8 windowLen ++ leBytes 8 (dmemEnd - dmemReserved - windowLen)
  | 3 => leBytes 2 700 | 4 => leBytes 2 500 | 5 => leBytes 2 112
  | 6 => leBytes 2 700 | 7 => leBytes 2 500 | 8 => leBytes 2 112
  | _ => []

def cdatEntry (h : Nat) : List Byte := (List.range 8).map (Config.cdatByte h) ++ cdatFigures h

/-- The length of a DER element that starts a byte list. (PRESUMED, log entry 75.) -/
def derLen (l : List Byte) : Nat :=
  let n := fieldAt l 1 1
  if n < 128 then 2 + n
  else if n = 0x81 then 3 + fieldAt l 2 1
  else if n = 0x82 then 4 + fieldAt l 2 1 * 256 + fieldAt l 3 1
  else 5 + fieldAt l 2 1 * 65536 + fieldAt l 3 1 * 256 + fieldAt l 4 1

/-- The certificates of a chain, one after another. -/
def chainBytes : Nat → List Byte → List Byte
  | 0, _ => []
  | k + 1, l => if l.head? = some 0x30 then l.take (derLen l) ++ chainBytes k (l.drop (derLen l)) else []

def chainAt : Nat := 0x0C200000

/-- The chain, at most 64 KiB. -/
def State.certChain (s : State) : List Byte := (chainBytes 64 (flashBytes s.sec.flash chainAt 65536)).take 65536

/-- The content of a DER element that starts a byte list. (PRESUMED, log entry 75.) -/
def derBody (l : List Byte) : List Byte :=
  let n := fieldAt l 1 1
  (l.take (derLen l)).drop (if n < 128 then 2 else n - 0x80 + 2)

/-- Leave out the first k DER elements. -/
def derSkip : Nat → List Byte → List Byte
  | 0, l => l
  | k + 1, l => derSkip k (l.drop (derLen l))

/-- The public key of a certificate of X.509: in its signed part, after the version if it is there and five fields more,
the bit string behind the algorithm. (PRESUMED, log entry 75.) -/
def certKey (cert : List Byte) : List Byte :=
  let body := derBody (derBody cert)
  let info := derBody (derSkip (if body.head? = some 0xA0 then 6 else 5) body)
  ((derBody (derSkip 1 info)).drop 1)

/-- The identity key computed from the fused seeds is that of the chain's first certificate, its leaf (R474). -/
def State.identityOk (s : State) : Bool :=
  slhPublic s.sec.otp.idSeed = certKey (flashBytes s.sec.flash chainAt 65536)

def pad (n : Nat) (l : List Byte) : List Byte := (l ++ List.replicate n 0).take n

/-- The non-secret fuses in the order measured. -/
def Otp.public (o : Otp) : List Byte :=
  o.keys.flatMap (pad 64) ++ o.revoked.map (fun b => if b then 1 else 0) ++ [BitVec.ofNat 8 o.svn] ++
    o.sigs.flatMap (fun x => leBytes 8 x.toNat)

/-- A measurement of Table 14-9. (DESIGN CHOICE, log entry 77.) -/
def State.measurement (s : State) (i : Nat) : List Byte :=
  pad 64 (match i with
    | 0 => (List.range 64).map Config.romByte
    | 1 => shake s.sec.otp.public
    | 6 => (match s.lnk.irec with | some r => r.digest | none => [])
    | 7 => shake s.sec.selfTest
    | n => (s.sec.images.toList.getD (n - 2) Image.none_).measure)

/-- HRW_CORE_MAPk as read. -/
def State.coreMap (s : State) (k : Nat) : Nat :=
  if s.released then
    (List.range 64).foldl (fun v j => if s.int.fenced.contains (64 * k + j) then v else v + 2 ^ j) 0
  else 0

/-- Bytes 0x000 to 0x44F of the attestation report (Table 14-8). -/
def State.reportBody (s : State) (nonce : List Byte) (mask : Byte) : List Byte :=
  leBytes 4 0x46505254 ++ leBytes 4 50960 ++ pad 32 nonce ++ leBytes 8 s.tt.now ++ leBytes 8 s.log.pot ++
  leBytes 8 (match s.lnk.irec with | some r => r.id.toNat | none => 0) ++
  leBytes 2 (if s.lnk.strapsOk then s.own.toNat else 0xFFFF) ++
  [BitVec.ofNat 8 (ofBool (s.sec.images.toList.getD 2 Image.none_).slot + 2 * ofBool s.sec.bootSlot + 4 * ofBool s.sec.recovery),
    BitVec.ofNat 8 s.sec.otp.svn] ++
  leBytes 4 s.sec.activations.toNat ++ List.replicate 8 0 ++
  (List.range 64).flatMap (fun k => leBytes 8 (s.coreMap k)) ++
  (List.range 8).flatMap (fun i => if mask.getLsbD i then s.measurement i else List.replicate 64 0)

def State.report (s : State) (nonce : List Byte) (mask : Byte) : List Byte :=
  let b := s.reportBody nonce mask
  [Config.statusOk] ++ b ++ slhSign s.sec.secrets.seed ((List.range 32).map (Config.sigRandom s.freeCtr)) b

/-! ## The memory device mailbox (R369, R370) -/

/-- A mailbox answer, in CXL mode: a number the spec gives, then bytes that CXL 3.1 lays down. (DESIGN CHOICE, log entry 73.) -/
def State.mailbox (s : State) (_cmd v : Nat) (l : List Byte) : State := if s.hrw.mode = 1 then s.answer v l false else s

/-- The answer to Identify Memory Device beside the capacity. -/
def identifyBytes : List Byte := (List.range (Config.mailboxLen 0)).map (Config.mailboxByte 0)

/-- The hottest stack's temperature, as a 16-bit number of °C. -/
def State.memTemp (s : State) : Nat := s.hbm.stk.toList.foldl (fun m k => max m k.temp.toNat) 0

/-- Health information: whether pages are listed as bad; the temperature; corrected errors of volatile memory. What CXL 3.1
leaves to the device is free; there is no persistent memory. (PRESUMED, log entry 161.) -/
def State.healthInfo (s : State) : List Byte :=
  [BitVec.ofNat 8 ((Config.mailboxByte 1 0).toNat % 8 + 8 * ofBool (!s.hbm.pages.isEmpty)), 0, Config.mailboxByte 1 2,
    Config.mailboxByte 1 3] ++
  leBytes 2 s.memTemp ++ leBytes 4 0 ++ leBytes 4 (min 0xFFFFFFFF (s.hbm.stk.toList.map (·.ce.toNat)).sum) ++ leBytes 4 0

/-- The one log: the Command Effects Log, an opcode and its effects for each command of Table 11-4. (PRESUMED, log entry
161.) -/
def effectsLog : List Byte :=
  [(0x0100, 0), (0x0101, 0x10), (0x0400, 0), (0x0401, 0), (0x4000, 0), (0x4200, 0), (0x4300, 0)].flatMap
    (fun x => leBytes 2 x.1 ++ leBytes 2 x.2)

/-- The supported logs: how many, then the log's UUID and size. (PRESUMED, log entry 161.) -/
def supportedLogs : List Byte :=
  leBytes 8 1 ++ [0x0D, 0xA9, 0xC0, 0xB5, 0xBF, 0x41, 0x4B, 0x78, 0x8F, 0x79, 0x96, 0xB1, 0x62, 0x3B, 0x3F, 0x17] ++
    leBytes 4 effectsLog.length

/-- A part of the log; one that reaches past its end is not given. (PRESUMED, log entry 161.) -/
def logPart (off len : Nat) : List Byte := if off + len ≤ effectsLog.length then (effectsLog.drop off).take len else []

/-- The HBM capacity reported. -/
def State.capacity (s : State) : Nat := dmemEnd - 4096 * s.hbm.pages.length

/-- DPAs of poisoned lines in a range. -/
def State.poisonList (s : State) (dpa len : Nat) : List Nat :=
  (s.dmem.poison.filter (fun n => dpaAddr dpa ≤ n * 64 && n * 64 < dpaAddr dpa + len)).map (fun n => n * 64 - dmemReserved)

/-! ## HBM controllers (R363 to R365) and scrubs (R231) -/

/-- Lines of a stack. -/
def stackLines : Nat := 805306368

/-- The DMEM line of a stack's local line (R357). -/
def lineOfStack (n : StackId) (l : Nat) : Nat := l / 64 * 768 + n.val * 64 + l % 64

/-- A scrub read of a local line; lines taken in order count towards a pass. -/
def State.scrub (s : State) (n : StackId) (l : Nat) : State :=
  let line := lineOfStack n (l % stackLines)
  if s.linesHeld [line] then s
  else
    let t := s.touchLine line
    let k := t.stack n
    let t1 := if l % stackLines = k.scrubbed % stackLines then t.setStack n { k with scrubbed := k.scrubbed + 1 } else t
    let m := t1.hbm.stk.toList.foldl (fun a x => min a (x.scrubbed / stackLines)) ((t1.stack n).scrubbed / stackLines)
    { t1 with hbm := { t1.hbm with passes := BitVec.ofNat 64 m } }

def State.refresh (s : State) (n : StackId) : State :=
  s.setStack n { s.stack n with refreshes := (s.stack n).refreshes + 1 }

def State.refreshRequest (s : State) (n : StackId) : State :=
  s.setStack n { s.stack n with refreshes := (s.stack n).refreshes + 1, honoured := (s.stack n).honoured + 1 }

/-- A scratchpad or quay word is scrubbed. -/
def State.sramScrub (s : State) : SramRef → Nat → State
  | .lsp g, w => s.touchWord (.lsp g.toNat) (w % 2 ^ 20)
  | .quay d, w => s.touchWord (.quay d) (w % 2 ^ 23)

/-! ## Rows -/

/-- HRW_INTF_SELECT (R390). -/
def execHrwIntfSelect (v : Word32) (s : State) : Res := .next (s.selectIntf v)

/-- HRW_HDMH_SIZE_WRITE (R378). -/
def execHrwHdmhSizeWrite (v : Word32) (s : State) : Res := .next (s.writeHdmh v)

/-- HOST_MEM_READ (R361, R374). -/
def execHostMemRead (dpa : Nat) (s : State) : Res := .next (s.hostAccess (.read dpa))

/-- HOST_MEM_WRITE (R362, R366, R377). -/
def execHostMemWrite (dpa : Nat) (data : HostData) (s : State) : Res :=
  .next (s.hostAccess (.write dpa data.bytes data.poison))

/-- HDM_DECODER_COMMIT (R373). -/
def execHdmDecoderCommit (n : Bool) (dpa size ways : Nat) (base : Word64) (s : State) : Res :=
  .next (s.commitDecoder n dpa size ways base)

/-- BISNP_RESPONSE (R375). -/
def execBisnpResponse (line : Nat) (s : State) : Res := .next (s.hostAccess (.snoop line))

/-- HOST_COMPLETION (R236, R379). -/
def execHostCompletion (r : Requester) (c : Completion) (s : State) : Res := .next (s.hostCompletion r c)

/-- HOST_COMPLETION_TIMEOUT (R379). -/
def execHostCompletionTimeout (g : Gcn) (ch : Channel) (s : State) : Res := .next (s.hostTimeout g.toNat ch)

/-- HOST_LINK_RESET (R371, R372, R390). -/
def execHostLinkReset (cxl : Bool) (rate : LinkRate) (width : LinkWidth) (s : State) : Res :=
  .next (s.linkReset cxl rate width)

/-- FUNCTION_LEVEL_RESET (R392). -/
def execFunctionLevelReset (s : State) : Res := .next s.flr

/-- MSIX_UNMASK (R383). -/
def execMsixUnmask (vec : VectorId) (s : State) : Res := .next (s.unmask vec.toNat)

/-- DOE_DISCOVERY (R384). -/
def execDoeDiscovery (s : State) : Res := .next (s.doeReply .discovery ((List.range Config.doeLen).map Config.doeByte))

/-- CDAT_READ (R384). -/
def execCdatRead (handle : Nat) (s : State) : Res := .next (s.doeReply (.cdat handle) (cdatEntry handle))

/-- The Keccak unit holds the identity key while it signs (R466). -/
def State.loadKey (s : State) : State :=
  { s with sec := { s.sec with secrets := { s.sec.secrets with keccak := s.sec.secrets.seed } }, freeCtr := s.freeCtr + 1 }

/-- The identity key answers: the chain's leaf matches it, and the seed fuses could be read, the scan lock being set
(R467, R474). -/
def State.hasIdentity (s : State) : Bool := !s.sec.noIdentity && s.sec.scanLock

/-- GET_CERT (R467, R474, R475). -/
def execGetCert (s : State) : Res :=
  .next (s.doeReply .cert (if s.hasIdentity then s.certChain else [Config.statusNoIdentity]))

/-- GET_REPORT (R464, R467, R474, R475). -/
def execGetReport (nonce : List Byte) (mask : Byte) (s : State) : Res :=
  .next (if !s.hasIdentity || !s.doeOn then s.doeReply (.report nonce mask) [Config.statusNoIdentity]
    else s.loadKey.doeReply (.report nonce mask) (s.report nonce mask))

/-- DOE_ABORT (R384): the request and its answer are discarded. (DESIGN CHOICE, log entry 74.) -/
def execDoeAbort (s : State) : Res :=
  .next (if s.hrw.doe.isSome then { s with hrw := { s.hrw with doe := none }, reply := Reply.reset } else s)

/-- IDENTIFY_MEMORY_DEVICE (R369, R370). -/
def execIdentifyMemoryDevice (s : State) : Res := .next (s.mailbox 0 s.capacity identifyBytes)

/-- GET_HEALTH_INFO (R370). -/
def execGetHealthInfo (s : State) : Res := .next (s.mailbox 1 0 s.healthInfo)

/-- GET_EVENT_RECORDS (R370). -/
def execGetEventRecords (s : State) : Res :=
  .next (s.mailbox 2 s.hrw.events.length (s.hrw.events.flatMap (fun r =>
    leBytes 2 r.type.toNat ++ [r.die, r.sev.setWidth 8] ++ leBytes 2 r.unit.toNat ++ pad 32 r.payload)))

/-- CLEAR_EVENT_RECORDS (R370). -/
def execClearEventRecords (n : Nat) (s : State) : Res :=
  .next (if s.hrw.mode = 1 then { s with hrw := { s.hrw with events := s.hrw.events.drop n } } else s)

/-- GET_POISON_LIST (R370). -/
def execGetPoisonList (dpa len : Nat) (s : State) : Res :=
  let l := s.poisonList dpa len
  .next (s.mailbox 4 l.length (l.flatMap (leBytes 8)))

/-- GET_SUPPORTED_LOGS (R370). -/
def execGetSupportedLogs (s : State) : Res := .next (s.mailbox 5 0 supportedLogs)

/-- GET_LOG (R370). -/
def execGetLog (off len : Nat) (s : State) : Res := .next (s.mailbox 6 (logPart off len).length (logPart off len))

/-- HBM_PATROL_SCRUB (R363, R366). -/
def execHbmPatrolScrub (n : StackId) (line : Nat) (s : State) : Res := .next (s.scrub n line)

/-- HBM_REFRESH (R364, R365): the bank's refresh holds no access. -/
def execHbmRefresh (n : StackId) (_bank : Nat) (s : State) : Res := .next (s.refresh n)

/-- HBM_REFRESH_REQUEST (R364). -/
def execHbmRefreshRequest (n : StackId) (s : State) : Res := .next (s.refreshRequest n)

/-- SCRATCHPAD_SCRUB (R231). -/
def execScratchpadScrub (u : SramRef) (word : Nat) (s : State) : Res := .next (s.sramScrub u word)

/-- BAR4_ACCESS (R362, R372). -/
def execBar4Access (off : Nat) (wr : Option HostData) (len : Nat) (s : State) : Res :=
  .next (s.hostAccess (.bar4 off (wr.map (·.bytes)) len (wr.any (·.poison))))

end Sys2Proof.Machine
end

