-- ==== Sys2Proof/Machine/Logbook.lean ====
section
/-!
DEFINITION. The logbook controller (spec 15): records, ring, first faults, checkpoints, powered-on time, the
final write on hold-up energy, and the I3C target.
-/

namespace Sys2Proof.Machine

/-! ## Status words that several readers see -/

/-- Wear account in ms at which the warning is given, and the allowance (R438). -/
def wearWarnMs : Nat := 6480000000
def wearLimitMs : Nat := 7200000000

/-- PWR_STATUS (Table 13-10). -/
def State.pwrStatus (s : State) : Nat :=
  let p := s.pwr
  let bits (f : DiePwr → Bool) : Nat := (p.dies.toList.zipIdx).foldl (fun n x => n + ofBool (f x.1) * 2 ^ x.2) 0
  bits (fun d => wearWarnMs ≤ d.wearMs.toNat) * 2 ^ 24 + bits (·.wearSpent) * 2 ^ 16 + ofBool p.ov * 2 ^ 9 +
    ofBool p.burstFull * 2 ^ 8 + ofBool p.capMiss * 2 ^ 7 + ofBool p.therm * 32 + ofBool p.ilim * 16 + ofBool p.uv * 8 +
    ofBool p.shed * 4 + ofBool p.emerg

def bootCode : BootState → Nat
  | .booting => 0 | .running => 1 | .recovery => 2 | .halted => 3 | .fatal => 4

/-- SEC_BOOT (Table 14-11). -/
def Sec.bootWord (c : Sec) : Nat :=
  bootCode c.state * 2 ^ 28 + c.step % 16 * 2 ^ 24 + c.failCode.toNat * 2 ^ 16 + ofBool c.resetPend * 8 +
    ofBool c.fallback * 4 + ofBool c.bootSlot * 2 + ofBool c.slot

/-- LOG_STATUS (Table 15-12). -/
def LogSt.status (l : LogSt) : Nat :=
  l.lastEnd.toNat * 256 + ofBool l.sealFull * 8 + ofBool l.replayed * 4 + ofBool l.dropping * 2 + ofBool l.alert

/-- HRW_STATUS (Table 11-12). -/
def Hrw.status (h : Hrw) : Nat :=
  h.width.toNat * 2 ^ 15 + h.rate.toNat * 2 ^ 12 + h.mode.toNat * 256 + ofBool h.locked

/-- PWR_TEMPn of a die: 16 bits, two's complement. -/
def Pwr.tempWord (p : Pwr) (d : Fin 10) : Nat := ofSigned p.temps[d] 16

/-! ## Ring and first faults (R489, R496 to R498) -/

def ringSlots : Nat := 458752

def ringAt (seq : Nat) : Nat := 0x0400000 + 64 * (seq % ringSlots)

def firstAt (n : Nat) : Nat := 0x0110000 + 64 * n

/-- The 64 bytes of a record with its CRC. -/
def sealRecord (l : List Byte) : List Byte := l ++ leBytes 4 (crc32 l).toNat

/-- A record of severity ERROR or FATAL raises ALERT, and the first of its kind is copied into the next free first-fault
slot (R496, R498); SEALFULL says that none is free. -/
def LogSt.fault (l : LogSt) (r : LogRec) (bytes : List Byte) : LogSt :=
  if r.sev.toNat < 2 then l
  else
    let key := (r.type, r.die, r.unit)
    let l1 := { l with alert := true }
    if l.firsts.contains key || 15360 ≤ l.firsts.length then l1
    else { l1.jput (firstAt l.firsts.length) bytes with
      firsts := l.firsts ++ [key], sealFull := decide (15360 ≤ l.firsts.length + 1) }

/-- Write the oldest queued record. -/
def LogSt.writeOne (l : LogSt) : LogSt :=
  match l.queue with
  | [] => l
  | (seq, r, b) :: rest =>
    let bytes := sealRecord b
    LogSt.fault { l with
      queue := rest, dropping := l.dropping && decide (3072 < rest.length), mram := putBytes l.mram (ringAt seq) bytes } r bytes

def State.setLog (s : State) (l : LogSt) : State := { s with log := l }

/-- The first record that waits for room finds it. -/
def State.takeWaiting (s : State) : State :=
  match s.log.waiting with
  | [] => s
  | r :: rest => if s.log.queue.length < 4096 then (s.setLog { s.log with waiting := rest }).takeRec r else s

/-- The oldest queued record is written, and the room it leaves is taken. -/
def State.logWrite (s : State) : State := (s.setLog s.log.writeOne).takeWaiting

/-- ALERT# is asserted while ALERT is 1 (R498, Table 16-2). -/
def State.alertPin (s : State) : Bool := s.log.alert

/-- A second in which INFO records were dropped ends (R490). Each entry of the payload is a type and a count. (DESIGN CHOICE, log entry 107.) -/
def State.suppress (s : State) : State :=
  if s.log.drops.isEmpty then s
  else (s.setLog { s.log with drops := [] }).logRec ⟨0x0061, 0xFF, sNOTICE, 0,
    s.log.drops.flatMap (fun x => leBytes 2 x.1.toNat ++ leBytes 4 x.2)⟩

/-! ## Checkpoints (R492, R499) -/

def ckptAt : Nat := 0x0200FF8

/-- The next even value of CKPT after an odd one. (DEDUCED, log entry 108.) -/
def nextCkpt (c : Nat) : Nat := c + 2 - c % 2

/-- The changed health entries go to the counters section. -/
def LogSt.putHealth (l : LogSt) (h : List (Nat × Nat × Nat)) : LogSt :=
  h.foldl (fun l x => l.jput x.1 (leBytes x.2.1 x.2.2)) l

/-- The middle one of a list of readings in rising order; the lower of two. -/
def insertInt (x : Int) : List Int → List Int
  | [] => [x]
  | y :: t => if x ≤ y then x :: y :: t else y :: insertInt x t

def medianInt (l : List Int) : Option Int :=
  let r := l.foldl (fun a x => insertInt x a) []
  r[(r.length - 1) / 2]?

/-- A monitor's reading: the median of its last five valid samples (R452). (DEDUCED, log entry 85.) -/
def Monitor.value (m : Monitor) : Option Int := medianInt (m.vals.take 5)

/-- A monitor takes a valid sample. -/
def Monitor.take_ (m : Monitor) (v : Int) (now : Nat) : Monitor := ⟨v :: m.vals.take 4, now⟩

def leastInt (l : List Int) : Option Int := l.foldl (fun a x => match a with | none => some x | some y => some (min x y)) none

/-- The lowest filtered canary slack of a die's fresh canaries: 50 periods of 1 ms (R452). -/
def State.canaryLow (s : State) (d : Fin 8) : Option Int :=
  leastInt (((s.die d).canaries.filter (fun m => s.wall ≤ m.time + 50000000)).filterMap Monitor.value)

/-- A canary slack goes to CANARY_LAST and CANARY_LOW of a die. -/
def State.canaryNote (s : State) (d : Fin 8) (v : Int) : State :=
  let a := dieHealth d.val + 0x30
  let n := ofSigned v 8
  (s.healthSet a 1 n).healthLow (a + 1) 1 n

/-- CANARY_LAST and CANARY_LOW of the dies, at a checkpoint. -/
def State.canaryHealth (s : State) : State :=
  (List.finRange 8).foldl (fun t d => match s.canaryLow d with | some v => t.canaryNote d v | none => t) s

/-- PAGES of the stacks. -/
def State.pageHealth (s : State) : State :=
  (List.finRange 12).foldl (fun t n =>
    t.healthSet (stackHealth n.val + 0x36) 2 (s.hbm.pages.filter (fun x => x.1 % 12 = n.val)).length) s

/-- The logbook takes over the last checked state of each ledger (R277, R461, R492). -/
def State.keepLedgers (s : State) : State := s.setLog (s.log.jwrite (.ledgers s.sch.checked))

/-- A checkpoint of the counters section. -/
def State.checkpoint (s : State) : State :=
  if !s.log.accepting then s
  else
    let t := s.canaryHealth.pageHealth
    let c := nextCkpt (leNat (bytesAt t.log.mram ckptAt 8))
    let l := ((t.log.jput ckptAt (leBytes 8 (c - 1))).putHealth t.log.health).jwrite (.ledgers s.sch.checked)
    t.setLog { l.jput ckptAt (leBytes 8 c) with
      health := [], measured := t.log.health.foldl (fun m x => setAdd x.1 m) t.log.measured }

/-- The checkpoint of a second of tide time: at its first ns, or at the one after it where tide time advances by 2
(R284). (DEDUCED, log entry 108.) -/
def State.tideCheckpoint (s : State) : State :=
  let n := s.tt.now / 1000000000
  if s.tt.runs && s.tt.now % 1000000000 < 2 && s.log.ckpt ≠ some n then
    let t := s.checkpoint
    t.setLog { t.log with ckpt := some n }
  else s

/-! ## Powered-on time (R494, Table 15-6) -/

/-- The bin of a temperature in sixteenths of a degree. -/
def tempBin (t : Int) : Nat :=
  if t < 640 then 0 else if t < 960 then 1 else if t < 1200 then 2 else if t < 1360 then 3
  else if t < 1520 then 4 else if t < 1600 then 5 else if t < 1680 then 6 else 7

def State.second (s : State) : State :=
  if s.pwr.stage ≠ .operating then s
  else
    let t := s.setLog (s.log.scalars (s.log.pot + 1) s.log.resets s.log.powerCycles s.log.fences)
    let t1 := (List.finRange 10).foldl (fun u d => u.healthInc (dieHealth d.val + 4 * tempBin s.pwr.temps[d]) 4) t
    (List.finRange 12).foldl (fun u n =>
      let k := s.stack n
      let v := u.healthInc (stackHealth n.val + 4 * tempBin (16 * (k.temp.toNat : Int))) 4
      if k.hot then v.healthInc (stackHealth n.val + 0x38) 4 else v) t1

/-! ## The final write and the journal's replay (R488, R491) -/

/-- Complete the journal entry in progress with its done word, and write one POWER_LOSS record; the logbook holds the ledgers as last
checked (R277). -/
def State.finalWrite (s : State) (cause : Nat) : State :=
  let l := s.log
  let r : LogRec := ⟨0x0002, 0xFF, sNOTICE, 0, [BitVec.ofNat 8 cause] ++ leBytes 4 l.pot ++ leBytes 4 l.queue.length⟩
  s.setLog { (l.jwrite (.ledgers s.sch.checked)).done with
    accepting := false, queue := [], waiting := [], lastEnd := BitVec.ofNat 4 cause, seqNext := l.seqNext + 1
    mram := putBytes l.mram (ringAt l.seqNext) (sealRecord (recordBytes s l.seqNext r)) }

/-- An entry committed and not done is written again. -/
def LogSt.replay (l : LogSt) : LogSt :=
  match l.journal with
  | some e => if e.valid then { l.put e.write with journal := none, replayed := true }
    else { l with journal := none, replayed := false }
  | none => { l with replayed := false }

/-! ## I3C (R502, Table 15-10) -/

def mramSize : Nat := 0x2000000

/-- Logbook addresses whose inner layout the spec gives. (DESIGN CHOICE, log entry 105.) -/
def layoutKnown (a : Nat) : Bool :=
  (0x0110000 ≤ a && a < 0x0200000) || (0x0200000 ≤ a && a < 0x0201000) || (0x0210000 ≤ a && a < 0x0238000) ||
    0x02C0000 ≤ a

/-- What the part of the logbook at an address holds, where the spec names it and not its inner layout (Tables 15-1 to
15-3). -/
def State.logPart (s : State) (a : Nat) : List Nat :=
  if a < 0x0001000 then [s.log.seqNext, ofBool s.log.journal.isSome, 1]
  else if a < 0x0100000 then (s.log.journal.map JEntry.flat).getD []
  else if a < 0x0101000 then s.log.mfg.flat
  else if 0x0101000 ≤ a && a < 0x0110000 then s.log.baselines.flat
  else if 0x0201000 ≤ a && a < 0x0202000 then
    [s.log.pot, s.log.resets.toNat, s.log.powerCycles, s.log.fences, s.hbm.pages.length]
  else if 0x0238000 ≤ a && a < 0x0239000 then s.log.ledgers.flat
  else if 0x0240000 ≤ a && a < 0x02C0000 then (lastThree s.log.history).flatMap (fun x => x.1.code :: x.2)
  else []

/-- A logbook byte as a reader sees it. -/
def State.logByte (s : State) (a : Nat) : Byte :=
  if layoutKnown a then byteAt s.log.mram a else Config.mramByte (s.logPart a) a

def State.statusBlock (s : State) : List Byte :=
  leBytes 4 s.sec.bootWord ++ leBytes 4 s.log.status ++ leBytes 4 s.pwrStatus ++ leBytes 4 s.hrw.status ++
    leBytes 8 s.log.seqNext ++ leBytes 8 s.log.pot ++ (List.finRange 10).flatMap (fun d => leBytes 2 (s.pwr.tempWord d)) ++
    leBytes 2 s.pwr.mv ++ List.replicate 10 0

/-- The target answers. -/
def State.i3cOn (s : State) : Bool := s.log.i3cStatic.isSome && s.pwr.stage = .operating

/-- A private write. -/
def State.i3cWrite (s : State) (data : List Byte) : State :=
  if !s.i3cOn then s
  else match data with
    | [sp, a, b, c, d] =>
      if 1 < sp.toNat then s.emit .i3cNack
      else
        let status := sp = 1
        let size := if status then 64 else mramSize
        s.setLog { s.log with i3cStatus := status, i3cPtr := leNat [a, b, c, d] % size }
    | [x, y] => if x = 2 ∧ y = 1 then s.setLog { s.log with alert := false } else s.emit .i3cNack
    | _ => s.emit .i3cNack

/-- A private read. (DEDUCED, log entry 110.) -/
def State.i3cReads (s : State) (len : Nat) : State :=
  if !s.i3cOn then s
  else
    let n := min len 4096
    let size := if s.log.i3cStatus then 64 else mramSize
    let at_ (i : Nat) : Nat := (s.log.i3cPtr + i) % size
    let bytes := (List.range n).map (fun i =>
      if s.log.i3cStatus then s.statusBlock.getD (at_ i) 0 else s.logByte (at_ i))
    (({ s with freeCtr := s.freeCtr + 1 }).setLog { s.log with i3cPtr := at_ n }).answer 0 bytes false

/-! ## Rows -/

/-- LOG_RECORD (R489, R490). -/
def execLogRecord (r : LogRec) (s : State) : Res := .next (s.logRec r)

/-- LOG_RECORD_WRITE (R489, R490, R496 to R498). -/
def execLogRecordWrite (s : State) : Res := .next (if s.log.accepting then s.logWrite else s)

/-- SUPPRESSED (R490). -/
def execSuppressed (s : State) : Res := .next s.suppress

/-- LOGBOOK_CHECKPOINT (R492). -/
def execLogbookCheckpoint (s : State) : Res := .next s.tideCheckpoint

/-- ACQUIRE_CHECKPOINT (R492). -/
def execAcquireCheckpoint (s : State) : Res := .next (if s.tt.state = .acquire then s.checkpoint else s)

/-- POWERED_ON_SECOND (R494, R499). -/
def execPoweredOnSecond (s : State) : Res := .next s.second

/-- LOG_MARK (R500). -/
def execLogMark (v : Word32) (s : State) : Res :=
  .next (s.regWrite 0x100030 v.toNat 0 none (fun t => t.logRec ⟨0x0060, 0xFF, sNOTICE, 0, leBytes 4 v.toNat⟩))

/-- I3C_SET_POINTER (R502). -/
def execI3cSetPointer (data : List Byte) (s : State) : Res := .next (s.i3cWrite data)

/-- I3C_CLEAR_ALERT (R498, R502). -/
def execI3cClearAlert (data : List Byte) (s : State) : Res := .next (s.i3cWrite data)

/-- I3C_READ (R502, R503). -/
def execI3cRead (len : Nat) (s : State) : Res := .next (s.i3cReads len)

/-- I3C_INVALID_WRITE (R502). -/
def execI3cInvalidWrite (data : List Byte) (s : State) : Res := .next (s.i3cWrite data)

/-- SETDASA: the target at the static address takes a dynamic one (R502). -/
def execSetdasa (static : BitVec 7) (dyn : BitVec 7) (s : State) : Res :=
  .next (if s.i3cOn && s.log.i3cStatic = some static && s.log.i3cDyn.isNone then s.setLog { s.log with i3cDyn := some dyn } else s)

/-- ENTDAA: the target takes a dynamic address if it has none (R502). -/
def execEntdaa (dyn : BitVec 7) (s : State) : Res :=
  .next (if s.i3cOn && s.log.i3cDyn.isNone then s.setLog { s.log with i3cDyn := some dyn } else s)

end Sys2Proof.Machine
end

