-- ==== Sys2Proof/Machine/Image.lean ====
section
/-!
DEFINITION. Images, bundles and boot control in flash (spec 14, R462 to R465, R469, R477, R478), and an activation's
first step and its return.
-/

namespace Sys2Proof.Machine

/-! ## Boot control (R462) -/

structure BootCtl where
  slot   : Bool
  staged : Bool
  seq    : Nat
  deriving DecidableEq, Repr

def ctlAt (copy : Bool) : Nat := if copy then 0x0C301000 else 0x0C300000

/-- A copy's bytes before its digest: BOOTSLOT, STAGED, two bytes 0, the sequence number. (DESIGN CHOICE, log entry 99.) -/
def ctlBody (c : BootCtl) : List Byte :=
  [if c.slot then 1 else 0, if c.staged then 1 else 0, 0, 0] ++ leBytes 4 c.seq

/-- A copy, if it is valid. -/
def readCtl (flash : List Host.Cell) (copy : Bool) : Option BootCtl :=
  let l := flashBytes flash (ctlAt copy) 72
  let c : BootCtl := ⟨fieldAt l 0 1 = 1, fieldAt l 1 1 = 1, fieldAt l 4 4⟩
  if l.take 8 = ctlBody c && l.drop 8 = shake (l.take 8) then some c else none

/-- The copy in use and which it is; with none valid, slot A and nothing staged. -/
def bootCtl (flash : List Host.Cell) : BootCtl × Bool :=
  match readCtl flash false, readCtl flash true with
  | some a, some b => if a.seq < b.seq then (b, true) else (a, false)
  | some a, none => (a, false)
  | none, some b => (b, true)
  | none, none => (⟨false, false, 0⟩, true)

/-- A change goes into the other copy, with the sequence number plus 1. -/
def writeCtl (flash : List Host.Cell) (slot staged : Bool) : List Host.Cell :=
  let (c, copy) := bootCtl flash
  let body := ctlBody ⟨slot, staged, c.seq + 1⟩
  flashPut flash (ctlAt (!copy)) (body ++ shake body)

def State.staged (s : State) : Bool := (bootCtl s.sec.flash).1.staged

/-! ## Images (R463, R464, Table 14-4) -/

/-- Results of SEC_STAGE_STATUS. -/
def resSTAGED : Nat := 2
def resFORMAT : Nat := 3
def resSIGNATURE : Nat := 4
def resHASH : Nat := 5
def resSVN : Nat := 6
def resKEY_REVOKED : Nat := 7
def resFLASH : Nat := 8
def resADDR : Nat := 9

/-- Offset of the image of a kind in a bundle, and the private memory its body must fit. -/
def imageAt (kind : Nat) : Nat :=
  match kind with | 0 => 0 | 1 => 0x00800000 | 2 => 0x01000000 | _ => 0x02000000

def imageRoom (kind : Nat) : Nat :=
  match kind with | 0 => 0x100000 | 1 => 0x80000 | 2 => 0x400000 | _ => 0x200000

/-- A bundle: n bytes from an offset, none past its end. -/
abbrev Bundle := Nat → Nat → List Byte

def headerLen : Nat := 0x7500

/-- Header fields within Table 14-4, for the kind and place of the image. -/
def headerOk (h : List Byte) (kind : Nat) (recovery : Bool) : Bool :=
  let len := fieldAt h 0xC 4
  fieldAt h 0 4 = 0x46494D47 && fieldAt h 4 1 = kind && fieldAt h 5 1 = ofBool recovery && fieldAt h 6 1 ≤ 3 &&
    fieldAt h 7 1 ≤ 63 && len % 64 = 0 && 64 ≤ len && len ≤ imageRoom kind && fieldAt h 0x10 4 < len &&
    fieldAt h 0x10 4 % 4 = 0 && zeroBytes h 0x14 0x20

/-- The first check that an image fails, in the order of R463. -/
def imageFault (b : Bundle) (kind : Nat) (recovery : Bool) (o : Otp) : Option Nat :=
  let a := imageAt kind
  let h := b a headerLen
  let k := fieldAt h 6 1
  let key := b (0x00400000 + 64 * k) 64
  let slot := o.keys.getD k []
  if !headerOk h kind recovery then some resFORMAT
  else if slot.isEmpty || o.revoked.getD k false then some resKEY_REVOKED
  else if fieldAt h 7 1 < o.svn then some resSVN
  else if shake (b (a + headerLen) (fieldAt h 0xC 4)) ≠ (h.drop 0x20).take 64 then some resHASH
  else if !zeroBytes h 0x74C0 0x7500 then some resFORMAT
  else if shake key ≠ slot || !slhVerify key (h.take 0x60) ((h.drop 0x60).take 29792) then some resSIGNATURE
  else none

/-- A bundle's first image that fails, with the check. -/
def bundleFault (b : Bundle) (recovery : Bool) (o : Otp) : Option (Nat × Nat) :=
  [0, 1, 2, 3].findSome? (fun k => (imageFault b k recovery o).map (fun r => (k, r)))

/-- A running image of a bundle. -/
def imageOf (b : Bundle) (kind : Nat) (slot : Bool) : Image :=
  let h := b (imageAt kind) headerLen
  ⟨BitVec.ofNat 32 (fieldAt h 8 4), BitVec.ofNat 8 (fieldAt h 7 1), slot, shake (h.take 0x60)⟩

/-- The body of an image of a bundle. -/
def imageBody (b : Bundle) (kind : Nat) : List Byte :=
  b (imageAt kind + headerLen) (fieldAt (b (imageAt kind) headerLen) 0xC 4)

/-- The processors that run a kind of image, by number: harbour master, lockkeeper, dispatcher, pilots 0 to 7. -/
def runnersOf (kind : Nat) : List Nat := if kind < 3 then [kind] else (List.range 8).map (· + 3)

def slotSize : Nat := 0x04000000

def bundleAt (slot : Bool) : Nat := if slot then slotSize else 0

def recoveryAt : Nat := 0x08000000

/-- A bundle in flash. -/
def flashBundle (flash : List Host.Cell) (base : Nat) : Bundle := fun a n =>
  if a + n ≤ slotSize then flashBytes flash (base + a) n else []

/-- A bundle in DMEM. -/
def dmemBundle (m : List Host.Cell) (base len : Nat) : Bundle := fun a n =>
  if a + n ≤ len then bytesAt m (base + a) n else []

/-- The lowest SVN among a slot's images. -/
def lowestSvn (flash : List Host.Cell) (slot : Bool) : Nat :=
  [0, 1, 2, 3].foldl (fun m k => min m (fieldAt (flashBundle flash (bundleAt slot) (imageAt k) headerLen) 7 1)) 255

/-- The harbour master loads the bodies of images into the private memories of the processors that run them (R459,
R469). -/
def Sec.load (c : Sec) (b : Bundle) (kinds : List Nat) : Sec :=
  let new := kinds.flatMap (fun k => (runnersOf k).map (fun u => (u, imageBody b k)))
  { c with procMem := c.procMem.filter (fun x => !new.any (fun y => y.1 = x.1)) ++ new }

/-- The bundle in flash that a running image came from. -/
def Sec.bundle (c : Sec) (i : Image) : Bundle := flashBundle c.flash (if c.recovery then recoveryAt else bundleAt i.slot)

/-! ## An activation's first step, and its return (R480, R481) -/

def State.setSec (s : State) (c : Sec) : State := { s with sec := c }

/-- A reset is pending: the boot slot differs from the slot of a running image. (DEDUCED, log entry 98.) -/
def Sec.pendsReset (c : Sec) : Bool := !c.recovery && c.images.toList.any (fun i => i.slot ≠ c.bootSlot)

def actDEFERRED : Byte := 2
def actPAUSING : Byte := 3
def actDONE : Byte := 5
def actTIMEOUT : Byte := 6
def actNOTHING : Byte := 7
def actBUSY : Byte := 8
def actROLLED_BACK : Byte := 9

/-- The ACTIVATION record (Table 15-5). -/
def State.logActivation (s : State) : State :=
  s.logRec ⟨0x0042, 8, sNOTICE, 0, [s.sec.actRes, if s.sec.bootSlot then 1 else 0] ++
    s.sec.images.toList.flatMap (fun i => leBytes 4 i.version.toNat)⟩

/-- Step 1: the staged slot becomes the boot slot, and a reset is pending. -/
def State.takeSlot (s : State) : State :=
  let c := s.sec
  s.setSec { c with
    prevSlot := c.bootSlot, bootSlot := !c.bootSlot, resetPend := true
    flash := writeCtl c.flash (!c.bootSlot) false
    prevImages := #v[c.images[2], c.images[3]] }

/-- An activation runs its first step, and pauses the dispatcher (R481, R483). -/
def State.beginActivation (s : State) : State :=
  let t := s.takeSlot
  if s.sec.recovery then (t.setSec { t.sec with act := .idle, actRes := actDONE }).logActivation
  else { t with
    sec := { t.sec with act := .pausing, actRes := actPAUSING }
    sch := { t.sch with paused := true } }

/-- An emergency returns an activation that waits to DEFERRED: the boot slot is restored and still staged. -/
def State.returnSlot (s : State) : State :=
  let c := { s.sec with
    bootSlot := s.sec.prevSlot, flash := writeCtl s.sec.flash s.sec.prevSlot true
    act := .deferred s.wall none, actRes := actDEFERRED }
  ({ s with
    sec := { c with resetPend := c.pendsReset }
    sch := { s.sch with paused := false } }).ringKept

/-- An emergency begins: what it does to an activation. -/
def State.deferActivation (s : State) : State :=
  match s.sec.act with
  | .idle => s
  | .deferred _ (some _) => s.setSec { s.sec with act := .deferred s.wall none }
  | .deferred _ none => s
  | .pausing => s.returnSlot

end Sys2Proof.Machine
end

