-- ==== Sys2Proof/Machine/Power.lean ====
section
/-!
DEFINITION. Power, thermal limits, monitors and clocks (spec 13).
-/

namespace Sys2Proof.Machine

/-! ## Clocks of the compute dies (R19, R433, R440, R454, R457) -/

def minMhz : Nat := 600

/-- The CCLK a die runs at: its setting, or half of it, at least 600 MHz, after a droop. -/
def DiePwr.now (d : DiePwr) : Nat := if d.droopHold.isSome then max minMhz (d.mhz / 2) else d.mhz

/-- The idle share at a CCLK: rounded up to a multiple of 16, at most 96. -/
def idleShare (d mhz : Nat) : Nat := min 96 ((Config.idleDraw d mhz + 15) / 16 * 16)

/-- A die's clock and rail are set; its idle share, part of its holding, follows once the pilots hold credits.
(DEDUCED, log entry 141.) -/
def State.setClock (s : State) (n : Fin 8) (mhz : Nat) : State :=
  let d := { s.die n with mhz := mhz, rail := Config.railMv n.val mhz }
  if s.pwr.inControl then
    let i := idleShare n.val mhz
    s.setDie n { d with idle := i, hold := d.hold - d.idle + i }
  else s.setDie n d

def State.countSteps (s : State) (k : Nat) : State :=
  { s with pwr := { s.pwr with steps := s.pwr.steps + BitVec.ofNat 64 k } }

/-- The die's clock moves at all: its pilot runs, and self-test did not hold it at 600 MHz. (DEDUCED, log entry 95.) -/
def DiePwr.movable (d : DiePwr) : Bool := !d.pilotDown && !d.bad

/-- Lower a die by up to k steps of 25 MHz. -/
def State.lower (s : State) (n : Fin 8) (k : Nat) : State :=
  let d := s.die n
  let m := min k ((d.mhz - minMhz) / 25)
  if !d.movable || m = 0 then s else (s.setClock n (d.mhz - 25 * m)).countSteps m

/-- Every die is switched to 600 MHz at once (R447). -/
def State.switchDie (s : State) (n : Fin 8) : State := s.setClock n minMhz

def State.switchAll (s : State) : State := (List.finRange 8).foldl (fun t n => t.switchDie n) s

/-! ## Averages (R431, R432, Table 13-2) -/

def sumFirst (k : Nat) (l : List Nat) : Nat := (l.take k).foldl (· + ·) 0

/-- The average of P over the last k µs in mW; before the first sample P was 0. (DEDUCED, log entry 84.) -/
def avgOf (k : Nat) (l : List Nat) : Nat := sumFirst k l / k

def us10 : Nat := 10
def ms1 : Nat := 1000
def ms10 : Nat := 10000
def s2 : Nat := 2000000

/-- The median of the last five samples. -/
def Pwr.p (x : Pwr) : Nat := ((medianInt ((x.samples.take 5).map Int.ofNat)).getD 0).toNat

/-- The largest average of k µs that comes while P stays at a draw from now on. -/
def worst (k draw : Nat) (l : List Nat) : Nat :=
  let w := l.take k
  let t := w.foldl (· + ·) 0
  let t0 := t + (k - w.length) * draw
  (w.reverse.foldl (fun (x : Nat × Nat) v => let n := x.1 + draw - v; (n, max x.2 n)) (t0, max t t0)).2 / k

/-- The windows and their limits in mW: of Table 13-2, its 4,300 W once 150 of the 200 µs above it are spent (R435), the
burst account's once it is full, and the cap's. (DEDUCED, log entry 88.) -/
def Pwr.windows (x : Pwr) : List (Nat × Nat) :=
  [(us10, 4600000), (ms10, 4000000), (s2, 3600000)] ++ (if 150 ≤ x.hotUs then [(us10, 4300000)] else []) ++
    (if x.burstFull then [(us10, 3000000)] else []) ++ (if x.cap = 0 then [] else [(ms1, x.cap * 1000)])

/-- A window's average has reached 98 % of its limit. -/
def Pwr.reached (x : Pwr) (w : Nat × Nat) : Bool := w.2 * 98 ≤ avgOf w.1 x.samples * 100

/-- A draw would take a window's average past its limit. -/
def Pwr.exceeds (x : Pwr) (draw : Nat) (w : Nat × Nat) : Bool := w.2 < worst w.1 draw x.samples

/-- The windows for whose sake the clocks must fall. (DEDUCED, log entry 86.) -/
def Pwr.lowering (x : Pwr) : List (Nat × Nat) := x.windows.filter (fun w => x.reached w && x.exceeds x.p w)

/-- The clocks must fall. -/
def Pwr.mustLower (x : Pwr) : Bool := !x.lowering.isEmpty

/-- No active die lies a step or more below its ceiling. -/
def Pwr.atCeiling (x : Pwr) : Bool := x.dies.toList.all (fun d => !d.active || d.maxMhz < d.mhz + 25)

/-- The windows on which the clocks have been lowered since no die was last below its ceiling. -/
def Pwr.bind (x : Pwr) : Pwr :=
  let old := if x.atCeiling then [] else x.binding
  { x with binding := old ++ x.lowering.filter (fun w => !old.contains w) }

/-- The average of k µs after 10 µs more at a draw. -/
def soon (k draw : Nat) (l : List Nat) : Nat := (sumFirst (k - us10) l + min us10 k * draw) / k

/-- The highest average that counts for a raise: of a window that has lowered the clocks, over its whole length; of
another, after the next 10 µs, as in Table 13-3. (DEDUCED, log entry 86.) -/
def Pwr.ahead (x : Pwr) (draw : Nat) (w : Nat × Nat) : Nat :=
  if x.binding.contains w then worst w.1 draw x.samples else soon w.1 draw x.samples

/-- The clocks may rise: with one step more every window stays within 98 % of its limit. -/
def Pwr.hasRoom (x : Pwr) (step : Nat) : Bool :=
  x.windows.all (fun w => x.ahead (x.p + step) w * 100 ≤ w.2 * 98)

/-! ## Credits (R439 to R442) -/

def totalCredits : Nat := 4600

def Pwr.held (x : Pwr) : Nat := x.dies.toList.foldl (fun n d => n + d.hold) 0

/-- The sustained share of a die whose wear allowance is spent (R438). -/
def sustainedShare : Nat := 300

/-- The limit of R438: with every die's allowance spent, the sustained shares beside the other draw. (DEDUCED, log
entry 143.) -/
def Pwr.wearLimit (x : Pwr) : Nat :=
  if x.dies.toList.all (·.wearSpent) then x.other + 8 * sustainedShare else totalCredits

/-- The lowest limit in force, in W. -/
def Pwr.limit (x : Pwr) : Nat :=
  x.windows.foldl (fun m w => if w.1 = us10 || w.1 = ms1 || x.reached w then min m (w.2 / 1000) else m) x.wearLimit

def Pwr.pool (x : Pwr) : Nat := min (x.limit - x.other - x.held) (totalCredits - x.held - x.transit)

def Pwr.reserve (x : Pwr) : Nat := totalCredits - x.pool - x.held - x.transit

/-- Tide time lies in the device's ramp window (R302), its bounds in whole ns. (DESIGN CHOICE, log entry 153.) -/
def TT.inRamp (t : TT) : Bool :=
  let r := t.rampPeriod * 1000
  t.rampSlots = 0 || (t.runs && decide (t.rampSlot * r / t.rampSlots ≤ t.now % r) &&
    decide (t.now % r < (t.rampSlot + 1) * r / t.rampSlots))

/-- The holding of a die may be so high: a die whose allowance is spent never holds more than its sustained share
(R438). -/
def DiePwr.mayHold (d : DiePwr) (k : Nat) : Bool := !d.wearSpent || k ≤ sustainedShare

/-- The die of a waiting request. -/
def requestDie (r : Nat × Nat) : Fin 8 := ⟨r.1 % 8, Nat.mod_lt _ (by decide)⟩

/-- A request that its own die's state bars: all its cores fenced or failed in self-test (R440), or past its sustained
share (R438). It holds back no other die's request (R20). (DEDUCED, log entry 143.) -/
def State.barred (s : State) (r : Nat × Nat) : Bool :=
  let d := s.die (requestDie r)
  d.bad || s.dieFenced (requestDie r) || !d.mayHold (d.hold + r.2)

/-- A request may be granted now. (DESIGN CHOICE, log entry 90.) -/
def State.grantable (s : State) (n : Fin 8) (k : Nat) : Bool :=
  !s.pwr.emerg && k ≤ s.pwr.pool && ((s.die n).active || s.tt.inRamp)

/-- Grant the first waiting request that its die's state does not bar. The credits count as used when they come (R442). -/
def State.grant (s : State) : State :=
  match s.pwr.requests.find? (fun r => !s.barred r) with
  | none => s
  | some r =>
    let n := requestDie r
    if !s.pwr.inControl || !s.grantable n r.2 then s
    else
      let d := s.die n
      ({ s with pwr := { s.pwr with requests := s.pwr.requests.eraseP (fun x => !s.barred x) } }).setDie n
        ({ d with hold := d.hold + r.2 }.noteUse (d.hold + r.2 - d.idle) s.wall)

/-! ## Raising (R433, R441, R446, R450, R455, R457, R470) -/

/-- The credits that one step up takes are there: the rise of the idle share in the pool, and the price of the die's
activity at the higher CCLK in its holding (R440, R441). -/
def State.creditToRaise (s : State) (n : Fin 8) : Bool :=
  let d := s.die n
  let rise := idleShare n.val (d.mhz + 25) - d.idle
  rise ≤ s.pwr.pool && d.mayHold (d.hold + rise) && s.priced n (d.mhz + 25) 0

/-- The die may be raised: below its ceiling, cooled down again, out of a canary's hold, no emergency, normal images
running, and with credits for it. -/
def State.mayRaise (s : State) (n : Fin 8) : Bool :=
  let d := s.die n
  d.movable && d.mhz + 25 ≤ d.maxMhz && !d.warm && d.canaryHold.isNone && !s.pwr.emerg && s.sec.state = .running &&
    s.creditToRaise n

def State.raise1 (s : State) (n : Fin 8) : State :=
  if s.mayRaise n then (s.setClock n ((s.die n).mhz + 25)).countSteps 1 else s

/-! ## Emergencies (R446 to R449, Table 13-4) -/

/-- The causes of Table 13-4. -/
inductive Cause | shed | uv | ilim | therm
  deriving DecidableEq, Repr

def Pwr.setCause (x : Pwr) (c : Cause) (b : Bool) : Pwr :=
  match c with
  | .shed => { x with shed := b } | .uv => { x with uv := b } | .ilim => { x with ilim := b } | .therm => { x with therm := b }

def Pwr.anyCause (x : Pwr) : Bool := x.shed || x.uv || x.ilim || x.therm

/-- The EMERGENCY record (Table 15-5). -/
def State.logEmergency (s : State) (begun : Byte) : State :=
  s.logRec ⟨0x0050, 8, sNOTICE, 0, leBytes 4 s.pwrStatus ++ [begun]⟩

/-- A cause comes up; the first begins an emergency. (DEDUCED, log entry 96.) -/
def State.causeUp (s : State) (c : Cause) : State :=
  let t := { s with pwr := s.pwr.setCause c true }
  if s.pwr.emerg then t
  else
    let u := { t with pwr := { t.pwr with emerg := true, emergCnt := t.pwr.emergCnt + 1 } }
    (u.logEmergency 1).deferActivation

/-- The response to SHED, UV and ILIM. -/
def State.shedResponse (s : State) : State :=
  ({ s with hbm := { s.hbm with quarterRate := true } }).switchAll

/-- A cause goes; the last starts the 1 ms after which the emergency ends. -/
def State.causeDown (s : State) (c : Cause) : State :=
  let p := s.pwr.setCause c false
  { s with pwr := if p.anyCause then p else { p with clearAt := s.wall } }

/-- An emergency whose every cause has been clear for 1 ms ends. -/
def State.endEmergency (s : State) : State :=
  if s.pwr.emerg && !s.pwr.anyCause && s.pwr.clearAt + 1000000 ≤ s.wall then
    let t := { s with
      pwr := { s.pwr with emerg := false }
      hbm := { s.hbm with quarterRate := false } }
    let u := match t.sec.act with
      | .deferred a none => t.setSec { t.sec with act := .deferred a (some t.wall) }
      | _ => t
    u.logEmergency 0
  else s

/-! ## The input (R429, R431, R434, R435) -/

def burstMax : Nat := 36000000000000
def burstReopen : Nat := 18000000000000

/-- The burst account after a sample of P in mW, in nJ: 1 mW for 1 µs is 1 nJ. -/
def burstNext (acc p : Nat) : Nat := if 3000000 ≤ p then min burstMax (acc + (p - 3000000)) else acc - (3000000 - p)

/-- The µs of the last 10 ms whose 10 µs average exceeds 4,300 W. -/
def hotTime (l : List Nat) : Nat := ((List.range ms10).filter (fun i => 4300000 < avgOf us10 (l.drop i))).length

/-- A peak breach, on which the hardware cuts the clocks: the 10 µs average reaches 4,600 W, or the time above 4,300 W
reaches 150 µs. (DEDUCED, log entry 87.) -/
def peakBreach (now before : List Nat) : Bool :=
  (4600000 ≤ avgOf us10 now && avgOf us10 before < 4600000) || (150 ≤ hotTime now && hotTime before < 150)

/-- Since when a condition on the input has held. -/
def holdsSince (b : Bool) (now : Nat) (o : Option Nat) : Option Nat := if b then some (o.getD now) else none

/-- The conditions of Tables 13-1 and 13-4 and of R430, after a sample. -/
def InputSince.next (i : InputSince) (mv ca now : Nat) : InputSince where
  high := holdsSince (62000 < mv) now i.high
  low := holdsSince (mv < 46000) now i.low
  limit := holdsSince (10500 ≤ ca) now i.limit
  good := holdsSince (46000 ≤ mv && mv ≤ 58000) now i.good

/-- A condition has held for so many ns. -/
def heldFor (o : Option Nat) (ns now : Nat) : Bool := o.any (fun t => t + ns ≤ now)

/-- A 1 µs sample of the input. Above 65 V, where no behaviour is promised, it acts as at 62 V to 65 V (DESIGN CHOICE, log
entry 116). -/
def State.vin (s : State) (mv ca : Nat) : State :=
  let x := { s.pwr with
    mv := mv, ca := ca, since := s.pwr.since.next mv ca s.wall
    highLog := if 58000 < mv then s.pwr.highLog else none
    failing := s.pwr.failing || (s.pwr.stage = .operating && decide (mv < 42000)) }
  if x.stage ≠ .operating then { s with pwr := x }
  else
    let l := ((mv * ca / 100) :: x.samples).take s2
    let acc := burstNext x.burstNj (mv * ca / 100)
    let t := { s with pwr := { x with
      samples := l, burstNj := acc, hotUs := hotTime l
      peak10 := max x.peak10 (avgOf us10 l)
      burstFull := if burstMax ≤ acc then true else if acc ≤ burstReopen then false else x.burstFull
      ov := x.ov || decide (58000 < mv)
      other := Config.otherDraw (mv * ca / 100) } }
    if x.inControl && peakBreach l x.samples then
      (List.finRange 8).foldl (fun u n => if (u.die n).active then u.lower n 4 else u) t
    else t

/-! ## Steering (R433, R436, R444, R445, R457) -/

/-- Every active die runs at 600 MHz. -/
def Pwr.atFloor (x : Pwr) : Bool := x.dies.toList.all (fun d => !d.active || d.mhz = minMhz)

/-- One step of every active die down, or up; of every die down while the cap cannot be met (R445). A die above its
ceiling always falls, and one that the thermal response has lowered does not rise here. -/
def State.steerDies (s : State) (down up : Bool) : State :=
  (List.finRange 8).foldl (fun t n =>
    let d := t.die n
    if d.maxMhz < d.mhz then t.lower n 1
    else if down && (d.active || s.pwr.capMiss) then t.lower n 1
    else if up && d.active && d.therm = 0 then t.raise1 n
    else t) s

/-- The HBM limit of R436 and CAPMISS of R445. (DESIGN CHOICE, log entry 51.) -/
def State.lastResort (s : State) : State :=
  let x := s.pwr
  let past := x.atFloor && x.windows.any (x.exceeds x.p)
  let capped : List (Nat × Nat) := if x.cap = 0 then [] else [(ms1, x.cap * 1000)]
  let capMet := capped.all (fun w => avgOf w.1 x.samples ≤ w.2)
  let miss := if capMet then false else x.capMiss || (past && s.hbm.limited && capped.any (x.exceeds x.p))
  let t := { s with pwr := { x with capMiss := miss } }
  if past && !s.hbm.limited then
    ({ t with hbm := { t.hbm with limited := true } }).logRec ⟨Config.limitEventType, 8, sNOTICE, 0, []⟩
  else if s.hbm.limited && !(x.windows.any (x.exceeds (x.p + 1000 * Config.hbmDraw s.freeCtr))) then
    { t with hbm := { t.hbm with limited := false }, freeCtr := t.freeCtr + 1 }
  else t

/-- The lockkeeper's 10 µs step. (DEDUCED, log entry 89.) -/
def State.cclkStep (s : State) : State :=
  if !s.pwr.inControl || s.pwr.emerg then s
  else
    let down := s.pwr.mustLower || s.pwr.capMiss
    let up := !down && s.pwr.hasRoom (1000 * Config.stepDraw s.freeCtr)
    (({ s with freeCtr := s.freeCtr + 1, pwr := s.pwr.bind }).steerDies down up).lastResort

/-! ## Wear (R437, R438) -/

def State.logWear (s : State) (n : Fin 8) (sev : BitVec 2) : State :=
  s.logRec ⟨0x0053, BitVec.ofNat 8 n.val, sev, 0, [BitVec.ofNat 8 n.val] ++ leBytes 8 (s.die n).wearMs.toNat⟩

/-- The die was active at some time in the last ms. -/
def DiePwr.wasActive (d : DiePwr) (now : Nat) : Bool := d.active || d.ceased.any (fun t => now < t + 1000000)

/-- A die's account is charged; once its allowance is spent it holds no more than its sustained share. (DEDUCED, log
entry 143.) -/
def State.wearDie (s : State) (n : Fin 8) : State :=
  let d := s.die n
  if !d.wasActive s.wall then s
  else
    let ms := d.wearMs + 1
    let spent := d.wearSpent || wearLimitMs ≤ ms.toNat
    let t := (s.setDie n { d with
      wearMs := ms, wearSpent := spent, hold := if spent then min d.hold sustainedShare else d.hold }).mramPut
      (dieHealth n.val + 0x20) (leBytes 8 ms.toNat)
    if ms.toNat = wearWarnMs then t.logWear n sNOTICE
    else if ms.toNat = wearLimitMs then t.logWear n sERROR else t

/-- The charge of one ms. -/
def State.wear (s : State) : State :=
  if s.pwr.inControl && decide (3000000 < avgOf ms1 s.pwr.samples) then
    (List.finRange 8).foldl (fun t n => t.wearDie n) s
  else s

/-! ## Loss of power and trips (R429, R451, R491, R493, R512) -/

/-- What every reset and loss of power leaves: flash, fuses, MRAM and what is kept there, the pins, the
input, the commands waiting, and the model's own counters. -/
def State.kept (s : State) : State :=
  { State.reset with
    pending := s.pending, out := s.out, reply := s.reply, wall := s.wall, freeCtr := s.freeCtr
    pins := s.pins
    sec := { Sec.reset with flash := s.sec.flash, otp := s.sec.otp }
    int := { Integ.reset with fenced := s.int.fenced, adders := s.int.adders }
    hbm := { Hbm.reset with pages := s.hbm.pages }
    hrw := { Hrw.reset with hw := s.hrw.hw }
    pwr := { Pwr.reset with
      stage := s.pwr.stage, mv := s.pwr.mv, ca := s.pwr.ca, since := s.pwr.since, highLog := s.pwr.highLog
      dies := s.pwr.dies.map (fun d => { DiePwr.reset with
        wearMs := d.wearMs, wearSpent := d.wearSpent, vmin := d.vmin, fwFaultAt := d.fwFaultAt }) }
    log := { LogSt.reset with
      mram := s.log.mram, journal := s.log.journal, seqNext := s.log.seqNext, pot := s.log.pot, resets := s.log.resets
      powerCycles := s.log.powerCycles, baselines := s.log.baselines, ledgers := s.log.ledgers
      lastEnd := s.log.lastEnd, firsts := s.log.firsts, fences := s.log.fences, sealFull := s.log.sealFull
      mfg := s.log.mfg, history := s.log.history, measured := s.log.measured } }

/-- Every regulator goes off, after the final logbook write if the module was powered. -/
def State.powerOff (s : State) (cause : Nat) (stage : InputStage) : State :=
  let t := if s.pwr.stage = .operating then s.finalWrite cause else s
  let u := { t with pwr := { t.pwr with stage := stage } }
  { u.kept with pins := { u.pins with inReset := false } }

/-- Power is lost with no POWER_LOSS record: V_IN has been below 42 V, the lockout that writes it has not acted, and power
comes back (R488, R493, LASTEND 5). (DESIGN CHOICE, log entry 109.) -/
def State.powerLost (s : State) : State :=
  let t := { s with
    pwr := { s.pwr with stage := .off }
    log := { s.log.put (.ledgers s.sch.checked) with lastEnd := 5 } }
  { t.kept with pins := { t.pins with inReset := false, fault := false, thermTrip := false, perstSeen := false } }

/-- A thermal trip. -/
def State.trip (s : State) : State :=
  let t := s.powerOff 3 .trip
  { t with pins := { t.pins with thermTrip := true, fault := true } }

/-! ## Temperatures (R450 to R453, Table 13-5) -/

/-- Fresh readings of a die's monitors, older than neither so many ns. -/
def freshVals (l : List Monitor) (now age : Nat) : List Int :=
  (l.filter (fun m => !m.vals.isEmpty && now ≤ m.time + age)).filterMap Monitor.value

/-- A list of monitors takes one sample each: what is outside the range is not valid. -/
def sampleAll (lo hi : Int) (now : Nat) : List Monitor → List Int → List Monitor
  | m :: ms, v :: vs => (if lo ≤ v ∧ v ≤ hi then m.take_ v now else m) :: sampleAll lo hi now ms vs
  | ms, _ => ms

def countBad (lo hi : Int) (n : Nat) (vals : List Int) : Nat := ((vals.take n).filter (fun v => v < lo ∨ hi < v)).length

def addSat (a : Word32) (n : Nat) : Word32 := BitVec.ofNat 32 (min 0xFFFFFFFF (a.toNat + n))

def State.monitorsOf (s : State) (d : Nat) (n : Nat) : List Monitor :=
  match s.pwr.sensors.find? (fun x => x.1 = d) with
  | some x => x.2
  | none => List.replicate n ⟨[], 0⟩

def maxInt (l : List Int) : Option Int := l.foldl (fun a x => match a with | none => some x | some y => some (max x y)) none

/-- Sensors of a die, and how many it needs. -/
def sensorsOf (d : DieId) : Nat := if d.val < 8 then 64 else 16
def sensorsNeeded (d : DieId) : Nat := if d.val < 8 then 8 else 4

/-- A stack's filtered reading in °C, left out while stale: 50 periods of 1 ms. -/
def Stack.reading (k : Stack) (now : Nat) : Option Int := maxInt (freshVals [k.mon] now 50000000)

/-- Every filtered reading is at most 100 °C: the dies', and the stacks'. -/
def State.allCool (s : State) : Bool :=
  s.pwr.temps.toList.all (fun t => t ≤ 1600) && s.hbm.stk.toList.all (fun k => (k.reading s.wall).all (· ≤ 100))

/-- Keep the wall time since which every reading has been at most 100 °C. -/
def State.noteCool (s : State) : State :=
  let c := if s.allCool then (match s.pwr.coolAt with | some t => some t | none => some s.wall) else none
  { s with pwr := { s.pwr with coolAt := c } }

/-- TMAX of a health entry, in sixteenths. -/
def State.noteMax (s : State) (off : Nat) (t : Int) : State :=
  if !s.healthMeasured off || toSigned (healthVal s off 2) 16 < t then s.healthSet off 2 (ofSigned t 16) else s

/-- What a die's temperature, or a stack's, does at 105 °C; a die that a new emergency finds there counts it
(THERM_EMERG). -/
def State.thermUp (s : State) (new : Bool) (at_ : Option DieId) : State :=
  let t := s.causeUp .therm
  match at_ with
  | some d =>
    let u := if new then t.healthInc (dieHealth d.val + 0x94) 4 else t
    if h : d.val < 8 then u.switchDie ⟨d.val, h⟩ else u
  | none => t

/-- What a die's temperature does at 100 °C and at 98 °C: a compute die rises no more before it has cooled, an I/O die's
units run at half their access rate. -/
def State.ioRate (s : State) (d : DieId) (t : Int) : State :=
  if h : d.val < 8 then
    let n : Fin 8 := ⟨d.val, h⟩
    s.setDie n { s.die n with warm := 1600 ≤ t || ((s.die n).warm && 1568 < t) }
  else { s with pwr := { s.pwr with ioHalf := s.pwr.ioHalf.set (d.val % 2) (1600 ≤ t) (Nat.mod_lt _ (by decide)) } }

/-- The temperature sensors of a die are sampled: readings in sixteenths of a degree. (DESIGN CHOICE, log entry 92.) -/
def State.tempSample (s : State) (d : DieId) (vals : List Int) : State :=
  if s.pwr.stage ≠ .operating then s
  else
    let n := sensorsOf d
    let m := sampleAll (-640) 2400 s.wall (s.monitorsOf d.val n) (vals.take n)
    let fresh := freshVals m s.wall 1000000
    let hot := maxInt fresh
    let temp := if fresh.length < sensorsNeeded d then 1680 else hot.getD 1680
    let p := { s.pwr with
      sensors := s.pwr.sensors.filter (fun x => x.1 ≠ d.val) ++ [(d.val, m)]
      temps := s.pwr.temps.set d temp
      inval := addSat s.pwr.inval (countBad (-640) 2400 n vals)
      stale := addSat s.pwr.stale (n - fresh.length) }
    let t := ((({ s with pwr := p }).noteMax (dieHealth d.val + 0x28) temp).ioRate d temp).noteCool
    if (hot.getD 0) ≥ 1840 then t.trip
    else if temp ≥ 1680 && t.pwr.inControl then t.thermUp (!t.pwr.therm) (some d) else t

/-- A stack's reading in °C. -/
def State.hbmTemp (s : State) (n : StackId) (degc : Byte) : State :=
  if s.pwr.stage ≠ .operating then s
  else
    let k := s.stack n
    let c : Int := degc.toNat
    let m := if c ≤ 150 then k.mon.take_ c s.wall else k.mon
    let k1 := { k with temp := degc, mon := m, hot := 85 ≤ degc.toNat }
    let f := (k1.reading s.wall).getD 0
    let t := s.setStack n { k1 with halfRate := 100 ≤ f }
    let u := ((t.noteMax (stackHealth n.val + 0x34) (16 * c)).noteCool)
    let v := { u with pwr := { u.pwr with
      inval := addSat u.pwr.inval (if c ≤ 150 then 0 else 1)
      stale := addSat u.pwr.stale (if (k1.reading s.wall).isSome then 0 else 1) } }
    if f ≥ 115 then v.trip
    else if f ≥ 105 && v.pwr.inControl then v.thermUp (!v.pwr.therm) none else v

/-- Readings of at least 105 °C begin the emergency, where none of them has yet. -/
def State.thermCheck (s : State) : State :=
  (List.finRange 10).foldl (fun t (d : Fin 10) =>
    if 1680 ≤ t.pwr.temps[d] then t.thermUp (!s.pwr.therm) (some d) else t) s

/-- The thermal step of 100 µs. -/
def State.throttle (s : State) : State :=
  if !s.pwr.inControl then s
  else if !s.pwr.therm && s.pwr.temps.toList.any (1680 ≤ ·) then s.thermCheck
  else if s.pwr.emerg then s
  else (List.finRange 8).foldl (fun t n =>
    let temp := t.pwr.temps[n.val]'(by omega)
    let d := t.die n
    if temp ≥ 1600 then
      let u := t.lower n 1
      if (u.die n).mhz < d.mhz then u.setDie n { u.die n with therm := d.therm + 1 } else u
    else if temp ≤ 1568 && 0 < d.therm then
      let u := if t.pwr.hasRoom (1000 * Config.stepDraw s.freeCtr) then t.raise1 n else t
      if d.mhz < (u.die n).mhz || d.maxMhz ≤ d.mhz then u.setDie n { u.die n with therm := d.therm - 1 } else u
    else t) { s with freeCtr := s.freeCtr + 1 }

/-! ## Canaries and droop (R454, R455) -/

def State.canaryEvent (s : State) (d : Fin 8) (i : Nat) (slack : Int) : State :=
  let t := (s.lower d 1).healthInc (dieHealth d.val + 0x88) 4
  let u := t.setDie d { t.die d with canaryHold := some s.wall }
  u.logRec ⟨0x0052, BitVec.ofNat 8 d.val, sNOTICE, 0, [BitVec.ofNat 8 d.val] ++ leBytes 2 i ++ leBytes 2 (ofSigned slack 16)⟩

/-- The first fresh canary whose filtered slack has fallen below 5 ps. -/
def lowCanary (now : Nat) (old new : List Monitor) : Option (Nat × Int) :=
  (new.zipIdx).findSome? (fun x => match x.1.value with
    | some v =>
      let before := ((old[x.2]?).bind Monitor.value).getD 5
      if now ≤ x.1.time + 50000000 && v < 5 && 5 ≤ before then some (x.2, v) else none
    | none => none)

/-- The timing-margin canaries of a die are sampled, in ps. -/
def State.canarySample (s : State) (d : Fin 8) (vals : List Int) : State :=
  if !s.pwr.inControl then s
  else
    let x := s.die d
    let old := if x.canaries.isEmpty then List.replicate 256 ⟨[], 0⟩ else x.canaries
    let m := sampleAll 0 200 s.wall old (vals.take 256)
    let fresh := freshVals m s.wall 50000000
    let t := ({ s with pwr := { s.pwr with
      inval := addSat s.pwr.inval (countBad 0 200 256 vals)
      stale := addSat s.pwr.stale (256 - fresh.length) } }).setDie d { x with canaries := m }
    match lowCanary s.wall old m with
    | some (i, v) => t.canaryEvent d i v
    | none => t

/-- 1 s after a canary's event; a slack that is still below 5 ps lowers the die again. (DEDUCED, log entry 144.) -/
def State.canaryEnd (s : State) (d : Fin 8) : State :=
  match (s.die d).canaryHold with
  | some a =>
    if a + secondNs ≤ s.wall then
      let t := s.setDie d { s.die d with canaryHold := none }
      match lowCanary s.wall [] (s.die d).canaries with
      | some (i, v) => t.canaryEvent d i v
      | none => t
    else s
  | none => s

/-! ## Process monitors (R452, R495, Tables 13-6 and 15-7) -/

/-- Process monitors of a die. -/
def processOf (d : DieId) : Nat := if d.val < 8 then 16 else 4

/-- The mean change of readings since their baseline, in tenths of a percent. (DESIGN CHOICE, log entry 92.) -/
def drift (base vals : List Int) : Int :=
  let l : List Int := ((base.zip vals).filter (fun x => x.1 ≠ 0)).map (fun (x : Int × Int) => (x.2 - x.1) * 1000 / x.1)
  l.foldl (· + ·) 0 / l.length

/-- The baseline of a die's process monitors: their first readings. -/
def State.processBase (s : State) (d : DieId) (vals : List Int) : List Int :=
  ((s.log.baselines.process.find? (fun x => x.1 = d.val)).map Prod.snd).getD vals

def State.noteProcess (s : State) (d : DieId) (base : List Int) : State :=
  let b := s.log.baselines
  if b.process.any (fun x => x.1 = d.val) then s
  else { s with log := s.log.jwrite (.baselines { b with process := b.process ++ [(d.val, base)] }) }

/-- The process monitors of a die are sampled; the filtered readings' change goes to the health report. -/
def State.processSample (s : State) (d : DieId) (vals : List Int) : State :=
  if s.pwr.stage ≠ .operating || vals.length < processOf d then s
  else
    let old : List Monitor := ((s.pwr.process.find? (fun x => x.1 = d.val)).map Prod.snd).getD (List.replicate (processOf d) ⟨[], 0⟩)
    let m : List Monitor := (old.zip vals).map (fun (x : Monitor × Int) => x.1.take_ x.2 s.wall)
    let now := m.filterMap Monitor.value
    let base := s.processBase d now
    let t := { s with pwr := { s.pwr with process := s.pwr.process.filter (fun (x : Nat × List Monitor) => x.1 ≠ d.val) ++ [(d.val, m)] } }
    (t.noteProcess d base).healthSet (dieHealth d.val + 0x32) 2 (ofSigned (drift base now) 16)

def ioSide (d : DieId) : Fin 2 := ⟨d.val % 2, Nat.mod_lt _ (by decide)⟩

/-- The length in ns of 64 cycles of the slowest clock that a droop of an I/O die holds: HCLK at 1.2 GHz. (DEDUCED, log entry 93.) -/
def ioHoldNs : Nat := 54

/-- A droop detector finds its supply below its threshold. Of an I/O die the state keeps when: its collective engine issues
no addition for 64 cycles of FCLK, its HBM controllers no access for 64 of HCLK. -/
def State.droop (s : State) (d : DieId) : State :=
  if s.pwr.stage ≠ .operating then s
  else
    let t := ({ s with pwr := { s.pwr with droops := s.pwr.droops.set d (s.pwr.droops[d] + 1) } }).healthInc
      (dieHealth d.val + 0x80) 8
    if h : d.val < 8 then
      let n : Fin 8 := ⟨d.val, h⟩
      t.setDie n { t.die n with droopHold := some ((t.die n).cycles + 256) }
    else { t with pwr := { t.pwr with ioDroop := t.pwr.ioDroop.set (ioSide d) (some s.wall) } }

/-- The droop response ends. -/
def State.droopEnd (s : State) (d : DieId) : State :=
  if h : d.val < 8 then
    let n : Fin 8 := ⟨d.val, h⟩
    match (s.die n).droopHold with
    | some c => if c ≤ (s.die n).cycles then s.setDie n { s.die n with droopHold := none } else s
    | none => s
  else match s.pwr.ioDroop[ioSide d] with
    | some a => if a + ioHoldNs ≤ s.wall then { s with pwr := { s.pwr with ioDroop := s.pwr.ioDroop.set (ioSide d) none } } else s
    | none => s

/-! ## Vmin (R456) -/

/-- Steps that passed before a mismatch, a slack of 0 or 60 mV. (DEDUCED, log entry 94.) -/
def passedSteps : Nat → List MarginStep → Nat
  | 0, _ => 0
  | _, [] => 0
  | k + 1, x :: t => if x.mismatch || x.slack = 0 then 0 else 1 + passedSteps k t

/-- The margin in mV. -/
def vminMargin (l : List MarginStep) : Nat := 5 * passedSteps 12 l

/-- The lowest canary slack of the steps made. -/
def vminSlack (l : List MarginStep) : Nat := ((l.take (passedSteps 12 l + 1)).take 12).foldl (fun m x => min m x.slack) 200

def State.dieIdle (s : State) (n : Fin 8) : Bool := s.cores.all (fun x => dieOf x.1 ≠ n || x.2.op.isNone) && s.sch.copies.all (fun x => dieOf x.1 ≠ n)

/-- The first Vmin margin of a die (Table 15-2). -/
def State.vminBase (s : State) (n : Fin 8) (m : Nat) : State :=
  let b := s.log.baselines
  if b.vmin.any (fun x => x.1 = n.val) then s
  else { s with log := s.log.jwrite (.baselines { b with vmin := b.vmin ++ [(n.val, m)] }) }

/-- The Vmin measurement of a die. The rail, which it lowers in steps of 5 mV, stands again at its setting at the end;
the margin and the lowest canary slack go to the health report. (DEDUCED, log entry 94.) -/
def State.vmin (s : State) (n : Fin 8) (l : List MarginStep) : State :=
  let d := s.die n
  let due := match d.vmin with | some t => t + 86400 ≤ s.log.pot | none => true
  if !s.schedOn || !s.int.margin || !s.dieIdle n || d.pilotDown || !due then s
  else
    let m := vminMargin l
    let a := dieHealth n.val + 0x2A
    let t := (((s.healthSet a 2 m).healthLow (a + 2) 2 m).healthInc (a + 4) 2).canaryNote n (vminSlack l)
    ((t.setDie n { d with vmin := some s.log.pot, rail := Config.railMv n.val d.mhz }).vminBase n m).logRec
      ⟨0x0016, BitVec.ofNat 8 n.val, sINFO, 0, leBytes 2 m ++ leBytes 2 (vminSlack l)⟩

/-! ## Register writes -/

/-- A write of PWR_CAP (R444, R445, Table 13-11). -/
def State.writeCap (s : State) (v : Word32) : State :=
  let w := v.toNat % 8192
  s.regWrite 0x60004 v.toNat 0xFFFEE000 (rangeIf (4600 < w)) (fun t =>
    { t with pwr := { t.pwr with
        cap := if 1 ≤ w && w < 400 then 400 else w, clamped := 1 ≤ w && w < 400
        capMiss := t.pwr.capMiss && w ≠ 0 } })

/-- A write of CLK_CCLK_MAXn (R457, Table 13-9). -/
def State.writeMax (s : State) (n : Fin 8) (v : Word32) : State :=
  let m := v.toNat % 4096
  s.regWrite (0x70040 + 4 * n.val) v.toNat 0xFFFFF000 (rangeIf (m % 25 ≠ 0 || m < 600 || 2700 < m)) (fun t =>
    t.setDie n { t.die n with maxMhz := m })

/-! ## Rows -/

/-- VIN_SAMPLE (R431, R434, R435): V_IN in mV and the current in units of 10 mA. -/
def execVinSample (mv ca : Nat) (s : State) : Res := .next (s.vin mv ca)

/-- CCLK_STEP (R433, R436, R444, R445, R457). -/
def execCclkStep (s : State) : Res := .next s.cclkStep

/-- UNDERVOLTAGE_LOCKOUT (R429, R491, R512). -/
def execUndervoltageLockout (s : State) : Res :=
  if s.pwr.mv < 42000 then
    let t := s.powerOff 1 .off
    .next { t with pins := { t.pins with fault := false, thermTrip := false, perstSeen := false } }
  else .next s

/-- OVERVOLTAGE_LOCKOUT (R429, R491, R512): above 62 V for 2 µs. -/
def execOvervoltageLockout (s : State) : Res :=
  if heldFor s.pwr.since.high 2000 s.wall && s.pwr.stage ≠ .trip then
    let t := s.powerOff 2 .overvoltage
    .next { t with pins := { t.pins with fault := true } }
  else .next s

/-- HIGH_INPUT_LOG (R429): once each 1 s that the high input persists. -/
def execHighInputLog (s : State) : Res :=
  if 58000 < s.pwr.mv && s.pwr.stage = .operating && s.pwr.highLog.all (fun t => t + secondNs ≤ s.wall) then
    .next (({ s with pwr := { s.pwr with ov := true, highLog := some s.wall } }).logRec ⟨0x0051, 0xFF, sERROR, 0, leBytes 4 s.pwr.mv⟩)
  else .next s

/-- SHED_ASSERT (R446, R447, R513). -/
def execShedAssert (s : State) : Res :=
  let t := { s with pins := { s.pins with shedLow := true } }
  .next (if s.pwr.inControl && s.pwr.stage = .operating then (t.causeUp .shed).shedResponse else t)

/-- SHED_RELEASE (R446). -/
def execShedRelease (s : State) : Res :=
  let t := { s with pins := { s.pins with shedLow := false } }
  .next (if s.pwr.shed then t.causeDown .shed else t)

/-- UV_EMERGENCY (R429, R446): below 46 V for 2 µs. -/
def execUvEmergency (s : State) : Res :=
  .next (if s.pwr.inControl && heldFor s.pwr.since.low 2000 s.wall then (s.causeUp .uv).shedResponse else s)

/-- UV_CLEAR (R446). -/
def execUvClear (s : State) : Res := .next (if s.pwr.uv && 46500 ≤ s.pwr.mv then s.causeDown .uv else s)

/-- ILIM_EMERGENCY (R446): at least 105 A for 2 µs. -/
def execIlimEmergency (s : State) : Res :=
  .next (if s.pwr.inControl && heldFor s.pwr.since.limit 2000 s.wall then (s.causeUp .ilim).shedResponse else s)

/-- ILIM_CLEAR (R446). -/
def execIlimClear (s : State) : Res := .next (if s.pwr.ilim && s.pwr.ca < 9500 then s.causeDown .ilim else s)

/-- THERM_CLEAR (R446): every reading at most 100 °C for 10 ms. -/
def execThermClear (s : State) : Res :=
  match s.pwr.coolAt with
  | some t => .next (if s.pwr.therm && t + 10000000 ≤ s.wall then s.causeDown .therm else s)
  | none => .next s

/-- EMERGENCY_END (R448). -/
def execEmergencyEnd (s : State) : Res := .next s.endEmergency

/-- THERMAL_THROTTLE (R450). -/
def execThermalThrottle (s : State) : Res := .next s.throttle

/-- TEMP_SAMPLE (R446, R450 to R453). -/
def execTempSample (d : DieId) (vals : List Int) (s : State) : Res := .next (s.tempSample d vals)

/-- CANARY_SAMPLE (R452, R455). -/
def execCanarySample (d : ComputeDie) (vals : List Int) (s : State) : Res := .next (s.canarySample d vals)

/-- CANARY_HOLD_END (R455). -/
def execCanaryHoldEnd (d : ComputeDie) (s : State) : Res := .next (s.canaryEnd d)

/-- PROCESS_MONITOR_SAMPLE (R452, R495): at boot and every hour. -/
def execProcessMonitorSample (d : DieId) (vals : List Int) (s : State) : Res := .next (s.processSample d vals)

/-- DROOP_EVENT (R454). -/
def execDroopEvent (d : DieId) (s : State) : Res := .next (s.droop d)

/-- DROOP_HOLD_END (R454). -/
def execDroopHoldEnd (d : DieId) (s : State) : Res := .next (s.droopEnd d)

/-- VMIN_MEASUREMENT (R426, R456). -/
def execVminMeasurement (d : ComputeDie) (steps : List MarginStep) (s : State) : Res := .next (s.vmin d steps)

/-- CREDIT_REQUEST (R441). -/
def execCreditRequest (d : ComputeDie) (n : Nat) (s : State) : Res :=
  .next (if s.pwr.inControl && n % 16 = 0 && 0 < n then
    { s with pwr := { s.pwr with requests := s.pwr.requests ++ [(d.val, n)] } } else s)

/-- CREDIT_GRANT (R302, R438, R439, R441, R446). -/
def execCreditGrant (s : State) : Res := .next s.grant

/-- The credits of a die that it has not used for 1 ms; the idle share is never among them (R440, R442). -/
def State.unused (s : State) (n : Fin 8) : Nat :=
  let d := s.die n
  d.hold - d.idle - max (s.activity n d.mhz) (d.used s.wall)

/-- CREDIT_RELEASE (R440, R442). -/
def execCreditRelease (d : ComputeDie) (n : Nat) (s : State) : Res :=
  .next (if s.pwr.inControl then s.setDie d ((s.die d).release (min n (s.unused d)) s.wall) else s)

/-- WEAR_CHARGE (R437, R438). -/
def execWearCharge (s : State) : Res := .next s.wear

/-- PWR_CAP_WRITE (R444, R445). -/
def execPwrCapWrite (v : Word32) (s : State) : Res := .next (s.writeCap v)

/-- CLK_CCLK_MAX_WRITE (R457). -/
def execClkCclkMaxWrite (d : ComputeDie) (v : Word32) (s : State) : Res := .next (s.writeMax d v)

/-- HBM_TEMP_READ (R364, R365, R446, R450, R451). -/
def execHbmTempRead (n : StackId) (degc : Byte) (s : State) : Res := .next (s.hbmTemp n degc)

end Sys2Proof.Machine
end

