-- ==== Sys2Proof/Machine/Boot.lean ====
section
/-!
DEFINITION. Boot, device reset, straps and reference clocks (spec 14, R466 to R474; spec 16, R512 to R521).
-/

namespace Sys2Proof.Machine

/-! ## How boot ends (R468 to R474, Tables 14-5, 14-6, 14-11) -/

def fcSLOT_INVALID : Byte := 1
def fcBOTH_INVALID : Byte := 2
def fcRECOVERY_INVALID : Byte := 3
def fcSECRETS : Byte := 4
def fcBIST_IO : Byte := 5
def fcHBM_TRAIN : Byte := 6
def fcFW_FAULT : Byte := 7

/-- HRW_REV (Table 11-10). -/
def State.hrwRev (s : State) : Nat := s.sec.images[2].version.toNat % 65536 * 65536 + s.hrw.hw.toNat

/-- The BOOT record. (DEDUCED, log entry 104.) -/
def State.logBoot (s : State) (sev : BitVec 2) : State :=
  s.logRec ⟨0x0001, 0xFF, sev, 0, leBytes 4 s.sec.bootWord ++ leBytes 4 s.hrwRev ++ [s.log.lastEnd.setWidth 8]⟩

/-- Boot halts after a step, with a code. -/
def State.halt (s : State) (step : Nat) (code : Byte) : State :=
  let t := s.setSec { s.sec with state := .halted, step := step, failCode := code }
  ({ t with pins := { t.pins with fault := true } }).logBoot sFATAL

/-! ## Self-test (R467, R471, R472) -/

/-- Block types, in the order of Table 14-6. (DESIGN CHOICE, log entry 100.) -/
def bistType : BistFail → Nat
  | .core _ => 0 | .die _ => 1 | .adder _ _ => 2 | .collChecker _ => 3
  | .io (.hbmController _) => 4 | .io .cxl => 5 | .io (.torusPort _) => 6
  | .io .timetable => 7 | .io .management => 8 | .io .logbook => 9

/-- The die that holds an I/O block (Table 1-1). -/
def ioDie : IoBlock → Nat
  | .hbmController c => if c.val < 6 then 8 else 9
  | .torusPort p => portDie p
  | .cxl => 8 | .management => 8
  | .timetable => 9 | .logbook => 9

def bistDie : BistFail → Nat
  | .core g => (dieOf g.toNat).val | .die d => d.val | .adder e _ => 8 + e.val | .collChecker e => 8 + e.val | .io b => ioDie b

/-- A block's number among those of its type on the device. (DESIGN CHOICE, log entry 100.) -/
def bistUnit : BistFail → Nat
  | .core g => g.toNat % 512 | .die _ => 0 | .adder e a => adderCode e.val a.toNat | .collChecker e => e.val
  | .io (.hbmController c) => c.val | .io (.torusPort p) => (portNum p).val | .io _ => 0

/-- What a failed signature fences. -/
def State.bistFence (s : State) : BistFail → State
  | .core g => s.fenceCore g.toNat 1 0xFF
  | .die d =>
    let t := (List.range 512).foldl (fun t i => t.fenceCore (d.val * 512 + i) 2 0xFF) s
    t.setDie d { t.die d with bad := true }
  | .adder e a => s.fenceAdder e.val a.toNat 1 0xFF
  | .collChecker e => (List.range 4).foldl (fun t a => t.fenceAdder e.val a 1 0xFF) s
  | .io _ => s

/-- The signature that the fuses hold for a block's type. (DESIGN CHOICE, log entry 100.) -/
def Otp.signature (o : Otp) (b : BistFail) : Word64 := o.sigs.getD (bistType b) 0

/-- The signatures that differ from those of the fuses (R471). -/
def Otp.failed (o : Otp) (l : List (BistFail × Word64)) : List (BistFail × Word64) :=
  l.filter (fun f => f.2 ≠ o.signature f.1)

def State.bistOne (s : State) (f : BistFail × Word64) : State :=
  (s.logRec ⟨0x0010, BitVec.ofNat 8 (bistDie f.1), sERROR, BitVec.ofNat 16 (bistUnit f.1),
    [BitVec.ofNat 8 (bistType f.1)] ++ leBytes 8 f.2.toNat ++ leBytes 8 (s.sec.otp.signature f.1).toNat⟩).bistFence f.1

def isIo : BistFail → Bool
  | .io _ => true | _ => false

/-- The result vector as measured, block by block. -/
def bistVector (l : List (BistFail × Word64)) : List Byte :=
  l.flatMap (fun f => [BitVec.ofNat 8 (bistType f.1)] ++ leBytes 2 (bistUnit f.1) ++ leBytes 8 f.2.toNat)

/-- Step 4 (R466): the secrets read back as zero, and scan is enabled for the self-test controller (R467). -/
def State.clearSecrets (s : State) : State := s.setSec { s.sec with secrets := .zero, scanOn := true }

/-- Step 5: the blocks are tested, each signature is compared with that of the fuses (R471), scan ends, and the scan lock
latches. The first result vector is kept (R495). -/
def State.selfTest (s : State) (l : List (BistFail × Word64)) : State :=
  let t := (s.sec.otp.failed l).foldl State.bistOne s
  let u := t.setSec { t.sec with scanOn := false, scanLock := true, selfTest := bistVector l }
  let k := u.log.baselines
  if k.bist.isSome then u else u.setLog (u.log.jwrite (.baselines { k with bist := some (bistVector l) }))

/-! ## Images (R469, R483) -/

def allKinds : List Nat := [0, 1, 2, 3]

def imagesOf (b : Bundle) (slot : Bool) : Vector Image 4 :=
  #v[imageOf b 0 slot, imageOf b 1 slot, imageOf b 2 slot, imageOf b 3 slot]

/-- The harbour master writes that a slot is invalid (R469). -/
def State.logSlot (s : State) (slot : Bool) : State :=
  s.logRec ⟨Config.slotEventType, 8, sERROR, 0, [if slot then 1 else 0]⟩

/-- Each image hashes in its processor's private memory to its BODY_HASH (R469). -/
def Sec.loadedOk (c : Sec) (b : Bundle) (kinds : List Nat) : Bool :=
  kinds.all (fun k => (runnersOf k).all (fun u =>
    c.procMem.any (fun x => x.1 = u && shake x.2 = ((b (imageAt k) headerLen).drop 0x20).take 64)))

/-- A bundle is verified and images of it are loaded, and what was loaded is hashed again: the private memories that result,
or none (R469). -/
def Sec.loadVerified (c : Sec) (b : Bundle) (recovery : Bool) (kinds : List Nat) : Option Sec :=
  if (bundleFault b recovery c.otp).isSome then none
  else
    let d := c.load b kinds
    if d.loadedOk b kinds then some d else none

/-- The images of a bundle that run once verified and loaded, or none (R469). -/
def Sec.boot (c : Sec) (b : Bundle) (recovery slot : Bool) : Option Sec :=
  (c.loadVerified b recovery allKinds).map (fun d => { d with images := imagesOf b slot })

/-- Step 7: the images that run, or none; with what was found of the slots logged. After a fallback the boot slot
differs from the running images' slot, so a reset is pending (Table 14-11). -/
def State.loadImages (s : State) : State × Bool :=
  let c := s.sec
  let k := (bootCtl c.flash).1
  let slot (x : Bool) : Bundle := flashBundle c.flash (bundleAt x)
  let c1 := { c with bootSlot := k.slot, recovery := false, fallback := false, stageRes := if k.staged then 2 else 0 }
  match c1.boot (slot k.slot) false k.slot with
  | some d => (s.setSec { d with slot := k.slot }, true)
  | none =>
    let t := s.logSlot k.slot
    match c1.boot (slot (!k.slot)) false (!k.slot) with
    | some d =>
      let e := { d with slot := !k.slot, fallback := true, failCode := fcSLOT_INVALID }
      (t.setSec { e with resetPend := e.pendsReset }, true)
    | none =>
      let u := t.logSlot (!k.slot)
      match c1.boot (flashBundle c.flash recoveryAt) true false with
      | some d => (u.setSec { d with recovery := true, failCode := fcBOTH_INVALID }, true)
      | none => (u.setSec c1, false)

/-! ## Ports (R355, R518, R519, Table 10-11) -/

/-- The code of Table 10-11 for which every port is held, or 0. -/
def State.holdCode (s : State) : Nat :=
  if !s.lnk.strapsOk then rSTRAPS.toNat
  else match s.lnk.irec with
    | none => rNO_RECORD.toNat
    | some r => if r.x ≤ cx s.own || r.y ≤ cy s.own || r.z ≤ cz s.own then rOUTSIDE.toNat else 0

/-- The port is cabled in the record. -/
def State.cabled (s : State) (p : Port) : Bool :=
  match s.lnk.irec with
  | none => false
  | some r => (r.cabling.getD (cableIx r.x r.y (cx s.own) (cy s.own) (cz s.own)) 0).getLsbD (portNum p).val

def State.holdPort (s : State) (p : Port) (r : BitVec 4) : State :=
  (s.setReason p .a .held r).setReason p .b .held r

/-- Every port is held for a reason. -/
def State.holdPorts (s : State) (code : Nat) : State :=
  let t := { s with lnk := { s.lnk with conflict := BitVec.ofNat 4 code } }
  let u := t.logRec ⟨0x0034, 9, sERROR, 0, [BitVec.ofNat 8 code] ++ (s.lnk.straps.flatMap (fun x =>
      leBytes 2 (x.x.toNat + 32 * x.y.toNat + 1024 * x.z.toNat + 16384 * ofBool x.par)))⟩
  allPorts.foldl (fun v p => v.holdPort p (BitVec.ofNat 4 code)) u

/-- A link starts to train, if it is not disabled. -/
def State.startLink (s : State) (p : Port) (l : LinkId) : State :=
  if (s.link p l).reason = rDISABLED then s else s.startTraining p l

/-- Each port is held or starts to train. -/
def State.startPorts (s : State) : State :=
  if s.holdCode ≠ 0 then s.holdPorts s.holdCode
  else allPorts.foldl (fun v p =>
    if !v.cabled p then v.holdPort p rNOT_CABLED else (v.startLink p .a).startLink p .b)
    { s with lnk := { s.lnk with conflict := 0 } }

/-- The links' turn has come: boot is past step 8. -/
def State.linksOn (s : State) : Bool := s.sec.state = .running || s.sec.state = .recovery

/-! ## The sequence (Table 14-5) -/

/-- Step 2: the always-on island, and the logbook's replay; a cold start is one more power cycle. The dies' rails are up at
their 600 MHz. -/
def State.bootIsland (s : State) (cold : Bool) (b : BootInputs) : State :=
  let l := s.log.replay
  { s with
    log := { l.scalars l.pot (l.resets + 1) (l.powerCycles + ofBool cold) l.fences with accepting := true }
    pins := { s.pins with fault := false, shedLow := b.shedLow, linkRef := b.linkRef, cxlRef := b.cxlRef, inReset := false }
    pwr := { s.pwr with dies := s.pwr.dies.mapIdx (fun i d => { d with rail := Config.railMv i d.mhz }) }
    tt := { TT.reset with since := s.wall } }

/-- Step 8: processors run, the identity seed is read and its key compared with the leaf certificate's (R467, R474), the
lockkeeper takes control, the record in use is chosen. -/
def State.bootProcessors (s : State) (b : BootInputs) : State :=
  let rec_ := chooseRecord s.sec.flash
  let t := { s with
    hrw := { s.hrw with alive := true }
    pwr := { s.pwr with inControl := true }
    sec := { s.sec with
      noIdentity := !s.identityOk
      secrets := if s.sec.scanLock then ⟨[], s.sec.otp.idSeed, s.sec.otp.idSeed⟩ else s.sec.secrets }
    lnk := { s.lnk with irec := rec_.map Prod.fst, irecCopy := (rec_.map Prod.snd).getD false } }
  let u := (List.finRange 8).foldl (fun v n => v.setClock n (v.die n).mhz) t
  if b.shedLow then (u.causeUp .shed).shedResponse else u

/-- Step 9: the cores are released, but under recovery. -/
def State.bootCores (s : State) : State :=
  let t := if s.sec.recovery then s.setSec { s.sec with state := .recovery, step := 8 }
    else { s with released := true, sec := { s.sec with state := .running, step := 9 } }
  t.logBoot sNOTICE

/-- Steps 2 to 9. (DESIGN CHOICE, log entry 97.) -/
def State.boot (s : State) (cold : Bool) (b : BootInputs) : State :=
  let t := s.bootIsland cold b
  let u :=
    if !b.secretsZero then t.halt 3 fcSECRETS
    else
      let t5 := t.clearSecrets.selfTest b.bist
      if (t5.sec.otp.failed b.bist).any (fun f => isIo f.1) then t5.halt 4 fcBIST_IO
      else if !b.hbmTrained then t5.halt 5 fcHBM_TRAIN
      else
        let t6 := { t5 with dmem := Store.empty }
        let t7 := t6.loadImages
        if t7.2 then (t7.1.bootProcessors b).bootCores else t7.1.halt 6 fcRECOVERY_INVALID
  { u with wall := u.wall + b.wallNs }

/-! ## Device reset (R414, R468, R521) -/

/-- The cores that an interrupted arbitration leaves suspect. (DEDUCED, log entry 102.) -/
def arbCores (l : List Arb) : List Nat :=
  l.foldl (fun m a => match a.who with
    | .core g => a.witness.toList.foldl (fun k w => setAdd w k) (setAdd g.toNat m)
    | .coll _ => m) []

/-- Everything stops: arbitrations end INTERRUPTED, and what a reset leaves is left, the secrets until they are zeroed
(R466); the logbook holds the ledgers as last checked (R277). -/
def State.beginReset (s : State) : State :=
  let t := s.int.arbs.foldl (fun u a => u.arbEnd a .interrupted false false false false) s
  let k := t.kept
  { k with
    sec := { k.sec with secrets := s.sec.secrets }
    int := { k.int with suspects := (arbCores s.int.arbs).filter (fun g => !k.int.fenced.contains g) }
    log := { (k.log.jwrite (.ledgers t.sch.checked)).done with
      queue := t.log.queue, lastEnd := 4, i3cStatic := t.log.i3cStatic, i3cDyn := t.log.i3cDyn
      i3cStatus := t.log.i3cStatus, i3cPtr := t.log.i3cPtr, alert := t.log.alert } }

/-! ## Straps (R517 to R519) -/

def strapOnes (v : StrapPins) : Nat :=
  ((List.range 5).filter v.x.getLsbD).length + ((List.range 5).filter v.y.getLsbD).length +
    ((List.range 4).filter v.z.getLsbD).length + ofBool v.par

/-- The third sample has been taken: invalid samples hold every port, however boot ended (R518). -/
def State.judgeStraps (s : State) : State :=
  let l := s.lnk.straps
  let odd : Bool := match l.getLast? with | some v => strapOnes v % 2 == 1 | none => false
  let same : Bool := match l with | v :: r => r.all (· = v) | [] => false
  let t := { s with lnk := { s.lnk with strapsOk := odd && same, parErr := !odd, disagree := !same } }
  if t.linksOn then (t.routes.startPorts).tryOriginate
  else if t.lnk.strapsOk then t else t.holdPorts rSTRAPS.toNat

/-! ## Rows -/

/-- The input stage starts the regulators, and boot runs; PERST# that is high then has been seen high (R521). -/
def State.powerUp (s : State) (b : BootInputs) : State :=
  ({ s with
    pwr := { s.pwr with stage := .operating }
    pins := { s.pins with perstSeen := s.pins.perstSeen || !s.pins.perstLow } }).boot true b

/-- INPUT_QUALIFIED (R430, R468 to R474, R493): V_IN has stayed within 46 V to 58 V for 20 ms without a break. -/
def execInputQualified (b : BootInputs) (s : State) : Res :=
  if !heldFor s.pwr.since.good 20000000 s.wall then .next s
  else if s.pwr.stage = .off then .next (s.powerUp b)
  else if s.pwr.stage = .operating && s.pwr.failing then .next (s.powerLost.powerUp b)
  else .next s

/-- PERST_ASSERT (R521, R522): ignored once the input is lost and the final write has begun, as after a lockout or trip. -/
def execPerstAssert (s : State) : Res :=
  let t := { s with pins := { s.pins with perstLow := true } }
  if s.pwr.stage = .operating && !s.pwr.failing && s.pins.perstSeen && !s.pins.inReset then
    let u := t.beginReset
    .next { u with pins := { u.pins with inReset := true } }
  else .next t

/-- PERST_RELEASE (R520, R521). -/
def execPerstRelease (b : BootInputs) (s : State) : Res :=
  let t := { s with pins := { s.pins with perstLow := false, perstSeen := true } }
  if s.pins.inReset && s.pwr.stage = .operating then .next (t.boot false b) else .next t

/-- STRAP_SAMPLE (R517 to R519). -/
def execStrapSample (k : Nat) (v : StrapPins) (s : State) : Res :=
  if s.pwr.stage = .operating && !s.pins.perstLow && !s.pins.inReset && s.lnk.straps.length + 1 = k && k ≤ 3 then
    let t := { s with lnk := { s.lnk with straps := s.lnk.straps ++ [v] } }
    .next (if k = 3 then t.judgeStraps else t)
  else .next s

/-- BOARD_SLOT_SAMPLE (R502, R517). -/
def execBoardSlotSample (k : Nat) (v : BitVec 3) (s : State) : Res :=
  if s.pwr.stage = .operating && !s.pins.inReset && s.log.slotSamples.length + 1 = k && k ≤ 3 then
    .next (s.setLog { s.log with
      slotSamples := s.log.slotSamples ++ [v]
      i3cStatic := if k = 3 then some (0x50 + v.setWidth 7) else s.log.i3cStatic })
  else .next s

/-- DEVICE_RESET: the reset that SEC_RESET asked for (R485, R468). -/
def execDeviceReset (b : BootInputs) (s : State) : Res :=
  if s.sec.resetReq.isSome && s.pwr.stage = .operating then .next ((s.beginReset).boot false b) else .next s

/-- LINK_REFCLK_LOSS (R515). -/
def execLinkRefclkLoss (s : State) : Res :=
  let t := { s with pins := { s.pins with linkRef := false } }
  .next (allPorts.foldl (fun u p => [LinkId.a, LinkId.b].foldl (fun v l =>
    if (v.link p l).inUse || (v.link p l).state = .training then v.linkDown p l .down rNO_SIGNAL else v) u) t)

end Sys2Proof.Machine
end

