-- ==== Sys2Proof/Machine/Firmware.lean ====
section
/-!
DEFINITION. Firmware processors, staging, activation and the fused SVN (spec 14, R460, R461, R476 to R485).
-/

namespace Sys2Proof.Machine

/-! ## Faults of processors (R460, R461, R482, Table 14-2) -/

/-- The fatal state: every die at 600 MHz, FAULT#, nothing more launched or recorded, and the last checked ledgers in the
logbook. (DEDUCED, log entry 103.) -/
def State.fatal (s : State) : State :=
  let t := s.switchAll.keepLedgers
  { t with
    sec := { t.sec with state := .fatal, failCode := fcFW_FAULT, act := .idle }
    pins := { t.pins with fault := true } }

/-- The die and unit number of a processor, as a record names it. -/
def procDie : Processor → Nat
  | .pilot d => d.val | _ => 8

def procCode : Processor → Nat
  | .harbour => 0 | .lockkeeper => 1 | .dispatcher => 2 | .pilot d => 3 + d.val

def causeByte : Option FwCause → Byte
  | none => 0 | some .illegal => 1 | some .memory => 2

def State.logFw (s : State) (u : Processor) (cause : Option FwCause) (pc : Word32) (sev : BitVec 2) : State :=
  (s.logRec ⟨0x0041, BitVec.ofNat 8 (procDie u), sev, BitVec.ofNat 16 (procCode u),
    [BitVec.ofNat 8 (procCode u), causeByte cause] ++ leBytes 4 pc.toNat⟩).healthInc (dieHealth (procDie u) + 0x90) 4

/-- The processor was started by the last switch less than 1 s ago. -/
def State.justSwitched (s : State) (u : Processor) : Bool :=
  match u, s.sec.switched with
  | .dispatcher, some t => decide (s.wall < t + secondNs)
  | .pilot _, some t => decide (s.wall < t + secondNs)
  | _, _ => false

/-- The previous images run again, and their boot slot is the boot slot. -/
def State.rollBack (s : State) : State :=
  let c := { s.sec with
    images := (s.sec.images.set 2 s.sec.prevImages[0]).set 3 s.sec.prevImages[1]
    bootSlot := s.sec.prevSlot, flash := writeCtl s.sec.flash s.sec.prevSlot false
    rolled := true, switched := some s.wall, actRes := actROLLED_BACK }
  (s.setSec ({ c with resetPend := c.pendsReset }.load (flashBundle s.sec.flash (bundleAt s.sec.prevSlot)) [2, 3])).logActivation

/-- A pilot's arbitrations and clearances start again from their first step. -/
def State.restartArbs (s : State) (d : Fin 8) : State :=
  { s with int := { s.int with arbs := s.int.arbs.map (fun a => match a.who with
      | .core g => if dieOf g.toNat = d then { a with replay := none } else a
      | .coll _ => a) } }

/-- A pilot is down until it has been reloaded. -/
def State.pilotFault (s : State) (d : Fin 8) : State :=
  (s.setDie d { s.die d with pilotDown := true, fwFaultAt := some s.log.pot }).restartArbs d

/-- The pilot's earlier fault lies within 24 hours of powered-on time. -/
def State.secondFault (s : State) (d : Fin 8) : Bool :=
  match (s.die d).fwFaultAt with
  | some t => decide (s.log.pot ≤ t + 86400)
  | none => false

/-- A processor faults soon after a switch: the previous images run again (R482). A pilot's fault counts among those of its die
(Table 14-2). -/
def State.switchFault (s : State) : Processor → State
  | .pilot d => ((s.setDie d { s.die d with fwFaultAt := some s.log.pot }).restartArbs d).rollBack
  | _ => s.rollBack

/-- A running processor faults (Table 14-2, R482). -/
def State.runningFault (s : State) (u : Processor) (cause : Option FwCause) (pc : Word32) : State :=
  if s.justSwitched u then
    if s.sec.rolled then (s.logFw u cause pc sFATAL).fatal else (s.logFw u cause pc sERROR).switchFault u
  else match u with
    | .pilot d => if s.secondFault d then (s.logFw u cause pc sFATAL).fatal else (s.logFw u cause pc sERROR).pilotFault d
    | _ => (s.logFw u cause pc sFATAL).fatal

/-- A processor faults. Where boot has halted only the harbour master runs; in the fatal state the fault is logged.
(DESIGN CHOICE, log entry 117.) -/
def State.procFault (s : State) (u : Processor) (cause : Option FwCause) (pc : Word32) : State :=
  match s.sec.state with
  | .running | .recovery => s.runningFault u cause pc
  | .halted => if u = .harbour then (s.logFw u cause pc sFATAL).fatal else s
  | .fatal => s.logFw u cause pc sFATAL
  | .booting => s

/-! ## Staging (R476 to R478) -/

def State.stageResult (s : State) (res img : Nat) : State :=
  s.setSec { s.sec with stageRes := BitVec.ofNat 8 res, stageImg := BitVec.ofNat 4 img }

def State.setStaged (s : State) (b : Bool) : State :=
  s.setSec { s.sec with flash := writeCtl s.sec.flash (bootCtl s.sec.flash).1.slot b }

/-- SEC_STAGE_ADDR and SEC_STAGE_LEN keep R476. -/
def stageAddrOk (a n : Nat) : Bool := a % 4096 = 0 && dmemReserved ≤ a && a + n ≤ dmemEnd && n ≤ slotSize

/-- The bundle is verified where it lies, and the slot other than the boot slot erased. (DEDUCED, log entry 101.) -/
def State.verifyStage (s : State) (a n : Nat) : State :=
  let t := (s.touchAll .dmem (granulesOf a n)).setStaged false
  match bundleFault (dmemBundle t.dmem.cells a n) false t.sec.otp with
  | some (k, r) => (t.setSec { t.sec with staging := none, startHeld := false }).stageResult r k
  | none => t.setSec { t.sec with
      startHeld := false, flash := flashErase t.sec.flash (bundleAt (!t.sec.bootSlot)) slotSize }

/-- START: the address and the length are captured, and the bundle is verified once its stacks accept the access (R366).
(DEDUCED, log entry 101.) -/
def State.startStage (s : State) : State :=
  let a := s.sec.stageAddr.toNat
  let n := s.sec.stageLen.toNat
  if s.sec.resetPend then s.stageResult 10 0
  else if s.sec.staging.isSome || s.sec.act ≠ .idle then s.stageResult 11 0
  else if !stageAddrOk a n then (s.setStaged false).stageResult resADDR 0
  else
    let t := (s.setSec { s.sec with staging := some (a, n), startHeld := true }).stageResult 1 0
    if t.linesHeld (granulesOf a n) then t else t.verifyStage a n

/-- A staging that waited for its stacks goes on. -/
def State.wakeStage (s : State) : State :=
  match s.sec.staging with
  | some (a, n) => if s.sec.startHeld && !s.linesHeld (granulesOf a n) then s.verifyStage a n else s
  | none => s

/-- The slot is programmed from DMEM, whose stacks accept the access then, read back and verified again. -/
def State.endStage (s : State) (ok : Bool) : State :=
  match s.sec.staging with
  | none => s
  | some (a, n) =>
    if s.sec.startHeld || s.linesHeld (granulesOf a n) then s
    else
      let base := bundleAt (!s.sec.bootSlot)
      let t := s.touchAll .dmem (granulesOf a n)
      let u := t.setSec { t.sec with staging := none, flash := flashPut t.sec.flash base (bytesAt t.dmem.cells a n) }
      if !ok then u.stageResult resFLASH 0
      else match bundleFault (flashBundle u.sec.flash base) false u.sec.otp with
        | some (k, r) => u.stageResult r k
        | none => (u.setStaged true).stageResult resSTAGED 0

/-! ## Activation (R479 to R483) -/

def State.requestActivation (s : State) : State :=
  if s.sec.act ≠ .idle then s.setSec { s.sec with actRes := actBUSY }
  else if !s.staged then s.setSec { s.sec with actRes := actNOTHING }
  else if s.pwr.emerg then s.setSec { s.sec with act := .deferred s.wall none, actRes := actDEFERRED }
  else ({ s with sec := { s.sec with rolled := false } }).beginActivation

def State.holdoffEnd (s : State) : State :=
  match s.sec.act with
  | .deferred _ (some t) => if !s.pwr.emerg && t + secondNs ≤ s.wall then s.beginActivation else s
  | _ => s

def State.deferTimeout (s : State) : State :=
  match s.sec.act with
  | .deferred t none =>
    if t + 60 * secondNs ≤ s.wall then (s.setSec { s.sec with act := .idle, actRes := actTIMEOUT }).logActivation else s
  | _ => s

/-- No operation lies between launch and record, and no arbitration, clearance or patrol runs. -/
def State.quiet (s : State) : Bool :=
  s.sch.ops.isEmpty && !s.hrw.snoops.any (·.2.isRecord) && s.int.arbs.isEmpty && s.int.clearing.isEmpty && s.int.patrols.isEmpty

/-- Steps 3 and 4: the staged dispatcher and pilot images run, with the ledgers as they stand. -/
def State.switchImages (s : State) : State :=
  let b := flashBundle s.sec.flash (bundleAt s.sec.bootSlot)
  let t := { s with sch := { s.sch with paused := false } }
  match s.sec.loadVerified b false [2, 3] with
  | none =>
    let c := { t.sec with
      act := .idle, actRes := actROLLED_BACK, bootSlot := s.sec.prevSlot, flash := writeCtl s.sec.flash s.sec.prevSlot false }
    ((t.setSec { c with resetPend := c.pendsReset }).logActivation).ringKept
  | some d =>
    let i := imagesOf b s.sec.bootSlot
    ((t.setSec { d with
      images := (d.images.set 2 i[2]).set 3 i[3], act := .idle, actRes := actDONE
      switched := some s.wall, rolled := false, activations := d.activations + 1 }).logActivation).ringKept

def State.actSwitch (s : State) : State :=
  if s.sec.act = .pausing && s.quiet && s.sec.state = .running then s.switchImages else s

/-! ## Fused SVN and reset requests (R484, R485) -/

/-- The commit is refused. -/
def State.svnRefused (s : State) : Bool :=
  s.sec.state ≠ .running || s.sec.resetPend || s.sec.fallback || lowestSvn s.sec.flash s.sec.bootSlot < s.sec.otp.svn

def State.writeSvn (s : State) (v : Word32) : State :=
  s.regWrite 0x90034 v.toNat 0xFFFFFFFE (rangeIf (v.getLsbD 0 && s.svnRefused)) (fun t =>
    if v.getLsbD 0 then
      t.setSec { t.sec with otp := { t.sec.otp with svn := lowestSvn t.sec.flash t.sec.bootSlot } }
    else t)

/-! ## Rows -/

/-- FW_WATCHDOG_EXPIRY (R460, R461, R482). -/
def execFwWatchdogExpiry (u : Processor) (s : State) : Res :=
  .next (({ s with freeCtr := s.freeCtr + 1 }).procFault u none (Config.fwPc s.freeCtr))

/-- FW_PROCESSOR_FAULT (R460, R461, R482). -/
def execFwProcessorFault (u : Processor) (cause : FwCause) (fpc : Word32) (s : State) : Res :=
  .next (s.procFault u (some cause) fpc)

/-- The pilot of a die is reloaded from the running image and starts again. -/
def State.pilotUp (s : State) (d : Fin 8) : State :=
  let body := imageBody (s.sec.bundle s.sec.images[3]) 3
  (s.setSec { s.sec with
    procMem := s.sec.procMem.filter (fun x => x.1 ≠ d.val + 3) ++ [(d.val + 3, body)] }).setDie d
      { s.die d with pilotDown := false }

/-- PILOT_RESTART (R460). -/
def execPilotRestart (d : ComputeDie) (s : State) : Res :=
  .next (if s.sec.state = .fatal || !(s.die d).pilotDown then s else s.pilotUp d)

/-- SEC_STAGE_START (R477, R478). -/
def execSecStageStart (v : Word32) (s : State) : Res :=
  .next (s.regWrite 0x9004C v.toNat 0xFFFFFFFE none (fun t => if v.getLsbD 0 then t.startStage else t))

/-- STAGING_COMPLETE (R477, R478). -/
def execStagingComplete (flashOk : Bool) (s : State) : Res := .next (s.endStage flashOk)

/-- SEC_ACTIVATE_GO (R479, R480, R483). -/
def execSecActivateGo (v : Word32) (s : State) : Res :=
  .next (s.regWrite 0x90058 v.toNat 0xFFFFFFFE none (fun t => if v.getLsbD 0 then t.requestActivation else t))

/-- ACTIVATION_HOLDOFF_END (R480). -/
def execActivationHoldoffEnd (s : State) : Res := .next s.holdoffEnd

/-- DEFERRED_TIMEOUT (R480). -/
def execDeferredTimeout (s : State) : Res := .next s.deferTimeout

/-- ACTIVATION_SWITCH (R481). -/
def execActivationSwitch (s : State) : Res := .next s.actSwitch

/-- SEC_SVN_COMMIT (R484). -/
def execSecSvnCommit (v : Word32) (s : State) : Res := .next (s.writeSvn v)

/-- SEC_RESET (R485): any key but 0xB007 fails its range check. -/
def execSecReset (v : Word32) (s : State) : Res :=
  .next (s.regWrite 0x90060 v.toNat 0xFFFF0000 (rangeIf (v.toNat ≠ 0xB007)) (fun t =>
    t.setSec { t.sec with resetReq := some t.wall }))

end Sys2Proof.Machine
end

