-- ==== Sys2Proof/Machine/LoadStore.lean ====
section
/-!
DEFINITION. Scalar loads and stores and descriptor instructions (spec 03, R82 to R88).
-/

namespace Sys2Proof.Machine

/-- LD8U (R82, Table 3-8). -/
def execLd8u (g : Gcn) (w : Word0) (s : State) : Res :=
  .next (s.access g.toNat w (.load 1 false false false))

/-- LDQ8U (R82, Table 3-8). -/
def execLdq8u (g : Gcn) (w : Word0) (s : State) : Res :=
  .next (s.access g.toNat w (.load 1 false true false))

/-- LD8S (R82, Table 3-8). -/
def execLd8s (g : Gcn) (w : Word0) (s : State) : Res :=
  .next (s.access g.toNat w (.load 1 true false false))

/-- LDQ8S (R82, Table 3-8). -/
def execLdq8s (g : Gcn) (w : Word0) (s : State) : Res :=
  .next (s.access g.toNat w (.load 1 true true false))

/-- LD16U (R82, Table 3-8). -/
def execLd16u (g : Gcn) (w : Word0) (s : State) : Res :=
  .next (s.access g.toNat w (.load 2 false false false))

/-- LDQ16U (R82, Table 3-8). -/
def execLdq16u (g : Gcn) (w : Word0) (s : State) : Res :=
  .next (s.access g.toNat w (.load 2 false true false))

/-- LD16S (R82, Table 3-8). -/
def execLd16s (g : Gcn) (w : Word0) (s : State) : Res :=
  .next (s.access g.toNat w (.load 2 true false false))

/-- LDQ16S (R82, Table 3-8). -/
def execLdq16s (g : Gcn) (w : Word0) (s : State) : Res :=
  .next (s.access g.toNat w (.load 2 true true false))

/-- LD32U (R82, Table 3-8). -/
def execLd32u (g : Gcn) (w : Word0) (s : State) : Res :=
  .next (s.access g.toNat w (.load 4 false false false))

/-- LDQ32U (R82, Table 3-8). -/
def execLdq32u (g : Gcn) (w : Word0) (s : State) : Res :=
  .next (s.access g.toNat w (.load 4 false true false))

/-- LD32S (R82, Table 3-8). -/
def execLd32s (g : Gcn) (w : Word0) (s : State) : Res :=
  .next (s.access g.toNat w (.load 4 true false false))

/-- LDQ32S (R82, Table 3-8). -/
def execLdq32s (g : Gcn) (w : Word0) (s : State) : Res :=
  .next (s.access g.toNat w (.load 4 true true false))

/-- LD64 (R82, Table 3-8). -/
def execLd64 (g : Gcn) (w : Word0) (s : State) : Res :=
  .next (s.access g.toNat w (.load 8 false false false))

/-- LDQ64 (R82, Table 3-8). -/
def execLdq64 (g : Gcn) (w : Word0) (s : State) : Res :=
  .next (s.access g.toNat w (.load 8 false true false))

/-- LDA (R82, Table 3-8). -/
def execLda (g : Gcn) (w : Word0) (s : State) : Res :=
  .next (s.access g.toNat w (.load 8 false false true))

/-- LDQA (R82, Table 3-8). -/
def execLdqa (g : Gcn) (w : Word0) (s : State) : Res :=
  .next (s.access g.toNat w (.load 8 false true true))

/-- ST8 (R82, Table 3-8). -/
def execSt8 (g : Gcn) (w : Word0) (s : State) : Res :=
  .next (s.access g.toNat w (.store 1 false))

/-- ST16 (R82, Table 3-8). -/
def execSt16 (g : Gcn) (w : Word0) (s : State) : Res :=
  .next (s.access g.toNat w (.store 2 false))

/-- ST32 (R82, Table 3-8). -/
def execSt32 (g : Gcn) (w : Word0) (s : State) : Res :=
  .next (s.access g.toNat w (.store 4 false))

/-- ST64 (R82, Table 3-8). -/
def execSt64 (g : Gcn) (w : Word0) (s : State) : Res :=
  .next (s.access g.toNat w (.store 8 false))

/-- STA (R82, Table 3-8). -/
def execSta (g : Gcn) (w : Word0) (s : State) : Res :=
  .next (s.access g.toNat w (.store 8 true))

/-- DLD: dD := the 64 bytes at aA + sext(IMM) (R87, R88). -/
def execDld (g : Gcn) (w : Word0) (s : State) : Res :=
  .next (s.access g.toNat w .dld)

/-- DST: the 64 bytes at aA + sext(IMM) := dB (R87, R88). -/
def execDst (g : Gcn) (w : Word0) (s : State) : Res :=
  .next (s.access g.toNat w .dst)

/-- DCPY: dD := dA (R87). -/
def execDcpy (g : Gcn) (w : Word0) (s : State) : Res :=
  .next (s.dput g.toNat w ⟨false, .d, .d, .none⟩ true (fun q => q.getD w.fa))

/-- DADDB: base of dD := base + sB modulo 2^40 (R87). -/
def execDaddb (g : Gcn) (w : Word0) (s : State) : Res :=
  .next (s.dput g.toNat w ⟨false, .d, .none, .s⟩ true (fun q =>
    dSet (q.getD w.fd) 0 40 (dBase (q.getD w.fd) + (q.getS w.fb).toNat)))

/-- DADDBI: base of dD := base + sext(IMM) modulo 2^40 (R87). -/
def execDaddbi (g : Gcn) (w : Word0) (s : State) : Res :=
  .next (s.dput g.toNat w ⟨false, .d, .none, .none⟩ true (fun q =>
    dSet (q.getD w.fd) 0 40 (dBase (q.getD w.fd) + (simm w).toNat)))

/-- DSETB: base of dD := aA (R87). -/
def execDsetb (g : Gcn) (w : Word0) (s : State) : Res :=
  .next (s.dput g.toNat w ⟨false, .d, .a, .none⟩ true (fun q =>
    dSet (q.getD w.fd) 0 40 (q.getA w.fa).toNat))

/-- DSETE: extent of dimension IMM[2:0] of dD := sB[31:0]; ILLEGAL above 4 (R87, R88). -/
def execDsete (g : Gcn) (w : Word0) (s : State) : Res :=
  .next (s.dput g.toNat w ⟨false, .d, .none, .s⟩ (w.imm.toNat % 8 ≤ 4) (fun q =>
    dSet (q.getD w.fd) (240 + 32 * (w.imm.toNat % 8)) 32 (q.getS w.fb).toNat))

/-- DSETS: stride of dimension IMM[2:0] of dD := sB[39:0]; ILLEGAL above 4 (R87, R88). -/
def execDsets (g : Gcn) (w : Word0) (s : State) : Res :=
  .next (s.dput g.toNat w ⟨false, .d, .none, .s⟩ (w.imm.toNat % 8 ≤ 4) (fun q =>
    dSet (q.getD w.fd) (40 + 40 * (w.imm.toNat % 8)) 40 (q.getS w.fb).toNat))

/-- DSETT: tag of dD := sB[15:0] (R87). -/
def execDsett (g : Gcn) (w : Word0) (s : State) : Res :=
  .next (s.dput g.toNat w ⟨false, .d, .none, .s⟩ true (fun q =>
    dSet (q.getD w.fd) 432 16 (q.getS w.fb).toNat))

end Sys2Proof.Machine
end

