-- ==== Sys2Proof/Machine/Lanes.lean ====
section
/-!
DEFINITION. What each vector operation computes on registers (spec 05, Tables 5-2 and 5-6, R149 to R177).
-/

namespace Sys2Proof.Machine

/-! ## Lanes (R149) -/

/-- Bits between consecutive elements. -/
def laneStep (f : Fmt) : Nat := if f = 11 || f = 13 then 64 else 32

/-- Bits of an element. -/
def laneBits (f : Fmt) : Nat := fmtBits f

/-- Element i of a register under a lane format. -/
def lane (r : VReg) (f : Fmt) (i : Nat) : Nat := r.toNat / 2 ^ (laneStep f * i) % 2 ^ laneBits f

def lanes (r : VReg) (f : Fmt) : List Nat := (List.range (laneCount f)).map (lane r f)

def packFrom (step : Nat) : List Nat → Nat
  | [] => 0
  | x :: t => x % 2 ^ step + 2 ^ step * packFrom step t

/-- A register from its elements; bits above a 16-bit element are written 0. -/
def pack (f : Fmt) (xs : List Nat) : VReg := BitVec.ofNat 2048 (packFrom (laneStep f) xs)

/-- What an operation gives: registers written, flags raised. -/
structure VOut where
  regs  : List (Nat × VReg)
  flags : BitVec 5
  deriving DecidableEq, Repr

def outElems (d : Nat) (f : Fmt) (xs : List Conv) : VOut := ⟨[(d, pack f (xs.map (·.code)))], flagsOf xs⟩

/-! ## Integer lanes (R156) -/

def iMod (f : Fmt) (n : Int) : Nat := ofSigned n (laneBits f)

def iVal (f : Fmt) (x : Nat) : Int := toSigned x (laneBits f)

/-- A shift count: the low 5 or 6 bits (Table 5-2). -/
def shCount (f : Fmt) (y : Nat) : Nat := y % laneBits f

def intOp (op : VOp) (f : Fmt) (x y : Nat) : Nat :=
  match op with
  | .vadd => iMod f (x + y : Nat)
  | .vsub => iMod f ((x : Int) - y)
  | .vmul => iMod f (x * y : Nat)
  | .vmin => if iVal f x ≤ iVal f y then x else y
  | .vmax => if iVal f x ≤ iVal f y then y else x
  | .vabs => iMod f ((iVal f x).natAbs : Nat)
  | .vneg => iMod f (-(x : Int))
  | .vand => x &&& y
  | .vor => x ||| y
  | .vxor => x ^^^ y
  | .vshl => iMod f (x * 2 ^ shCount f y : Nat)
  | .vshr => x / 2 ^ shCount f y
  | .vsar => iMod f (iVal f x / (2 ^ shCount f y : Nat))
  | _ => x

/-! ## Floating lanes -/

/-- VABS and VNEG move bits and raise nothing (R525). -/
def signClear (f : Fmt) (x : Nat) : Nat := x % 2 ^ (laneBits f - 1)

def signFlip (f : Fmt) (x : Nat) : Nat :=
  if signBit f x then x - 2 ^ (laneBits f - 1) else x + 2 ^ (laneBits f - 1)

def floatOp (op : VOp) (f : Fmt) (rm x y z : Nat) : Conv :=
  match op with
  | .vadd => laneAdd f rm x y
  | .vsub => laneSub f rm x y
  | .vmul => laneMul f rm x y
  | .vfma => laneFma f rm false x y z
  | .vfms => laneFma f rm true x y z
  | .vdiv => laneDiv f rm x y
  | .vsqrt => laneSqrt f rm x
  | .vmin => laneMinMax f false false x y
  | .vmax => laneMinMax f true false x y
  | .vminn => laneMinMax f false true x y
  | .vmaxn => laneMinMax f true true x y
  | .vabs => ⟨signClear f x, 0⟩
  | .vneg => ⟨signFlip f x, 0⟩
  | .vexp2 => vexp2 x
  | .vlog2 => vlog2 x
  | .vrcp => vrcp x
  | .vrsqrt => vrsqrt x
  | .vsin => vsin x
  | .vcos => vcos x
  | _ => ⟨x, 0⟩

/-- An operation applied element by element. -/
def elemOp (op : VOp) (f : Fmt) (rm x y z : Nat) : Conv :=
  if fmtInt f then ⟨intOp op f x y, 0⟩ else floatOp op f rm x y z

def zip3 (g : Nat → Nat → Nat → Conv) : List Nat → List Nat → List Nat → List Conv
  | x :: xs, y :: ys, z :: zs => g x y z :: zip3 g xs ys zs
  | _, _, _ => []

/-- VCMP of one element (R155). -/
def cmpElem (f : Fmt) (cc x y : Nat) : Bool × BitVec 5 :=
  if fmtInt f then
    (match cc with
      | 0 => decide (x = y) | 1 => decide (x ≠ y) | 2 => decide (iVal f x < iVal f y)
      | 3 => decide (iVal f x ≤ iVal f y) | _ => false, 0)
  else laneCmp f cc x y

def cmpAll (f : Fmt) (cc : Nat) (a b : List Nat) : List Conv :=
  List.zipWith (fun x y => let r := cmpElem f cc x y; ⟨if r.1 then 2 ^ laneStep f - 1 else 0, r.2⟩) a b

/-! ## Conversion (R157, R158) -/

/-- VCVT of a register; `old` is vD before. -/
def cvtReg (src dst : Fmt) (half : Bool) (rm : Nat) (a old : VReg) (d : Nat) : VOut :=
  let xs := lanes a src
  let h := if half then 32 else 0
  if laneCount dst < laneCount src then
    outElems d dst (((xs.drop h).take 32).map (laneCvt src dst rm))
  else if laneCount src < laneCount dst then
    let ys := xs.map (laneCvt src dst rm)
    let keep := (List.range 64).map (fun i => old.toNat / 2 ^ (32 * i) % 2 ^ 32)
    let all := if half then keep.take 32 ++ ys.map (·.code) else ys.map (·.code) ++ keep.drop 32
    ⟨[(d, BitVec.ofNat 2048 (packFrom 32 all))], flagsOf ys⟩
  else outElems d dst (xs.map (laneCvt src dst rm))

/-! ## Reductions (R167) -/

/-- One level of the tree: element i takes element i + w where i is a multiple of 2w. -/
def reduceLevel (op : Nat → Nat → Conv) (w : Nat) (l : List Nat) : List Conv :=
  l.mapIdx (fun i x => if i % (2 * w) = 0 then op x (l.getD (i + w) 0) else ⟨x, 0⟩)

/-- k levels from width w. -/
def reduceTree (op : Nat → Nat → Conv) : Nat → Nat → List Nat → List Nat × BitVec 5
  | 0, _, l => (l, 0)
  | k + 1, w, l =>
    let r := reduceLevel op w l
    let t := reduceTree op k (2 * w) (r.map (·.code))
    (t.1, flagsOf r ||| t.2)

/-- The operation of a reduction on two elements. -/
def redOp (op : VOp) (f : Fmt) (rm : Nat) (x y : Nat) : Conv :=
  match op with
  | .vrsum => elemOp .vadd f rm x y 0
  | .vrmax => elemOp .vmax f rm x y 0
  | _ => elemOp .vmin f rm x y 0

def reduceReg (op : VOp) (f : Fmt) (rm grp : Nat) (a : VReg) (d : Nat) : VOut :=
  let r := reduceTree (redOp op f rm) grp 1 (lanes a f)
  ⟨[(d, pack f (r.1.mapIdx (fun i x => if i % 2 ^ grp = 0 then x else 0)))], r.2⟩

/-! ## Online softmax (R168 to R172) -/

def bF : Fmt := 0xA
def one32 : Nat := 0x3F800000
def negInf32 : Nat := 0xFF800000
def nan32 : Nat := 0x7FC00000

/-- Binary32 operations, nearest-even, with flags carried along. -/
abbrev FM := BitVec 5

def fAdd (x y : Nat) (fl : FM) : Nat × FM := let r := laneAdd bF 0 x y; (r.code, fl ||| r.flags)
def fSub (x y : Nat) (fl : FM) : Nat × FM := let r := laneSub bF 0 x y; (r.code, fl ||| r.flags)
def fMul (x y : Nat) (fl : FM) : Nat × FM := let r := laneMul bF 0 x y; (r.code, fl ||| r.flags)
def fMax (x y : Nat) (fl : FM) : Nat × FM := let r := laneMinMax bF true false x y; (r.code, fl ||| r.flags)
def fExp2 (x : Nat) (fl : FM) : Nat × FM := let r := vexp2 x; (r.code, fl ||| r.flags)

/-- Equality of values: a NaN equals nothing, zeros are equal. -/
def fEq (x y : Nat) : Bool := (laneCmp bF 0 x y).1

/-- 1 when mn = m, else vexp2(m − mn). -/
def rescale (m mn : Nat) (fl : FM) : Nat × FM :=
  if fEq mn m then (one32, fl)
  else let d := fSub m mn fl; fExp2 d.1 d.2

/-- Two-sum of t and s, its error added to c: hi and c + e. -/
def twoSum (t s c : Nat) (fl : FM) : Nat × Nat × FM :=
  let hi := fAdd t s fl
  let z := fSub hi.1 t hi.2
  let hz := fSub hi.1 z.1 z.2
  let a := fSub t hz.1 hz.2
  let b := fSub s z.1 a.2
  let e := fAdd a.1 b.1 b.2
  let cn := fAdd c e.1 e.2
  (hi.1, cn.1, cn.2)

/-- mn is +∞ or NaN (R171). -/
def softBad (mn : Nat) : Bool := laneNan bF mn || mn = infCode bF false

/-- A row of a state group: M, T, C, F. -/
structure SmRow where
  m : Nat
  t : Nat
  c : Nat
  f : Nat
  deriving DecidableEq, Repr

/-- The row that R171 leaves: its NaN, of which the rule names no code, is the canonical one. (DESIGN CHOICE, log entry 158.) -/
def SmRow.bad : SmRow := ⟨nan32, nan32, nan32, nan32⟩

/-- Lanes live for a query position (R169, R170). -/
def liveLanes (b : List Nat) (qpos : Nat) (causal : Bool) : List Bool :=
  b.map (fun k => k / 2 ^ 31 % 2 = 0 && (!causal || k % 2 ^ 24 ≤ qpos))

/-- The maximum of the live scores, −∞ when none is live. -/
def liveMax : List (Nat × Bool) → Option Nat → FM → Nat × FM
  | [], none, fl => (negInf32, fl)
  | [], some m, fl => (m, fl)
  | (_, false) :: t, m, fl => liveMax t m fl
  | (x, true) :: t, none, fl => liveMax t (some x) fl
  | (x, true) :: t, some m, fl => let r := fMax m x fl; liveMax t (some r.1) r.2

/-- The probabilities of the live scores. -/
def probs (mn : Nat) : List (Nat × Bool) → FM → List Nat × FM
  | [], fl => ([], fl)
  | (x, l) :: t, fl =>
    let p := if l && x ≠ negInf32 then (let d := fSub x mn fl; fExp2 d.1 d.2) else (0, fl)
    let r := probs mn t p.2
    (p.1 :: r.1, r.2)

/-- VSMA on one row (R170, R171): the new row, the probabilities, flags. The bound of R173 follows from the steps as far as
VEXP2's error allows. (DESIGN CHOICE, log entry 157.) -/
def vsmaRow (row : SmRow) (al : List (Nat × Bool)) : SmRow × List Nat × FM :=
  let bm := liveMax al none 0
  let mn := fMax row.m bm.1 bm.2
  if softBad mn.1 then (SmRow.bad, List.replicate 64 nan32, mn.2 ||| fINV)
  else
    let f := rescale row.m mn.1 mn.2
    let p := probs mn.1 al f.2
    let s := reduceTree (fun x y => laneAdd bF 0 x y) 6 1 p.1
    let t := fMul row.t f.1 (p.2 ||| s.2)
    let c := fMul row.c f.1 t.2
    let h := twoSum t.1 (s.1.getD 0 0) c.1 c.2
    (⟨mn.1, h.1, h.2.1, f.1⟩, p.1, h.2.2)

/-- VSMMRG on one lane (R172): the FD row, F of the FA row, flags. Where mn is +∞ or NaN, F of the FA row stays.
(DESIGN CHOICE, log entry 151.) -/
def vsmmrgRow (d a : SmRow) : SmRow × Option Nat × FM :=
  let mn := fMax d.m a.m 0
  if softBad mn.1 then (SmRow.bad, none, mn.2 ||| fINV)
  else
    let fd := rescale d.m mn.1 mn.2
    let fa := rescale a.m mn.1 fd.2
    let td := fMul d.t fd.1 fa.2
    let cd := fMul d.c fd.1 td.2
    let ta := fMul a.t fa.1 cd.2
    let ca := fMul a.c fa.1 ta.2
    let cc := fAdd cd.1 ca.1 ca.2
    let h := twoSum td.1 ta.1 cc.1 cc.2
    (⟨mn.1, h.1, h.2.1, fd.1⟩, some fa.1, h.2.2)

/-- The row of lane r in the group from register g. -/
def smRow (v : Vec) (g r : Nat) : SmRow :=
  let x (k : Nat) : Nat := lane (v.getV (BitVec.ofNat 5 (g + k))) bF r
  ⟨x 0, x 1, x 2, x 3⟩

/-- A group's registers with the rows of some lanes replaced. -/
def smPutRows (v : Vec) (g : Nat) (rows : Nat → Option SmRow) : List (Nat × VReg) :=
  let reg (k : Nat) (sel : SmRow → Nat) : Nat × VReg :=
    (g + k, pack bF ((lanes (v.getV (BitVec.ofNat 5 (g + k))) bF).mapIdx (fun r x =>
      match rows r with | some y => sel y | none => x)))
  [reg 0 SmRow.m, reg 1 SmRow.t, reg 2 SmRow.c, reg 3 SmRow.f]

def vsmaReg (v : Vec) (w : Word0) : VOut :=
  let x := vSpec w
  let row := x % 64
  let qpos := lane (v.getV (BitVec.ofNat 5 (x / 64 % 32))) 0xC row % 2 ^ 24
  let live := liveLanes (lanes (v.getV w.fb) 0xC) qpos (x / 2048 % 2 = 1)
  let r := vsmaRow (smRow v w.fd.toNat row) ((lanes (v.getV w.fa) bF).zip live)
  ⟨smPutRows v w.fd.toNat (fun i => if i = row then some r.1 else none) ++
    [((vFc w).toNat, pack bF r.2.1)], r.2.2⟩

def vsmmrgReg (v : Vec) (w : Word0) : VOut :=
  let rs := (List.range 64).map (fun i => vsmmrgRow (smRow v w.fd.toNat i) (smRow v w.fa.toNat i))
  let at_ (i : Nat) : Option (SmRow × Option Nat × FM) := rs[i]?
  let fa := pack bF ((lanes (v.getV (BitVec.ofNat 5 (w.fa.toNat + 3))) bF).mapIdx (fun i x =>
    match at_ i with | some (_, some f, _) => f | _ => x))
  ⟨(w.fa.toNat + 3, fa) :: smPutRows v w.fd.toNat (fun i => (at_ i).map (·.1)),
    rs.foldl (fun a r => a ||| r.2.2) 0⟩

def vsminitReg (w : Word0) : VOut :=
  let all (x : Nat) : VReg := pack bF (List.replicate 64 x)
  let d := w.fd.toNat
  ⟨[(d, all negInf32), (d + 1, all 0), (d + 2, all 0), (d + 3, all one32)], 0⟩

/-! ## Random values (R176, R177) -/

def vrandReg (c : VCmd) : VOut :=
  let f := vFmt c.w
  ⟨[(c.w.fd.toNat, pack f ((List.range (laneCount f)).map (fun j =>
    (gen64 c.seed (dTag c.desc) (c.sidx.toNat + j)).toNat)))], 0⟩

def vdropReg (v : Vec) (c : VCmd) : VOut :=
  let f := vFmt c.w
  ⟨[(c.w.fd.toNat, pack f ((lanes (v.getV c.w.fa) f).mapIdx (fun j x =>
    if vSpec c.w * 2 ^ 8 ≤ rand24 c.seed (dTag c.desc) (c.sidx.toNat + j) then x else 0)))], 0⟩

/-! ## Any operation on registers -/

/-- The registers and flags of an operation that touches no memory. VSEL selects all 2,048 bits, bits [31:16] of a
bfloat16 or binary16 lane too (Table 5-2, where Table 5-1 has them written 0). (DESIGN CHOICE, log entry 130.) -/
def vecCompute (v : Vec) (c : VCmd) : VOut :=
  let w := c.w
  let f := vFmt w
  let rm := vRm w
  let a := v.getV w.fa
  let b := v.getV w.fb
  let z := v.getV (vFc w)
  let d := w.fd.toNat
  match c.op with
  | .vcvt => cvtReg f (BitVec.ofNat 4 (vSpec w)) (decide (16 ≤ vSpec w)) rm a (v.getV w.fd) d
  | .vcmp => ⟨[(d, BitVec.ofNat 2048 (packFrom (laneStep f)
      ((cmpAll f (vSpec w) (lanes a f) (lanes b f)).map (·.code))))],
      flagsOf (cmpAll f (vSpec w) (lanes a f) (lanes b f))⟩
  | .vsel => ⟨[(d, (a &&& z) ||| (b &&& ~~~ z))], 0⟩
  | .vand => ⟨[(d, a &&& b)], 0⟩
  | .vor => ⟨[(d, a ||| b)], 0⟩
  | .vxor => ⟨[(d, a ^^^ b)], 0⟩
  | .viota => ⟨[(d, pack 0xC ((List.range 64).map (fun j => vSpec w + j)))], 0⟩
  | .vsplat => ⟨[(d, pack f (List.replicate (laneCount f) (lane a f (vSpec w))))], 0⟩
  | .vshuf => ⟨[(d, pack f ((lanes b f).map (fun k => lane a f (k % laneCount f))))], 0⟩
  | .vrsum => reduceReg .vrsum f rm (vSpec w) a d
  | .vrmax => reduceReg .vrmax f rm (vSpec w) a d
  | .vrmin => reduceReg .vrmin f rm (vSpec w) a d
  | .vsma => vsmaReg v w
  | .vsmmrg => vsmmrgReg v w
  | .vsminit => vsminitReg w
  | .vrand => vrandReg c
  | .vdrop => vdropReg v c
  | op => outElems d f (zip3 (elemOp op f rm) (lanes a f) (lanes b f) (lanes z f))

/-! ## Registers read and written (R159) -/

def groupRegs (r : Nat) : List Nat := [r, r + 1, r + 2, r + 3]

/-- Registers an instruction reads. -/
def vecReads (c : VCmd) : List Nat :=
  let w := c.w
  match c.op with
  | .vld => []
  | .vst => [w.fa.toNat]
  | .viota => []
  | .vrand => []
  | .vsminit => []
  | .vsma => [w.fa.toNat, w.fb.toNat, vSpec w / 64 % 32] ++ groupRegs w.fd.toNat
  | .vsmmrg => groupRegs w.fd.toNat ++ groupRegs w.fa.toNat
  | .vcvt => w.fa.toNat :: (if laneCount (vFmt w) < laneCount (BitVec.ofNat 4 (vSpec w)) then [w.fd.toNat] else [])
  | op =>
    let r := vRow op
    w.fa.toNat :: ((if r.1.fb = .v then [w.fb.toNat] else []) ++ (if r.2.1 then [(vFc w).toNat] else []))

/-- Registers an instruction writes. -/
def vecWrites (c : VCmd) : List Nat :=
  let w := c.w
  match c.op with
  | .vst => []
  | .vsminit => groupRegs w.fd.toNat
  | .vsma => groupRegs w.fd.toNat ++ [(vFc w).toNat]
  | .vsmmrg => groupRegs w.fd.toNat ++ groupRegs w.fa.toNat
  | _ => [w.fd.toNat]

/-- Whether an operation's results are checked (Table 12-1). -/
def vecChecked (op : VOp) : Bool :=
  match op with
  | .vabs => false | .vneg => false | .vcmp => false | .vsel => false | .vand => false | .vor => false
  | .vxor => false | .vshl => false | .vshr => false | .vsar => false | .viota => false
  | .vsplat => false | .vshuf => false | .vsminit => false | .vrand => false | .vdrop => false
  | _ => true

end Sys2Proof.Machine
end

