-- ==== Sys2Proof/Machine/PatrolWork.lean ====
section
/-!
DEFINITION. The work of a patrol kernel: check tiles, vector instructions, a conversion and a scatter-add, and how the
results of the pair's two cores compare (spec 12, R424, R425). None of it is left in a core.
-/

namespace Sys2Proof.Machine

/-! ## Operands (R175, R424) -/

/-- Operand i of the work. -/
def PatrolRun.operand (r : PatrolRun) (i : Nat) : Word64 := gen64 r.seed 0 i

/-- Operand i as a value of a format. -/
def PatrolRun.num (r : PatrolRun) (f : Fmt) (i : Nat) : Num := decodeNum f ((r.operand i).toNat % 2 ^ fmtBits f)

/-- Operands from i on, as a register of binary32 lanes. -/
def PatrolRun.reg (r : PatrolRun) (i : Nat) : VReg :=
  pack 0xA ((List.range 64).map (fun j => (r.operand (i + j)).toNat % 2 ^ 32))

/-! ## Check tiles (Table 2-6) -/

/-- The format of the tiles of a rate class. (DESIGN CHOICE, log entry 139.) -/
def classFmt (cls : Nat) : Fmt := match cls with | 0 => 0 | 1 => 3 | 2 => 8 | _ => 0xA

/-- The rate class and the mode of check tile j: the rotation goes on from the kernel's. -/
def PatrolRun.tileAt (r : PatrolRun) (j : Nat) : Nat × Bool :=
  ((r.cls + j) % 4, r.quad != decide ((r.cls + j) / 4 % 2 = 1))

/-- The codes of check tile j: as many rows as the array has columns, its weights behind its activations. -/
def PatrolRun.tile (r : PatrolRun) (j : Nat) : List Nat :=
  let (cls, quad) := r.tileAt j
  let x (i : Nat) : Num := r.num (classFmt cls) (2048 * j + i)
  let d := arrDim quad
  (List.range d).flatMap (fun m => (List.range d).map (fun n =>
    accCode false (partialSum false ((List.range d).map (fun k => mulNum (x (d * m + k)) (x (1024 + d * k + n)))) .zero).val))

/-! ## Vector instructions, FCONV and FSCADD -/

/-- The vector instructions, the transcendentals, VRAND and VDROP among them. (DESIGN CHOICE, log entry 139.) -/
def patrolOps : List VOp :=
  [.vadd, .vsub, .vmul, .vfma, .vdiv, .vsqrt, .vexp2, .vlog2, .vrcp, .vrsqrt, .vsin, .vcos, .vrand, .vdrop]

/-- The k-th of them on binary32 lanes: v2 is written from v0, v1 and, where it has a third source, v1 again; the
probability of VDROP is a half. -/
def PatrolRun.vcmd (r : PatrolRun) (k : Nat) (op : VOp) : VCmd where
  n := 0
  ord := 0
  pc := 0
  op := op
  w := ⟨false, false, 0, 0, 2, 0, 1, BitVec.ofNat 32 (2 ^ 27 + 0xA * 2 ^ 20 + (if op = .vdrop then 2 ^ 15 else 0))⟩
  desc := 0
  sidx := BitVec.ofNat 64 (64 * k)
  seed := r.seed

/-- The codes of the vector instructions, on operands from a place on. -/
def PatrolRun.vectors (r : PatrolRun) (at_ : Nat) : List Nat :=
  (patrolOps.zipIdx).flatMap (fun x =>
    let i := at_ + 128 * x.2
    let v := { Vec.reset with v := (Vec.reset.v.set 0 (r.reg i)).set 1 (r.reg (i + 64)) }
    (vecCompute v (r.vcmd x.2 x.1)).regs.flatMap (fun y => lanes y.2 0xA))

/-- An FCONV within LSP: binary32 elements to bfloat16, rounded to nearest-even. -/
def PatrolRun.conversion (r : PatrolRun) (at_ : Nat) : List Nat :=
  (List.range 64).map (fun i => (convert (r.num 0xA (at_ + i)) 8 0 2 0).code)

/-- An FSCADD within LSP: binary32 terms added to binary32 values. -/
def PatrolRun.scatter (r : PatrolRun) (at_ : Nat) : List Nat :=
  (List.range 64).map (fun i =>
    accCode false (scatterAdd 0xA (r.num 0xA (at_ + i)) (r.num 0xA (at_ + 64 + i))).1)

/-! ## The comparison (R398, R424, R425) -/

/-- What the work gives on a core without a fault, when the kernel's time holds n check tiles. -/
def PatrolRun.results (r : PatrolRun) (n : Nat) : List Nat :=
  let v := 2048 * n
  let f := v + 128 * patrolOps.length
  (List.range n).flatMap r.tile ++ r.vectors v ++ r.conversion f ++ r.scatter (f + 64)

/-- Results with the errors that a core's faults make in them: by place, by how much. -/
def withErrors (l : List Nat) (e : List (Nat × Int)) : List Nat :=
  l.mapIdx (fun i x => (((x : Int) + ((e.filter (fun (y : Nat × Int) => y.1 = i)).map Prod.snd).sum) % 2 ^ 32).toNat)

/-- The residues pass: every error is a multiple of 127 (R398). -/
def residuesPass (e : List (Nat × Int)) : Bool := e.all (fun (x : Nat × Int) => x.2 % 127 = 0)

/-- The pilot finds the two results equal, and every residue right. -/
def PatrolRun.agrees (k : PatrolRun) (r : PatrolResult) : Bool :=
  withErrors (k.results r.tiles) r.lower = withErrors (k.results r.tiles) r.upper &&
    residuesPass r.lower && residuesPass r.upper

end Sys2Proof.Machine
end

