-- ==== Sys2Proof/Machine/Patrol.lean ====
section
/-!
DEFINITION. Clearance of suspect cores and patrol kernels (spec 12, R419, R423 to R426). A patrol leaves no state of a
core that a kernel reads.
-/

namespace Sys2Proof.Machine

/-- The unit that a comparison charges. -/
def chargeOf (g : Nat) : ChargeUnit → FaultUnit
  | .quadrant n => .quadrant g n.toNat
  | .lanes n => .lanes g n.toNat

/-- An arbitration that the comparison has already decided, with its witness. -/
def State.decided (s : State) (g w : Nat) (r : ArbResult) : State :=
  let a : Arb := ⟨.core (BitVec.ofNat 12 g), (s.core g).nextChk, chargeOf g r.unit, some w, some (r.rdiff, r.pres)⟩
  s.arbEnd a (arbOutcome r.rdiff r.pweq r.pres r.wres) r.rdiff r.pweq r.pres r.wres

/-! ## Clearance (R419) -/

/-- Pilots run, and cores are released. -/
def State.pilotsOn (s : State) : Bool := s.released && s.sec.state = .running

/-- Choose a suspect core's third core, if none has been chosen. (DESIGN CHOICE, log entry 36.) -/
def State.chooseThird (s : State) (g : Nat) : State :=
  if s.int.clearing.any (fun x => x.1 = g) then s
  else match s.witnessOf g with
    | some w => { s with int := { s.int with clearing := s.int.clearing ++ [(g, w)] } }
    | none => s

/-- The clearance ends. -/
def State.endClearance (s : State) (g w : Nat) (r : Clearance) : State :=
  let t := { s with int := { s.int with clearing := s.int.clearing.filter (fun x => x.1 ≠ g) } }
  match r with
  | .agree => ({ t with int := { t.int with suspects := setDel g t.int.suspects } }).logRec
      (coreRec 0x0015 sNOTICE g (leBytes 2 g ++ [0]))
  | .mismatch m => t.decided g w m

/-- The third core is chosen, and once both cores are free the tiles run. -/
def State.clearance (s : State) (g : Nat) (r : Clearance) : State :=
  if !s.pilotsOn || !s.int.suspects.contains g then s
  else
    let t := s.chooseThird g
    match t.int.clearing.find? (fun x => x.1 = g) with
    | some (_, w) => if t.coreAtRest g && t.coreAtRest w then t.endClearance g w r else t
    | none => t

/-! ## Patrol kernels (R423 to R426) -/

/-- Tide time lies in a slack water window, of links a or of links b (Table 9-2). -/
def State.anySlack (s : State) : Bool :=
  let per := s.tt.slack.period * 1000
  let o := s.tt.slack.offset * 1000
  s.tt.runs && (windowMeets per o s.tt.slack.len s.tt.now s.tt.now || windowMeets per (o + per / 2) s.tt.slack.len s.tt.now s.tt.now)

/-- A core may take a patrol kernel. -/
def State.canPatrol (s : State) (g : Nat) : Bool := s.coreFree g && !s.int.fenced.contains g

/-- The share of 100 s in ns: PPM parts per million. -/
def Integ.share (x : Integ) : Nat := x.ppm.toNat * 100000

/-- A period of 100 s of tide time ends, and k - 1 more have passed: what the core has not run it owes. -/
def PatrolAcct.close (a : PatrolAcct) (share k : Nat) : PatrolAcct :=
  { a with debt := a.debt + share - a.ran + (k - 1) * share, ran := 0 }

/-- The periods that have ended are closed, at the share in force. (DESIGN CHOICE, log entry 139.) -/
def State.rollPatrol (s : State) : State :=
  let p := s.tt.now / 100000000000
  let k := p - s.int.patrolPer
  if k = 0 then s
  else { s with int := { s.int with
    patrolPer := p
    patrolBase := s.int.patrolBase + k * s.int.share
    patrolled := s.int.patrolled.map (fun x => (x.1, x.2.close s.int.share k)) } }

/-- A core's account. -/
def State.patrolOf (s : State) (g : Nat) : PatrolAcct := smGet ⟨s.int.patrolBase, 0, none⟩ s.int.patrolled g

/-- The time a patrol kernel takes, in ns. -/
def patrolNs : Nat := 20000

/-- A core has still to run patrol in this period: its share, and what it has to catch up with. A share of 0 stops patrols
(Table 12-9); those at reduced margin stop by MARGIN. (DESIGN CHOICE, log entry 139.) -/
def State.owesPatrol (s : State) (g : Nat) : Bool :=
  s.int.ppm ≠ 0 && (s.patrolOf g).ran < (s.patrolOf g).debt + s.int.share

/-- A core is in a patrol kernel. -/
def State.patrolling (s : State) (g : Nat) : Bool := s.int.patrols.any (fun x => x.lower = g || x.upper = g)

/-- A core has been in a patrol kernel at some time since a wall time. -/
def State.patrolledSince (s : State) (g w : Nat) : Bool := s.patrolling g || (s.patrolOf g).last.any (w ≤ ·)

/-- A LAUNCH that waits first in its queue has been delayed by a patrol kernel of one of its cores: one that ran when it
became the first, or later. -/
def State.delayedOnce (s : State) (g : Nat) : Bool :=
  s.sch.queues.any (fun x => match x.2.cmds with
    | c :: _ => c.opcode = 1 && (let set := s.launchSet (s.block c)
        set.contains g && set.any (fun h => s.patrolledSince h x.2.firstAt))
    | [] => false)

/-- The work of the next patrol kernel: the four rate classes, each in full and in quad mode, in rotation, with a seed
drawn from tide time (R424). (DESIGN CHOICE, log entry 139.) -/
def State.patrolWork (s : State) (g h : Nat) (margin : Bool) : PatrolRun where
  lower := min g h
  upper := max g h
  margin := margin
  cls := s.int.patrolRot % 4
  quad := s.int.patrolRot / 4 % 2 = 1
  seed := BitVec.ofNat 64 s.tt.now

/-- A core begins a patrol kernel. -/
def State.patrolStart (s : State) (g : Nat) : State :=
  let a := s.patrolOf g
  { s with int := { s.int with
    patrolled := smPut .none_ s.int.patrolled g { a with ran := a.ran + patrolNs, last := some s.wall } } }

/-- A core's patrol kernel ends. -/
def State.patrolStop (s : State) (g : Nat) : State :=
  { s with int := { s.int with
    patrolled := smPut .none_ s.int.patrolled g { s.patrolOf g with last := some s.wall } } }

/-- A pair of cores takes a patrol kernel, at a boundary of both, where it may (R301, R423). -/
def State.launchPair (s : State) (g h : Nat) (margin : Bool) : State :=
  let may (c : Nat) : Bool := s.canPatrol c && !s.delayedOnce c
  if s.launching && g / 512 = h / 512 && g ≠ h && may g && may h && !s.anySlack && !s.pwr.emerg &&
      (if margin then s.int.margin else s.owesPatrol g || s.owesPatrol h) then
    let t := { s with int := { s.int with
      patrols := s.int.patrols ++ [s.patrolWork g h margin], patrolRot := s.int.patrolRot + 1 } }
    (t.patrolStart g).patrolStart h
  else s

def State.launchPatrol (s : State) (g h : Nat) (margin : Bool) : State := s.rollPatrol.launchPair g h margin

/-- The PATROL_MISMATCH record. -/
def State.logPatrol (s : State) (lo hi mv : Nat) (sev : BitVec 2) : State :=
  s.logRec (coreRec 0x0014 sev lo (leBytes 2 lo ++ leBytes 2 hi ++ leBytes 2 mv))

def State.patrolTiles (s : State) (n : Nat) : State :=
  { s with int := { s.int with patrolTiles := s.int.patrolTiles + BitVec.ofNat 64 n } }

/-- A mismatch of a patrol at full margin (R425). (DESIGN CHOICE, log entry 37.) -/
def State.patrolBad (s : State) (lo hi : Nat) (lowerPasses upperPasses : Bool) (r : ArbResult) (mv : Nat) : State :=
  let t := ({ s with int := { s.int with patrolMismatch := s.int.patrolMismatch + 1 } }).healthInc
    (dieHealth (dieOf lo).val + 0x78) 4
  let upper := lowerPasses && !upperPasses
  (t.logPatrol lo hi mv sNOTICE).decided (if upper then hi else lo) (if upper then lo else hi) r

/-- A patrol kernel ends, and the pilot compares: its tiles are counted; a mismatch is logged as a margin result at reduced
margin, and arbitrated otherwise. -/
def State.endPatrol (s : State) (g : Nat) (r : PatrolResult) : State :=
  match s.int.patrols.find? (fun x => x.lower = g) with
  | none => s
  | some k =>
    let t := { s with int := { s.int with patrols := s.int.patrols.filter (fun x => x.lower ≠ g) } }
    let u := ((t.patrolStop k.lower).patrolStop k.upper).patrolTiles r.tiles
    if k.agrees r then u
    else if k.margin then u.logPatrol k.lower k.upper r.railMv sINFO
    else u.patrolBad k.lower k.upper (residuesPass r.lower) (residuesPass r.upper) r.replay r.railMv

/-! ## Rows -/

/-- SUSPECT_CLEARANCE (R419). -/
def execSuspectClearance (g : Gcn) (r : Clearance) (s : State) : Res := .next (s.clearance g.toNat r)

/-- PATROL_LAUNCH (R301, R423). -/
def execPatrolLaunch (g : Gcn) (h : Gcn) (margin : Bool) (s : State) : Res := .next (s.launchPatrol g.toNat h.toNat margin)

/-- PATROL_COMPLETE, named by the lower core of the pair (R424 to R426). -/
def execPatrolComplete (g : Gcn) (r : PatrolResult) (s : State) : Res := .next (s.endPatrol g.toNat r)

end Sys2Proof.Machine
end

