-- ==== Sys2Proof/Machine/Regs.lean ====
section
/-!
DEFINITION. The registers of the Host Register Window by offset: which exist, their widths and reserved bits, what
they read, and what a write does (spec 11, R385 to R389, R393; the register tables of chapters 08 to 15).
-/

namespace Sys2Proof.Machine

/-! ## Which registers there are -/

/-- A register: its offset in BAR0, whether it is 64 bits wide, and its reserved bits. -/
structure Reg where
  base : Nat
  wide : Bool
  rsv  : Nat
  deriving DecidableEq, Repr

/-- A 32-bit register at an offset. -/
def reg32 (base rsv : Nat) : Option Reg := some ⟨base, false, rsv⟩

/-- A 64-bit register that holds the offset in one of its halves. -/
def reg64 (off rsv : Nat) : Option Reg := some ⟨off / 8 * 8, true, rsv⟩

def within_ (o lo n : Nat) : Bool := lo ≤ o && o < lo + n

/-- HRW (Table 11-10). -/
def hrwReg (o : Nat) : Option Reg :=
  if o = 0 || o = 4 then reg32 o 0
  else if o = 8 then reg32 o 0xFFFF0000
  else if o = 0xC then reg32 o 0xFFFFFE00
  else if o = 0x10 then reg32 o 0xFFF00CFE
  else if within_ o 0x18 8 then reg64 o 0x3FFFFF00
  else if o = 0x20 then reg32 o 0xFFFFFF00
  else if o = 0x24 then reg32 o 0x3000
  else if within_ o 0x100 0x200 then reg64 o 0
  else if o = 0x300 then reg32 o 0xFFFFF000
  else if within_ o 0x310 8 then reg64 o 0xFFF
  else if within_ o 0x318 8 then reg64 o 0xFFFFFE0000000000
  else if o = 0x320 then reg32 o 0xFFFFF000
  else none

/-- SCH (Table 8-12). -/
def schReg (b o : Nat) : Option Reg :=
  let k := (o - 0x1000) % 0x40
  if o = 0 then reg32 (b + o) 0xFFFFFF0C
  else if o = 4 || o = 8 then reg32 (b + o) 0
  else if within_ o 0x10 8 then reg64 (b + o) 0xFFFFFEC0
  else if o = 0x18 then reg32 (b + o) 0xFFFC
  else if o = 0x20 then reg32 (b + o) 0xFFFF0000
  else if o = 0x24 then reg32 (b + o) 0
  else if within_ o 0x1000 0x1000 then
    if k < 8 then reg64 (b + o) 0xFFFFFFE0F000003F
    else if k < 0x10 then reg64 (b + o) 0xFFFFFE000000003F
    else if k = 0x10 then reg32 (b + o) 0xFFFCC800
    else if k = 0x14 then reg32 (b + o) 0xFFFE0000
    else if k = 0x18 then reg32 (b + o) 0xFE0000E2
    else none
  else none

/-- TT (Table 9-9). -/
def ttReg (b o : Nat) : Option Reg :=
  if within_ o 0 8 then reg64 (b + o) 0
  else if o = 8 then reg32 (b + o) 0xFFC0F0C8
  else if o = 0xC then reg32 (b + o) 0
  else if within_ o 0x10 8 then reg64 (b + o) 0
  else if o = 0x20 || o = 0x28 then reg32 (b + o) 0xFF000000
  else if o = 0x24 then reg32 (b + o) 0xFFF00000
  else if o = 0x30 then reg32 (b + o) 0
  else if within_ o 0x40 24 && o % 4 = 0 then reg32 (b + o) 0
  else none

/-- LNK (Table 10-12). -/
def lnkReg (b o : Nat) : Option Reg :=
  let k := (o - 0x1000) % 0x100
  if o = 0 then reg32 (b + o) 0xFFFF0000
  else if o = 4 then reg32 (b + o) 0x1FFFC000
  else if within_ o 8 8 then reg64 (b + o) 0
  else if o = 0x10 then reg32 (b + o) 0xFFF8FF0C
  else if within_ o 0x18 8 then reg64 (b + o) 0
  else if o = 0x20 then reg32 (b + o) 0xFFFFFFFE
  else if o = 0x24 then reg32 (b + o) 0
  else if o = 0x30 then reg32 (b + o) 0xFFFFC000
  else if o = 0x34 then reg32 (b + o) 0xFFFE0000
  else if within_ o 0x40 16 || within_ o 0x60 24 then reg64 (b + o) 0
  else if o = 0x50 then reg32 (b + o) 0
  else if within_ o 0x1000 0x600 then
    if k = 0 then reg32 (b + o) 0xFFFFFFCC
    else if k = 4 then reg32 (b + o) 0xF8F8
    else if within_ k 0x10 8 then reg64 (b + o) 0xF000000000000000
    else if within_ k 0x20 0x28 then reg64 (b + o) 0
    else if k = 0x48 then reg32 (b + o) 0
    else if within_ k 0x80 0x40 && k % 4 = 0 then reg32 (b + o) 0x7FFF0000
    else none
  else none

/-- COL (Table 9-12). -/
def colReg (b o : Nat) : Option Reg :=
  if o = 0 then reg32 (b + o) 0xFF00FFF8
  else if o = 4 || o = 0x128 then reg32 (b + o) 0
  else if o = 0x100 then reg32 (b + o) 0xFFFFFFF0
  else if within_ o 0x110 24 then reg64 (b + o) 0
  else none

/-- HBM (Table 11-14). -/
def hbmReg (b o : Nat) : Option Reg :=
  let k := (o - 0x100) % 0x20
  if o = 0 then reg32 (b + o) 0xFFFFFFF2
  else if within_ o 8 8 then reg64 (b + o) 0
  else if o = 0x10 then reg32 (b + o) 0xFFFFE000
  else if o = 0x14 then reg32 (b + o) 0xFFFFF000
  else if within_ o 0x18 8 then reg64 (b + o) 0x3FFFFF0000000FFF
  else if within_ o 0x100 0x180 then
    if k < 0x10 then reg64 (b + o) 0 else if k = 0x10 then reg32 (b + o) 0xFFFFFF00 else none
  else none

/-- PWR (Table 13-8). -/
def pwrReg (b o : Nat) : Option Reg :=
  if o = 0 then reg32 (b + o) 0xFC42
  else if o = 4 then reg32 (b + o) 0xFFFEE000
  else if within_ o 8 16 then reg64 (b + o) 0xFFFF000000000000
  else if o = 0x18 then reg32 (b + o) 0xFFFF0000
  else if o = 0x20 || o = 0x24 || (within_ o 0x40 32 && o % 4 = 0) then reg32 (b + o) 0xFFFFE000
  else if within_ o 0x80 64 then reg64 (b + o) 0
  else if within_ o 0x100 40 && o % 4 = 0 then reg32 (b + o) 0xFFFF0000
  else if within_ o 0x140 8 || within_ o 0x180 80 || within_ o 0x1D0 8 then reg64 (b + o) 0
  else none

/-- CLK (Table 13-9). -/
def clkReg (b o : Nat) : Option Reg :=
  if (within_ o 0x10 32 || within_ o 0x40 32) && o % 4 = 0 then reg32 (b + o) 0xFFFFF000
  else if within_ o 0x80 8 then reg64 (b + o) 0
  else none

/-- INT (Table 12-7). -/
def intReg (b o : Nat) : Option Reg :=
  if o = 0 then reg32 (b + o) 0xFFFFFFFE
  else if o = 4 then reg32 (b + o) 0xFF000000
  else if o = 8 then reg32 (b + o) 0xFFFE0000
  else if within_ o 0x10 8 then reg64 (b + o) 0xFC
  else if within_ o 0x20 64 || within_ o 0x100 0x200 then reg64 (b + o) 0
  else none

/-- SEC (Table 14-10). -/
def secReg (b o : Nat) : Option Reg :=
  if o = 0 then reg32 (b + o) 0xFFF0
  else if within_ o 0x10 32 then reg64 (b + o) 0xFFFFFE
  else if o = 0x30 then reg32 (b + o) 0xFFFFFF80
  else if o = 0x34 || o = 0x4C || o = 0x58 then reg32 (b + o) 0xFFFFFFFE
  else if within_ o 0x40 8 then reg64 (b + o) 0
  else if o = 0x48 then reg32 (b + o) 0
  else if o = 0x50 then reg32 (b + o) 0xF0FFFF00
  else if o = 0x5C then reg32 (b + o) 0xFFFFFF00
  else if o = 0x60 then reg32 (b + o) 0xFFFF0000
  else none

/-- LOG (Table 15-11) but its window. -/
def logReg (b o : Nat) : Option Reg :=
  if o = 0 then reg32 (b + o) 0xFFFFF0F0
  else if within_ o 8 24 then reg64 (b + o) 0
  else if o = 0x20 || o = 0x24 || o = 0x30 then reg32 (b + o) 0
  else if o = 0x28 then reg32 (b + o) 0xFFFFFFC0
  else none

/-- The register that a BAR0 offset, a multiple of 4, addresses (Table 11-7). -/
def regInfo (off : Nat) : Option Reg :=
  match off / 0x10000 with
  | 0 => hrwReg off
  | 1 => schReg 0x10000 (off - 0x10000)
  | 2 => ttReg 0x20000 (off - 0x20000)
  | 3 => lnkReg 0x30000 (off - 0x30000)
  | 4 => if off < 0x48000 then colReg 0x40000 (off - 0x40000) else colReg 0x48000 (off - 0x48000)
  | 5 => hbmReg 0x50000 (off - 0x50000)
  | 6 => pwrReg 0x60000 (off - 0x60000)
  | 7 => clkReg 0x70000 (off - 0x70000)
  | 8 => intReg 0x80000 (off - 0x80000)
  | 9 => secReg 0x90000 (off - 0x90000)
  | 16 => logReg 0x100000 (off - 0x100000)
  | _ => none

def inCoreWindow (off : Nat) : Bool := within_ off 0xC0000 0x4000

def inLogWindow (off : Nat) : Bool := within_ off 0x180000 0x80000

/-! ## What they read -/

def ttStateCode : TTState → Nat
  | .acquire => 0 | .locked => 1 | .holdover => 2 | .unlocked => 3

def linkStateCode : LinkState → Nat
  | .down => 0 | .training => 1 | .up => 2 | .slack => 3 | .held => 4

def State.readHrw (s : State) (o : Nat) : Nat :=
  let h := s.hrw
  if o = 0 then 0xF1A50576
  else if o = 4 then s.hrwRev
  else if o = 8 then intfVersions
  else if o = 0xC then ofBool h.locked * 256 + h.version.toNat
  else if o = 0x10 then h.status
  else if o = 0x18 then h.errOff.toNat * 2 ^ 32 + ofBool h.errValid * 2 ^ 31 + ofBool h.errMulti * 2 ^ 30 + h.errReason.toNat
  else if o = 0x24 then h.gFofs.toNat * 2 ^ 16 + h.gResult.toNat * 2 ^ 14 + h.gReason.toNat * 256 + h.gGroup.toNat
  else if within_ o 0x100 0x200 then s.coreMap ((o - 0x100) / 8)
  else if o = 0x300 then h.coreSel.toNat
  else if o = 0x310 then h.apBase
  else if o = 0x318 then h.apSize
  else if o = 0x320 then h.hdmh
  else 0

def QCfg.ringWord (c : QCfg) : Nat := c.log2 * 2 ^ 32 + c.offset * 64
def QCfg.cplWord (c : QCfg) : Nat := ofBool c.cplHost * 2 ^ 40 + c.cplOff * 64

def State.readQueue (s : State) (n k : Nat) : Nat :=
  let x := s.queue n
  if k = 0 then x.cfg.ringWord
  else if k = 8 then x.cfg.cplWord
  else if k = 0x10 then ofBool x.enabled * 2 ^ 16 + x.prio.toNat * 2 ^ 12 + x.vector.toNat
  else if k = 0x14 then x.depth
  else if k = 0x18 then x.outstanding * 256 + ofBool x.pend.isSome * 16 + ofBool x.halted * 8 + ofBool x.refused * 4 +
    ofBool x.enabled
  else 0

def State.readSch (s : State) (o : Nat) : Nat :=
  let c := s.sch
  if o = 0 then c.kind.toNat * 16 + ofBool c.paused * 2 + ofBool c.ledger
  else if o = 4 then c.wdogDef.toNat
  else if o = 8 then c.xsigMs.toNat
  else if o = 0x18 then c.canCount.toNat * 2 ^ 16 + c.canResult.toNat
  else if o = 0x20 then c.ticketSel.toNat
  else if o = 0x24 then (s.ticket c.ticketSel.toNat).toNat
  else if 0x1000 ≤ o then s.readQueue ((o - 0x1000) / 0x40) ((o - 0x1000) % 0x40)
  else 0

def portAt (n : Nat) : Port := (portOf n).getD .zn

def State.readTt (s : State) (o : Nat) : Nat :=
  let t := s.tt
  if o = 0 then t.now % 2 ^ 64
  else if o = 8 then min t.depth 63 * 2 ^ 16 + ofBool t.slackMM * 2 ^ 11 +
    (match t.parent with | some p => (portNum p).val | none => 7) * 256 + t.src.toNat * 16 + ttStateCode t.state
  else if o = 0xC then t.offset.toNat
  else if o = 0x10 then t.epoch.toNat
  else if o = 0x20 then t.slack.period
  else if o = 0x24 then t.slack.len
  else if o = 0x28 then t.slack.offset
  else if o = 0x30 then t.rampPeriod * 2 ^ 20 + t.rampSlots * 2 ^ 10 + t.rampSlot
  else (t.linkDly[portNum (portAt ((o - 0x40) / 4))]).toNat

/-- LNK_Pp_CREDIT of five limits. -/
def creditWord (l : List Nat) : Nat := (List.range 5).foldl (fun n c => n + l.getD c 0 % 4096 * 4096 ^ c) 0

def State.readPort (s : State) (p : Port) (k : Nat) : Nat :=
  let x := s.port p
  let up := x.la.inUse || x.lb.inUse
  if k = 0 then ofBool x.disB * 2 + ofBool x.disA
  else if k = 4 then x.failLane.toNat * 2 ^ 28 +
    (if up then (if x.la.inUse then x.la.version else x.lb.version) else 0) * 2 ^ 24 +
    x.lb.reason.toNat * 2 ^ 20 + x.la.reason.toNat * 2 ^ 16 + linkStateCode x.lb.state * 256 + linkStateCode x.la.state
  else if k = 0x10 then creditWord x.limits
  else if k = 0x20 then x.fecA.toNat
  else if k = 0x28 then x.fecB.toNat
  else if k = 0x30 then x.badA.toNat
  else if k = 0x38 then x.badB.toNat
  else if k = 0x40 then x.replays.toNat
  else if k = 0x48 then x.slackSkip.toNat
  else match x.eyes.find? (fun e => e.1 = (k - 0x80) / 4) with
    | some (_, v, h) => 2 ^ 31 + v.toNat * 256 + h.toNat
    | none => 0

def State.readLnk (s : State) (o : Nat) : Nat :=
  let l := s.lnk
  if o = 0 then lnkVers
  else if o = 4 then ofBool l.strapsOk * 2 ^ 31 + ofBool l.parErr * 2 ^ 30 + ofBool l.disagree * 2 ^ 29 + s.own.toNat
  else if o = 8 then (match l.irec with | some r => r.id.toNat | none => 0)
  else if o = 0x10 then l.cmdRes.toNat * 2 ^ 16 + l.conflict.toNat * 16 + ofBool l.irecCopy * 2 + ofBool l.irec.isSome
  else if o = 0x18 then l.irecAddr.toNat
  else if o = 0x24 then l.txnUs
  else if o = 0x30 then l.origin.toNat
  else if o = 0x34 then l.extZ * 4096 + l.extY * 64 + l.extX
  else if o = 0x40 then l.routeX.toNat
  else if o = 0x48 then l.routeY.toNat
  else if o = 0x50 then l.routeZ.toNat
  else if o = 0x60 then l.unroutable.toNat
  else if o = 0x68 then l.late.toNat
  else if o = 0x70 then l.tkExpired.toNat
  else if 0x1000 ≤ o then s.readPort (portAt ((o - 0x1000) / 0x100)) ((o - 0x1000) % 0x100)
  else 0

def ColEng.read (c : ColEng) (o : Nat) : Nat :=
  if o = 0 then c.lastCode.toNat * 2 ^ 16 + ofBool c.holding * 4 +
    (match c.run with | some r => ofBool r.tree * 2 + 1 | none => 0)
  else if o = 4 then c.id.toNat
  else if o = 0x100 then c.flags.toNat
  else if o = 0x110 then c.missed.toNat
  else if o = 0x118 then c.half.toNat
  else if o = 0x120 then c.adds.toNat
  else c.stray.toNat

def stackAt (n : Nat) : Fin 12 := ⟨n % 12, Nat.mod_lt _ (by decide)⟩

def State.readHbm (s : State) (o : Nat) : Nat :=
  let h := s.hbm
  let k := s.stack (stackAt ((o - 0x100) / 0x20))
  if o = 0 then ofBool (4096 ≤ h.pages.length) * 8 + ofBool h.newPage * 4 + ofBool h.ueEvent
  else if o = 8 then h.passes.toNat
  else if o = 0x10 then h.pages.length
  else if o = 0x14 then h.pageSel
  else if o = 0x18 then (match h.pages[h.pageSel]? with | some p => pageVal p | none => 0)
  else match (o - 0x100) % 0x20 with
    | 0 => k.ce.toNat
    | 8 => k.ue.toNat
    | _ => k.temp.toNat

def dieAt (n : Nat) : Fin 8 := ⟨n % 8, Nat.mod_lt _ (by decide)⟩
def anyDie (n : Nat) : Fin 10 := ⟨n % 10, Nat.mod_lt _ (by decide)⟩

def State.readPwr (s : State) (o : Nat) : Nat :=
  let p := s.pwr
  if o = 0 then s.pwrStatus
  else if o = 4 then ofBool p.clamped * 2 ^ 16 + p.cap
  else if o = 8 then p.p / 1000 * 2 ^ 32 + p.ca % 65536 * 2 ^ 16 + p.mv % 65536
  else if o = 0x10 then avgOf s2 p.samples / 1000 * 2 ^ 32 + avgOf ms10 p.samples / 1000 * 2 ^ 16 + p.peak10 / 1000
  else if o = 0x18 then p.burstNj / 1000000000
  else if o = 0x20 then p.pool
  else if o = 0x24 then p.reserve
  else if within_ o 0x40 32 then (s.die (dieAt ((o - 0x40) / 4))).hold
  else if within_ o 0x80 64 then (s.die (dieAt ((o - 0x80) / 8))).wearMs.toNat
  else if within_ o 0x100 40 then p.tempWord (anyDie ((o - 0x100) / 4))
  else if o = 0x140 then p.inval.toNat * 2 ^ 32 + p.stale.toNat
  else if within_ o 0x180 80 then (p.droops[anyDie ((o - 0x180) / 8)]).toNat
  else p.emergCnt.toNat

def State.readClk (s : State) (o : Nat) : Nat :=
  if within_ o 0x10 32 then (s.die (dieAt ((o - 0x10) / 4))).now
  else if within_ o 0x40 32 then (s.die (dieAt ((o - 0x40) / 4))).maxMhz
  else s.pwr.steps.toNat

/-- INT_SUSPECTk. -/
def suspectWord (l : List Nat) (k : Nat) : Nat := (l.filter (fun g => g / 64 = k)).foldl (fun n g => n + 2 ^ (g % 64)) 0

def State.readInt (s : State) (o : Nat) : Nat :=
  let i := s.int
  if o = 0 then ofBool i.j3
  else if o = 4 then i.adders.toNat * 2 ^ 16 + i.suspects.length * 8 +
    ofBool (!i.arbs.isEmpty || i.clearing.any (fun x => s.coreAtRest x.1 && s.coreAtRest x.2)) * 4 + ofBool (i.j3 || i.ppm.toNat < 1000) * 2 + ofBool (!i.patrols.isEmpty)
  else if o = 8 then ofBool i.margin * 2 ^ 16 + i.ppm.toNat
  else if o = 0x10 then i.arbLast.toNat
  else if o = 0x20 then i.nChecker.toNat
  else if o = 0x28 then i.nTransient.toNat
  else if o = 0x30 then i.nPersistent.toNat
  else if o = 0x38 then i.nUnresolved.toNat
  else if o = 0x40 then i.nLate.toNat
  else if o = 0x48 then i.nJ3.toNat
  else if o = 0x50 then i.patrolTiles.toNat
  else if o = 0x58 then i.patrolMismatch.toNat
  else suspectWord i.suspects ((o - 0x100) / 8)

def Image.word (i : Image) : Nat := i.version.toNat * 2 ^ 32 + i.svn.toNat * 2 ^ 24 + ofBool i.slot

def State.readSec (s : State) (o : Nat) : Nat :=
  let c := s.sec
  if o = 0 then c.bootWord
  else if within_ o 0x10 32 then (c.images.toList.getD ((o - 0x10) / 8) Image.none_).word
  else if o = 0x30 then c.otp.svn
  else if o = 0x40 then c.stageAddr.toNat
  else if o = 0x48 then c.stageLen.toNat
  else if o = 0x50 then c.stageImg.toNat * 2 ^ 24 + c.stageRes.toNat
  else if o = 0x5C then c.actRes.toNat
  else 0

/-- The oldest SEQ still in the ring: records written, less those overwritten. -/
def LogSt.oldest (l : LogSt) : Nat :=
  let next := match l.queue with | (q, _, _) :: _ => q | [] => l.seqNext
  max 1 (next - ringSlots)

def State.readLog (s : State) (o : Nat) : Nat :=
  let l := s.log
  if o = 0 then l.status
  else if o = 8 then l.seqNext
  else if o = 0x10 then l.oldest
  else if o = 0x18 then l.pot
  else if o = 0x20 then l.resets.toNat
  else if o = 0x24 then l.dropped.toNat
  else if o = 0x28 then l.winBase.toNat
  else 0

/-- The value of a register, by the offset at which it starts; write-only fields read 0. -/
def State.regVal (s : State) (base : Nat) : Nat :=
  match base / 0x10000 with
  | 0 => s.readHrw base
  | 1 => s.readSch (base - 0x10000)
  | 2 => s.readTt (base - 0x20000)
  | 3 => s.readLnk (base - 0x30000)
  | 4 => if base < 0x48000 then (s.eng 0).read (base - 0x40000) else (s.eng 1).read (base - 0x48000)
  | 5 => s.readHbm (base - 0x50000)
  | 6 => s.readPwr (base - 0x60000)
  | 7 => s.readClk (base - 0x70000)
  | 8 => s.readInt (base - 0x80000)
  | 9 => s.readSec (base - 0x90000)
  | 16 => s.readLog (base - 0x100000)
  | _ => 0

/-- What a read through BAR0 of so many bits returns (R386, R387, R389, R470, R501). -/
def State.readBar0 (s : State) (off bits : Nat) : Nat :=
  if !(bits = 32 || bits = 64) || off % (bits / 8) ≠ 0 then 0
  else if !s.hrw.alive then (if off = 0 && bits = 32 then 0xF1A50576 else 0)
  else if (!s.hrw.locked && !earlyReg off) || (s.sec.state = .recovery && !recoveryReg off) then 0
  else if inLogWindow off then
    leNat ((List.range (bits / 8)).map (fun i => s.logByte (s.log.winBase.toNat * 0x80000 + (off - 0x180000) + i)))
  else match regInfo off with
    | none => 0
    | some r =>
      let v := s.regVal r.base
      if bits = 64 then (if r.wide then v else 0)
      else if r.wide then (if off = r.base then v % 2 ^ 32 else v / 2 ^ 32) else v

/-- A read of PEAK10US, by a read of the register or of its low half (R387), starts its maximum afresh (Table 13-8). -/
def State.peakRead (s : State) (off bits : Nat) : State :=
  if off = 0x60010 && (bits = 32 || bits = 64) && s.hrw.alive && s.hrw.locked && s.sec.state ≠ .recovery then { s with pwr := { s.pwr with peak10 := 0 } } else s

/-- A register read of the host of so many bits: the core window has its own rules (R388). -/
def State.readReg (s : State) (p : HostOff) (bits : Nat) : State :=
  if !s.hostUp then s else
  match p with
  | .bar2 off => s.answer (s.readBar2 off bits) [] false
  | .cfg r => s.answer (s.readCfg r) [] false
  | .bar0 off =>
    if inCoreWindow off then s.windowRead (off - 0xC0000) bits
    else (s.peakRead off bits).answer (s.readBar0 off bits) [] false

/-! ## What a write does -/

/-- The value that an untouched half of a 64-bit register keeps: of a gangway group, its shadow copy; of a
register with RW1C bits, no bit. -/
def State.keptHalf (s : State) (base : Nat) : Nat :=
  if base = 0x18 then 0
  else if base = 0x310 then s.hrw.shBase
  else if base = 0x318 then s.hrw.shSize
  else if within_ base 0x11000 0x1000 then
    let x := s.queue ((base - 0x11000) / 0x40)
    if (base - 0x11000) % 0x40 = 0 then x.shadow.ringWord else x.shadow.cplWord
  else if within_ base 0x31000 0x600 then creditWord (s.port (portAt ((base - 0x31000) / 0x100))).shadow
  else s.regVal base

/-- The range check of a register without a row of its own. -/
def State.regBad (s : State) (base v : Nat) : Bool :=
  if base = 0x10004 || base = 0x10008 then v = 0
  else if within_ base 0x11000 0x1000 && (base - 0x11000) % 0x40 = 0x14 then v = 0 || 65536 < v
  else if base = 0x20030 then
    let slots := v / 2 ^ 10 % 2 ^ 10
    v / 2 ^ 20 = 0 || (slots ≠ 0 && slots ≤ v % 2 ^ 10)
  else if base = 0x30024 then v < 10 || 1000000 < v
  else if base = 0x50014 then s.hbm.pages.length ≤ v
  else if base = 0x80008 then 10000 < v % 65536
  else if base = 0x90048 then 0x04000000 < v
  else false

/-- Writes of HRW and SCH registers. -/
def State.putSch (s : State) (base v : Nat) : State :=
  if base = 0x18 then { s with hrw := { s.hrw with
    errValid := s.hrw.errValid && !v.testBit 31, errMulti := s.hrw.errMulti && !v.testBit 30 } }
  else if base = 0x300 then { s with hrw := { s.hrw with coreSel := BitVec.ofNat 12 v } }
  else if base = 0x310 then { s with hrw := { s.hrw with shBase := v } }
  else if base = 0x318 then { s with hrw := { s.hrw with shSize := v } }
  else if base = 0x10004 then { s with sch := { s.sch with wdogDef := BitVec.ofNat 32 v } }
  else if base = 0x10008 then { s with sch := { s.sch with xsigMs := BitVec.ofNat 32 v } }
  else if base = 0x10020 then { s with sch := { s.sch with ticketSel := BitVec.ofNat 16 v } }
  else if within_ base 0x11000 0x1000 then
    let n := (base - 0x11000) / 0x40
    let x := s.queue n
    match (base - 0x11000) % 0x40 with
    | 0 => s.setQueue n { x with shadow := { x.shadow with log2 := bitsOf v 32 5, offset := bitsOf v 6 22 } }
    | 8 => s.setQueue n { x with shadow := { x.shadow with cplHost := v.testBit 40, cplOff := bitsOf v 6 34 } }
    | 0x14 => s.setQueue n { x with depth := v }
    | 0x18 => s.setQueue n { x with refused := x.refused && !v.testBit 2 }
    | _ => s
  else s

/-- Writes of TT and LNK registers. -/
def State.putNet (s : State) (base v : Nat) : State :=
  let t := s.tt
  if base = 0x20010 then s.setTT { t with epoch := BitVec.ofNat 64 v }
  else if base = 0x20020 then s.setTT { t with shadow := { t.shadow with period := v } }
  else if base = 0x20024 then s.setTT { t with shadow := { t.shadow with len := v } }
  else if base = 0x20028 then s.setTT { t with shadow := { t.shadow with offset := v } }
  else if base = 0x20030 then
    s.setTT { t with rampPeriod := v / 2 ^ 20, rampSlots := v / 2 ^ 10 % 2 ^ 10, rampSlot := v % 2 ^ 10 }
  else if base = 0x30018 then { s with lnk := { s.lnk with irecAddr := BitVec.ofNat 64 v } }
  else if base = 0x30024 then { s with lnk := { s.lnk with txnUs := v } }
  else if base = 0x30030 then { s with lnk := { s.lnk with shOrigin := BitVec.ofNat 14 v } }
  else if base = 0x30034 then { s with lnk := { s.lnk with shX := bitsOf v 0 6, shY := bitsOf v 6 6, shZ := bitsOf v 12 5 } }
  else if within_ base 0x31000 0x600 && (base - 0x31000) % 0x100 = 0x10 then
    let p := portAt ((base - 0x31000) / 0x100)
    s.setPort p { s.port p with shadow := (List.range 5).map (fun c => bitsOf v (12 * c) 12) }
  else s

/-- Writes of the other blocks' registers. -/
def State.putRest (s : State) (base v : Nat) : State :=
  let flags (e : Fin 2) : State := s.setEng e { s.eng e with flags := clearBits (s.eng e).flags (BitVec.ofNat 5 v) }
  if base = 0x40100 then flags 0
  else if base = 0x48100 then flags 1
  else if base = 0x50000 then { s with hbm := { s.hbm with
    newPage := s.hbm.newPage && !v.testBit 2, ueEvent := s.hbm.ueEvent && !v.testBit 0 } }
  else if base = 0x50014 then { s with hbm := { s.hbm with pageSel := v } }
  else if base = 0x60000 then { s with pwr := { s.pwr with ov := s.pwr.ov && !v.testBit 9 } }
  else if base = 0x80000 then { s with int := { s.int with j3 := v.testBit 0 } }
  else if base = 0x80008 then
    let t := s.rollPatrol
    { t with int := { t.int with margin := v.testBit 16, ppm := BitVec.ofNat 16 v } }
  else if base = 0x90040 then s.setSec { s.sec with stageAddr := BitVec.ofNat 64 v }
  else if base = 0x90048 then s.setSec { s.sec with stageLen := BitVec.ofNat 32 v }
  else if base = 0x100000 then s.setLog { s.log with alert := s.log.alert && !v.testBit 0 }
  else if base = 0x100028 then s.setLog { s.log with winBase := BitVec.ofNat 6 v }
  else s

/-- The effect of a write that passes its checks. A write of read-only fields does nothing. -/
def State.regPut (s : State) (base v : Nat) : State :=
  match base / 0x10000 with
  | 0 => s.putSch base v
  | 1 => s.putSch base v
  | 2 => s.putNet base v
  | 3 => s.putNet base v
  | _ => s.putRest base v

/-- A write that has a row of its own. -/
def State.ownRow (s : State) (base : Nat) (v : Word64) : Option State :=
  let w : Word32 := v.setWidth 32
  if base = 0xC then some (s.selectIntf w)
  else if base = 0x20 then some (s.regWrite 0x20 w.toNat 0xFFFFFF00 none (fun t => t.commit (w.toNat % 256)))
  else if base = 0x320 then some (s.writeHdmh w)
  else if base = 0x10010 then some (s.writeCancel v)
  else if within_ base 0x11000 0x1000 && (base - 0x11000) % 0x40 = 0x10 then some (s.writeQCtrl ((base - 0x11000) / 0x40) w)
  else if base = 0x30020 then some (s.regWrite 0x30020 w.toNat 0xFFFFFFFE none (fun t => if w.getLsbD 0 then t.writeIrec else t))
  else if within_ base 0x31000 0x600 && (base - 0x31000) % 0x100 = 0 then
    some (s.writeLinkCtrl (portAt ((base - 0x31000) / 0x100)) w)
  else if base = 0x60004 then some (s.writeCap w)
  else if within_ base 0x70040 32 then some (s.writeMax (dieAt ((base - 0x70040) / 4)) w)
  else if base = 0x90034 then some (s.writeSvn w)
  else if base = 0x9004C then some (s.regWrite 0x9004C w.toNat 0xFFFFFFFE none (fun t => if w.getLsbD 0 then t.startStage else t))
  else if base = 0x90058 then some (s.regWrite 0x90058 w.toNat 0xFFFFFFFE none (fun t => if w.getLsbD 0 then t.requestActivation else t))
  else if base = 0x90060 then some (s.regWrite 0x90060 w.toNat 0xFFFF0000 (rangeIf (w.toNat ≠ 0xB007)) (fun t =>
    t.setSec { t.sec with resetReq := some t.wall }))
  else if base = 0x100030 then
    some (s.regWrite 0x100030 w.toNat 0 none (fun t => t.logRec ⟨0x0060, 0xFF, sNOTICE, 0, leBytes 4 w.toNat⟩))
  else none

/-- A write of a register that exists, by one of the two sizes. -/
def State.writeReg (s : State) (r : Reg) (off bits : Nat) (v : Word64) : State :=
  if (bits = 64 && !r.wide) || (bits = 32 && r.base = 0x10010) then s.regWrite off 0 0 (some eBADSIZE) id
  else match s.ownRow r.base v with
    | some t => t
    | none =>
      let high := r.wide && bits = 32 && off ≠ r.base
      let x := if bits = 64 then v.toNat else v.toNat % 2 ^ 32
      let rsv := if r.wide && bits = 32 then (if high then r.rsv / 2 ^ 32 else r.rsv % 2 ^ 32) else r.rsv
      let k := s.keptHalf r.base
      let full := if r.wide && bits = 32 then (if high then x * 2 ^ 32 + k % 2 ^ 32 else k / 2 ^ 32 * 2 ^ 32 + x) else x
      s.regWrite off x rsv (rangeIf (s.regBad r.base full)) (fun t => t.regPut r.base full)

/-- A write through BAR0. -/
def State.writeBar0 (s : State) (off bits : Nat) (v : Word64) : State :=
  if !s.hrwOn then s
  else if !(bits = 32 || bits = 64) || off % (bits / 8) ≠ 0 then s.hrwErr off eBADSIZE
  else if inCoreWindow off then s.regWrite off 0 0 (some eREADONLY) id
  else if inLogWindow off then s.regWrite off 0 0 none id
  else match regInfo off with
    | none => s.hrwErr off eNOREG
    | some r => s.writeReg r off bits v

/-! ## Rows -/

/-- REGISTER_WRITE (R381, R385 to R389, R393). -/
def execRegisterWrite (off : HostOff) (bits : Nat) (v : Word64) (s : State) : Res :=
  match off with
  | .bar0 o => .next (s.writeBar0 o bits v)
  | .bar2 o => .next (s.writeBar2 o bits v)
  | .cfg r => .next (s.writeCfg r (v.setWidth 32))

/-- CORE_WINDOW_READ (R388). The table has no row for a read of another register; this one carries it too (R381, R386,
R387). (DESIGN CHOICE, log entry 80.) -/
def execCoreWindowRead (off : HostOff) (size : ReadSize) (s : State) : Res := .next (s.readReg off size.bits)

end Sys2Proof.Machine
end

