-- ==== Sys2Proof/Machine/Scalar.lean ====
section
/-!
DEFINITION. Scalar arithmetic and branches (spec 03, R79 to R81, Tables 3-6 and 3-7).
-/

namespace Sys2Proof.Machine

/-- ADD: sD := sA + sB (R79, Table 3-6). -/
def execAdd (g : Gcn) (w : Word0) (s : State) : Res :=
  .next (s.alu g.toNat w (· + ·))

/-- ADDI: as ADD with sext(IMM) in place of sB (R79). -/
def execAddi (g : Gcn) (w : Word0) (s : State) : Res :=
  .next (s.aluI g.toNat w (· + ·))

/-- SUB: sD := sA − sB (R79, Table 3-6). -/
def execSub (g : Gcn) (w : Word0) (s : State) : Res :=
  .next (s.alu g.toNat w (· - ·))

/-- SUBI: as SUB with sext(IMM) in place of sB (R79). -/
def execSubi (g : Gcn) (w : Word0) (s : State) : Res :=
  .next (s.aluI g.toNat w (· - ·))

/-- MUL: sD := the low 64 bits of sA × sB (R79, Table 3-6). -/
def execMul (g : Gcn) (w : Word0) (s : State) : Res :=
  .next (s.alu g.toNat w (· * ·))

/-- MULI: as MUL with sext(IMM) in place of sB (R79). -/
def execMuli (g : Gcn) (w : Word0) (s : State) : Res :=
  .next (s.aluI g.toNat w (· * ·))

/-- MULHU: sD := the high 64 bits of the unsigned product (R79, Table 3-6). -/
def execMulhu (g : Gcn) (w : Word0) (s : State) : Res :=
  .next (s.alu g.toNat w opMulhu)

/-- MULHUI: as MULHU with sext(IMM) in place of sB (R79). -/
def execMulhui (g : Gcn) (w : Word0) (s : State) : Res :=
  .next (s.aluI g.toNat w opMulhu)

/-- MULHS: sD := the high 64 bits of the signed product (R79, Table 3-6). -/
def execMulhs (g : Gcn) (w : Word0) (s : State) : Res :=
  .next (s.alu g.toNat w opMulhs)

/-- MULHSI: as MULHS with sext(IMM) in place of sB (R79). -/
def execMulhsi (g : Gcn) (w : Word0) (s : State) : Res :=
  .next (s.aluI g.toNat w opMulhs)

/-- AND: sD := sA and sB (R79, Table 3-6). -/
def execAnd (g : Gcn) (w : Word0) (s : State) : Res :=
  .next (s.alu g.toNat w (· &&& ·))

/-- ANDI: as AND with sext(IMM) in place of sB (R79). -/
def execAndi (g : Gcn) (w : Word0) (s : State) : Res :=
  .next (s.aluI g.toNat w (· &&& ·))

/-- OR: sD := sA or sB (R79, Table 3-6). -/
def execOr (g : Gcn) (w : Word0) (s : State) : Res :=
  .next (s.alu g.toNat w (· ||| ·))

/-- ORI: as OR with sext(IMM) in place of sB (R79). -/
def execOri (g : Gcn) (w : Word0) (s : State) : Res :=
  .next (s.aluI g.toNat w (· ||| ·))

/-- XOR: sD := sA xor sB (R79, Table 3-6). -/
def execXor (g : Gcn) (w : Word0) (s : State) : Res :=
  .next (s.alu g.toNat w (· ^^^ ·))

/-- XORI: as XOR with sext(IMM) in place of sB (R79). -/
def execXori (g : Gcn) (w : Word0) (s : State) : Res :=
  .next (s.aluI g.toNat w (· ^^^ ·))

/-- SHL: sD := sA shifted left by sB[5:0] (R79, Table 3-6). -/
def execShl (g : Gcn) (w : Word0) (s : State) : Res :=
  .next (s.alu g.toNat w opShl)

/-- SHLI: as SHL with sext(IMM) in place of sB (R79). -/
def execShli (g : Gcn) (w : Word0) (s : State) : Res :=
  .next (s.aluI g.toNat w opShl)

/-- SHR: sD := sA shifted right by sB[5:0], logically (R79, Table 3-6). -/
def execShr (g : Gcn) (w : Word0) (s : State) : Res :=
  .next (s.alu g.toNat w opShr)

/-- SHRI: as SHR with sext(IMM) in place of sB (R79). -/
def execShri (g : Gcn) (w : Word0) (s : State) : Res :=
  .next (s.aluI g.toNat w opShr)

/-- SAR: sD := sA shifted right by sB[5:0], arithmetically (R79, Table 3-6). -/
def execSar (g : Gcn) (w : Word0) (s : State) : Res :=
  .next (s.alu g.toNat w opSar)

/-- SARI: as SAR with sext(IMM) in place of sB (R79). -/
def execSari (g : Gcn) (w : Word0) (s : State) : Res :=
  .next (s.aluI g.toNat w opSar)

/-- MIN: sD := the signed minimum (R79, Table 3-6). -/
def execMin (g : Gcn) (w : Word0) (s : State) : Res :=
  .next (s.alu g.toNat w opMin)

/-- MINI: as MIN with sext(IMM) in place of sB (R79). -/
def execMini (g : Gcn) (w : Word0) (s : State) : Res :=
  .next (s.aluI g.toNat w opMin)

/-- MAX: sD := the signed maximum (R79, Table 3-6). -/
def execMax (g : Gcn) (w : Word0) (s : State) : Res :=
  .next (s.alu g.toNat w opMax)

/-- MAXI: as MAX with sext(IMM) in place of sB (R79). -/
def execMaxi (g : Gcn) (w : Word0) (s : State) : Res :=
  .next (s.aluI g.toNat w opMax)

/-- MINU: sD := the unsigned minimum (R79, Table 3-6). -/
def execMinu (g : Gcn) (w : Word0) (s : State) : Res :=
  .next (s.alu g.toNat w opMinu)

/-- MINUI: as MINU with sext(IMM) in place of sB (R79). -/
def execMinui (g : Gcn) (w : Word0) (s : State) : Res :=
  .next (s.aluI g.toNat w opMinu)

/-- MAXU: sD := the unsigned maximum (R79, Table 3-6). -/
def execMaxu (g : Gcn) (w : Word0) (s : State) : Res :=
  .next (s.alu g.toNat w opMaxu)

/-- MAXUI: as MAXU with sext(IMM) in place of sB (R79). -/
def execMaxui (g : Gcn) (w : Word0) (s : State) : Res :=
  .next (s.aluI g.toNat w opMaxu)

/-- MOVHI: sD[63:32] := IMM, sD[31:0] unchanged (R79). -/
def execMovhi (g : Gcn) (w : Word0) (s : State) : Res :=
  .next (s.issue1 g.toNat ⟨false, .s, .none, .none⟩ w true (fun c => .core (c.upd (fun q =>
    q.setS w.fd (w.imm ++ (q.getS w.fd).setWidth 32)))))

/-- PAND: pD := pA op pB (R79). -/
def execPand (g : Gcn) (w : Word0) (s : State) : Res :=
  .next (s.palu g.toNat w (fun x y => x && y))

/-- POR: pD := pA op pB (R79). -/
def execPor (g : Gcn) (w : Word0) (s : State) : Res :=
  .next (s.palu g.toNat w (fun x y => x || y))

/-- PXOR: pD := pA op pB (R79). -/
def execPxor (g : Gcn) (w : Word0) (s : State) : Res :=
  .next (s.palu g.toNat w (fun x y => x != y))

/-- PNOT: pD := not pA (R79). -/
def execPnot (g : Gcn) (w : Word0) (s : State) : Res :=
  .next (s.issue1 g.toNat ⟨false, .p, .p, .none⟩ w true (fun c => .core (c.upd (fun q =>
    q.setP w.fd (!q.getP w.fa)))))

/-- AADD: aD := aA + sB modulo 2^40 (R66, R79). -/
def execAadd (g : Gcn) (w : Word0) (s : State) : Res :=
  .next (s.issue1 g.toNat ⟨false, .a, .a, .s⟩ w true (fun c => .core (c.upd (fun q =>
    q.setA w.fd (q.getA w.fa + (q.getS w.fb).setWidth 40)))))

/-- AADDI: aD := aA + sext(IMM) modulo 2^40 (R66, R79). -/
def execAaddi (g : Gcn) (w : Word0) (s : State) : Res :=
  .next (s.issue1 g.toNat ⟨false, .a, .a, .none⟩ w true (fun c => .core (c.upd (fun q =>
    q.setA w.fd (q.getA w.fa + (simm w).setWidth 40)))))

/-- AMOV: aD := sA[39:0] (R79). -/
def execAmov (g : Gcn) (w : Word0) (s : State) : Res :=
  .next (s.issue1 g.toNat ⟨false, .a, .s, .none⟩ w true (fun c => .core (c.upd (fun q =>
    q.setA w.fd ((q.getS w.fa).setWidth 40)))))

/-- AREAD: sD := aA, zero-extended (R79). -/
def execAread (g : Gcn) (w : Word0) (s : State) : Res :=
  .next (s.issue1 g.toNat ⟨false, .s, .a, .none⟩ w true (fun c => .core (c.upd (fun q =>
    q.setS w.fd ((q.getA w.fa).setWidth 64)))))

/-- CMP.EQ: pD := whether sA is equal sB (R79). -/
def execCmpEq (g : Gcn) (w : Word0) (s : State) : Res :=
  .next (s.cmp g.toNat w opEq)

/-- CMP.EQ with sext(IMM) in place of sB (R79). -/
def execCmpEqI (g : Gcn) (w : Word0) (s : State) : Res :=
  .next (s.cmpI g.toNat w opEq)

/-- CMP.NE: pD := whether sA is not equal sB (R79). -/
def execCmpNe (g : Gcn) (w : Word0) (s : State) : Res :=
  .next (s.cmp g.toNat w opNe)

/-- CMP.NE with sext(IMM) in place of sB (R79). -/
def execCmpNeI (g : Gcn) (w : Word0) (s : State) : Res :=
  .next (s.cmpI g.toNat w opNe)

/-- CMP.LT: pD := whether sA is signed less than sB (R79). -/
def execCmpLt (g : Gcn) (w : Word0) (s : State) : Res :=
  .next (s.cmp g.toNat w opLt)

/-- CMP.LT with sext(IMM) in place of sB (R79). -/
def execCmpLtI (g : Gcn) (w : Word0) (s : State) : Res :=
  .next (s.cmpI g.toNat w opLt)

/-- CMP.LTU: pD := whether sA is unsigned less than sB (R79). -/
def execCmpLtu (g : Gcn) (w : Word0) (s : State) : Res :=
  .next (s.cmp g.toNat w opLtu)

/-- CMP.LTU with sext(IMM) in place of sB (R79). -/
def execCmpLtuI (g : Gcn) (w : Word0) (s : State) : Res :=
  .next (s.cmpI g.toNat w opLtu)

/-- CMP.LE: pD := whether sA is signed at most sB (R79). -/
def execCmpLe (g : Gcn) (w : Word0) (s : State) : Res :=
  .next (s.cmp g.toNat w opLe)

/-- CMP.LE with sext(IMM) in place of sB (R79). -/
def execCmpLeI (g : Gcn) (w : Word0) (s : State) : Res :=
  .next (s.cmpI g.toNat w opLe)

/-- CMP.LEU: pD := whether sA is unsigned at most sB (R79). -/
def execCmpLeu (g : Gcn) (w : Word0) (s : State) : Res :=
  .next (s.cmp g.toNat w opLeu)

/-- CMP.LEU with sext(IMM) in place of sB (R79). -/
def execCmpLeuI (g : Gcn) (w : Word0) (s : State) : Res :=
  .next (s.cmpI g.toNat w opLeu)

/-- BR: PC := PC + sext(IMM) (R80). -/
def execBr (g : Gcn) (w : Word0) (s : State) : Res :=
  .next (s.issue1 g.toNat fNone w true (fun c => branchTo c (relTarget c.seq.pc w.imm)))

/-- BRA: PC := sA[15:0] (R80). -/
def execBra (g : Gcn) (w : Word0) (s : State) : Res :=
  .next (s.issue1 g.toNat ⟨false, .none, .s, .none⟩ w true (fun c => branchTo c (regTarget (c.seq.getS w.fa))))

/-- CALL: s31 := PC + 8; PC := PC + sext(IMM) (R80); s31 stays as it was when the target is out of range. (DESIGN CHOICE,
log entry 140.) -/
def execCall (g : Gcn) (w : Word0) (s : State) : Res :=
  .next (s.issue1 g.toNat fNone w true (fun c =>
    branchTo (c.upd (fun q => q.setS 31 (q.pc.setWidth 64 + 8))) (relTarget c.seq.pc w.imm)))

/-- RET: PC := s31[15:0] (R80). -/
def execRet (g : Gcn) (w : Word0) (s : State) : Res :=
  .next (s.issue1 g.toNat fNone w true (fun c => branchTo c (regTarget (c.seq.getS 31))))

/-- LOOP: sD := sD − 1; when sD is then non-zero, PC := PC + sext(IMM) (R80). A write to s0 is
discarded, so s0 is then 0 and the loop does not branch. (DEDUCED, log entry 20.) A LOOP whose target is out of range
raises IMEM_RANGE and keeps sD as it was. (DESIGN CHOICE, log entry 140.) -/
def execLoop (g : Gcn) (w : Word0) (s : State) : Res :=
  .next (s.issue1 g.toNat ⟨false, .s, .none, .none⟩ w true (fun c =>
    let c1 := c.upd (fun q => q.setS w.fd (q.getS w.fd - 1))
    if c1.seq.getS w.fd = 0 then .core c1 else branchTo c1 (relTarget c.seq.pc w.imm)))

end Sys2Proof.Machine
end

