-- ==== Sys2Proof/Machine/System.lean ====
section
/-!
DEFINITION. The engine-issue, wait, ticket and system rows (spec 03, Tables 3-10 to 3-18).
-/

namespace Sys2Proof.Machine

/-- MWL: load a stationary tile (R89, Tables 3-10 and 3-11). -/
def execMwl (g : Gcn) (w : Word0) (w1 : Word64) (s : State) : Res :=
  .next (s.issueEngine g.toNat (matOk .mwl w) (.mat .mwl w w1))

/-- MTILE: stream activations (R89, Tables 3-10 and 3-12). -/
def execMtile (g : Gcn) (w : Word0) (w1 : Word64) (s : State) : Res :=
  .next (s.issueEngine g.toNat (matOk .mtile w) (.mat .mtile w w1))

/-- MMODE: select full or quad mode (R90). -/
def execMmode (g : Gcn) (w : Word0) (s : State) : Res :=
  .next (s.issueEngine g.toNat (matOk .mmode w) (.mat .mmode w 0))

/-- VLD: issue to the vector queue (R91, R92, R152). -/
def execVld (g : Gcn) (w : Word0) (w1 : Word64) (s : State) : Res :=
  .next (s.issueEngine g.toNat (vecOk .vld w) (.vec .vld w w1))

/-- VST: issue to the vector queue (R91, R92, R152). -/
def execVst (g : Gcn) (w : Word0) (w1 : Word64) (s : State) : Res :=
  .next (s.issueEngine g.toNat (vecOk .vst w) (.vec .vst w w1))

/-- VADD: issue to the vector queue (R91, R92, R152). -/
def execVadd (g : Gcn) (w : Word0) (s : State) : Res :=
  .next (s.issueEngine g.toNat (vecOk .vadd w) (.vec .vadd w 0))

/-- VSUB: issue to the vector queue (R91, R92, R152). -/
def execVsub (g : Gcn) (w : Word0) (s : State) : Res :=
  .next (s.issueEngine g.toNat (vecOk .vsub w) (.vec .vsub w 0))

/-- VMUL: issue to the vector queue (R91, R92, R152). -/
def execVmul (g : Gcn) (w : Word0) (s : State) : Res :=
  .next (s.issueEngine g.toNat (vecOk .vmul w) (.vec .vmul w 0))

/-- VFMA: issue to the vector queue (R91, R92, R152). -/
def execVfma (g : Gcn) (w : Word0) (s : State) : Res :=
  .next (s.issueEngine g.toNat (vecOk .vfma w) (.vec .vfma w 0))

/-- VFMS: issue to the vector queue (R91, R92, R152). -/
def execVfms (g : Gcn) (w : Word0) (s : State) : Res :=
  .next (s.issueEngine g.toNat (vecOk .vfms w) (.vec .vfms w 0))

/-- VDIV: issue to the vector queue (R91, R92, R152). -/
def execVdiv (g : Gcn) (w : Word0) (s : State) : Res :=
  .next (s.issueEngine g.toNat (vecOk .vdiv w) (.vec .vdiv w 0))

/-- VSQRT: issue to the vector queue (R91, R92, R152). -/
def execVsqrt (g : Gcn) (w : Word0) (s : State) : Res :=
  .next (s.issueEngine g.toNat (vecOk .vsqrt w) (.vec .vsqrt w 0))

/-- VMIN: issue to the vector queue (R91, R92, R152). -/
def execVmin (g : Gcn) (w : Word0) (s : State) : Res :=
  .next (s.issueEngine g.toNat (vecOk .vmin w) (.vec .vmin w 0))

/-- VMAX: issue to the vector queue (R91, R92, R152). -/
def execVmax (g : Gcn) (w : Word0) (s : State) : Res :=
  .next (s.issueEngine g.toNat (vecOk .vmax w) (.vec .vmax w 0))

/-- VMINN: issue to the vector queue (R91, R92, R152). -/
def execVminn (g : Gcn) (w : Word0) (s : State) : Res :=
  .next (s.issueEngine g.toNat (vecOk .vminn w) (.vec .vminn w 0))

/-- VMAXN: issue to the vector queue (R91, R92, R152). -/
def execVmaxn (g : Gcn) (w : Word0) (s : State) : Res :=
  .next (s.issueEngine g.toNat (vecOk .vmaxn w) (.vec .vmaxn w 0))

/-- VABS: issue to the vector queue (R91, R92, R152). -/
def execVabs (g : Gcn) (w : Word0) (s : State) : Res :=
  .next (s.issueEngine g.toNat (vecOk .vabs w) (.vec .vabs w 0))

/-- VNEG: issue to the vector queue (R91, R92, R152). -/
def execVneg (g : Gcn) (w : Word0) (s : State) : Res :=
  .next (s.issueEngine g.toNat (vecOk .vneg w) (.vec .vneg w 0))

/-- VCVT: issue to the vector queue (R91, R92, R152). -/
def execVcvt (g : Gcn) (w : Word0) (s : State) : Res :=
  .next (s.issueEngine g.toNat (vecOk .vcvt w) (.vec .vcvt w 0))

/-- VCMP: issue to the vector queue (R91, R92, R152). -/
def execVcmp (g : Gcn) (w : Word0) (s : State) : Res :=
  .next (s.issueEngine g.toNat (vecOk .vcmp w) (.vec .vcmp w 0))

/-- VSEL: issue to the vector queue (R91, R92, R152). -/
def execVsel (g : Gcn) (w : Word0) (s : State) : Res :=
  .next (s.issueEngine g.toNat (vecOk .vsel w) (.vec .vsel w 0))

/-- VAND: issue to the vector queue (R91, R92, R152). -/
def execVand (g : Gcn) (w : Word0) (s : State) : Res :=
  .next (s.issueEngine g.toNat (vecOk .vand w) (.vec .vand w 0))

/-- VOR: issue to the vector queue (R91, R92, R152). -/
def execVor (g : Gcn) (w : Word0) (s : State) : Res :=
  .next (s.issueEngine g.toNat (vecOk .vor w) (.vec .vor w 0))

/-- VXOR: issue to the vector queue (R91, R92, R152). -/
def execVxor (g : Gcn) (w : Word0) (s : State) : Res :=
  .next (s.issueEngine g.toNat (vecOk .vxor w) (.vec .vxor w 0))

/-- VSHL: issue to the vector queue (R91, R92, R152). -/
def execVshl (g : Gcn) (w : Word0) (s : State) : Res :=
  .next (s.issueEngine g.toNat (vecOk .vshl w) (.vec .vshl w 0))

/-- VSHR: issue to the vector queue (R91, R92, R152). -/
def execVshr (g : Gcn) (w : Word0) (s : State) : Res :=
  .next (s.issueEngine g.toNat (vecOk .vshr w) (.vec .vshr w 0))

/-- VSAR: issue to the vector queue (R91, R92, R152). -/
def execVsar (g : Gcn) (w : Word0) (s : State) : Res :=
  .next (s.issueEngine g.toNat (vecOk .vsar w) (.vec .vsar w 0))

/-- VIOTA: issue to the vector queue (R91, R92, R152). -/
def execViota (g : Gcn) (w : Word0) (s : State) : Res :=
  .next (s.issueEngine g.toNat (vecOk .viota w) (.vec .viota w 0))

/-- VSPLAT: issue to the vector queue (R91, R92, R152). -/
def execVsplat (g : Gcn) (w : Word0) (s : State) : Res :=
  .next (s.issueEngine g.toNat (vecOk .vsplat w) (.vec .vsplat w 0))

/-- VSHUF: issue to the vector queue (R91, R92, R152). -/
def execVshuf (g : Gcn) (w : Word0) (s : State) : Res :=
  .next (s.issueEngine g.toNat (vecOk .vshuf w) (.vec .vshuf w 0))

/-- VEXP2: issue to the vector queue (R91, R92, R152). -/
def execVexp2 (g : Gcn) (w : Word0) (s : State) : Res :=
  .next (s.issueEngine g.toNat (vecOk .vexp2 w) (.vec .vexp2 w 0))

/-- VLOG2: issue to the vector queue (R91, R92, R152). -/
def execVlog2 (g : Gcn) (w : Word0) (s : State) : Res :=
  .next (s.issueEngine g.toNat (vecOk .vlog2 w) (.vec .vlog2 w 0))

/-- VRCP: issue to the vector queue (R91, R92, R152). -/
def execVrcp (g : Gcn) (w : Word0) (s : State) : Res :=
  .next (s.issueEngine g.toNat (vecOk .vrcp w) (.vec .vrcp w 0))

/-- VRSQRT: issue to the vector queue (R91, R92, R152). -/
def execVrsqrt (g : Gcn) (w : Word0) (s : State) : Res :=
  .next (s.issueEngine g.toNat (vecOk .vrsqrt w) (.vec .vrsqrt w 0))

/-- VSIN: issue to the vector queue (R91, R92, R152). -/
def execVsin (g : Gcn) (w : Word0) (s : State) : Res :=
  .next (s.issueEngine g.toNat (vecOk .vsin w) (.vec .vsin w 0))

/-- VCOS: issue to the vector queue (R91, R92, R152). -/
def execVcos (g : Gcn) (w : Word0) (s : State) : Res :=
  .next (s.issueEngine g.toNat (vecOk .vcos w) (.vec .vcos w 0))

/-- VRSUM: issue to the vector queue (R91, R92, R152). -/
def execVrsum (g : Gcn) (w : Word0) (s : State) : Res :=
  .next (s.issueEngine g.toNat (vecOk .vrsum w) (.vec .vrsum w 0))

/-- VRMAX: issue to the vector queue (R91, R92, R152). -/
def execVrmax (g : Gcn) (w : Word0) (s : State) : Res :=
  .next (s.issueEngine g.toNat (vecOk .vrmax w) (.vec .vrmax w 0))

/-- VRMIN: issue to the vector queue (R91, R92, R152). -/
def execVrmin (g : Gcn) (w : Word0) (s : State) : Res :=
  .next (s.issueEngine g.toNat (vecOk .vrmin w) (.vec .vrmin w 0))

/-- VSMA: issue to the vector queue (R91, R92, R152). -/
def execVsma (g : Gcn) (w : Word0) (s : State) : Res :=
  .next (s.issueEngine g.toNat (vecOk .vsma w) (.vec .vsma w 0))

/-- VSMMRG: issue to the vector queue (R91, R92, R152). -/
def execVsmmrg (g : Gcn) (w : Word0) (s : State) : Res :=
  .next (s.issueEngine g.toNat (vecOk .vsmmrg w) (.vec .vsmmrg w 0))

/-- VSMINIT: issue to the vector queue (R91, R92, R152). -/
def execVsminit (g : Gcn) (w : Word0) (s : State) : Res :=
  .next (s.issueEngine g.toNat (vecOk .vsminit w) (.vec .vsminit w 0))

/-- VRAND: issue to the vector queue (R91, R92, R152). -/
def execVrand (g : Gcn) (w : Word0) (w1 : Word64) (s : State) : Res :=
  .next (s.issueEngine g.toNat (vecOk .vrand w) (.vec .vrand w w1))

/-- VDROP: issue to the vector queue (R91, R92, R152). -/
def execVdrop (g : Gcn) (w : Word0) (w1 : Word64) (s : State) : Res :=
  .next (s.issueEngine g.toNat (vecOk .vdrop w) (.vec .vdrop w w1))

/-- FCOPY: issue to the ferry queue (R93, Table 3-14). -/
def execFcopy (g : Gcn) (w : Word0) (w1 : Word64) (s : State) : Res :=
  .next (s.issueEngine g.toNat (ferOk w) (.fer .fcopy w w1))

/-- FCONV: issue to the ferry queue (R93, Table 3-14). -/
def execFconv (g : Gcn) (w : Word0) (w1 : Word64) (s : State) : Res :=
  .next (s.issueEngine g.toNat (ferOk w) (.fer .fconv w w1))

/-- FGATH: issue to the ferry queue (R93, Table 3-14). -/
def execFgath (g : Gcn) (w : Word0) (w1 : Word64) (s : State) : Res :=
  .next (s.issueEngine g.toNat (ferOk w) (.fer .fgath w w1))

/-- FSCAT: issue to the ferry queue (R93, Table 3-14). -/
def execFscat (g : Gcn) (w : Word0) (w1 : Word64) (s : State) : Res :=
  .next (s.issueEngine g.toNat (ferOk w) (.fer .fscat w w1))

/-- FSCADD: issue to the ferry queue (R93, Table 3-14). -/
def execFscadd (g : Gcn) (w : Word0) (w1 : Word64) (s : State) : Res :=
  .next (s.issueEngine g.toNat (ferOk w) (.fer .fscadd w w1))

/-- FQBC: issue to the ferry queue (R93, Table 3-14). -/
def execFqbc (g : Gcn) (w : Word0) (w1 : Word64) (s : State) : Res :=
  .next (s.issueEngine g.toNat (ferOk w) (.fer .fqbc w w1))

/-- WAIT.M: stall until the counter has reached sA + sext(IMM) (R94, R95). -/
def execWaitM (g : Gcn) (w : Word0) (s : State) : Res :=
  .next (s.waitEng g.toNat w .matrix)

/-- WAIT.V: stall until the counter has reached sA + sext(IMM) (R94, R95). -/
def execWaitV (g : Gcn) (w : Word0) (s : State) : Res :=
  .next (s.waitEng g.toNat w .vector)

/-- WAIT.F: stall until the counter has reached sA + sext(IMM) (R94, R95). -/
def execWaitF (g : Gcn) (w : Word0) (s : State) : Res :=
  .next (s.waitEng g.toNat w .ferry)

/-- WAITO.M: stall until at most sA + sext(IMM) commands are outstanding (R94, R95). -/
def execWaitoM (g : Gcn) (w : Word0) (s : State) : Res :=
  .next (s.waitOutEng g.toNat w .matrix)

/-- WAITO.V: stall until at most sA + sext(IMM) commands are outstanding (R94, R95). -/
def execWaitoV (g : Gcn) (w : Word0) (s : State) : Res :=
  .next (s.waitOutEng g.toNat w .vector)

/-- WAITO.F: stall until at most sA + sext(IMM) commands are outstanding (R94, R95). -/
def execWaitoF (g : Gcn) (w : Word0) (s : State) : Res :=
  .next (s.waitOutEng g.toNat w .ferry)

/-- WAITALL: stall until every command issued has completed (R94). -/
def execWaitall (g : Gcn) (w : Word0) (s : State) : Res :=
  .next (s.issue1 g.toNat fNone w true (fun c => if c.seq.allDrained then .all (s.waitedAll g.toNat) else .stall c .waitAll))

/-- RDCNT: sD := a completion counter (R94, R97). -/
def execRdcnt (g : Gcn) (w : Word0) (s : State) : Res :=
  .next (s.readCount g.toNat w Seq.completed)

/-- RDISS: sD := an issue count (R94, R97). -/
def execRdiss (g : Gcn) (w : Word0) (s : State) : Res :=
  .next (s.readCount g.toNat w Seq.issued)

/-- TADD: record a deferred increment of sB[31:0] to ticket sA[15:0] (R98 to R100). -/
def execTadd (g : Gcn) (w : Word0) (s : State) : Res :=
  .next (s.issue1 g.toNat ⟨false, .none, .s, .s⟩ w true (fun c =>
    recordIncrement c ((c.seq.getS w.fa).setWidth 16) ((c.seq.getS w.fb).setWidth 32)))

/-- TADDI: record a deferred increment of IMM[15:0] to ticket IMM[31:16] (R98 to R100). -/
def execTaddi (g : Gcn) (w : Word0) (s : State) : Res :=
  .next (s.issue1 g.toNat fNone w true (fun c =>
    recordIncrement c (w.imm.extractLsb' 16 16) ((w.imm.setWidth 16).setWidth 32)))

/-- TREAD: sD := the value of ticket sA[15:0] (R98, R101). -/
def execTread (g : Gcn) (w : Word0) (s : State) : Res :=
  .next (s.issue1 g.toNat fSS w true (fun c => .core (c.upd (fun q =>
    q.setS w.fd ((s.ticket ((q.getS w.fa).toNat % 65536)).setWidth 64)))))

/-- NOP (R102). -/
def execNop (g : Gcn) (w : Word0) (s : State) : Res :=
  .next (s.issue1 g.toNat fNone w true (fun c => .core c))

/-- END: issue nothing more; the core reports when its engines are drained and its verdicts are in (R107). -/
def execEndKernel (g : Gcn) (w : Word0) (s : State) : Res :=
  .next (s.issue1 g.toNat fNone w true (fun c => .stall c .ending))

/-- FAULT: raise SW_FAULT with DETAIL := IMM[13:0] (R102). -/
def execFaultSw (g : Gcn) (w : Word0) (s : State) : Res :=
  .next (s.issue1 g.toNat fNone w true (fun _ => .fault cSW_FAULT (w.imm.toNat % 2 ^ 14)))

/-- SETSEED: SEQ_SEED := sA (R102). -/
def execSetseed (g : Gcn) (w : Word0) (s : State) : Res :=
  .next (s.issue1 g.toNat fS w true (fun c => .core (c.upd (fun q => { q with seed := q.getS w.fa }))))

/-- RDTIME: sD := TT_NOW (R102, R293). -/
def execRdtime (g : Gcn) (w : Word0) (s : State) : Res :=
  .next (s.issue1 g.toNat ⟨false, .s, .none, .none⟩ w true (fun c => .core (c.upd (fun q =>
    q.setS w.fd (BitVec.ofNat 64 s.tt.now)))))

/-- RDCSR: sD := core register IMM[15:0]; ILLEGAL when it names none (R102, R104). -/
def execRdcsr (g : Gcn) (w : Word0) (s : State) : Res :=
  .next (s.issue1 g.toNat ⟨false, .s, .none, .none⟩ w (s.coreReg g.toNat (w.imm.toNat % 65536)).isSome (fun c =>
    .core (c.upd (fun q => q.setS w.fd (BitVec.ofNat 64 ((s.coreReg g.toNat (w.imm.toNat % 65536)).getD 0))))))

/-- WRCSR: core register IMM[15:0] := sA under its access codes (R102, R104, R105). -/
def execWrcsr (g : Gcn) (w : Word0) (s : State) : Res :=
  .next (s.issue1 g.toNat fS w (s.coreReg g.toNat (w.imm.toNat % 65536)).isSome (fun c =>
    let n := w.imm.toNat % 65536
    let v := csrVal n (c.seq.getS w.fa)
    if csrRefused n v then .fault cCSR_RANGE (n % 2 ^ 14) else .core (c.csrPut n v)))

/-- HIST_CLEAR: CLR of an engine's HIST_CTRL; it waits for a drain or store being counted (R62). -/
def execHistClear (g : Gcn) (e : HistEngine) (s : State) : Res :=
  let c := s.core g.toNat
  match e with
  | .matrix => .next (s.setCore g.toNat
      { c with mat := { c.mat with hist := c.mat.hist.requestClear c.mat.counting } })
  | .vector => .next (s.setCore g.toNat
      { c with vec := { c.vec with hist := c.vec.hist.requestClear c.vec.counting } })

/-- QUEUE_FULL_RELEASE: the stalled command issues once an entry is free (R74). -/
def execQueueFullRelease (g : Gcn) (s : State) : Res :=
  match (s.core g.toNat).seq.cond with
  | .queueFull i => .next (s.reissue g.toNat i)
  | _ => .next s

/-- WAIT_RELEASE: a wait ends when its condition holds (R94, R96). -/
def execWaitRelease (g : Gcn) (s : State) : Res :=
  let c := s.core g.toNat
  if c.seq.waitOver c.seq.cond then .next ((s.waitEnds g.toNat c.seq.cond).setCore g.toNat ((c.withCond .running).advance 8))
  else .next s

/-- CONTAINED_ACCESS_RELEASE: a scalar access stalled under R85 goes on once its granule is clear. -/
def execContainedAccessRelease (g : Gcn) (s : State) : Res :=
  match (s.core g.toNat).seq.cond with
  | .held a w =>
    let t := s.setCore g.toNat ((s.core g.toNat).withCond .running)
    .next (t.finish g.toNat 8 (t.scalarAccess g.toNat a w))
  | _ => .next s

end Sys2Proof.Machine
end

