-- ==== Sys2Proof/Machine/Vector.lean ====
section
/-!
DEFINITION. The vector engine's commands (spec 05, R159 to R165): beginning, loads and stores, completing.
-/

namespace Sys2Proof.Machine

def State.setVec (s : State) (g : Nat) (v : Vec) : State := s.setCore g { s.core g with vec := v }

/-- COUNT: 0 means the full count (Table 5-3). -/
def vecCount (c : VCmd) : Nat := if vSpec c.w = 0 then laneCount (vFmt c.w) else vSpec c.w

/-- The linear index of element i of a load or store. -/
def vecIx (c : VCmd) (i : Nat) : List Nat := indicesOf c.desc (c.sidx.toNat + i)

def vecIxs (c : VCmd) : List (List Nat) := (List.range (vecCount c)).map (vecIx c)

/-! ## Begin checks (R163, R164, Table 5-5) -/

/-- Whether a tensor format pairs with a lane format (R163). -/
def pairOk (lf tf : Fmt) : Bool := fmtInt lf = fmtInt tf

/-- A run that starts or ends inside a block of a block-scaled destination. -/
def partialBlock (c : VCmd) : Bool :=
  let a := (vecIx c 0).getD 0 0
  let b := (vecIx c (vecCount c - 1)).getD 0 0
  a % 32 ≠ 0 || !(b % 32 = 31 || b + 1 = lExt c.desc 0)

def vecCode (c : VCmd) : Option Nat :=
  let load := c.op = .vld
  if c.op ≠ .vld ∧ c.op ≠ .vst then none
  else if elemCount c.desc ≤ c.sidx.toNat + vecCount c - 1 then some 1
  else if !(dSpace c.desc = 0 || (load && dSpace c.desc = 2)) then some 2
  else if !pairOk (vFmt c.w) (dFmt c.desc) || (load && vFmt c.w = 0xC && dFmt c.desc = 0xD) then some 3
  else if !load && dBsc c.desc && partialBlock c then some 4
  else none

def State.vecFault (s : State) (g : Nat) (c : VCmd) (cause code : Nat) : State :=
  s.raise g cause (0x1000 + code) c.pc c.ord

/-! ## Occupancy (Table 5-4) -/

def wide (f : Fmt) : Bool := f = 11 || f = 13

/-- Cycles an instruction occupies the engine, without bank conflicts. -/
def occupancy (g : Nat) (c : VCmd) : Nat :=
  let f := vFmt c.w
  match c.op with
  | .vld => ((touchedBy g c.desc (vecIxs c)).length + 3) / 4
  | .vst => ((touchedBy g c.desc (vecIxs c)).length + 3) / 4
  | .vdiv => if f = 11 then 16 else 8
  | .vsqrt => if f = 11 then 16 else 8
  | .vexp2 => 4 | .vlog2 => 4 | .vrcp => 4 | .vrsqrt => 4 | .vsin => 4 | .vcos => 4
  | .vsma => 6
  | .vsmmrg => 8
  | .vsminit => 1
  | .vrand => 1
  | .vdrop => 1
  | .vcvt => if wide f || wide (BitVec.ofNat 4 (vSpec c.w)) then 2 else 1
  | _ => if wide f then 2 else 1

/-! ## Begin -/

/-- Whether an uncompleted instruction still writes a register that this one reads or writes (R159). -/
def Vec.hazard (v : Vec) (c : VCmd) : Bool :=
  v.run.any (fun x => (vecWrites x).any (fun r => (vecReads c).contains r || (vecWrites c).contains r))

/-- The cycles a bank conflict adds to a VLD or VST (Table 5-4). (DESIGN CHOICE, log entry 111.) -/
def bankCycles (g : Nat) (op : Option Nat) (c : VCmd) : Nat :=
  match c.op with
  | .vld => Config.bankCycles g (op.getD 0) c.n.toNat
  | .vst => Config.bankCycles g (op.getD 0) c.n.toNat
  | _ => 0

/-- The die's pilot holds power credit for the vector engine of a core, which rests; once the pilots hold credits
(R440, R441). (DEDUCED, log entry 143.) -/
def State.vecCredit (s : State) (g : Nat) : Bool :=
  let d := s.die (dieOf g)
  !s.pwr.inControl || !(s.core g).vec.run.isEmpty || s.priced (dieOf g) d.mhz (Config.vectorPrice d.mhz)

/-- Begin the command at the head of the vector queue (R159, R164, R441). -/
def State.vecBegin (s : State) (g : Nat) : State :=
  let c := s.core g
  match c.vec.queue with
  | [] => s
  | k :: rest =>
    if c.vec.hazard k || !s.vecCredit g then s
    else
      let s1 := s.setVec g { c.vec with queue := rest }
      match vecCode k with
      | some code => s1.vecFault g k cENGINE code
      | none =>
        let c1 := s1.core g
        s1.setCore g { c1 with
          vec := { c1.vec with run := c1.vec.run ++ [k], busy := c1.vec.busy + occupancy g k + bankCycles g c1.op k } }

/-! ## Complete -/

def Vec.marksOf (v : Vec) (r : Nat) : List Nat := smGet [] v.marks r

/-- Marks of the registers an instruction reads (R160, R401). -/
def Vec.sourceMarks (v : Vec) (c : VCmd) : List Nat :=
  (vecReads c).foldl (fun m r => setUnion m (v.marksOf r)) []

/-- Write registers, each awaiting the checks given. -/
def Vec.putRegs (v : Vec) (marks : List Nat) : List (Nat × VReg) → Vec
  | [] => v
  | (r, x) :: t =>
    ({ v.setV (BitVec.ofNat 5 r) x with marks := smPut [] v.marks r marks }).putRegs marks t

/-- The instruction's check, submitted with its result and the source values it keeps (R408): its verdict is due in
8 cycles (R399). -/
def vecCheck (c : VCmd) (vals : List VReg) (loaded : List Elem) (id now : Nat) : Check :=
  { id := id, eng := .vector, q := 0, quad := false, buf := false, n := c.n, ord := c.ord, pc := c.pc, dlog := 64
    replay := 0, sums := [], reads := [], vals := vals, loaded := loaded.map (fun e => (e.code, e.scale)), due := now + 8, ready := true }

/-- Take the oldest instruction out of execution. VEC counts it when it counts every earlier one (R77, R159). -/
def Core.vecDone (c : Core) : Core :=
  match c.vec.run with
  | [] => c
  | k :: t =>
    { c with
      seq := { c.seq with vec := if k.n = c.seq.vec + 1 then k.n else c.seq.vec }
      vec := { c.vec with run := t } }

/-- Add a check for an instruction whose results are checked; its number, if it has one. -/
def Core.addVecCheck (c : Core) (k : VCmd) (loaded : List Elem) (now : Nat) : Core × List Nat :=
  if vecChecked k.op then
    ({ c with
      checks := c.checks ++ [vecCheck k ((vecReads k).map (fun r => c.vec.getV (BitVec.ofNat 5 r))) loaded c.nextChk now]
      nextChk := c.nextChk + 1 }, [c.nextChk])
  else (c, [])

/-- One element of a VLD in its lane format (R161). -/
def loadElem (d : Desc) (lf : Fmt) (rm : Nat) (e : Elem) : Conv :=
  let tf := dFmt d
  if !dBsc d && tf = lf then ⟨e.code, 0⟩
  else if !dBsc d && 8 ≤ tf.toNat && tf.toNat ≤ 11 && !fmtInt lf then floatToFloat tf lf rm e.code
  else if fmtInt lf then numToInt (laneBits lf) rm (e.num tf)
  else numToFloat lf rm (e.num tf)

/-- Complete a VLD (R161). One that reads a poisoned granule writes no register and raises POISON (R165); VEC does
not count it, nor any later command. (DESIGN CHOICE, log entry 129.) -/
def State.completeVld (s : State) (g : Nat) (k : VCmd) : State :=
  let s1 := s.touchDesc g k.desc (vecIxs k)
  let els := (vecIxs k).map (readElem (s1.dview (s1.reader g (some .vector) k.ord true) 0 k.desc) k.desc)
  if els.any (·.bad) then
    let c := s1.core g
    (s1.setVec g { c.vec with run := c.vec.run.drop 1 }).vecFault g k cPOISON 0
  else
    let lf := vFmt k.w
    let xs := els.map (loadElem k.desc lf (vRm k.w))
    let fill := xs.map (·.code) ++ List.replicate (laneCount lf - xs.length) 0
    let r := (s1.core g).addVecCheck k els (s1.die (dieOf g)).cycles
    let marks := els.foldl (fun m e => setUnion m e.marks) r.2
    let v := (r.1.vec.putRegs marks [(k.w.fd.toNat, pack lf fill)])
    s1.setCore g ({ r.1 with vec := { v with flags := v.flags ||| flagsOf xs } }).vecDone

/-- Whether a store must wait for a tile's protected operands (R141). -/
def State.vstHeld (s : State) (g : Nat) (k : VCmd) : Bool :=
  (touchedBy g k.desc (vecIxs k)).any (fun x => s.protectedAt x.1 x.2)

/-- Complete a VST (R160, R162). -/
def State.completeVst (s : State) (g : Nat) (k : VCmd) : State :=
  let c := s.core g
  let lf := vFmt k.w
  let r := c.addVecCheck k [] (s.die (dieOf g)).cycles
  let marks := setUnion r.2 (c.vec.sourceMarks k)
  let xs := (lanes (c.vec.getV k.w.fa) lf).take (vecCount k)
  let placed := List.zipWith (fun ix x => (⟨ix, decodeNum lf x, false, marks⟩ : Placed)) (vecIxs k) xs
  let wr := convertPlaced k.seed k.desc placed
  let s1 := (s.setCore g r.1).writeAs c.op (.engine g .vector k.n) g k.desc [wr.bytes k.desc]
  let c1 := s1.core g
  let h := if dHist k.desc then c1.vec.hist.countAll wr.vals else c1.vec.hist
  let c2 := ({ c1 with vec := { c1.vec with flags := c1.vec.flags ||| wr.flags, hist := h } }).vecDone
  s1.setCore g { c2 with vec := { c2.vec with hist := if c2.vec.counting then c2.vec.hist else c2.vec.hist.settle } }

/-- Complete an instruction on registers. -/
def State.completeReg (s : State) (g : Nat) (k : VCmd) : State :=
  let c := s.core g
  let o := vecCompute c.vec k
  let r := c.addVecCheck k [] (s.die (dieOf g)).cycles
  let v := r.1.vec.putRegs (setUnion r.2 (c.vec.sourceMarks k)) o.regs
  s.setCore g ({ r.1 with vec := { v with flags := v.flags ||| o.flags } }).vecDone

/-- The check queue holds source values of 16 instructions, those of failed checks among them (R408). -/
def Core.checkQueueFull (c : Core) : Bool :=
  16 ≤ (c.checks.filter (fun k => k.eng = .vector)).length + (c.retained.filter (fun r => r.eng = .vector)).length

/-- Complete the oldest instruction in execution: one whose results are checked once the check queue has a place. -/
def State.vecComplete (s : State) (g : Nat) : State :=
  match (s.core g).vec.run with
  | [] => s
  | k :: _ =>
    if vecChecked k.op && (s.core g).checkQueueFull then s
    else match k.op with
      | .vld => s.completeVld g k
      | .vst => if s.vstHeld g k then s else s.completeVst g k
      | _ => s.completeReg g k

/-- VECTOR_COMMAND_BEGIN (R159, R164). -/
def execVectorCommandBegin (g : Gcn) (s : State) : Res := .next (s.vecBegin g.toNat)

/-- VECTOR_COMMAND_COMPLETE: registers are written in queue order (R159). -/
def execVectorCommandComplete (g : Gcn) (s : State) : Res := .next ((s.vecComplete g.toNat).settleMarks g.toNat)

end Sys2Proof.Machine
end

