-- ==== Sys2Proof/Machine/Dispatch.lean ====
section
/-!
DEFINITION. The one dispatch from commands to their meanings.
-/

namespace Sys2Proof.Machine

/-- The effect of a command on everything but the queue. -/
def exec (i : Instr) (s : State) : Host.Outcome State Fault Refusal :=
  match i with
  | .add g w => Sys2Proof.Machine.execAdd g w s
  | .addi g w => Sys2Proof.Machine.execAddi g w s
  | .sub g w => Sys2Proof.Machine.execSub g w s
  | .subi g w => Sys2Proof.Machine.execSubi g w s
  | .mul g w => Sys2Proof.Machine.execMul g w s
  | .muli g w => Sys2Proof.Machine.execMuli g w s
  | .mulhu g w => Sys2Proof.Machine.execMulhu g w s
  | .mulhui g w => Sys2Proof.Machine.execMulhui g w s
  | .mulhs g w => Sys2Proof.Machine.execMulhs g w s
  | .mulhsi g w => Sys2Proof.Machine.execMulhsi g w s
  | .and g w => Sys2Proof.Machine.execAnd g w s
  | .andi g w => Sys2Proof.Machine.execAndi g w s
  | .or g w => Sys2Proof.Machine.execOr g w s
  | .ori g w => Sys2Proof.Machine.execOri g w s
  | .xor g w => Sys2Proof.Machine.execXor g w s
  | .xori g w => Sys2Proof.Machine.execXori g w s
  | .shl g w => Sys2Proof.Machine.execShl g w s
  | .shli g w => Sys2Proof.Machine.execShli g w s
  | .shr g w => Sys2Proof.Machine.execShr g w s
  | .shri g w => Sys2Proof.Machine.execShri g w s
  | .sar g w => Sys2Proof.Machine.execSar g w s
  | .sari g w => Sys2Proof.Machine.execSari g w s
  | .min g w => Sys2Proof.Machine.execMin g w s
  | .mini g w => Sys2Proof.Machine.execMini g w s
  | .max g w => Sys2Proof.Machine.execMax g w s
  | .maxi g w => Sys2Proof.Machine.execMaxi g w s
  | .minu g w => Sys2Proof.Machine.execMinu g w s
  | .minui g w => Sys2Proof.Machine.execMinui g w s
  | .maxu g w => Sys2Proof.Machine.execMaxu g w s
  | .maxui g w => Sys2Proof.Machine.execMaxui g w s
  | .movhi g w => Sys2Proof.Machine.execMovhi g w s
  | .pand g w => Sys2Proof.Machine.execPand g w s
  | .por g w => Sys2Proof.Machine.execPor g w s
  | .pxor g w => Sys2Proof.Machine.execPxor g w s
  | .pnot g w => Sys2Proof.Machine.execPnot g w s
  | .aadd g w => Sys2Proof.Machine.execAadd g w s
  | .aaddi g w => Sys2Proof.Machine.execAaddi g w s
  | .amov g w => Sys2Proof.Machine.execAmov g w s
  | .aread g w => Sys2Proof.Machine.execAread g w s
  | .cmpEq g w => Sys2Proof.Machine.execCmpEq g w s
  | .cmpEqI g w => Sys2Proof.Machine.execCmpEqI g w s
  | .cmpNe g w => Sys2Proof.Machine.execCmpNe g w s
  | .cmpNeI g w => Sys2Proof.Machine.execCmpNeI g w s
  | .cmpLt g w => Sys2Proof.Machine.execCmpLt g w s
  | .cmpLtI g w => Sys2Proof.Machine.execCmpLtI g w s
  | .cmpLtu g w => Sys2Proof.Machine.execCmpLtu g w s
  | .cmpLtuI g w => Sys2Proof.Machine.execCmpLtuI g w s
  | .cmpLe g w => Sys2Proof.Machine.execCmpLe g w s
  | .cmpLeI g w => Sys2Proof.Machine.execCmpLeI g w s
  | .cmpLeu g w => Sys2Proof.Machine.execCmpLeu g w s
  | .cmpLeuI g w => Sys2Proof.Machine.execCmpLeuI g w s
  | .br g w => Sys2Proof.Machine.execBr g w s
  | .bra g w => Sys2Proof.Machine.execBra g w s
  | .call g w => Sys2Proof.Machine.execCall g w s
  | .ret g w => Sys2Proof.Machine.execRet g w s
  | .loop g w => Sys2Proof.Machine.execLoop g w s
  | .ld8u g w => Sys2Proof.Machine.execLd8u g w s
  | .ld8s g w => Sys2Proof.Machine.execLd8s g w s
  | .ld16u g w => Sys2Proof.Machine.execLd16u g w s
  | .ld16s g w => Sys2Proof.Machine.execLd16s g w s
  | .ld32u g w => Sys2Proof.Machine.execLd32u g w s
  | .ld32s g w => Sys2Proof.Machine.execLd32s g w s
  | .ld64 g w => Sys2Proof.Machine.execLd64 g w s
  | .lda g w => Sys2Proof.Machine.execLda g w s
  | .st8 g w => Sys2Proof.Machine.execSt8 g w s
  | .st16 g w => Sys2Proof.Machine.execSt16 g w s
  | .st32 g w => Sys2Proof.Machine.execSt32 g w s
  | .st64 g w => Sys2Proof.Machine.execSt64 g w s
  | .sta g w => Sys2Proof.Machine.execSta g w s
  | .ldq8u g w => Sys2Proof.Machine.execLdq8u g w s
  | .ldq8s g w => Sys2Proof.Machine.execLdq8s g w s
  | .ldq16u g w => Sys2Proof.Machine.execLdq16u g w s
  | .ldq16s g w => Sys2Proof.Machine.execLdq16s g w s
  | .ldq32u g w => Sys2Proof.Machine.execLdq32u g w s
  | .ldq32s g w => Sys2Proof.Machine.execLdq32s g w s
  | .ldq64 g w => Sys2Proof.Machine.execLdq64 g w s
  | .ldqa g w => Sys2Proof.Machine.execLdqa g w s
  | .dld g w => Sys2Proof.Machine.execDld g w s
  | .dst g w => Sys2Proof.Machine.execDst g w s
  | .dcpy g w => Sys2Proof.Machine.execDcpy g w s
  | .daddb g w => Sys2Proof.Machine.execDaddb g w s
  | .daddbi g w => Sys2Proof.Machine.execDaddbi g w s
  | .dsetb g w => Sys2Proof.Machine.execDsetb g w s
  | .dsete g w => Sys2Proof.Machine.execDsete g w s
  | .dsets g w => Sys2Proof.Machine.execDsets g w s
  | .dsett g w => Sys2Proof.Machine.execDsett g w s
  | .mwl g w w1 => Sys2Proof.Machine.execMwl g w w1 s
  | .mtile g w w1 => Sys2Proof.Machine.execMtile g w w1 s
  | .mmode g w => Sys2Proof.Machine.execMmode g w s
  | .vld g w w1 => Sys2Proof.Machine.execVld g w w1 s
  | .vst g w w1 => Sys2Proof.Machine.execVst g w w1 s
  | .vadd g w => Sys2Proof.Machine.execVadd g w s
  | .vsub g w => Sys2Proof.Machine.execVsub g w s
  | .vmul g w => Sys2Proof.Machine.execVmul g w s
  | .vfma g w => Sys2Proof.Machine.execVfma g w s
  | .vfms g w => Sys2Proof.Machine.execVfms g w s
  | .vdiv g w => Sys2Proof.Machine.execVdiv g w s
  | .vsqrt g w => Sys2Proof.Machine.execVsqrt g w s
  | .vmin g w => Sys2Proof.Machine.execVmin g w s
  | .vmax g w => Sys2Proof.Machine.execVmax g w s
  | .vminn g w => Sys2Proof.Machine.execVminn g w s
  | .vmaxn g w => Sys2Proof.Machine.execVmaxn g w s
  | .vabs g w => Sys2Proof.Machine.execVabs g w s
  | .vneg g w => Sys2Proof.Machine.execVneg g w s
  | .vcvt g w => Sys2Proof.Machine.execVcvt g w s
  | .vcmp g w => Sys2Proof.Machine.execVcmp g w s
  | .vsel g w => Sys2Proof.Machine.execVsel g w s
  | .vand g w => Sys2Proof.Machine.execVand g w s
  | .vor g w => Sys2Proof.Machine.execVor g w s
  | .vxor g w => Sys2Proof.Machine.execVxor g w s
  | .vshl g w => Sys2Proof.Machine.execVshl g w s
  | .vshr g w => Sys2Proof.Machine.execVshr g w s
  | .vsar g w => Sys2Proof.Machine.execVsar g w s
  | .viota g w => Sys2Proof.Machine.execViota g w s
  | .vsplat g w => Sys2Proof.Machine.execVsplat g w s
  | .vshuf g w => Sys2Proof.Machine.execVshuf g w s
  | .vexp2 g w => Sys2Proof.Machine.execVexp2 g w s
  | .vlog2 g w => Sys2Proof.Machine.execVlog2 g w s
  | .vrcp g w => Sys2Proof.Machine.execVrcp g w s
  | .vrsqrt g w => Sys2Proof.Machine.execVrsqrt g w s
  | .vsin g w => Sys2Proof.Machine.execVsin g w s
  | .vcos g w => Sys2Proof.Machine.execVcos g w s
  | .vrsum g w => Sys2Proof.Machine.execVrsum g w s
  | .vrmax g w => Sys2Proof.Machine.execVrmax g w s
  | .vrmin g w => Sys2Proof.Machine.execVrmin g w s
  | .vsma g w => Sys2Proof.Machine.execVsma g w s
  | .vsmmrg g w => Sys2Proof.Machine.execVsmmrg g w s
  | .vsminit g w => Sys2Proof.Machine.execVsminit g w s
  | .vrand g w w1 => Sys2Proof.Machine.execVrand g w w1 s
  | .vdrop g w w1 => Sys2Proof.Machine.execVdrop g w w1 s
  | .fcopy g w w1 => Sys2Proof.Machine.execFcopy g w w1 s
  | .fconv g w w1 => Sys2Proof.Machine.execFconv g w w1 s
  | .fgath g w w1 => Sys2Proof.Machine.execFgath g w w1 s
  | .fscat g w w1 => Sys2Proof.Machine.execFscat g w w1 s
  | .fscadd g w w1 => Sys2Proof.Machine.execFscadd g w w1 s
  | .fqbc g w w1 => Sys2Proof.Machine.execFqbc g w w1 s
  | .waitM g w => Sys2Proof.Machine.execWaitM g w s
  | .waitV g w => Sys2Proof.Machine.execWaitV g w s
  | .waitF g w => Sys2Proof.Machine.execWaitF g w s
  | .waitoM g w => Sys2Proof.Machine.execWaitoM g w s
  | .waitoV g w => Sys2Proof.Machine.execWaitoV g w s
  | .waitoF g w => Sys2Proof.Machine.execWaitoF g w s
  | .waitall g w => Sys2Proof.Machine.execWaitall g w s
  | .rdcnt g w => Sys2Proof.Machine.execRdcnt g w s
  | .rdiss g w => Sys2Proof.Machine.execRdiss g w s
  | .tadd g w => Sys2Proof.Machine.execTadd g w s
  | .taddi g w => Sys2Proof.Machine.execTaddi g w s
  | .tread g w => Sys2Proof.Machine.execTread g w s
  | .nop g w => Sys2Proof.Machine.execNop g w s
  | .endKernel g w => Sys2Proof.Machine.execEndKernel g w s
  | .faultSw g w => Sys2Proof.Machine.execFaultSw g w s
  | .setseed g w => Sys2Proof.Machine.execSetseed g w s
  | .rdtime g w => Sys2Proof.Machine.execRdtime g w s
  | .rdcsr g w => Sys2Proof.Machine.execRdcsr g w s
  | .wrcsr g w => Sys2Proof.Machine.execWrcsr g w s
  | .histClear g e => Sys2Proof.Machine.execHistClear g e s
  | .queueFullRelease g => Sys2Proof.Machine.execQueueFullRelease g s
  | .waitRelease g => Sys2Proof.Machine.execWaitRelease g s
  | .containedAccessRelease g => Sys2Proof.Machine.execContainedAccessRelease g s
  | .matrixCommandBegin g => Sys2Proof.Machine.execMatrixCommandBegin g s
  | .matrixDrainWrite g n j => Sys2Proof.Machine.execMatrixDrainWrite g n j s
  | .matrixCommandComplete g n => Sys2Proof.Machine.execMatrixCommandComplete g n s
  | .matrixResume g n => Sys2Proof.Machine.execMatrixResume g n s
  | .arrayRampUp g => Sys2Proof.Machine.execArrayRampUp g s
  | .arrayRampDown g => Sys2Proof.Machine.execArrayRampDown g s
  | .frozenRampDown g => Sys2Proof.Machine.execFrozenRampDown g s
  | .vectorCommandBegin g => Sys2Proof.Machine.execVectorCommandBegin g s
  | .vectorCommandComplete g => Sys2Proof.Machine.execVectorCommandComplete g s
  | .ferryCommandBegin g => Sys2Proof.Machine.execFerryCommandBegin g s
  | .ferryCommandComplete g ch => Sys2Proof.Machine.execFerryCommandComplete g ch s
  | .ferryIndexFault g ch => Sys2Proof.Machine.execFerryIndexFault g ch s
  | .coreCancel g => Sys2Proof.Machine.execCoreCancel g s
  | .coreReport g => Sys2Proof.Machine.execCoreReport g s
  | .verdict u id bad => Sys2Proof.Machine.execVerdict u id bad s
  | .lateVerdict u id => Sys2Proof.Machine.execLateVerdict u id s
  | .submitDoorbell q v => Sys2Proof.Machine.execSubmitDoorbell q v s
  | .completionDoorbell q v => Sys2Proof.Machine.execCompletionDoorbell q v s
  | .commandRead q => Sys2Proof.Machine.execCommandRead q s
  | .launch q => Sys2Proof.Machine.execLaunch q s
  | .copyCmd q g ch => Sys2Proof.Machine.execCopyCmd q g ch s
  | .collective q => Sys2Proof.Machine.execCollective q s
  | .ticketWait q => Sys2Proof.Machine.execTicketWait q s
  | .ticketSignal q => Sys2Proof.Machine.execTicketSignal q s
  | .marker q => Sys2Proof.Machine.execMarker q s
  | .hostFence q => Sys2Proof.Machine.execHostFence q s
  | .ticketWaitTimeout q => Sys2Proof.Machine.execTicketWaitTimeout q s
  | .watchdogExpiry op => Sys2Proof.Machine.execWatchdogExpiry op s
  | .endOperation op => Sys2Proof.Machine.execEndOperation op s
  | .ticketMessageResend m => Sys2Proof.Machine.execTicketMessageResend m s
  | .signalWithdraw m => Sys2Proof.Machine.execSignalWithdraw m s
  | .cancel v => Sys2Proof.Machine.execCancel v s
  | .cancelAll v => Sys2Proof.Machine.execCancelAll v s
  | .queueEnable q v => Sys2Proof.Machine.execQueueEnable q v s
  | .queueDisable q v => Sys2Proof.Machine.execQueueDisable q v s
  | .queueResume q v => Sys2Proof.Machine.execQueueResume q v s
  | .ledgerReport r => Sys2Proof.Machine.execLedgerReport r s
  | .timetableExchange => Sys2Proof.Machine.execTimetableExchange s
  | .timetableMessage p m => Sys2Proof.Machine.execTimetableMessage p m s
  | .holdoverTimeout => Sys2Proof.Machine.execHoldoverTimeout s
  | .boardSourceTimeout => Sys2Proof.Machine.execBoardSourceTimeout s
  | .ttSyncEdge => Sys2Proof.Machine.execTtSyncEdge s
  | .ttRefLoss => Sys2Proof.Machine.execTtRefLoss s
  | .sailingDeparture e p sail => Sys2Proof.Machine.execSailingDeparture e p sail s
  | .sailingExhausted e step => Sys2Proof.Machine.execSailingExhausted e step s
  | .collectiveAdd e b => Sys2Proof.Machine.execCollectiveAdd e b s
  | .collectiveOutput e => Sys2Proof.Machine.execCollectiveOutput e s
  | .slackWaterStart p l eyes => Sys2Proof.Machine.execSlackWaterStart p l eyes s
  | .slackWaterEnd p l => Sys2Proof.Machine.execSlackWaterEnd p l s
  | .hbmRetrainStart n => Sys2Proof.Machine.execHbmRetrainStart n s
  | .hbmRetrainEnd n => Sys2Proof.Machine.execHbmRetrainEnd n s
  | .logbookCheckpoint => Sys2Proof.Machine.execLogbookCheckpoint s
  | .frameReceived p l f => Sys2Proof.Machine.execFrameReceived p l f s
  | .laneFailure p lane => Sys2Proof.Machine.execLaneFailure p lane s
  | .linkRetrainTimer p l => Sys2Proof.Machine.execLinkRetrainTimer p l s
  | .linkTrainingTimeout p l => Sys2Proof.Machine.execLinkTrainingTimeout p l s
  | .linkUp p l t => Sys2Proof.Machine.execLinkUp p l t s
  | .linkSignalRegained p l => Sys2Proof.Machine.execLinkSignalRegained p l s
  | .remoteWrite p x => Sys2Proof.Machine.execRemoteWrite p x s
  | .remoteRead p x => Sys2Proof.Machine.execRemoteRead p x s
  | .writeAck p x => Sys2Proof.Machine.execWriteAck p x s
  | .readData p x => Sys2Proof.Machine.execReadData p x s
  | .refusedAnswer p x => Sys2Proof.Machine.execRefusedAnswer p x s
  | .unroutable p x => Sys2Proof.Machine.execUnroutable p x s
  | .ticketMessage p x => Sys2Proof.Machine.execTicketMessage p x s
  | .ticketAck p x => Sys2Proof.Machine.execTicketAck p x s
  | .collectiveBlock p x => Sys2Proof.Machine.execCollectiveBlock p x s
  | .collectiveAnnouncement p x => Sys2Proof.Machine.execCollectiveAnnouncement p x s
  | .collectiveAbort p x => Sys2Proof.Machine.execCollectiveAbort p x s
  | .txnTimeout tag => Sys2Proof.Machine.execTxnTimeout tag s
  | .ticketEntryExpiry src m => Sys2Proof.Machine.execTicketEntryExpiry src m s
  | .linkRetrain p v => Sys2Proof.Machine.execLinkRetrain p v s
  | .linkDisable p v => Sys2Proof.Machine.execLinkDisable p v s
  | .linkEnable p v => Sys2Proof.Machine.execLinkEnable p v s
  | .irecWrite v => Sys2Proof.Machine.execIrecWrite v s
  | .hrwGangwayCommit v => Sys2Proof.Machine.execHrwGangwayCommit v s
  | .gangwayApply group => Sys2Proof.Machine.execGangwayApply group s
  | .hrwIntfSelect v => Sys2Proof.Machine.execHrwIntfSelect v s
  | .coreWindowRead off size => Sys2Proof.Machine.execCoreWindowRead off size s
  | .hrwHdmhSizeWrite v => Sys2Proof.Machine.execHrwHdmhSizeWrite v s
  | .registerWrite off bits v => Sys2Proof.Machine.execRegisterWrite off bits v s
  | .hostMemRead dpa => Sys2Proof.Machine.execHostMemRead dpa s
  | .hostMemWrite dpa data => Sys2Proof.Machine.execHostMemWrite dpa data s
  | .hdmDecoderCommit n dpa size ways base => Sys2Proof.Machine.execHdmDecoderCommit n dpa size ways base s
  | .bisnpResponse line => Sys2Proof.Machine.execBisnpResponse line s
  | .hostCompletion r c => Sys2Proof.Machine.execHostCompletion r c s
  | .hostLinkReset cxl rate width => Sys2Proof.Machine.execHostLinkReset cxl rate width s
  | .functionLevelReset => Sys2Proof.Machine.execFunctionLevelReset s
  | .msixUnmask vec => Sys2Proof.Machine.execMsixUnmask vec s
  | .doeDiscovery => Sys2Proof.Machine.execDoeDiscovery s
  | .cdatRead handle => Sys2Proof.Machine.execCdatRead handle s
  | .getCert => Sys2Proof.Machine.execGetCert s
  | .getReport nonce mask => Sys2Proof.Machine.execGetReport nonce mask s
  | .doeAbort => Sys2Proof.Machine.execDoeAbort s
  | .identifyMemoryDevice => Sys2Proof.Machine.execIdentifyMemoryDevice s
  | .getHealthInfo => Sys2Proof.Machine.execGetHealthInfo s
  | .getEventRecords => Sys2Proof.Machine.execGetEventRecords s
  | .clearEventRecords n => Sys2Proof.Machine.execClearEventRecords n s
  | .getPoisonList dpa len => Sys2Proof.Machine.execGetPoisonList dpa len s
  | .getSupportedLogs => Sys2Proof.Machine.execGetSupportedLogs s
  | .getLog off len => Sys2Proof.Machine.execGetLog off len s
  | .hbmPatrolScrub n line => Sys2Proof.Machine.execHbmPatrolScrub n line s
  | .hbmRefresh n bank => Sys2Proof.Machine.execHbmRefresh n bank s
  | .hbmRefreshRequest n => Sys2Proof.Machine.execHbmRefreshRequest n s
  | .hbmTempRead n degc => Sys2Proof.Machine.execHbmTempRead n degc s
  | .scratchpadScrub u word => Sys2Proof.Machine.execScratchpadScrub u word s
  | .vinSample mv ca => Sys2Proof.Machine.execVinSample mv ca s
  | .cclkStep => Sys2Proof.Machine.execCclkStep s
  | .inputQualified b => Sys2Proof.Machine.execInputQualified b s
  | .undervoltageLockout => Sys2Proof.Machine.execUndervoltageLockout s
  | .overvoltageLockout => Sys2Proof.Machine.execOvervoltageLockout s
  | .highInputLog => Sys2Proof.Machine.execHighInputLog s
  | .shedAssert => Sys2Proof.Machine.execShedAssert s
  | .shedRelease => Sys2Proof.Machine.execShedRelease s
  | .uvEmergency => Sys2Proof.Machine.execUvEmergency s
  | .uvClear => Sys2Proof.Machine.execUvClear s
  | .ilimEmergency => Sys2Proof.Machine.execIlimEmergency s
  | .ilimClear => Sys2Proof.Machine.execIlimClear s
  | .thermClear => Sys2Proof.Machine.execThermClear s
  | .emergencyEnd => Sys2Proof.Machine.execEmergencyEnd s
  | .thermalThrottle => Sys2Proof.Machine.execThermalThrottle s
  | .tempSample d vals => Sys2Proof.Machine.execTempSample d vals s
  | .canarySample d vals => Sys2Proof.Machine.execCanarySample d vals s
  | .canaryHoldEnd d => Sys2Proof.Machine.execCanaryHoldEnd d s
  | .processMonitorSample d vals => Sys2Proof.Machine.execProcessMonitorSample d vals s
  | .droopEvent d => Sys2Proof.Machine.execDroopEvent d s
  | .droopHoldEnd d => Sys2Proof.Machine.execDroopHoldEnd d s
  | .vminMeasurement d steps => Sys2Proof.Machine.execVminMeasurement d steps s
  | .creditRequest d n => Sys2Proof.Machine.execCreditRequest d n s
  | .creditGrant => Sys2Proof.Machine.execCreditGrant s
  | .creditRelease d n => Sys2Proof.Machine.execCreditRelease d n s
  | .wearCharge => Sys2Proof.Machine.execWearCharge s
  | .pwrCapWrite v => Sys2Proof.Machine.execPwrCapWrite v s
  | .clkCclkMaxWrite d v => Sys2Proof.Machine.execClkCclkMaxWrite d v s
  | .fwWatchdogExpiry u => Sys2Proof.Machine.execFwWatchdogExpiry u s
  | .fwProcessorFault u cause fpc => Sys2Proof.Machine.execFwProcessorFault u cause fpc s
  | .perstAssert => Sys2Proof.Machine.execPerstAssert s
  | .perstRelease b => Sys2Proof.Machine.execPerstRelease b s
  | .strapSample k v => Sys2Proof.Machine.execStrapSample k v s
  | .boardSlotSample k v => Sys2Proof.Machine.execBoardSlotSample k v s
  | .secStageStart v => Sys2Proof.Machine.execSecStageStart v s
  | .secActivateGo v => Sys2Proof.Machine.execSecActivateGo v s
  | .activationHoldoffEnd => Sys2Proof.Machine.execActivationHoldoffEnd s
  | .deferredTimeout => Sys2Proof.Machine.execDeferredTimeout s
  | .activationSwitch => Sys2Proof.Machine.execActivationSwitch s
  | .secSvnCommit v => Sys2Proof.Machine.execSecSvnCommit v s
  | .secReset v => Sys2Proof.Machine.execSecReset v s
  | .deviceReset b => Sys2Proof.Machine.execDeviceReset b s
  | .arbitrationReplay u rdiff pres => Sys2Proof.Machine.execArbitrationReplay u rdiff pres s
  | .arbitrationWitness u pweq wres => Sys2Proof.Machine.execArbitrationWitness u pweq wres s
  | .suspectClearance g r => Sys2Proof.Machine.execSuspectClearance g r s
  | .patrolLaunch g h margin => Sys2Proof.Machine.execPatrolLaunch g h margin s
  | .patrolComplete g r => Sys2Proof.Machine.execPatrolComplete g r s
  | .logRecord r => Sys2Proof.Machine.execLogRecord r s
  | .logRecordWrite => Sys2Proof.Machine.execLogRecordWrite s
  | .suppressed => Sys2Proof.Machine.execSuppressed s
  | .acquireCheckpoint => Sys2Proof.Machine.execAcquireCheckpoint s
  | .poweredOnSecond => Sys2Proof.Machine.execPoweredOnSecond s
  | .logMark v => Sys2Proof.Machine.execLogMark v s
  | .i3cSetPointer data => Sys2Proof.Machine.execI3cSetPointer data s
  | .i3cClearAlert data => Sys2Proof.Machine.execI3cClearAlert data s
  | .i3cRead len => Sys2Proof.Machine.execI3cRead len s
  | .i3cInvalidWrite data => Sys2Proof.Machine.execI3cInvalidWrite data s
  | .setdasa static dyn => Sys2Proof.Machine.execSetdasa static dyn s
  | .entdaa dyn => Sys2Proof.Machine.execEntdaa dyn s
  | .hostCompletionTimeout g ch => Sys2Proof.Machine.execHostCompletionTimeout g ch s
  | .stagingComplete flashOk => Sys2Proof.Machine.execStagingComplete flashOk s
  | .pilotRestart d => Sys2Proof.Machine.execPilotRestart d s
  | .linkRefclkLoss => Sys2Proof.Machine.execLinkRefclkLoss s
  | .bar4Access off wr len => Sys2Proof.Machine.execBar4Access off wr len s

end Sys2Proof.Machine
end

