-- ==== Sys2Proof/Machine/Tick.lean ====
section
/-!
DEFINITION. One tick of TCLK with no command: 1 ns passes (log entry 2). Clocks, tide time and the utilisation
counters of Table 3-22 advance; nothing that has a row of its own happens.
-/

namespace Sys2Proof.Machine

/-! ## Utilisation counters (R111, R112, R135, Table 3-22) -/

/-- A command of the array lacks an input: its next row reads what an earlier command has still to write (R126). -/
def Mat.lacksInput (m : Mat) (g : Nat) : Bool :=
  m.exec.any (fun x => match x.cmd.op with
    | .mtile t => x.row < t.rows && (m.waitsFor g x t x.row).isSome
    | _ => false)

/-- How k CCLK cycles of an array divide: busy, frozen for an input, frozen for the drain (R112, R135, R138). -/
structure Cycles where
  busy  : Nat
  feed  : Nat
  drain : Nat
  deriving DecidableEq, Repr

/-- A cycle may find an input of the array missing: a command has rows to stream, and no full replay buffer keeps it from
them (R142). -/
def Mat.mayLack (m : Mat) : Bool :=
  m.exec.any (fun x => match x.cmd.op with
    | .mtile t => x.row < t.rows && x.frz ≠ some .replay
    | _ => false)

/-- A frozen array's cycles are frozen, those of a ramp too: all for an input that a command lacks, none where no input may
be missing, else a free number of them. Otherwise those of a ramp or of a mode change come first; of the rest, in which it
has work, free numbers are lost to bank conflicts and quay contention, of an array that streams or drains; a weight load
alone advances it (Table 3-22). (DESIGN CHOICE, log entry 111.) -/
def Mat.cycles (m : Mat) (g wall k : Nat) : Cycles :=
  let r := max (min k m.rampLeft) (min k m.modeLeft)
  let n := k - r
  if m.allFrozen then
    let f := if m.lacksInput g then k else if m.mayLack then Config.missingInput wall g % (k + 1) else 0
    ⟨0, f, k - f⟩
  else if 32 ≤ m.rows && m.advances then
    let f := if m.mayLack then Config.missingInput wall g % (n + 1) else 0
    let d := if m.exec.isEmpty then 0 else Config.drainBusy wall g % (n - f + 1)
    ⟨k - f - d, f, d⟩
  else ⟨r, 0, 0⟩

/-- Cycles of the matrix engine. -/
def Core.tickMat (c : Core) (g wall k : Nat) : Core :=
  let m := c.mat
  let x := m.cycles g wall k
  let add (n : Nat) (y : Word64) : Word64 := y + BitVec.ofNat 64 n
  { c with
    mat := { m with
      rampLeft := m.rampLeft - min k m.rampLeft
      rampDown := m.rampDown && k < m.rampLeft
      modeLeft := m.modeLeft - min k m.modeLeft
      idleCyc := if !m.hasWork && 0 < m.rows then m.idleCyc + (k - min k m.rampLeft) else 0
      frozenCyc := if x.busy = 0 && m.hasWork then m.frozenCyc + x.feed + x.drain else 0 }
    ctr := { c.ctr with
      meBusy := add x.busy c.ctr.meBusy
      meQuad := if m.quad then add x.busy c.ctr.meQuad else c.ctr.meQuad
      meFrozenFeed := add x.feed c.ctr.meFrozenFeed
      meFrozenDrain := add x.drain c.ctr.meFrozenDrain } }

/-- Cycles of the vector engine's occupancy (Table 5-4). -/
def Core.tickVec (c : Core) (k : Nat) : Core :=
  let n := min k c.vec.busy
  { c with
    vec := { c.vec with busy := c.vec.busy - n }, ctr := { c.ctr with veBusy := c.ctr.veBusy + BitVec.ofNat 64 n } }

/-- The sequencer is stalled on an engine. -/
def Seq.waitsOn (q : Seq) (e : Eng) : Bool :=
  match q.cond with
  | .wait x _ => x = e
  | .waitOut x _ => x = e
  | .waitAll => !q.drained e
  | .ending => !q.drained e
  | _ => false

def Core.tickSeq (c : Core) (k : Nat) : Core :=
  let add (e : Eng) (x : Word64) : Word64 := if c.seq.waitsOn e then x + BitVec.ofNat 64 k else x
  let full := match c.seq.cond with | .queueFull _ => true | _ => false
  { c with ctr := { c.ctr with
      waitM := add .matrix c.ctr.waitM, waitV := add .vector c.ctr.waitV, waitF := add .ferry c.ctr.waitF
      qfull := if full then c.ctr.qfull + BitVec.ofNat 64 k else c.ctr.qfull } }

/-! ## Undefined operation codes (R71) -/

/-- A word of instruction memory. (DESIGN CHOICE, log entry 15.) -/
def Core.imemWord (c : Core) (a : Nat) : Word64 := BitVec.ofNat 64 (leNat (bytesAt c.imem a 8))

/-- A word whose CLS and OP name no operation: no row of the table issues it, and a core that meets it raises ILLEGAL
(R71). (DESIGN CHOICE, log entry 16.) -/
def Core.tickIssue (c : Core) : Core :=
  match c.seq.cond with
  | .running =>
    if c.cancel || !undefinedOp (c.imemWord c.seq.pc.toNat) then c else c.issueFault cILLEGAL 0
  | _ => c

/-! ## Clocks (R19, R284, R290) -/

/-- CCLK cycles that pass on a die in 1 ns. -/
def DiePwr.ticks (d : DiePwr) : Nat := (d.phase + d.now) / 1000

def DiePwr.tick (d : DiePwr) : DiePwr :=
  { d with cycles := d.cycles + d.ticks, phase := (d.phase + d.now) % 1000 }

/-- Tide time advances at its rate. (DESIGN CHOICE, log entry 2.) -/
def TT.tick (t : TT) : TT :=
  if t.runs then
    let n := t.frac + ((1000000000 : Int) + t.ppb).toNat
    { t with now := t.now + n / 1000000000, frac := n % 1000000000 }
  else t

/-- The cores' counters; an entry that has come to the reset value is unlisted. -/
def State.tickCores (s : State) : List (Nat × Core) :=
  (s.cores.map (fun x =>
    let k := (s.die (dieOf x.1)).ticks
    (x.1, (((x.2.tickMat x.1 s.wall k).tickVec k).tickSeq k).tickIssue))).filter (fun x => x.2 ≠ Core.reset)

/-- 1 ns passes. -/
def State.passNs (s : State) : State :=
  if s.pwr.stage ≠ .operating || s.pins.inReset then { s with wall := s.wall + 1 }
  else { s with
    wall := s.wall + 1
    old := s.dropOld.old
    tt := s.tt.tick
    cores := s.tickCores
    log := s.log.done
    pwr := { s.pwr with dies := s.pwr.dies.mapFinIdx (fun i d h =>
      (d.noteUse (s.activity ⟨i, h⟩ d.mhz) s.wall).tick) } }

/-- The step of an empty queue: 1 ns passes, and accesses whose wait has ended are performed (R366, R402, R454).
(DESIGN CHOICE, log entry 2.) -/
def State.tick (s : State) : State := s.passNs.wake.wakeStage

end Sys2Proof.Machine
end

