-- ==== Sys2Proof/Safety.lean ====
section
/-!
DEFINITION. What holds of a sound state of the FX1, in the terms the claims use: memories in canonical form,
fences that stay, sequence numbers and security versions that never fall.
-/

namespace Sys2Proof.Machine

/-- The canonical form of a byte memory: addresses strictly rising, no byte at the value an unlisted byte reads. -/
def Memory.wf (m : List Host.Cell) : Bool := smWf (0 : Byte) m

/-- A list of numbers in strictly rising order: the form of the sets of poisoned granules and of latent errors. -/
def rising : List Nat → Bool
  | [] => true
  | [_] => true
  | x :: y :: t => decide (x < y) && rising (y :: t)

/-- A store in canonical form. -/
def Store.wf (st : Store) : Bool := Memory.wf st.cells && rising st.poison && smWf ([] : List Nat) st.errs

/-- Every memory of the device in canonical form: DMEM, the quays, the flash, the logbook, and each listed core's
local scratchpad and instruction memory. -/
def State.memWf (s : State) : Bool :=
  s.dmem.wf && s.quays.toList.all Store.wf && smWf (0xFF : Byte) s.sec.flash && Memory.wf s.log.mram &&
    s.cores.all (fun x => x.2.lsp.wf && Memory.wf x.2.imem)

/-- Core g is fenced (R417). -/
def State.isFenced (s : State) (g : Nat) : Prop := g ∈ s.int.fenced

/-- What no command undoes: fences of cores (R417), fences of adders (R418), sequence numbers of the logbook given
out (R489), and the security version and revocations in OTP. -/
structure State.Lasting (s t : State) : Prop where
  fenced : ∀ g, s.isFenced g → t.isFenced g
  adders : ∀ i, s.int.adders.getLsbD i = true → t.int.adders.getLsbD i = true
  seq    : s.log.seqNext ≤ t.log.seqNext
  svn    : s.sec.otp.svn ≤ t.sec.otp.svn
  keys   : s.sec.otp.keys = t.sec.otp.keys ∧ s.sec.otp.revoked = t.sec.otp.revoked

/-! ## What a claim says of one command -/

/-- Command c completes on s: exec answers a next state, and P holds of it. -/
def Completes (c : Instr) (s : State) (P : State → Prop) : Prop := ∃ t, exec c s = .next t ∧ P t

/-- Command c changes nothing on s. -/
def Idles (c : Instr) (s : State) : Prop := exec c s = .next s

/-- Core g executes an instruction of form f: it is between instructions, its kernel has not been cancelled (R109), word
0 is legal (R71) and its guard holds (R70). -/
structure Issues (s : State) (g : Gcn) (f : Form) (w : Word0) : Prop where
  running : (s.core g.toNat).seq.cond = .running
  kept    : (s.core g.toNat).cancel = false
  legal   : f.ok w = true
  guard   : (s.core g.toNat).seq.guard w = true

/-- Besides, the instruction does not end at the end of instruction memory (R81). -/
structure Ready (s : State) (g : Gcn) (f : Form) (w : Word0) : Prop extends Issues s g f w where
  room : (s.core g.toNat).seq.pc.toNat + wordBytes w < 0x10000

/-- The register an instruction writes, and the value. -/
inductive RegWrite
  | none
  | s (r : BitVec 5) (v : Word64)
  | a (r : BitVec 5) (v : Addr)
  | p (r : BitVec 5) (v : Bool)
  | d (r : BitVec 5) (v : Desc)

/-- The register files read as before but for that register; s0 and p0 keep their values (R65). -/
def RegWrite.From (x : RegWrite) (q q' : Seq) : Prop :=
  match x with
  | .none => q'.s = q.s ∧ q'.a = q.a ∧ q'.p = q.p ∧ q'.d = q.d
  | .s r v => (∀ k, q'.getS k = if k = r ∧ r ≠ 0 then v else q.getS k) ∧ q'.a = q.a ∧ q'.p = q.p ∧ q'.d = q.d
  | .a r v => (∀ k, q'.getA k = if k.toNat % 16 = r.toNat % 16 then v else q.getA k) ∧
      q'.s = q.s ∧ q'.p = q.p ∧ q'.d = q.d
  | .p r v => (∀ k, q'.getP k = if k.toNat % 8 = r.toNat % 8 ∧ r.toNat % 8 ≠ 0 then v else q.getP k) ∧
      q'.s = q.s ∧ q'.a = q.a ∧ q'.d = q.d
  | .d r v => (∀ k, q'.getD k = if k = r then v else q.getD k) ∧ q'.s = q.s ∧ q'.a = q.a ∧ q'.p = q.p

/-- Between s and t only core g differs. -/
def CoreOnly (s t : State) (g : Gcn) : Prop :=
  t = { s with cores := t.cores } ∧ ∀ h, h ≠ g.toNat → t.core h = s.core h

/-- Between s and t only the sequencer of core g differs. -/
def SeqOnly (s t : State) (g : Gcn) : Prop :=
  CoreOnly s t g ∧ t.core g.toNat = { s.core g.toNat with seq := (t.core g.toNat).seq }

/-- From s to t core g's sequencer has gone to address `pc` after an instruction that wrote one register, and nothing
else has changed. -/
def Retires (s t : State) (g : Gcn) (pc : Half) (x : RegWrite) : Prop :=
  SeqOnly s t g ∧ x.From (s.core g.toNat).seq (t.core g.toNat).seq ∧
    (t.core g.toNat).seq =
      { (s.core g.toNat).seq with
        s := (t.core g.toNat).seq.s, a := (t.core g.toNat).seq.a, p := (t.core g.toNat).seq.p
        d := (t.core g.toNat).seq.d, pc := pc, ord := (s.core g.toNat).seq.ord + 1 }

/-- An instruction completes on core g with one register written, goes to `pc`, and changes nothing else. -/
def Goes (c : Instr) (s : State) (g : Gcn) (pc : Half) (x : RegWrite) : Prop := Completes c s (fun t => Retires s t g pc x)

/-- A single-word instruction completes on core g and goes on with the next word. -/
def Yields (c : Instr) (s : State) (g : Gcn) (x : RegWrite) : Prop := Goes c s g ((s.core g.toNat).seq.pc + 8) x

/-- From s to t core g has recorded a fault of the instruction at its program counter (R106) and stopped (R108): no
register has changed, its queued commands are discarded and counted, and nothing else has changed. -/
def Raises (s t : State) (g : Gcn) (cause detail : Nat) : Prop :=
  CoreOnly s t g ∧
    t.core g.toNat =
      let c := s.core g.toNat
      { c with
        seq := { c.seq with
          cond := .stopping, ord := c.seq.ord + 1, multi := c.seq.multi || c.seq.fault.isSome
          fault := some (keepFault c.seq.fault ⟨BitVec.ofNat 8 cause, BitVec.ofNat 14 detail, c.seq.pc, c.seq.ord⟩) }
        discarded := c.discards
        mat := { c.mat with queue := [] }, vec := { c.vec with queue := [] }, fer := { c.fer with queue := [] } }

/-- An instruction faults at issue. -/
def Faults (c : Instr) (s : State) (g : Gcn) (cause detail : Nat) : Prop :=
  Completes c s (fun t => Raises s t g cause detail)

/-- The little-endian value of n bytes of a place. -/
def State.readLE (s : State) (l : Loc) (a n : Nat) : Nat := leNat (bytesAt (s.store l).cells a n)

/-- Between s and t the bytes of every place are the same but for n bytes of place l from address a, which hold the
low n bytes of v. -/
def Stored (s t : State) (l : Loc) (a n v : Nat) : Prop :=
  (∀ b, t.readByte l b = if a ≤ b ∧ b < a + n then BitVec.ofNat 8 (v / 256 ^ (b - a)) else s.readByte l b) ∧
    ∀ k b, k ≠ l → t.readByte k b = s.readByte k b

/-- From s to t bytes were written in an order: each byte written holds the last one written at its place, every other
byte of every place what it held. -/
def Wrote (s t : State) (put : List ((Loc × Nat) × Byte)) : Prop :=
  ∀ l a, t.readByte l a = ((put.filter (fun x => x.1 = (l, a))).getLast?.map Prod.snd).getD (s.readByte l a)

/-- The bytes that groups of writes through a descriptor of core g store, in the order of their accesses, each with its
place on this device. -/
def placedBytes (g : Nat) (d : Desc) (l : List (List PendByte)) : List ((Loc × Nat) × Byte) :=
  l.flatMap (fun b => (groupPend b).flatMap (fun x => x.2.filterMap (fun y => (bytePlace g d y).map (fun p => (p, y.byte)))))

/-- From s to t core g has recorded an engine's fault under the rule that the earliest instruction's is kept, and stops. -/
def Records (s t : State) (g : Gcn) (f : FaultRec) : Prop :=
  (t.core g.toNat).seq.cond = .stopping ∧
    (t.core g.toNat).seq.fault = some (keepFault (s.core g.toNat).seq.fault f)

/-- Between s and t no byte of any place differs. -/
def SameBytes (s t : State) : Prop := ∀ k b, t.readByte k b = s.readByte k b

end Sys2Proof.Machine
end

