-- ==== Sys2Proof/Certificates/Slice0/Obligations.lean ====
section
/-!
DEFINITION. What the provers are asked to show of the FX1 model.
-/

open Sys2Proof Sys2Proof.Machine

/-- For every command c and state s, a step of s with c in front of its queue is exec of c on s with the queue's
rest; on an empty queue a step is one tick of TCLK (the model's own choice, log entry 2).
(95_what_each_step_holds.md.) -/
def Obligations.StepTakesTheFrontCommand : Prop :=
  (∀ (c : Instr) (rest : List Instr) (s : State),
    step { s with pending := c :: rest } = exec c { s with pending := rest }) ∧
  ∀ s : State, s.pending = [] → step s = .next s.tick

/-- When core g executes one of ADD, SUB, MUL, MULHU, MULHS, AND, OR, XOR, SHL, SHR, SAR, MIN, MAX, MINU or MAXU,
the command completes: sD holds the operation of sA and sB that Table 3-6 gives (a write to s0 is discarded), PC
moves by 8, and nothing else of the state changes, no flag and no memory. (03_core_and_opvan.md Table 3-6, R65,
R66.) -/
def Obligations.ScalarArithmeticOfTwoRegisters : Prop :=
  ∀ (s : State) (g : Gcn) (w : Word0), Ready s g ⟨false, .s, .s, .s⟩ w →
    let x := (s.core g.toNat).seq.getS w.fa
    let y := (s.core g.toNat).seq.getS w.fb
    Yields (.add g w) s g (.s w.fd (x + y)) ∧
    Yields (.sub g w) s g (.s w.fd (x - y)) ∧
    Yields (.mul g w) s g (.s w.fd (x * y)) ∧
    Yields (.mulhu g w) s g (.s w.fd (BitVec.ofNat 64 (x.toNat * y.toNat / 2 ^ 64))) ∧
    Yields (.mulhs g w) s g (.s w.fd (BitVec.ofInt 64 (x.toInt * y.toInt / 2 ^ 64))) ∧
    Yields (.and g w) s g (.s w.fd (x &&& y)) ∧
    Yields (.or g w) s g (.s w.fd (x ||| y)) ∧
    Yields (.xor g w) s g (.s w.fd (x ^^^ y)) ∧
    Yields (.shl g w) s g (.s w.fd (x <<< (y.toNat % 64))) ∧
    Yields (.shr g w) s g (.s w.fd (x >>> (y.toNat % 64))) ∧
    Yields (.sar g w) s g (.s w.fd (x.sshiftRight (y.toNat % 64))) ∧
    Yields (.min g w) s g (.s w.fd (if x.toInt ≤ y.toInt then x else y)) ∧
    Yields (.max g w) s g (.s w.fd (if x.toInt ≤ y.toInt then y else x)) ∧
    Yields (.minu g w) s g (.s w.fd (if x.toNat ≤ y.toNat then x else y)) ∧
    Yields (.maxu g w) s g (.s w.fd (if x.toNat ≤ y.toNat then y else x))

/-- When core g executes one of the fifteen forms with bit 5 of OP set, ADDI to MAXUI, the command completes: sD
holds the operation of Table 3-6 with the sign-extended immediate in place of sB, PC moves by 8, and nothing
else of the state changes. (R79.) -/
def Obligations.ScalarArithmeticWithImmediate : Prop :=
  ∀ (s : State) (g : Gcn) (w : Word0), Ready s g ⟨false, .s, .s, .none⟩ w →
    let x := (s.core g.toNat).seq.getS w.fa
    let y := w.imm.signExtend 64
    Yields (.addi g w) s g (.s w.fd (x + y)) ∧
    Yields (.subi g w) s g (.s w.fd (x - y)) ∧
    Yields (.muli g w) s g (.s w.fd (x * y)) ∧
    Yields (.mulhui g w) s g (.s w.fd (BitVec.ofNat 64 (x.toNat * y.toNat / 2 ^ 64))) ∧
    Yields (.mulhsi g w) s g (.s w.fd (BitVec.ofInt 64 (x.toInt * y.toInt / 2 ^ 64))) ∧
    Yields (.andi g w) s g (.s w.fd (x &&& y)) ∧
    Yields (.ori g w) s g (.s w.fd (x ||| y)) ∧
    Yields (.xori g w) s g (.s w.fd (x ^^^ y)) ∧
    Yields (.shli g w) s g (.s w.fd (x <<< (y.toNat % 64))) ∧
    Yields (.shri g w) s g (.s w.fd (x >>> (y.toNat % 64))) ∧
    Yields (.sari g w) s g (.s w.fd (x.sshiftRight (y.toNat % 64))) ∧
    Yields (.mini g w) s g (.s w.fd (if x.toInt ≤ y.toInt then x else y)) ∧
    Yields (.maxi g w) s g (.s w.fd (if x.toInt ≤ y.toInt then y else x)) ∧
    Yields (.minui g w) s g (.s w.fd (if x.toNat ≤ y.toNat then x else y)) ∧
    Yields (.maxui g w) s g (.s w.fd (if x.toNat ≤ y.toNat then y else x))

/-- When core g executes MOVHI, AADD, AADDI, AMOV, AREAD, PAND, POR, PXOR or PNOT, the command completes and writes
what Table 3-6 gives: address arithmetic wraps modulo 2^40, a write to p0 is discarded; PC moves by 8 and
nothing else changes. (03_core_and_opvan.md Table 3-6, R65, R66.) -/
def Obligations.MovesAndPredicateLogic : Prop :=
  ∀ (s : State) (g : Gcn) (w : Word0),
    let q := (s.core g.toNat).seq
    (Ready s g ⟨false, .s, .none, .none⟩ w →
      Yields (.movhi g w) s g (.s w.fd (w.imm ++ (q.getS w.fd).extractLsb' 0 32))) ∧
    (Ready s g ⟨false, .a, .a, .s⟩ w → Yields (.aadd g w) s g (.a w.fd (q.getA w.fa + (q.getS w.fb).setWidth 40))) ∧
    (Ready s g ⟨false, .a, .a, .none⟩ w → Yields (.aaddi g w) s g (.a w.fd (q.getA w.fa + w.imm.signExtend 40))) ∧
    (Ready s g ⟨false, .a, .s, .none⟩ w → Yields (.amov g w) s g (.a w.fd ((q.getS w.fa).setWidth 40))) ∧
    (Ready s g ⟨false, .s, .a, .none⟩ w → Yields (.aread g w) s g (.s w.fd ((q.getA w.fa).setWidth 64))) ∧
    (Ready s g ⟨false, .p, .p, .p⟩ w →
      Yields (.pand g w) s g (.p w.fd (q.getP w.fa && q.getP w.fb)) ∧
      Yields (.por g w) s g (.p w.fd (q.getP w.fa || q.getP w.fb)) ∧
      Yields (.pxor g w) s g (.p w.fd (q.getP w.fa != q.getP w.fb))) ∧
    (Ready s g ⟨false, .p, .p, .none⟩ w → Yields (.pnot g w) s g (.p w.fd (!q.getP w.fa)))

/-- When core g executes a comparison, of two registers or with the sign-extended immediate, the command completes:
pD holds whether the relation of Table 3-6 holds, PC moves by 8, and nothing else changes. (03_core_and_opvan.md
Table 3-6, R65, R79.) -/
def Obligations.ComparisonsWriteOnePredicate : Prop :=
  ∀ (s : State) (g : Gcn) (w : Word0),
    let x := (s.core g.toNat).seq.getS w.fa
    (let y := (s.core g.toNat).seq.getS w.fb
     Ready s g ⟨false, .p, .s, .s⟩ w →
    Yields (.cmpEq g w) s g (.p w.fd (decide (x = y))) ∧
    Yields (.cmpNe g w) s g (.p w.fd (decide (x ≠ y))) ∧
    Yields (.cmpLt g w) s g (.p w.fd (decide (x.toInt < y.toInt))) ∧
    Yields (.cmpLtu g w) s g (.p w.fd (decide (x.toNat < y.toNat))) ∧
    Yields (.cmpLe g w) s g (.p w.fd (decide (x.toInt ≤ y.toInt))) ∧
    Yields (.cmpLeu g w) s g (.p w.fd (decide (x.toNat ≤ y.toNat)))) ∧
    (let y := w.imm.signExtend 64
     Ready s g ⟨false, .p, .s, .none⟩ w →
    Yields (.cmpEqI g w) s g (.p w.fd (decide (x = y))) ∧
    Yields (.cmpNeI g w) s g (.p w.fd (decide (x ≠ y))) ∧
    Yields (.cmpLtI g w) s g (.p w.fd (decide (x.toInt < y.toInt))) ∧
    Yields (.cmpLtuI g w) s g (.p w.fd (decide (x.toNat < y.toNat))) ∧
    Yields (.cmpLeI g w) s g (.p w.fd (decide (x.toInt ≤ y.toInt))) ∧
    Yields (.cmpLeuI g w) s g (.p w.fd (decide (x.toNat ≤ y.toNat))))

/-- A relative target is the branch's own address plus sext(IMM). When core g executes a branch whose target is a
multiple of 8 from 0 to below 0x1_0000, PC becomes the target; CALL writes PC + 8 to s31, LOOP decrements sD and
branches only while it is then not 0; nothing else changes. With any other target the branch raises IMEM_RANGE
and does not branch. The model's own: LOOP with FD = s0 never branches (log entry 20), a branch whose target is
out of range leaves s31 or sD as it was (log entry 140), and a relative target below 0 is out of range and does
not wrap (log entry 160). (R80.) -/
def Obligations.BranchesGoToTheirTargets : Prop :=
  ∀ (s : State) (g : Gcn) (w : Word0),
    let q := (s.core g.toNat).seq
    let rel : Int := (q.pc.toNat : Int) + w.imm.toInt
    let far (t : Int) : Prop := ¬ (0 ≤ t ∧ t < 0x10000 ∧ t % 8 = 0)
    (Issues s g ⟨false, .none, .none, .none⟩ w →
      (0 ≤ rel → rel < 0x10000 → rel % 8 = 0 →
        Goes (.br g w) s g (BitVec.ofInt 16 rel) .none ∧
        Goes (.call g w) s g (BitVec.ofInt 16 rel) (.s 31 (q.pc.setWidth 64 + 8))) ∧
      (far rel → Faults (.br g w) s g cIMEM_RANGE 0 ∧ Faults (.call g w) s g cIMEM_RANGE 0) ∧
      ((q.getS 31).toNat % 8 = 0 → Goes (.ret g w) s g ((q.getS 31).setWidth 16) .none) ∧
      ((q.getS 31).toNat % 8 ≠ 0 → Faults (.ret g w) s g cIMEM_RANGE 0)) ∧
    (Issues s g ⟨false, .none, .s, .none⟩ w →
      ((q.getS w.fa).toNat % 8 = 0 → Goes (.bra g w) s g ((q.getS w.fa).setWidth 16) .none) ∧
      ((q.getS w.fa).toNat % 8 ≠ 0 → Faults (.bra g w) s g cIMEM_RANGE 0)) ∧
    (Issues s g ⟨false, .s, .none, .none⟩ w →
      (w.fd ≠ 0 → q.getS w.fd ≠ 1 → 0 ≤ rel → rel < 0x10000 → rel % 8 = 0 →
        Goes (.loop g w) s g (BitVec.ofInt 16 rel) (.s w.fd (q.getS w.fd - 1))) ∧
      (w.fd ≠ 0 → q.getS w.fd ≠ 1 → far rel → Faults (.loop g w) s g cIMEM_RANGE 0) ∧
      ((w.fd = 0 ∨ q.getS w.fd = 1) → q.pc.toNat + 8 < 0x10000 →
        Goes (.loop g w) s g (q.pc + 8) (.s w.fd (q.getS w.fd - 1))))

/-- A scalar load or DLD that core g executes, aligned, within its place, from a granule that awaits no check and
whose value as read is not poisoned, completes: FD holds the little-endian value read at aA + sext(IMM), zero-
or sign-extended, an address register's low 40 bits, or a whole descriptor; PC moves by 8. What is read is the
place's bytes where no older value of the granule may still be returned (R237; log entry 26). Everything else is
as the read leaves it (a read finds latent errors, R230). (R82, R83, R84, R85, R88.) -/
def Obligations.ScalarLoads : Prop :=
  ∀ (s : State) (g : Gcn) (w : Word0),
    let a := ((s.core g.toNat).seq.getA w.fa + w.imm.signExtend 40).toNat
    let u (l : Loc) : State := s.touch l (a / 64)
    let r (l : Loc) : Reader := (u l).reader g.toNat none (s.core g.toNat).seq.ord false
    let v (l : Loc) (n : Nat) : Nat := (u l).seenLE (r l) l a n
    let fits (n size : Nat) (l : Loc) : Prop :=
      a % n = 0 ∧ a + n ≤ size ∧ s.marksOf l (a / 64) = [] ∧ (u l).seenBad (r l) 0 l (a / 64) = false
    let loads (c : Instr) (n size : Nat) (l : Loc) (x : RegWrite) : Prop :=
      fits n size l →
        Completes c s (fun t => Retires (u l) t g ((s.core g.toNat).seq.pc + 8) x) ∧
        ((u l).copies (r l) l (a / 64) = [] → v l n = s.readLE l a n)
    (Ready s g ⟨false, .s, .a, .none⟩ w →
      (let l : Loc := .lsp g.toNat
       loads (.ld8u g w) 1 0x800000 l (.s w.fd (BitVec.ofNat 64 (v l 1))) ∧
       loads (.ld8s g w) 1 0x800000 l (.s w.fd ((BitVec.ofNat 8 (v l 1)).signExtend 64)) ∧
       loads (.ld16u g w) 2 0x800000 l (.s w.fd (BitVec.ofNat 64 (v l 2))) ∧
       loads (.ld16s g w) 2 0x800000 l (.s w.fd ((BitVec.ofNat 16 (v l 2)).signExtend 64)) ∧
       loads (.ld32u g w) 4 0x800000 l (.s w.fd (BitVec.ofNat 64 (v l 4))) ∧
       loads (.ld32s g w) 4 0x800000 l (.s w.fd ((BitVec.ofNat 32 (v l 4)).signExtend 64)) ∧
       loads (.ld64 g w) 8 0x800000 l (.s w.fd (BitVec.ofNat 64 (v l 8)))) ∧
      (let l : Loc := .quay (dieOf g.toNat)
       loads (.ldq8u g w) 1 0x4000000 l (.s w.fd (BitVec.ofNat 64 (v l 1))) ∧
       loads (.ldq8s g w) 1 0x4000000 l (.s w.fd ((BitVec.ofNat 8 (v l 1)).signExtend 64)) ∧
       loads (.ldq16u g w) 2 0x4000000 l (.s w.fd (BitVec.ofNat 64 (v l 2))) ∧
       loads (.ldq16s g w) 2 0x4000000 l (.s w.fd ((BitVec.ofNat 16 (v l 2)).signExtend 64)) ∧
       loads (.ldq32u g w) 4 0x4000000 l (.s w.fd (BitVec.ofNat 64 (v l 4))) ∧
       loads (.ldq32s g w) 4 0x4000000 l (.s w.fd ((BitVec.ofNat 32 (v l 4)).signExtend 64)) ∧
       loads (.ldq64 g w) 8 0x4000000 l (.s w.fd (BitVec.ofNat 64 (v l 8))))) ∧
    (Ready s g ⟨false, .a, .a, .none⟩ w →
      loads (.lda g w) 8 0x800000 (.lsp g.toNat) (.a w.fd (BitVec.ofNat 40 (v (.lsp g.toNat) 8))) ∧
      loads (.ldqa g w) 8 0x4000000 (.quay (dieOf g.toNat))
        (.a w.fd (BitVec.ofNat 40 (v (.quay (dieOf g.toNat)) 8)))) ∧
    (Ready s g ⟨false, .d, .a, .none⟩ w →
      loads (.dld g w) 64 0x800000 (.lsp g.toNat) (.d w.fd (BitVec.ofNat 512 (v (.lsp g.toNat) 64))))

/-- A scalar store or DST that core g executes, aligned, within the scratchpad, to a granule that awaits no check
and is no protected operand, completes: the bytes from aA + sext(IMM) hold the data's little-endian bytes, every
other byte of every place reads as before, the registers are unchanged and PC moves by 8; other cores'
sequencers are unchanged. (R82, R83, R85, R88.) -/
def Obligations.ScalarStores : Prop :=
  ∀ (s : State) (g : Gcn) (w : Word0),
    let q := (s.core g.toNat).seq
    let a := (q.getA w.fa + w.imm.signExtend 40).toNat
    let stores (c : Instr) (n v : Nat) : Prop :=
      a % n = 0 → a + n ≤ 0x800000 → s.storeHeld g.toNat (a / 64) = false →
        Completes c s (fun t => Stored s t (.lsp g.toNat) a n v ∧
          (t.core g.toNat).seq = { q with pc := q.pc + 8, ord := q.ord + 1 } ∧
          ∀ h, h ≠ g.toNat → t.core h = s.core h)
    (Ready s g ⟨false, .none, .a, .s⟩ w →
      stores (.st8 g w) 1 (q.getS w.fb).toNat ∧ stores (.st16 g w) 2 (q.getS w.fb).toNat ∧
      stores (.st32 g w) 4 (q.getS w.fb).toNat ∧ stores (.st64 g w) 8 (q.getS w.fb).toNat) ∧
    (Ready s g ⟨false, .none, .a, .a⟩ w → stores (.sta g w) 8 (q.getA w.fb).toNat) ∧
    (Ready s g ⟨false, .none, .a, .d⟩ w → stores (.dst g w) 64 (q.getD w.fb).toNat)

/-- When core g executes a scalar load, a scalar store, DLD or DST whose address is not a multiple of the access's
size, ALIGN is raised; when it is aligned and reaches beyond 8 MiB of LSP (64 MiB of QUAY for an LDQ form),
SPACE_RANGE is raised. That an access both misaligned and out of range raises ALIGN is the model's choice (log
entry 19). No register and no memory changes in either case. (R83, R88.) -/
def Obligations.MisplacedScalarAccessesFault : Prop :=
  ∀ (s : State) (g : Gcn) (w : Word0),
    let a := ((s.core g.toNat).seq.getA w.fa + w.imm.signExtend 40).toNat
    let bad (c : Instr) (n size : Nat) : Prop :=
      (a % n ≠ 0 → Faults c s g cALIGN 0) ∧ (a % n = 0 → size < a + n → Faults c s g cSPACE_RANGE 0)
    (Issues s g ⟨false, .s, .a, .none⟩ w →
      bad (.ld8u g w) 1 0x800000 ∧
      bad (.ld8s g w) 1 0x800000 ∧
      bad (.ld16u g w) 2 0x800000 ∧
      bad (.ld16s g w) 2 0x800000 ∧
      bad (.ld32u g w) 4 0x800000 ∧
      bad (.ld32s g w) 4 0x800000 ∧
      bad (.ld64 g w) 8 0x800000 ∧
      bad (.ldq8u g w) 1 0x4000000 ∧
      bad (.ldq8s g w) 1 0x4000000 ∧
      bad (.ldq16u g w) 2 0x4000000 ∧
      bad (.ldq16s g w) 2 0x4000000 ∧
      bad (.ldq32u g w) 4 0x4000000 ∧
      bad (.ldq32s g w) 4 0x4000000 ∧
      bad (.ldq64 g w) 8 0x4000000) ∧
    (Issues s g ⟨false, .a, .a, .none⟩ w → bad (.lda g w) 8 0x800000 ∧ bad (.ldqa g w) 8 0x4000000) ∧
    (Issues s g ⟨false, .d, .a, .none⟩ w → bad (.dld g w) 64 0x800000) ∧
    (Issues s g ⟨false, .none, .a, .s⟩ w →
      bad (.st8 g w) 1 0x800000 ∧ bad (.st16 g w) 2 0x800000 ∧ bad (.st32 g w) 4 0x800000 ∧ bad (.st64 g w) 8 0x800000) ∧
    (Issues s g ⟨false, .none, .a, .a⟩ w → bad (.sta g w) 8 0x800000) ∧
    (Issues s g ⟨false, .none, .a, .d⟩ w → bad (.dst g w) 64 0x800000)

/-- When core g executes DCPY, DADDB, DADDBI, DSETB, DSETE, DSETS or DSETT, the command completes: slot dD is a copy
of dA, or its base (bits 39 to 0), one of its five extents (32 bits from bit 240 on), one of its five strides
(40 bits from bit 40 on) or its tag (bits 447 to 432) holds the new value, wrapped to the field's width, with
every other bit of the descriptor unchanged; nothing else changes but PC. (03_core_and_opvan.md Table 3-9,
06_tensor_movement.md.) -/
def Obligations.DescriptorFieldWrites : Prop :=
  ∀ (s : State) (g : Gcn) (w : Word0),
    let q := (s.core g.toNat).seq
    let d := q.getD w.fd
    let k := w.imm.toNat % 8
    let puts (c : Instr) (lo n v : Nat) : Prop :=
      ∃ x : Desc, Yields c s g (.d w.fd x) ∧
        ∀ i, i < 512 → x.getLsbD i = if lo ≤ i ∧ i < lo + n then v.testBit (i - lo) else d.getLsbD i
    (Ready s g ⟨false, .d, .d, .none⟩ w → Yields (.dcpy g w) s g (.d w.fd (q.getD w.fa))) ∧
    (Ready s g ⟨false, .d, .none, .s⟩ w →
      puts (.daddb g w) 0 40 (d.toNat + (q.getS w.fb).toNat) ∧
      (k ≤ 4 → puts (.dsete g w) (240 + 32 * k) 32 (q.getS w.fb).toNat) ∧
      (k ≤ 4 → puts (.dsets g w) (40 + 40 * k) 40 (q.getS w.fb).toNat) ∧
      puts (.dsett g w) 432 16 (q.getS w.fb).toNat) ∧
    (Ready s g ⟨false, .d, .none, .none⟩ w → puts (.daddbi g w) 0 40 (d.toNat + (w.imm.signExtend 64).toNat)) ∧
    (Ready s g ⟨false, .d, .a, .none⟩ w → puts (.dsetb g w) 0 40 (q.getA w.fa).toNat)

/-- The instruction of each vector operation; word 1 is that of the double forms (Table 5-2). -/
def vecInstr (g : Gcn) (w : Word0) (w1 : Word64) : VOp → Instr
  | .vld => .vld g w w1
  | .vst => .vst g w w1
  | .vadd => .vadd g w
  | .vsub => .vsub g w
  | .vmul => .vmul g w
  | .vfma => .vfma g w
  | .vfms => .vfms g w
  | .vdiv => .vdiv g w
  | .vsqrt => .vsqrt g w
  | .vmin => .vmin g w
  | .vmax => .vmax g w
  | .vminn => .vminn g w
  | .vmaxn => .vmaxn g w
  | .vabs => .vabs g w
  | .vneg => .vneg g w
  | .vcvt => .vcvt g w
  | .vcmp => .vcmp g w
  | .vsel => .vsel g w
  | .vand => .vand g w
  | .vor => .vor g w
  | .vxor => .vxor g w
  | .vshl => .vshl g w
  | .vshr => .vshr g w
  | .vsar => .vsar g w
  | .viota => .viota g w
  | .vsplat => .vsplat g w
  | .vshuf => .vshuf g w
  | .vexp2 => .vexp2 g w
  | .vlog2 => .vlog2 g w
  | .vrcp => .vrcp g w
  | .vrsqrt => .vrsqrt g w
  | .vsin => .vsin g w
  | .vcos => .vcos g w
  | .vrsum => .vrsum g w
  | .vrmax => .vrmax g w
  | .vrmin => .vrmin g w
  | .vsma => .vsma g w
  | .vsmmrg => .vsmmrg g w
  | .vsminit => .vsminit g w
  | .vrand => .vrand g w w1
  | .vdrop => .vdrop g w w1

/-- The instruction of each ferry operation (Table 3-14). -/
def ferInstr (g : Gcn) (w : Word0) (w1 : Word64) : FOp → Instr
  | .fcopy => .fcopy g w w1
  | .fconv => .fconv g w w1
  | .fgath => .fgath g w w1
  | .fscat => .fscat g w w1
  | .fscadd => .fscadd g w w1
  | .fqbc => .fqbc g w w1

/-- Core g, whose kernel has not been cancelled, executes an engine command of `len` bytes whose two words are legal, whose descriptors are valid (R76), with
an entry free in its queue (R74) and no aperture change pending (R380). -/
structure CanIssue (s : State) (g : Gcn) (i : EngineIssue) (len : Nat) : Prop where
  running : (s.core g.toNat).seq.cond = .running
  kept    : (s.core g.toNat).cancel = false
  guard   : (s.core g.toNat).seq.guard i.word = true
  length  : wordBytes i.word = len
  room    : (s.core g.toNat).seq.pc.toNat + len < 0x10000
  word1   : word1Ok (s.core g.toNat).seq.quad i = true
  valid   : firstInvalid s.hrw.apSize (s.core g.toNat).seq i.roles = none
  free    : (s.core g.toNat).queueLen i.eng < queueDepth i.eng
  steady  : s.hrw.apPend = none

/-- When core g executes a legal vector instruction with an entry free in the vector queue, the command completes:
the queue gains one entry at its end, which captures the operation, the vector issue count, program order and
PC, the contents of its descriptor slot and the value of its scalar register in the double form (else 0), and
SEQ_SEED; the issue count rises by 1, PC passes the instruction, and nothing else changes. (When descriptors are
validated, and captured: log entry 21.) (R74, R75, R92.) -/
def Obligations.VectorInstructionsEnterTheirQueue : Prop :=
  ∀ (s : State) (g : Gcn) (w : Word0) (w1 : Word64) (op : VOp),
    let c := s.core g.toNat
    let q := c.seq
    let y := if w.dbl then w1 else 0
    vecOk op w = true → CanIssue s g (.vec op w y) (if w.dbl then 16 else 8) →
      Completes (vecInstr g w w1 op) s (fun t => CoreOnly s t g ∧
        t.core g.toNat =
          { c with
            seq := { q with
              vIssued := q.vIssued + 1, ord := q.ord + 1, pc := q.pc + if w.dbl then 16 else 8 }
            vec := { c.vec with queue := c.vec.queue ++
              [{ n := q.vIssued + 1, ord := q.ord, pc := q.pc, op := op, w := w, seed := q.seed
                 desc := if w.dbl then q.getD (w1.extractLsb' 59 5) else 0
                 sidx := if w.dbl then q.getS (w1.extractLsb' 54 5) else 0 }] } })

/-- When core g executes a legal ferry or matrix instruction with an entry free in its engine's queue, the command
completes: the queue gains one entry at its end with the issue count, program order, PC, SEQ_SEED and the
contents of the descriptor slots that word 1 names; the engine's issue count rises by 1, PC passes the
instruction; MMODE changes the mode that later matrix commands find; nothing else changes. (When descriptors are
validated, and captured: log entry 21; the roles of a tile's: log entry 22.) (R74, R75, R90.) -/
def Obligations.FerryAndMatrixInstructionsEnterTheirQueues : Prop :=
  ∀ (s : State) (g : Gcn) (w : Word0) (w1 : Word64),
    let c := s.core g.toNat
    let q := c.seq
    let slot (lo : Nat) : Desc := q.getD (w1.extractLsb' lo 5)
    let mat (op : MOp) (qs : Lane4) (len : Half) (quad : Bool) (t : State) : Prop :=
      CoreOnly s t g ∧ t.core g.toNat =
        { c with
          seq := { q with mIssued := q.mIssued + 1, ord := q.ord + 1, pc := q.pc + len, quad := quad }
          mat := { c.mat with queue := c.mat.queue ++ [⟨q.mIssued + 1, q.ord, q.pc, qs, q.seed, op⟩] } }
    (∀ op : FOp, ferOk w = true → CanIssue s g (.fer op w w1) 16 →
      Completes (ferInstr g w w1 op) s (fun t => CoreOnly s t g ∧ t.core g.toNat =
        { c with
          seq := { q with fIssued := q.fIssued + 1, ord := q.ord + 1, pc := q.pc + 16 }
          fer := { c.fer with queue := c.fer.queue ++
            [⟨q.fIssued + 1, q.ord, q.pc, op, w1.extractLsb' 47 2, slot 59, slot 54, slot 49, q.seed⟩] } })) ∧
    (matOk .mwl w = true → CanIssue s g (.mat .mwl w w1) 16 →
      Completes (.mwl g w w1) s (mat (.mwl (slot 59)) (w1.extractLsb' 57 2) 16 q.quad)) ∧
    (matOk .mtile w = true → CanIssue s g (.mat .mtile w w1) 16 →
      Completes (.mtile g w w1) s (mat
        (.mtile { dact := slot 59, dps := slot 54, dout := slot 49, depi := slot 44, epi := w1.extractLsb' 42 2
                  tr := w1.getLsbD 41, init := w1.getLsbD 40, last := w1.getLsbD 39 })
        (w1.extractLsb' 37 2) 16 q.quad)) ∧
    (matOk .mmode w = true → CanIssue s g (.mat .mmode w 0) 8 →
      Completes (.mmode g w) s (mat (.mmode (w.imm.getLsbD 0)) 0 8 (w.imm.getLsbD 0)))

/-- Count C has reached target T when (C - T) modulo 2^32 is below 2^31. When core g executes WAIT for an engine, it
passes if the completion count has reached sA + sext(IMM), stalls in the wait if not, and raises WAIT_AHEAD if
the issue count has not; WAITO passes while at most that many commands are outstanding and raises WAIT_AHEAD
when the limit is negative; WAITALL passes when all are complete. A wait that passes orders the writes of the
commands it waited for before the core's later accesses (R235), and changes nothing else. RDCNT and RDISS write
the count that IMM[1:0] names; nothing else changes. (R94, R95.) -/
def Obligations.WaitsAndCounterReads : Prop :=
  ∀ (s : State) (g : Gcn) (w : Word0),
    let q := (s.core g.toNat).seq
    let x : Word64 := q.getS w.fa + w.imm.signExtend 64
    let at' (c t : Word32) : Prop := (c - t).toNat < 2 ^ 31
    let stalls (c : Instr) (k : SeqCond) : Prop := Completes c s (fun t => SeqOnly s t g ∧
      (t.core g.toNat).seq = { q with cond := k })
    let passes (c : Instr) (u : State) : Prop := Completes c s (fun t => Retires u t g (q.pc + 8) .none)
    let wait (c : Instr) (e : Eng) : Prop :=
      (¬ at' (q.issued e) (x.setWidth 32) → Faults c s g cWAIT_AHEAD (engCode e)) ∧
      (at' (q.issued e) (x.setWidth 32) →
        (at' (q.completed e) (x.setWidth 32) → passes c (s.waited g.toNat e (x.setWidth 32))) ∧
        (¬ at' (q.completed e) (x.setWidth 32) → stalls c (.wait e (x.setWidth 32))))
    let waito (c : Instr) (e : Eng) : Prop :=
      (x.toInt < 0 → Faults c s g cWAIT_AHEAD (engCode e)) ∧
      (0 ≤ x.toInt →
        (((q.issued e - q.completed e).toNat : Int) ≤ x.toInt →
          passes c (s.waited g.toNat e (q.issued e - x.setWidth 32))) ∧
        (x.toInt < ((q.issued e - q.completed e).toNat : Int) → stalls c (.waitOut e x)))
    let all : Prop := q.mIssued = q.mec ∧ q.vIssued = q.vec ∧ q.fIssued = q.fec
    let named (m v f : Word32) : Word64 :=
      (if w.imm = 0 then m else if w.imm = 1 then v else f).setWidth 64
    (Ready s g ⟨false, .none, .s, .none⟩ w →
      wait (.waitM g w) .matrix ∧ wait (.waitV g w) .vector ∧ wait (.waitF g w) .ferry ∧
      waito (.waitoM g w) .matrix ∧ waito (.waitoV g w) .vector ∧ waito (.waitoF g w) .ferry) ∧
    (Ready s g ⟨false, .none, .none, .none⟩ w →
      (all → passes (.waitall g w) (s.waitedAll g.toNat)) ∧ (¬ all → stalls (.waitall g w) .waitAll)) ∧
    (Ready s g ⟨false, .s, .none, .none⟩ w → w.imm.toNat ≤ 2 →
      Yields (.rdcnt g w) s g (.s w.fd (named q.mec q.vec q.fec)) ∧
      Yields (.rdiss g w) s g (.s w.fd (named q.mIssued q.vIssued q.fIssued)))

/-- When core g executes TADD or TADDI with a non-zero increment, the core's sum for that ticket rises by it and
every other ticket's sum and every ticket of the dispatcher is unchanged; an increment of 0 records nothing; one
that would name a seventeenth ticket, or bring a sum above 0xFFFF_FFFF, raises TICKET_LIMIT and records nothing.
TREAD writes the ticket's present value to sD. (R99, R100, R101.) -/
def Obligations.TicketInstructions : Prop :=
  ∀ (s : State) (g : Gcn) (w : Word0),
    let q := (s.core g.toNat).seq
    let sum (q : Seq) (t : Half) : Nat := ((defFind t q.deferred).getD 0).toNat
    let adds (c : Instr) (k : Half) (v : Word32) : Prop :=
      let full : Prop := ((defFind k q.deferred) = none ∧ 16 ≤ q.deferred.length) ∨ 2 ^ 32 ≤ sum q k + v.toNat
      (v = 0 → Yields c s g .none) ∧
      (v ≠ 0 → full → Faults c s g cTICKET_LIMIT (k.toNat % 2 ^ 14)) ∧
      (v ≠ 0 → ¬ full → Completes c s (fun t => SeqOnly s t g ∧
        (t.core g.toNat).seq = { q with pc := q.pc + 8, ord := q.ord + 1, deferred := (t.core g.toNat).seq.deferred } ∧
        ∀ j, sum (t.core g.toNat).seq j = if j = k then sum q j + v.toNat else sum q j))
    (Ready s g ⟨false, .none, .s, .s⟩ w →
      adds (.tadd g w) ((q.getS w.fa).setWidth 16) ((q.getS w.fb).setWidth 32)) ∧
    (Ready s g ⟨false, .none, .none, .none⟩ w →
      adds (.taddi g w) (w.imm.extractLsb' 16 16) ((w.imm.extractLsb' 0 16).setWidth 32)) ∧
    (Ready s g ⟨false, .s, .s, .none⟩ w →
      Yields (.tread g w) s g (.s w.fd ((s.ticket ((q.getS w.fa).toNat % 65536)).setWidth 64)))

/-- When core g executes NOP only PC changes; END stalls the sequencer until its engines drain; FAULT raises
SW_FAULT with DETAIL = IMM[13:0]; SETSEED writes sA to SEQ_SEED; RDTIME writes TT_NOW to sD; RDCSR writes core
register IMM[15:0] to sD; WRCSR of SEQ_SEED writes it, of an engine's FLAGS clears the bits written as 1, of an
engine's HIST_CTRL writes BASE and, with CLR at 1, clears the bins or has them cleared when the drain or store
being counted ends; of any other register, the drain log's among them, it changes nothing; one that sets a
reserved bit or a BASE out of range raises CSR_RANGE with the register number and changes nothing. Bits [63:32]
of a value for a 32-bit register are dropped and raise nothing, the model's choice (log entry 133). (R102, R104,
R105, R107.) -/
def Obligations.SystemInstructions : Prop :=
  ∀ (s : State) (g : Gcn) (w : Word0),
    let c := s.core g.toNat
    let q := c.seq
    let n := w.imm.toNat % 65536
    let v := q.getS w.fa
    let next (t : State) (d : Core) : Prop := CoreOnly s t g ∧
      t.core g.toNat = { d with seq := { d.seq with pc := q.pc + 8, ord := q.ord + 1 } }
    let ctrl (h : Hist) (counting : Bool) (v : Word64) : Hist :=
      let h1 : Hist := { h with base := v.setWidth 10 }
      if v.getLsbD 16 then (if counting then { h1 with clrWait := true } else { h1 with bins := [], satd := false, clrWait := false })
      else h1
    (Ready s g ⟨false, .none, .none, .none⟩ w →
      Yields (.nop g w) s g .none ∧
      Faults (.faultSw g w) s g cSW_FAULT (w.imm.toNat % 2 ^ 14) ∧
      Completes (.endKernel g w) s (fun t => SeqOnly s t g ∧ (t.core g.toNat).seq = { q with cond := .ending })) ∧
    (Ready s g ⟨false, .s, .none, .none⟩ w →
      Yields (.rdtime g w) s g (.s w.fd (BitVec.ofNat 64 s.tt.now)) ∧
      ∀ r, s.coreReg g.toNat n = some r → Yields (.rdcsr g w) s g (.s w.fd (BitVec.ofNat 64 r))) ∧
    (Ready s g ⟨false, .none, .s, .none⟩ w →
      Completes (.setseed g w) s (fun t => next t { c with seq := { q with seed := v } }) ∧
      (n = 0x0108 → Completes (.wrcsr g w) s (fun t => next t { c with seq := { q with seed := v } })) ∧
      (n = 0x1100 → v.toNat % 2 ^ 32 < 16 → Completes (.wrcsr g w) s (fun t =>
        next t { c with mat := { c.mat with flags := c.mat.flags &&& ~~~ v.setWidth 5 } })) ∧
      (n = 0x2100 → v.toNat % 2 ^ 32 < 32 → Completes (.wrcsr g w) s (fun t =>
        next t { c with vec := { c.vec with flags := c.vec.flags &&& ~~~ v.setWidth 5 } })) ∧
      (n = 0x3100 → v.toNat % 2 ^ 32 < 16 → Completes (.wrcsr g w) s (fun t =>
        next t { c with fer := { c.fer with flags := c.fer.flags &&& ~~~ v.setWidth 5 } })) ∧
      (n = 0x1104 → csrRefused n (v.toNat % 2 ^ 32) = false → Completes (.wrcsr g w) s (fun t =>
        next t { c with mat := { c.mat with hist := ctrl c.mat.hist c.mat.counting v } })) ∧
      (n = 0x2104 → csrRefused n (v.toNat % 2 ^ 32) = false → Completes (.wrcsr g w) s (fun t =>
        next t { c with vec := { c.vec with hist := ctrl c.vec.hist c.vec.counting v } })) ∧
      ((s.coreReg g.toNat n).isSome → n ∉ [0x0108, 0x1100, 0x2100, 0x3100, 0x1104, 0x2104] →
        csrRefused n (csrVal n v) = false → Completes (.wrcsr g w) s (fun t => next t c)) ∧
      ((s.coreReg g.toNat n).isSome → csrRefused n (csrVal n v) = true →
        Faults (.wrcsr g w) s g cCSR_RANGE (n % 2 ^ 14)))

/-- WAIT_RELEASE lets a wait whose condition has come about end: the writes waited for come before the core's later
accesses (R235), and the core runs on after the instruction. QUEUE_FULL_RELEASE queues a command that stalled on
a full queue once an entry is free. CONTAINED_ACCESS_RELEASE carries out a stalled store or DST once its granule
is neither unverified nor protected, and a stalled load of LSP or QUAY, to a scalar or an address register, or
DLD, whose value as read is not poisoned, once its granule is verified; the value is the granule's, or an older
one that the order of accesses still allows (log entry 26). HIST_CLEAR zeroes an engine's bins and SATD unless a
drain or store is being counted; nothing else changes. (R62, R74, R85, R94.) -/
def Obligations.StalledInstructionsGoOn : Prop :=
  ∀ (s : State) (g : Gcn),
    let c := s.core g.toNat
    let q := c.seq
    let addr (w : Word0) : Nat := (q.getA w.fa + w.imm.signExtend 40).toNat
    let loads (l : Loc) (n size : Nat) (w : Word0) (x : Nat → RegWrite) : Prop :=
      let u := (s.setCore g.toNat { c with seq := { q with cond := .running } }).touch l (addr w / 64)
      let r := u.reader g.toNat none q.ord false
      q.pc.toNat + 8 < 0x10000 → addr w % n = 0 → addr w + n ≤ size → s.marksOf l (addr w / 64) = [] →
      u.seenBad r 0 l (addr w / 64) = false →
      Completes (.containedAccessRelease g) s (fun t => Retires u t g (q.pc + 8) (x (u.seenLE r l (addr w) n)))
    (q.waitOver q.cond = true → q.pc.toNat + 8 < 0x10000 →
      Completes (.waitRelease g) s (fun t => SeqOnly (s.waitEnds g.toNat q.cond) t g ∧
        (t.core g.toNat).seq = { q with cond := .running, pc := q.pc + 8, ord := q.ord + 1 })) ∧
    (∀ i : EngineIssue, q.cond = .queueFull i → q.pc.toNat + wordBytes i.word < 0x10000 → s.hrw.apPend = none →
      firstInvalid s.hrw.apSize q i.roles = none → c.queueLen i.eng < queueDepth i.eng →
      Completes (.queueFullRelease g) s (fun t => CoreOnly s t g ∧
        t.core g.toNat =
          let d := Core.enqueue { c with seq := { q with cond := .running } } i
          { d with seq := { d.seq with ord := q.ord + 1, pc := q.pc + BitVec.ofNat 16 (wordBytes i.word) } })) ∧
    (∀ (n : Nat) (fromAddr : Bool) (w : Word0), q.cond = .held (.store n fromAddr) w → q.pc.toNat + 8 < 0x10000 →
      n ∈ [1, 2, 4, 8] → addr w % n = 0 → addr w + n ≤ 0x800000 → s.storeHeld g.toNat (addr w / 64) = false →
      Completes (.containedAccessRelease g) s (fun t =>
        Stored s t (.lsp g.toNat) (addr w) n (if fromAddr then (q.getA w.fb).toNat else (q.getS w.fb).toNat) ∧
        (t.core g.toNat).seq = { q with cond := .running, pc := q.pc + 8, ord := q.ord + 1 })) ∧
    (∀ w : Word0, q.cond = .held .dst w → q.pc.toNat + 8 < 0x10000 → addr w % 64 = 0 → addr w + 64 ≤ 0x800000 →
      s.storeHeld g.toNat (addr w / 64) = false →
      Completes (.containedAccessRelease g) s (fun t => Stored s t (.lsp g.toNat) (addr w) 64 (q.getD w.fb).toNat ∧
        (t.core g.toNat).seq = { q with cond := .running, pc := q.pc + 8, ord := q.ord + 1 })) ∧
    (∀ (n : Nat) (sg quay toA : Bool) (w : Word0), q.cond = .held (.load n sg quay toA) w → n ∈ [1, 2, 4, 8] →
      loads (if quay then .quay (dieOf g.toNat) else .lsp g.toNat) n (if quay then 0x4000000 else 0x800000) w
        (fun v => if toA then .a w.fd (BitVec.ofNat 40 v) else .s w.fd (extend n sg v))) ∧
    (∀ w : Word0, q.cond = .held .dld w → loads (.lsp g.toNat) 64 0x800000 w (fun v => .d w.fd (BitVec.ofNat 512 v))) ∧
    (c.mat.counting = false → Completes (.histClear g .matrix) s (fun t => CoreOnly s t g ∧ t.core g.toNat =
      { c with mat := { c.mat with hist := { c.mat.hist with bins := [], satd := false, clrWait := false } } })) ∧
    (c.vec.counting = false → Completes (.histClear g .vector) s (fun t => CoreOnly s t g ∧ t.core g.toNat =
      { c with vec := { c.vec with hist := { c.vec.hist with bins := [], satd := false, clrWait := false } } }))

/-- MATRIX_COMMAND_BEGIN takes the command at the head of the matrix queue once it is ready. An MMODE naming the
present mode completes at once; one that changes the mode waits to complete. An MWL that passes its checks loads
the tile that DW gives into the buffer that is not current, which stays not current: as many rows and columns as
DW's logical dimensions 1 and 0 have, each element as the engine's access of its row reads it (an older copy may
serve the access: log entry 26). An MTILE that passes enters execution at row 0 with the current tile and takes
the drain-log entry at HEAD; one that fails its checks takes none (log entry 132). A failing command raises
ENGINE with the code of Table 4-3. (04_matrix_engine.md Table 4-3, R115, R116, R123, R144.) -/
def Obligations.MatrixCommandsBegin : Prop :=
  ∀ (s : State) (g : Gcn) (k : MCmd) (rest : List MCmd),
    let m := (s.core g.toNat).mat
    let begins (P : State → Prop) : Prop :=
      Completes (.matrixCommandBegin g) s (fun t => (t.core g.toNat).mat.queue = rest ∧ P t)
    let fails (code : Nat) : Prop := Completes (.matrixCommandBegin g) s (fun t => CoreOnly s t g ∧
      Records s t g ⟨9, BitVec.ofNat 14 (k.q.toNat * 1024 + code), k.pc, k.ord⟩ ∧
      (t.core g.toNat).mat = { m with queue := [] })
    m.queue = k :: rest → s.matReady g.toNat k = true →
      (∀ quad, k.op = .mmode quad →
        (quad = m.quad → m.done = [] → k.n = (s.core g.toNat).seq.mec + 1 →
          begins (fun t => CoreOnly s t g ∧ (t.core g.toNat).seq.mec = k.n ∧ (t.core g.toNat).mat.quad = m.quad)) ∧
        (quad ≠ m.quad → begins (fun t => CoreOnly s t g ∧
          (t.core g.toNat).mat = { m with queue := rest, modeChg := some k, modeLeft := 4 }))) ∧
      (∀ dw, k.op = .mwl dw →
        (mwlCode m.quad dw = none → begins (fun t =>
          let u := (s.setMat g.toNat { m with queue := rest }).touchDesc g.toNat dw (allIx dw)
          (t.core g.toNat).mat.loading = m.loading ++ [(k, (m.subAt k.q).target)] ∧
          ((t.core g.toNat).mat.subAt k.q).cur = (m.subAt k.q).cur ∧
          (∃ w, ((t.core g.toNat).mat.subAt k.q).tile (m.subAt k.q).target = some w ∧
            w.rows = lExt dw 1 ∧ w.cols = lExt dw 0 ∧ w.fmt = dFmt dw ∧ w.bsc = dBsc dw ∧
            ∀ i j, i < w.rows → j < w.cols →
              let e := readElem (u.dview (u.reader g.toNat (some .matrix) k.ord true) i dw) dw [j, i, 0, 0, 0]
              w.at i j = (e.num (dFmt dw), e.bad)) ∧
          (t.core g.toNat).mat.exec = m.exec ∧ SameBytes s t)) ∧
        (∀ code, mwlCode m.quad dw = some code → fails code)) ∧
      (∀ x, k.op = .mtile x →
        (∀ b w, (m.subAt k.q).cur = some b → (m.subAt k.q).tile b = some w →
          mtileCode (some w) x = none → begins (fun t => CoreOnly s t g ∧
            ∃ e, (t.core g.toNat).mat.exec = m.exec ++ [e] ∧ e.cmd = k ∧ e.row = 0 ∧ e.wbuf = [] ∧ e.tile = w ∧
              e.buf = b ∧ e.dlog = m.head.toNat ∧ (t.core g.toNat).mat.head = m.head + 1)) ∧
        (∀ code, mtileCode (m.subAt k.q).current x = some code → fails code))

/-- A byte that one column of a row leaves in an MTILE's buffer: its address and value. -/
def rowBytesOf (l : List PendByte) : List (Nat × Byte) := l.map (fun b => (b.addr, b.byte))

/-- MATRIX_DRAIN_WRITE of a command of an array that is on and not frozen, or of one that a command frozen by the
order of R126 waits for. A complete granule that no check tile protects and no earlier command still has to
write is written to the core's scratchpad in one access: its pending bytes are stored, but those that another
party's write outran (log entry 24), leave the command's pending bytes, and every byte outside the granule reads
as before, in every place. A protected granule freezes the command (an earlier command's drain is not held by a
later tile's operands: log entry 119); behind an earlier command's write it waits its turn (log entry 23). A
frozen array holds every other stage (log entry 131). Where no granule is complete, the next row is streamed
first, or freezes: each column's sum is that of R43 and R44 over the row's activations and the column's weights,
added to the input partial sum (for INT32 the exact sum clamped), with the epilogue of R46, converted as R47 has
it for the output, or kept exactly as a partial sum; the command then goes on from that row.
(04_matrix_engine.md, R42, R43, R44, R46, R47, R113, R115, R120, R125, R126, R134.) -/
def Obligations.MatrixDrainsWriteOneGranule : Prop :=
  ∀ (s : State) (g : Gcn) (n : Word32) (j : Repetition) (x : MExec) (op : MTileOp),
    let c := s.core g.toNat
    let m := c.mat
    let row := x.row
    let w := x.tile
    let drained : State → Option MExec := fun t => (t.core g.toNat).mat.findExec n
    let freezes (f : Freeze) : Prop := Completes (.matrixDrainWrite g n j) s (fun t => CoreOnly s t g ∧ SameBytes s t ∧
      drained t = some { x with frz := some f })
    let drains (gran : Nat) : Prop :=
      (c.drainProtected x gran = true → freezes (.held gran)) ∧
      (c.drainProtected x gran = false → m.behind x gran = true → Idles (.matrixDrainWrite g n j) s) ∧
      (c.drainProtected x gran = false → m.behind x gran = false →
        Completes (.matrixDrainWrite g n j) s (fun t =>
          drained t = some { x with wbuf := x.wbuf.filter (fun b => b.addr / 64 ≠ gran) } ∧
          (t.store (.lsp g.toNat)).cells =
            putCells (s.store (.lsp g.toNat)).cells (rowBytesOf (s.drainBytes g.toNat x gran)) ∧
          (∀ b, b / 64 ≠ gran → t.readByte (.lsp g.toNat) b = s.readByte (.lsp g.toNat) b) ∧
          ∀ k b, k ≠ .lsp g.toNat → t.readByte k b = s.readByte k b))
    m.findExec n = some x → x.cmd.n = n → x.cmd.op = .mtile op →
      (x.frz.isSome = true → Idles (.matrixDrainWrite g n j) s) ∧
      (x.frz = none → m.frozenAt x.cmd.q = true →
        (∀ gran, c.awaited g.toNat x = some gran → drains gran) ∧
        (c.awaited g.toNat x = none → Idles (.matrixDrainWrite g n j) s)) ∧
      (x.frz = none → m.frozenAt x.cmd.q = false → m.on = true →
        (∀ gran, x.complete op = some gran → drains gran) ∧
        (x.complete op = none → op.rows ≤ row → Idles (.matrixDrainWrite g n j) s) ∧
        (x.complete op = none → row < op.rows → c.j3 = false →
          (∀ f, s.rowFreeze g.toNat x op row = some f → freezes f) ∧
          (s.rowFreeze g.toNat x op row = none →
            let r := s.streamRow g.toNat x op false
            let u0 := s.touchDesc g.toNat op.dact (rowIx op.dact row)
            let u1 := if op.init then u0 else u0.touchDesc g.toNat op.dps (rowIxN (w.nt op.tr) row)
            let u := if op.epi = 0 then u1 else u1.touchDesc g.toNat op.depi (rowIxN (w.nt op.tr) row)
            let elem (o : RowOperand) (i : Nat) : Machine.Num :=
              (readElem (u.rowView g.toNat x op row o) (op.desc o) [i, row, 0, 0, 0]).num (dFmt (op.desc o))
            let int := intAcc w op.dact
            let acts := (List.range (lExt op.dact 0)).map (elem .act)
            let p (i : Nat) : Machine.Num := if op.init then .zero else elem .sum i
            let acc (i : Nat) : Machine.Num := (partialSum int
              (acts.mapIdx (fun k a => mulNum a (w.weight op.tr k i).1)) (p i)).val
            let res (i : Nat) : Machine.Num := if op.last = true ∧ op.epi ≠ 0 then (epilogue op.epi (acc i) (elem .epi i)).val else acc i
            let cols := List.range (w.nt op.tr)
            exec (.matrixDrainWrite g n j) s = exec (.matrixDrainWrite g n j) r.1 ∧
              (r.1.core g.toNat).mat.findExec n = some r.2 ∧ r.2.row = row + 1 ∧ r.2.cmd = x.cmd ∧ r.2.tile = w ∧
              SameBytes s r.1 ∧
              (int = true → ∀ i, i < w.nt op.tr → (p i).scaled.2 = 0 →
                (∀ k, k < acts.length → ((mulNum (acts.getD k .zero) (w.weight op.tr k i).1).1).scaled.2 = 0) →
                acc i = Num.ofInt (max (-2147483648) (min 2147483647 ((p i).scaled.1 +
                  ((List.range acts.length).map (fun k =>
                    ((mulNum (acts.getD k .zero) (w.weight op.tr k i).1).1).scaled.1)).sum)))) ∧
              rowBytesOf r.2.wbuf = rowBytesOf x.wbuf ++ rowBytesOf
                (if op.last then (convertPlaced x.cmd.seed op.dout (cols.map (fun i => ⟨[i, row, 0, 0, 0], res i, false, []⟩))).bytes op.dout
                else bytesOfWrites op.dps (cols.map (fun i => ⟨[i, row, 0, 0, 0], accCode int (res i), false, []⟩))))))

/-- MATRIX_COMMAND_COMPLETE of an MTILE that has streamed its rows and performed its writes takes it out of
execution and marks its drain-log entry done, MEC advances past it when every earlier command has completed; of
an MWL, on an array that is on and not frozen, makes the loaded buffer current; of an MMODE whose four cycles
have passed sets the mode and empties both buffers of every sub-array. MATRIX_RESUME unfreezes a command whose
cause of freezing has cleared. After a failed check a completion that stops the last engine leaves what is still
marked poisoned, and nothing else of memory changes. (R77, R78, R123, R132, R134, R405.) -/
def Obligations.MatrixCommandsCompleteAndResume : Prop :=
  ∀ (s : State) (g : Gcn) (n : Word32),
    let c := s.core g.toNat
    let m := c.mat
    (∀ x op, m.findExec n = some x → x.cmd.n = n → x.cmd.op = .mtile op → op.rows ≤ x.row → x.wbuf = [] →
      m.done = [] → n = c.seq.mec + 1 →
      Completes (.matrixCommandComplete g n) s (fun t => CoreOnly s t g ∧ (t.core g.toNat).seq.mec = n ∧
        (t.core g.toNat).mat.findExec n = none ∧ ((t.core g.toNat).mat.entry x.dlog).done = true ∧ SameBytes s t)) ∧
    (∀ k b w, m.findExec n = none → m.loading.find? (fun y => y.1.n = n) = some (k, b) →
      (m.subAt k.q).tile b = some w → w.bad = false → m.frozenAt k.q = false → m.on = true →
      m.done = [] → n = c.seq.mec + 1 → k.n = n →
      Completes (.matrixCommandComplete g n) s (fun t => CoreOnly s t g ∧ (t.core g.toNat).seq.mec = n ∧
        ((t.core g.toNat).mat.subAt k.q).current = some w ∧ SameBytes s t)) ∧
    (∀ k quad, m.findExec n = none → m.loading.find? (fun y => y.1.n = n) = none → m.modeChg = some k → m.modeLeft = 0 →
      k.n = n → k.op = .mmode quad → m.done = [] → n = c.seq.mec + 1 →
      Completes (.matrixCommandComplete g n) s (fun t => CoreOnly s t g ∧ (t.core g.toNat).seq.mec = n ∧
        (t.core g.toNat).mat = { m with quad := quad, sub := Vector.replicate 4 SubArr.empty, modeChg := none })) ∧
    (∀ x op f, m.findExec n = some x → x.cmd.n = n → x.cmd.op = .mtile op → x.frz = some f →
      s.freezeOver g.toNat x op f = true →
      Completes (.matrixResume g n) s (fun t => CoreOnly s t g ∧
        (t.core g.toNat).mat.findExec n = some { x with frz := none }))

/-- ARRAY_RAMP_UP enables the rows, that are not enabled yet, of an array that has work, unless all of it is frozen;
from idle, only while the die's pilot holds credit for one more array. ARRAY_RAMP_DOWN disables the rows of an
array that has had no work for 16 cycles, FROZEN_RAMP_DOWN those of an array frozen for 64 cycles, one per
cycle; the rest of the array's state is held and nothing else changes. How the credit is priced is log entry
143. (R136, R137, R138, R139.) -/
def Obligations.ActivityRampsOfTheArray : Prop :=
  ∀ (s : State) (g : Gcn),
    let m := (s.core g.toNat).mat
    (m.hasWork = true → m.rows < 32 → m.allFrozen = false → (m.atIdle = false ∨ s.creditFor g.toNat = true) →
      Completes (.arrayRampUp g) s (fun t => CoreOnly s t g ∧ t.core g.toNat =
        { s.core g.toNat with mat :=
          { m with rows := 32, rampLeft := 32 - m.enabled, rampDown := false, idleCyc := 0 } })) ∧
    (m.hasWork = true → m.atIdle = true → s.creditFor g.toNat = false → Idles (.arrayRampUp g) s) ∧
    (m.hasWork = false → 0 < m.rows → 16 ≤ m.idleCyc →
      Completes (.arrayRampDown g) s (fun t => CoreOnly s t g ∧ t.core g.toNat =
        { s.core g.toNat with mat := { m with rows := 0, rampLeft := m.rows, rampDown := true } })) ∧
    (m.allFrozen = true → 0 < m.rows → 64 ≤ m.frozenCyc →
      Completes (.frozenRampDown g) s (fun t => CoreOnly s t g ∧ t.core g.toNat =
        { s.core g.toNat with mat := { m with rows := 0, rampLeft := m.rows, rampDown := true } }))

/-- What Table 5-2 has a vector instruction leave in element i of a destination of one register: from the elements x, y
and z at i of its three sources and the register `a` of its first; none where the statement says it otherwise. -/
def laneResult (k : VCmd) (a : VReg) (i x y z : Nat) : Option Nat :=
  let f := vFmt k.w
  let n := laneBits f
  let sx := toSigned x n
  let sy := toSigned y n
  let int := fmtInt f
  let flt (v : Conv) : Option Nat := if int then none else some v.code
  let rm := vRm k.w
  match k.op with
  | .vadd => if int then some ((x + y) % 2 ^ n) else flt (laneAdd f rm x y)
  | .vsub => if int then some ((x + (2 ^ n - y)) % 2 ^ n) else flt (laneSub f rm x y)
  | .vmul => if int then some (x * y % 2 ^ n) else flt (laneMul f rm x y)
  | .vfma => flt (laneFma f rm false x y z)
  | .vfms => flt (laneFma f rm true x y z)
  | .vdiv => flt (laneDiv f rm x y)
  | .vsqrt => flt (laneSqrt f rm x)
  | .vmin => if int then some (if sx ≤ sy then x else y) else flt (laneMinMax f false false x y)
  | .vmax => if int then some (if sx ≤ sy then y else x) else flt (laneMinMax f true false x y)
  | .vminn => flt (laneMinMax f false true x y)
  | .vmaxn => flt (laneMinMax f true true x y)
  | .vabs => some (if int then sx.natAbs % 2 ^ n else x % 2 ^ (n - 1))
  | .vneg => if int then some ((2 ^ n - x) % 2 ^ n) else some ((x + 2 ^ (n - 1)) % 2 ^ n)
  | .vand => some (x &&& y)
  | .vor => some (x ||| y)
  | .vxor => some (x ^^^ y)
  | .vshl => if int then some (x * 2 ^ (y % n) % 2 ^ n) else none
  | .vshr => if int then some (x / 2 ^ (y % n)) else none
  | .vsar => if int then some ((sx / (2 ^ (y % n) : Nat) % (2 ^ n : Nat)).toNat) else none
  | .viota => if f = 0xC then some (vSpec k.w + i) else none
  | .vsplat => some (lane a f (vSpec k.w))
  | .vshuf => some (lane a f (y % laneCount f))
  | .vexp2 => flt (vexp2 x) | .vlog2 => flt (vlog2 x) | .vrcp => flt (vrcp x)
  | .vrsqrt => flt (vrsqrt x) | .vsin => flt (vsin x) | .vcos => flt (vcos x)
  | .vrand => some ((gen64 k.seed (dTag k.desc) (k.sidx.toNat + i)).toNat % 2 ^ n)
  | .vdrop => some (if vSpec k.w * 2 ^ 8 ≤ rand24 k.seed (dTag k.desc) (k.sidx.toNat + i) then x else 0)
  | .vrsum => some (((reduceTree (redOp .vrsum f rm) (vSpec k.w) 1 (lanes a f)).1.mapIdx
      (fun j v => if j % 2 ^ vSpec k.w = 0 then v else 0)).getD i 0)
  | .vrmax => some (((reduceTree (redOp .vrmax f rm) (vSpec k.w) 1 (lanes a f)).1.mapIdx
      (fun j v => if j % 2 ^ vSpec k.w = 0 then v else 0)).getD i 0)
  | .vrmin => some (((reduceTree (redOp .vrmin f rm) (vSpec k.w) 1 (lanes a f)).1.mapIdx
      (fun j v => if j % 2 ^ vSpec k.w = 0 then v else 0)).getD i 0)
  | _ => none

/-- A row of a state group as its registers hold it. -/
def smLow (x : SmRow) : SmRow := ⟨x.m % 2 ^ 32, x.t % 2 ^ 32, x.c % 2 ^ 32, x.f % 2 ^ 32⟩

/-- VECTOR_COMMAND_BEGIN takes the instruction at the head of the vector queue into execution when no uncompleted
one still writes a register that it names and the die's pilot holds credit for the engine (log entry 143), its
occupancy of Table 5-4 with the cycles of bank conflicts (log entry 111) still to run, and raises ENGINE with
the code of Table 5-5 when a check fails. VECTOR_COMMAND_COMPLETE of the oldest instruction in execution, one
that is checked once the check queue has a place: when it is no load or store, writes each register that its
operation computes, element by element as Table 5-2 gives, VCMP all ones or all zeros, VSEL bit by bit (bits
[31:16] of a 16-bit lane too: log entry 130), VSMINIT, VSMA, VSMMRG and VCVT their groups and registers, ORs its
flags into VEC_FLAGS and leaves memory and the other registers unchanged; a load that meets no poison writes its
register with its elements converted to the lane format and zeros above; a store that no protected operand holds
writes its elements' bytes, but those that another party's write outran (log entry 24), and leaves the registers
unchanged. Loads may get an older copy (log entry 26). Each advances VEC past the instruction when every earlier
one has completed. (05_vector_engine.md Table 5-2, R77, R159, R160, R161, R162, R164, R167, R170, R172, R176,
R177.) -/
def Obligations.VectorCommandsBeginAndComplete : Prop :=
  ∀ (s : State) (g : Gcn) (k : VCmd) (rest : List VCmd),
    let c := s.core g.toNat
    let f := vFmt k.w
    let a := c.vec.getV k.w.fa
    let b := c.vec.getV k.w.fb
    let z := c.vec.getV (vFc k.w)
    let u := s.touchDesc g.toNat k.desc (vecIxs k)
    let read := (vecIxs k).map (readElem (u.dview (u.reader g.toNat (some .vector) k.ord true) 0 k.desc) k.desc)
    let new (t : State) (r : Nat) : VReg := (t.core g.toNat).vec.getV (BitVec.ofNat 5 r)
    let counted (t : State) : Prop := (t.core g.toNat).vec.run = rest ∧ (t.core g.toNat).seq = { c.seq with vec := k.n }
    let place := vecChecked k.op = true → c.checkQueueFull = false
    (c.vec.queue = k :: rest → c.vec.hazard k = false → s.vecCredit g.toNat = true →
      (vecCode k = none → Completes (.vectorCommandBegin g) s (fun t => CoreOnly s t g ∧
        (t.core g.toNat).vec = { c.vec with
          queue := rest, run := c.vec.run ++ [k]
          busy := c.vec.busy + occupancy g.toNat k + bankCycles g.toNat c.op k } ∧ (t.core g.toNat).seq = c.seq)) ∧
      (∀ code, vecCode k = some code → Completes (.vectorCommandBegin g) s (fun t => CoreOnly s t g ∧
        Records s t g ⟨9, BitVec.ofNat 14 (0x1000 + code), k.pc, k.ord⟩))) ∧
    (c.vec.run = k :: rest → k.n = c.seq.vec + 1 → place →
      (k.op ≠ .vld → k.op ≠ .vst →
        Completes (.vectorCommandComplete g) s (fun t => CoreOnly s t g ∧ SameBytes s t ∧ counted t ∧
          (t.core g.toNat).vec.flags = c.vec.flags ||| (vecCompute c.vec k).flags ∧
          (∀ r : BitVec 5, (t.core g.toNat).vec.getV r =
            (((vecCompute c.vec k).regs.filter (fun y => BitVec.ofNat 5 y.1 = r)).getLast?.map Prod.snd).getD (c.vec.getV r)) ∧
          (∀ i v, i < laneCount f → laneResult k a i (lane a f i) (lane b f i) (lane z f i) = some v →
            lane (new t k.w.fd.toNat) f i = v % 2 ^ laneBits f) ∧
          (k.op = .vsel → new t k.w.fd.toNat = ((a &&& z) ||| (b &&& ~~~ z))) ∧
          (k.op = .vcmp → ∀ i, i < laneCount f → new t k.w.fd.toNat >>> (laneStep f * i) &&&
              BitVec.ofNat 2048 (2 ^ laneStep f - 1) =
            if (cmpElem f (vSpec k.w) (lane a f i) (lane b f i)).1 then BitVec.ofNat 2048 (2 ^ laneStep f - 1) else 0) ∧
          (k.op = .vsminit → k.w.fd.toNat ≤ 28 → ∀ i, i < 64 →
            smRow (t.core g.toNat).vec k.w.fd.toNat i = ⟨0xFF800000, 0, 0, 0x3F800000⟩) ∧
          (k.op = .vsma → vGroupOk .vsma k.w = true →
            let row := vSpec k.w % 64
            let qpos := lane (c.vec.getV (BitVec.ofNat 5 (vSpec k.w / 64 % 32))) 0xC row % 2 ^ 24
            let r := vsmaRow (smRow c.vec k.w.fd.toNat row)
              ((lanes a bF).zip (liveLanes (lanes b 0xC) qpos (vSpec k.w / 2048 % 2 = 1)))
            (((vFc k.w).toNat < k.w.fd.toNat ∨ k.w.fd.toNat + 3 < (vFc k.w).toNat) →
              ∀ i, i < 64 → smRow (t.core g.toNat).vec k.w.fd.toNat i = if i = row then smLow r.1 else smRow c.vec k.w.fd.toNat i) ∧
            ∀ i, i < 64 → lane (new t (vFc k.w).toNat) bF i = r.2.1.getD i 0 % 2 ^ 32) ∧
          (k.op = .vsmmrg → vGroupOk .vsmmrg k.w = true → ∀ i, i < 64 →
            let r := vsmmrgRow (smRow c.vec k.w.fd.toNat i) (smRow c.vec k.w.fa.toNat i)
            smRow (t.core g.toNat).vec k.w.fd.toNat i = smLow r.1 ∧
              lane (new t (k.w.fa.toNat + 3)) bF i =
                r.2.1.getD (lane (c.vec.getV (BitVec.ofNat 5 (k.w.fa.toNat + 3))) bF i) % 2 ^ 32) ∧
          (k.op = .vcvt →
            let d : Fmt := BitVec.ofNat 4 (vSpec k.w)
            let h := if 16 ≤ vSpec k.w then 32 else 0
            (∀ i, i < laneCount d → i < laneCount f →
              lane (new t k.w.fd.toNat) d (if laneCount f < laneCount d then i + h else i) =
                (laneCvt f d (vRm k.w) (lane a f (if laneCount d < laneCount f then i + h else i))).code % 2 ^ laneBits d) ∧
            (laneCount f < laneCount d → ∀ i, i < 32 →
              lane (new t k.w.fd.toNat) 0xC (i + (32 - h)) = lane (c.vec.getV k.w.fd) 0xC (i + (32 - h)))))) ∧
      (k.op = .vld → read.any (·.bad) = false →
        Completes (.vectorCommandComplete g) s (fun t => SameBytes s t ∧ counted t ∧
          (∀ i, i < laneCount f → lane (new t k.w.fd.toNat) f i =
            ((read.map (fun e => (loadElem k.desc f (vRm k.w) e).code)).getD i 0) % 2 ^ laneBits f) ∧
          ∀ r : BitVec 5, r ≠ k.w.fd → (t.core g.toNat).vec.getV r = c.vec.getV r)) ∧
      (k.op = .vst → s.vstHeld g.toNat k = false →
        let put := convertPlaced k.seed k.desc (List.zipWith (fun ix x => ⟨ix, decodeNum f x, false, []⟩) (vecIxs k)
          ((lanes a f).take (vecCount k)))
        Completes (.vectorCommandComplete g) s (fun t => counted t ∧ (t.core g.toNat).vec.v = c.vec.v ∧
          Wrote s t (placedBytes g.toNat k.desc
            (s.landing c.op (.engine g.toNat .vector k.n) g.toNat k.desc [put.bytes k.desc])))))

/-- FERRY_COMMAND_BEGIN puts the command at the head of the queue on its channel when the channel is free and no
earlier command's spans hold it, and raises ENGINE with its code when a check fails. FERRY_COMMAND_COMPLETE of a
command whose writes elsewhere are all acknowledged frees its channel and advances FEC; of one whose transfer
can be performed on this device, performs its writes: the bytes of its output, those that another party's write
outran left out (log entry 24), each in its place, the last of several to a place staying, and every other byte
of every place as before. Its output rests on its reads, which an older copy may serve (log entry 26).
FERRY_INDEX_FAULT performs the writes of the earlier index elements, records the first failing index, frees the
channel and raises ENGINE code 5. (That INDEX is raised alone, also after poisoned rows: log entry 148.)
(06_tensor_movement.md, R194, R197, R198, R205.) -/
def Obligations.FerryCommandsBeginCompleteAndFault : Prop :=
  ∀ (s : State) (g : Gcn) (k : FCmd) (rest : List FCmd) (ch : Channel) (x : FExec),
    let c := s.core g.toNat
    let freed (t : State) : Prop := (t.core g.toNat).fer.chan ch.toNat = none
    let u := s.idxTouch g.toNat x
    let p := u.ferPlan g.toNat x
    let reads := u.ferTouched g.toNat x.cmd p
    let v := reads.foldl (fun t y => t.touch y.1 y.2) u
    let out := v.ferOutput g.toNat x p
    let stored := v.ferStored g.toNat x.cmd out.1
    let here : Prop := u.ferRefused g.toNat x.cmd p stored = false ∧
      u.ferWaits g.toNat (u.ownDest g.toNat x.cmd.ddst) reads = false ∧ u.ferProtected stored = false ∧
      dmemLines (reads ++ stored) = [] ∧ u.isRemote x.cmd.ddst = false ∧ isHost x.cmd.ddst = false
    let wrote (t : State) : Prop := Wrote s t (placedBytes g.toNat x.cmd.ddst
      (v.landing c.op (.engine g.toNat .ferry x.cmd.n) g.toNat x.cmd.ddst out.1))
    (c.fer.queue = k :: rest → s.ferHeld g.toNat k = false →
      (ferCode k = none → s.isRemote k.dsrc = false → isHost k.dsrc = false →
        Completes (.ferryCommandBegin g) s (fun t => CoreOnly s t g ∧ (t.core g.toNat).fer.queue = rest ∧
          ∃ y, (t.core g.toNat).fer.chan k.ch.toNat = some y ∧ y.cmd = k ∧ y.phase = .ready)) ∧
      (∀ code, ferCode k = some code → Completes (.ferryCommandBegin g) s (fun t => CoreOnly s t g ∧
        Records s t g ⟨9, BitVec.ofNat 14 (0x2000 + k.ch.toNat * 1024 + code), k.pc, k.ord⟩))) ∧
    (c.fer.chan ch.toNat = some x → x.cmd.ch = ch → x.copyOf = none → x.psn = false →
      c.fer.done = [] → x.cmd.n = c.seq.fec + 1 →
      (x.phase = .acking → x.tags = [] →
        Completes (.ferryCommandComplete g ch) s (fun t => CoreOnly s t g ∧ freed t ∧
          (t.core g.toNat).seq = { c.seq with fec := x.cmd.n } ∧ SameBytes s t)) ∧
      (x.phase = .ready → p.fail = none → here → out.1.any (fun b => b.any (·.poison)) = false →
        Completes (.ferryCommandComplete g ch) s (fun t => freed t ∧
          (t.core g.toNat).seq = { c.seq with fec := x.cmd.n } ∧ wrote t))) ∧
    (∀ pos i, c.fer.chan ch.toNat = some x → x.cmd.ch = ch → x.copyOf = none → x.phase = .ready → x.tags = [] →
      p.fail = some (pos, i, false) → here → c.fer.idxFault = none →
        Completes (.ferryIndexFault g ch) s (fun t => freed t ∧ wrote t ∧
          (t.core g.toNat).fer.idxFault.map (fun y => (y.pos, y.val, y.ch)) =
            some (BitVec.ofNat 64 pos, BitVec.ofInt 64 i, ch) ∧
          Records s t g ⟨9, BitVec.ofNat 14 (0x2000 + ch.toNat * 1024 + 5), x.cmd.pc, x.cmd.ord⟩))

/-- While the dispatcher runs, the host link is up, an interface version is selected and no activation pauses it, a
submit doorbell whose value lies 1 to 2^31 - 1 above the accepted count moves the count there when the queue is
enabled, no ledger fault holds and the depth and ring have room; otherwise it sets REFUSED and accepts nothing;
one whose value lies 0 or 2^31 and more above is ignored. A completion doorbell moves CONSUMED forward, to any
value less than 2^31 ahead, and is ignored otherwise (log entry 64). During an activation both are kept. Nothing
else changes. (R250, R252, R253, R278.) -/
def Obligations.DoorbellsMoveTheCounts : Prop :=
  ∀ (s : State) (q : QueueId) (v : Word32),
    let x := s.queue q.toNat
    let d := (v - BitVec.ofNat 32 x.accepted).toNat
    let e := (v - BitVec.ofNat 32 x.consumed).toNat
    let room : Prop := x.enabled = true ∧ s.sch.ledger = false ∧ x.accepted + d - x.written ≤ min x.depth (2 ^ x.cfg.log2)
    s.schedOn = true → s.hostUp = true → s.hrw.locked = true →
      (s.sch.paused = false →
        (d = 0 ∨ 2 ^ 31 ≤ d → Idles (.submitDoorbell q v) s) ∧
        (2 ^ 31 ≤ e → Idles (.completionDoorbell q v) s) ∧
        (0 < d → d < 2 ^ 31 →
          (room → Completes (.submitDoorbell q v) s (fun t => t = s.setQueue q.toNat { x with accepted := x.accepted + d })) ∧
          (¬ room → Completes (.submitDoorbell q v) s (fun t => t = s.setQueue q.toNat { x with refused := true }))) ∧
        (e < 2 ^ 31 →
          Completes (.completionDoorbell q v) s (fun t => t = s.setQueue q.toNat { x with consumed := x.consumed + e }))) ∧
      (s.sch.paused = true →
        Completes (.submitDoorbell q v) s (fun t =>
          t = { s with sch := { s.sch with kept := s.sch.kept ++ [(true, q.toNat, v)] } }) ∧
        Completes (.completionDoorbell q v) s (fun t =>
          t = { s with sch := { s.sch with kept := s.sch.kept ++ [(false, q.toNat, v)] } }))

/-- When the dispatcher may read a queue's next command and its line is not held, COMMAND_READ in PCIe mode appends
the 64 bytes of its ring slot to the queue's commands not launched and moves the read count by 1, changing no
byte; in CXL mode it sends a BISnpData of the slot's line first and reads nothing yet. The slot's line is read
as it stands where no older value of it may still be returned (log entry 26). (R251, R375.) -/
def Obligations.CommandReadTakesTheNextCommand : Prop :=
  ∀ (s : State) (q : QueueId),
    let x := s.queue q.toNat
    let a := 0x40000000 + x.cfg.offset * 64 + x.read % 2 ^ x.cfg.log2 * 64
    s.canRead q.toNat = true → s.linesHeld [a / 64] = false →
      (s.hrw.mode ≠ 1 → x.dead = [] → s.sch.ledger = false →
        Completes (.commandRead q) s (fun t => SameBytes s t ∧ (t.queue q.toNat).read = x.read + 1 ∧
          (t.queue q.toNat).cmds.map (fun c => (c.seq, c.bytes)) =
            x.cmds.map (fun c => (c.seq, c.bytes)) ++ [(x.read, s.dispBytes x.read 1 a 64)] ∧
          (s.copies (readOfDispatcher x.read) .dmem (a / 64) = [] → s.dispBytes x.read 1 a 64 = bytesAt s.dmem.cells a 64))) ∧
      (s.hrw.mode = 1 → s.hrw.snoops = [] →
        Completes (.commandRead q) s (fun t => t.out = s.out ++ [.snoop (a / 64) true] ∧
          t.hrw.snoops = [(a / 64, .cmd q.toNat x.read)] ∧ t.sch = s.sch ∧ SameBytes s t))

/-- The ticket and record ledgers balance (R276, R279). -/
structure LedgersBalance (s : State) : Prop where
  tickets : s.ticketLedger = true
  ops : s.opLedger = true
  records : s.recordLedger = true

/-- Command c of the chosen queue q takes its turn: its opcode is `op`, it and its block are valid, its block can be
read, and the ledgers balance. -/
structure Turn (s : State) (q : QueueId) (c : QCmd) (rest : List QCmd) (op : Nat) : Prop where
  launching : s.launching = true
  chosen : s.chosen = some q.toNat
  first : (s.queue q.toNat).cmds = c :: rest
  opcode : c.opcode = op
  valid : c.invalid = none
  block : c.hasBlock = true →
    s.linesHeld (granulesOf c.blkAddr 1024) = false ∧ blockBad s.hrw.apSize op (s.block c) = none
  fresh : (∀ o ∈ s.sch.ops, o.id < s.sch.nextOp) ∧ ∀ x ∈ s.sch.xsigs, x.op < s.sch.nextOp
  balanced : LedgersBalance s

/-- Command c completes on s with the ledgers checked at its end (R276): exec answers a state that P holds of, its
ledgers checked. -/
def CompletesChecked (c : Instr) (s : State) (P : State → Prop) : Prop := ∃ t, exec c s = .next t.checkLedgers ∧ P t

/-- When a valid LAUNCH takes its turn, no core it names is fenced and its code and arguments can be read, every
core of its set enters the kernel with the state of Table 3-2: s1 holds the global core number, s2 the core's
rank in the set, s3 their count, a1 the argument offset, every other scalar and address register and descriptor
0, PC 0, the counts 0, the seed that of the block; other cores' sequencers are unchanged, the command leaves its
queue, and an operation waits for the set. CODE_LEN bytes at CODE stand in its instruction memory from 0 (from a
poisoned line too: log entry 67), ARG_LEN bytes at ARG in its scratchpad at the argument offset, its engine
queues are empty and its matrix engine is in full mode; every other byte of every place is as before. Code and
arguments are read as they stand where no older value of them may still be returned (log entry 26). Then the
ledgers are checked. (03_core_and_opvan.md Table 3-2, R68, R262, R276.) -/
def Obligations.LaunchStartsTheKernel : Prop :=
  ∀ (s : State) (q : QueueId) (c : QCmd) (rest : List QCmd), Turn s q c rest 1 →
    let b := s.block c
    let set := s.launchSet b
    let arg (g i : Nat) : Byte := (s.dispBytes s.sch.nextOp g (fieldAt b 0x10 8) (fieldAt b 0xC 4)).getD i 0
    let code (g i : Nat) : Byte := (s.dispBytes s.sch.nextOp g (fieldAt b 0 8) (fieldAt b 8 4)).getD i 0
    s.fencedLaunch b = false →
    s.linesHeld (granulesOf (fieldAt b 0 8) (fieldAt b 8 4) ++ granulesOf (fieldAt b 0x10 8) (fieldAt b 0xC 4)) = false →
    CompletesChecked (.launch q) s (fun t =>
      (t.queue q.toNat).cmds.map (·.seq) = rest.map (·.seq) ∧
      (t.opOf s.sch.nextOp).map (fun o => (o.kind, o.set, o.waiting, o.status)) = some (.launch, set, set, none) ∧
      (∀ g, g ∉ set → (t.core g).seq = (s.core g).seq) ∧
      (∀ l a, t.readByte l a = match l with
        | .lsp g => if g ∈ set ∧ fieldAt b 0x18 4 ≤ a ∧ a < fieldAt b 0x18 4 + fieldAt b 0xC 4 then
            arg g (a - fieldAt b 0x18 4) else s.readByte l a
        | _ => s.readByte l a) ∧
      ∀ g ∈ set,
        let q' := (t.core g).seq
        (∀ i, byteAt (t.core g).imem i =
          if i < fieldAt b 8 4 then code g i else byteAt (s.core g).imem i) ∧
        ((∀ n, s.copies (readOfDispatcher s.sch.nextOp) .dmem n = []) →
          (∀ i, i < fieldAt b 8 4 → code g i = s.readByte .dmem (fieldAt b 0 8 + i)) ∧
          ∀ i, i < fieldAt b 0xC 4 → arg g i = s.readByte .dmem (fieldAt b 0x10 8 + i)) ∧
        (t.core g).mat.queue = [] ∧ (t.core g).vec.queue = [] ∧ (t.core g).fer.queue = [] ∧ (t.core g).mat.quad = false ∧
        (t.core g).op = some s.sch.nextOp ∧ q'.cond = .running ∧ q'.pc = 0 ∧ q'.fault = none ∧ q'.deferred = [] ∧
        q'.seed = BitVec.ofNat 64 (fieldAt b 0x20 8) ∧
        q'.mIssued = 0 ∧ q'.vIssued = 0 ∧ q'.fIssued = 0 ∧ q'.mec = 0 ∧ q'.vec = 0 ∧ q'.fec = 0 ∧
        (∀ r, q'.getS r = if r = 1 then BitVec.ofNat 64 g
          else if r = 2 then BitVec.ofNat 64 (set.filter (· < g)).length
          else if r = 3 then BitVec.ofNat 64 set.length else 0) ∧
        (∀ r : BitVec 5, q'.getA r = if r.toNat % 16 = 1 then BitVec.ofNat 40 (fieldAt b 0x18 4) else 0) ∧
        (∀ r, q'.getD r = 0) ∧ ∀ r : BitVec 5, q'.getP r = decide (r.toNat % 8 = 0))

/-- When a valid command takes its turn it leaves its queue; then: a COPY of local data whose checks pass starts on
the core and channel that the row names (log entry 30); a COLLECTIVE that passes its launch checks runs on its
engine, of whatever SEND and RECV entries its schedule consists, when a route leads to each member that it
receives from; a TICKET_SIGNAL of a ticket here adds its value modulo 2^32; a HOST_FENCE sends the read whose
completion it awaits. A TICKET_WAIT or MARKER, and a TICKET_SIGNAL done here, has its record written in PCIe
mode to its slot of the completion ring in the signal window. While an earlier command of the queue lacks its
record, a HOST_FENCE or MARKER leaves its queue and waits as an operation (log entry 122). Then the ledgers are
checked. (08_kernels_and_dispatcher.md, R236, R255, R257, R265.) -/
def Obligations.OtherCommandsTakeTheirTurns : Prop :=
  ∀ (s : State) (q : QueueId) (c : QCmd) (rest : List QCmd) (g : Gcn) (ch : Channel),
    let x := s.queue q.toNat
    let b := s.block c
    let left (t : State) : Prop := (t.queue q.toNat).cmds.map (·.seq) = rest.map (·.seq)
    let slot := 0x40000000 + x.cfg.cplOff * 64 + c.seq % 2 ^ x.cfg.log2 * 64
    let ring : Prop := s.hrw.mode ≠ 1 ∧ x.cfg.cplHost = false ∧ s.linesHeld [slot / 64] = false ∧ c.bytes.length = 64
    let recorded (t : State) : Prop := left t ∧ (t.queue q.toNat).written = x.written + 1 ∧
      t.opOf s.sch.nextOp = none ∧ (byteAt t.dmem.cells (slot + 5)).toNat % 128 = 1 ∧
      ∀ a, a / 64 ≠ slot / 64 → t.readByte .dmem a = s.readByte .dmem a
    (Turn s q c rest 2 → s.canCopy g.toNat (copyCmdOf b ch) = true → s.hrw.apPend = none →
      ferCode (copyCmdOf b ch) = none → s.isRemote (descAt b 0) = false → isHost (descAt b 0) = false →
      CompletesChecked (.copyCmd q g ch) s (fun t => left t ∧ SameBytes s t ∧
        ∃ y, (t.core g.toNat).fer.chan ch.toNat = some y ∧ y.copyOf = some s.sch.nextOp ∧ y.cmd = copyCmdOf b ch)) ∧
    (∀ pos, Turn s q c rest 3 → s.collBad b = none → s.collPos b = some pos → s.linesHeld (s.schedLines b) = false →
      CompletesChecked (.collective q) s (fun t => left t ∧
        let e := t.eng (engineNum (s.collEngine (fieldAt b 6 1)))
        e.id = BitVec.ofNat 32 (fieldAt b 0 4) ∧
        (∀ r, e.run = some r → r.op = s.sch.nextOp ∧ r.pos = pos ∧ r.steps = (s.entries b).map stepOf) ∧
        ((∀ y ∈ s.entries b, fieldAt y 8 1 = 1 → ∃ p, s.route (s.memberAt b (fieldAt y 10 2)) = .out p) → e.run.map (·.failed) = some false))) ∧
    (Turn s q c rest 5 → fieldAt c.bytes 10 2 = 0 → ring →
      CompletesChecked (.ticketSignal q) s (fun t => recorded t ∧
        ∀ k, t.ticket k = if k = fieldAt c.bytes 8 2 then s.ticket k + BitVec.ofNat 32 (fieldAt c.bytes 12 4) else s.ticket k)) ∧
    (Turn s q c rest 7 → CompletesChecked (.hostFence q) s (fun t => left t ∧ SameBytes s t ∧
      t.out = s.out ++ (if s.allEarlierDone q.toNat c.seq then [.hostRead s.hrw.apBase 0] else []) ∧
      (t.opOf s.sch.nextOp).map (fun o => (o.kind, o.waiting)) =
        some (.hostFence, if s.allEarlierDone q.toNat c.seq then [0] else []))) ∧
    (Turn s q c rest 4 → ring → CompletesChecked (.ticketWait q) s recorded) ∧
    (Turn s q c rest 6 →
      (ring → s.allEarlierDone q.toNat c.seq = true → CompletesChecked (.marker q) s recorded) ∧
      (s.allEarlierDone q.toNat c.seq = false → CompletesChecked (.marker q) s (fun t => left t ∧ SameBytes s t ∧
        (t.opOf s.sch.nextOp).map (fun o => (o.kind, o.status)) = some (.marker, none))))

/-- A TICKET_WAIT that has been its queue's first unlaunched command for TIMEOUT microseconds of wall time (log
entry 65) with its ticket unmet leaves the queue, which halts; its record says FAILED with cause 8 and is
written to its slot of the signal window in PCIe mode, and in CXL mode waits for the host's invalidation of the
line. A watchdog that expires fixes the operation's status as FAILED with cause 2, and each core that still runs
it is to be cancelled. A ticket message not yet acknowledged is sent again; while no route leads to its target
nothing happens. An increment whose expiry plus twice the transaction timeout has passed is no longer pending.
(08_kernels_and_dispatcher.md, R266, R267, R271.) -/
def Obligations.TimeoutsWatchdogsAndWithdrawals : Prop :=
  ∀ (s : State),
    (∀ (q : QueueId) (c : QCmd) (rest : List QCmd), s.launching = true → (s.queue q.toNat).cmds = c :: rest →
      (s.queue q.toNat).enabled = true → (s.queue q.toNat).halted = false → c.opcode = 4 → c.invalid = none →
      s.waitsMet c = false → 0 < fieldAt c.bytes 16 4 →
      (s.queue q.toNat).firstAt + fieldAt c.bytes 16 4 * 1000 ≤ s.wall →
      (∀ o ∈ s.sch.ops, o.id < s.sch.nextOp) → (s.queue q.toNat).cfg.cplHost = false →
      (∀ y ∈ s.sch.xsigs, y.op < s.sch.nextOp) → s.linesHeld [(0x40000000 + (s.queue q.toNat).cplSlot c.seq) / 64] = false →
      let slot := 0x40000000 + (s.queue q.toNat).cplSlot c.seq
      let halts (t : State) : Prop := (t.queue q.toNat).halted = true ∧ (t.queue q.toNat).cmds.map (·.seq) = rest.map (·.seq) ∧
        t.opOf s.sch.nextOp = none
      (s.hrw.mode = 1 → Completes (.ticketWaitTimeout q) s (fun t => halts t ∧ SameBytes s t ∧
        t.hrw.snoops.map (·.1) = s.hrw.snoops.map (·.1) ++ [slot / 64])) ∧
      (s.hrw.mode ≠ 1 → c.bytes.length = 64 → CompletesChecked (.ticketWaitTimeout q) s (fun t => halts t ∧
        (t.queue q.toNat).written = (s.queue q.toNat).written + 1 ∧
        (byteAt t.dmem.cells (slot + 5)).toNat % 128 = 2 ∧ byteAt t.dmem.cells (slot + 6) = 8 ∧
        ∀ a, a / 64 ≠ slot / 64 → t.readByte .dmem a = s.readByte .dmem a))) ∧
    (∀ (id : Nat) (o : Op), s.schedOn = true → s.opOf id = some o → o.kind = .launch → o.status = none →
      o.tLaunch + o.wdog * 1000 ≤ s.tt.now → (∀ e : Fin 2, ((s.eng e).run.map (·.op)) ≠ some id) →
      Completes (.watchdogExpiry id) s (fun t =>
        (t.opOf id).map (fun y => (y.status, y.cause, y.info)) = some (some .failed, 2, BitVec.ofNat 32 o.wdog) ∧
        (∀ g ∈ o.waiting, (s.core g).op = some id → (t.core g).cancel = true) ∧ SameBytes s t)) ∧
    (∀ (m : Nat) (x : XSig) (p : Port), s.sch.xsigs.find? (fun y => y.m.toNat = m) = some x →
      s.route x.dst = .out p →
      Completes (.ticketMessageResend m) s (fun t => t = (s.post p 0x07 (s.ticketTxn x) none).pump)) ∧
    (∀ (m : Nat) (x : XSig), s.sch.xsigs.find? (fun y => y.m.toNat = m) = some x → (∀ p, s.route x.dst ≠ .out p) →
      Idles (.ticketMessageResend m) s) ∧
    (∀ (m : Nat) (x : XSig), s.sch.xsigs.find? (fun y => y.m.toNat = m) = some x → s.opOf x.op = none →
      x.expiry + 2 * s.lnk.txnUs * 1000 ≤ s.tt.now →
      Completes (.signalWithdraw m) s (fun t => t.sch = { s.sch with xsigs := s.sch.xsigs.erase x } ∧ SameBytes s t))

/-- When every core or unit of an operation has reported and its status is fixed, END_OPERATION of a DONE operation
adds each deferred increment to its ticket; of a FAILED or CANCELLED one adds none and marks every granule of
each output region poisoned, and of a collective its spans in SRC, WORK and DST as far as they lie in usable
DMEM (log entry 149). Then its signals are taken one by one (log entry 46): of a DONE operation all, else those
that are always given; one for a ticket here is applied, one for another device is sent and awaited before the
record. With the signal window as ring in PCIe mode the completion record is written there: STATUS, cause and
information as fixed, the counts of signals applied and withdrawn; the written count rises by 1 and the
operation is gone. Bytes outside the record's line are unchanged. (R99, R268, R270, R272.) -/
def Obligations.OperationsEndWithARecord : Prop :=
  ∀ (s : State) (o : Op) (st : OpStatus),
    let x := s.queue o.q
    let slot := 0x40000000 + x.cfg.cplOff * 64 + o.seq % 2 ^ x.cfg.log2 * 64
    let sigs := signalsOf o.blk
    let given := sigs.filter (fun g => g.always || decide (st = .done))
    let here (g : Sig) : Prop := g.remote = false ∨ g.dev = s.own
    let field (t : State) (n k : Nat) : Nat := fieldAt (bytesAt t.dmem.cells slot 64) n k
    s.opOf o.id = some o → (∀ y ∈ s.sch.ops, y.id = o.id → y = o) → o.waiting = [] → o.status = some st →
    o.settled = false → o.unread = false → o.sigDone = 0 → o.sigGone = 0 → s.sec.state ≠ .fatal →
    (∀ y ∈ s.sch.xsigs, y.op ≠ o.id) →
    s.hrw.mode ≠ 1 → x.cfg.cplHost = false → s.linesHeld [slot / 64] = false → s.linesHeld (s.poisonLines o) = false →
    o.bytes.length = 64 →
      ((∀ g ∈ given, here g) → CompletesChecked (.endOperation o.id) s (fun t =>
        t.opOf o.id = none ∧ (t.queue o.q).written = x.written + 1 ∧
        field t 5 1 % 128 = opStatusCode (some st) ∧ field t 6 1 = o.cause.toNat ∧ field t 0x24 4 = o.info.toNat ∧
        field t 0x34 1 = given.length % 256 ∧ field t 0x35 1 = (sigs.length - given.length) % 256 ∧
        (∀ a, a / 64 ≠ slot / 64 → t.readByte .dmem a = s.readByte .dmem a) ∧
        (∀ l a, l ≠ .dmem → t.readByte l a = s.readByte l a) ∧
        (st ≠ .done → ∀ r ∈ s.regions o, r.out = true → ∀ a, r.base ≤ a → a < r.base + r.len →
          (r.space = 0 → ∀ g ∈ o.set, t.poisoned (.lsp g) (a / 64) = true) ∧
          (r.space = 1 → a < 2 ^ 35 → a / 2 ^ 23 = r.base / 2 ^ 23 → t.poisoned (.lsp (a / 2 ^ 23)) (a % 2 ^ 23 / 64) = true) ∧
          (r.space = 3 → a / 64 ≠ slot / 64 → t.poisoned .dmem (a / 64) = true)) ∧
        ∀ k, t.ticket k = s.ticket k +
          (if st = .done then ((o.deferred.filter (fun d => d.1.toNat = k)).map (·.2)).foldl (· + ·) 0 else 0) +
          ((given.filter (fun g => g.ticket.toNat = k)).map (·.value)).foldl (· + ·) 0)) ∧
      (∀ g rest, sigs = g :: rest → g ∈ given → g.remote = true → g.dev ≠ s.own →
        Completes (.endOperation o.id) s (fun t => (t.opOf o.id).isSome = true ∧ (t.queue o.q).written = x.written ∧
          t.sch.xsigs = s.sch.xsigs ++
            [⟨s.sch.nextMsg, o.id, g.dev, g.ticket, g.value, s.tt.now + s.sch.xsigMs.toNat * 1000000⟩] ∧
          ∀ l a, t.readByte l a = s.readByte l a))

/-- A write of value v to a register of the Host Register Window reaches it (R386 to R389, R470, R520): the
window answers the host, an interface version is selected, the block answers in the present state, and no reserved bit is set. -/
structure Reaches (s : State) (off v rsv : Nat) : Prop where
  on : s.hrwOn = true
  locked : s.hrw.locked = true
  answers : s.sec.state ≠ .recovery ∨ recoveryReg off = true
  clean : v &&& rsv = 0

/-- A write of SCH_CANCEL that names a running operation fixes it as CANCELLED with cause 6 and reports count 1,
result 1; one that names a command read and not launched ends it as CANCELLED with cause 6 and writes its
record; one that names an unread command marks it to be ended when it is read. CANCEL_ALL reports how many
commands it cancels, and result 1, 2 (all of those outstanding have their status) or 3 (none outstanding); it
fixes every running operation of the queue as CANCELLED and marks every unread command. A write of SCH_Qn_CTRL
sets PRIORITY and VECTOR; ENABLE from 0 to 1 on a queue with nothing outstanding applies its pending
configuration, which the gangway reports when it committed it, and zeroes its counts; ENABLE to 0 disables it,
and applies the pending configuration when nothing is outstanding; a written HALTED bit clears HALTED.
(08_kernels_and_dispatcher.md, R254, R274, R275, R283.) -/
def Obligations.CancellationsAndQueueControl : Prop :=
  ∀ (s : State) (q : QueueId) (v : Word64) (w : Word32),
    let x := s.queue q.toNat
    let named := v.toNat / 2 ^ 32
    let slot (n : Nat) : Nat := 0x40000000 + x.cplSlot n
    let live := s.sch.ops.filter (fun o => o.q = q.toNat && o.status.isNone)
    let count := x.cmds.length + live.length + x.unread.length
    (Reaches s 0x10010 v.toNat 0xFFFFFEC0 → v.toNat % 64 = q.toNat →
      (v.getLsbD 8 = false → x.cmds = [] →
        (∀ o, s.sch.ops.find? (fun y => y.q = q.toNat && y.seq % 2 ^ 32 = named) = some o → o.status = none →
          o.kind = .launch → s.opOf o.id = some o → (∀ e : Fin 2, ((s.eng e).run.map (·.op)) ≠ some o.id) →
          Completes (.cancel v) s (fun t =>
            (t.opOf o.id).map (fun y => (y.status, y.cause)) = some (some .cancelled, 6) ∧
            t.sch.canCount = 1 ∧ t.sch.canResult = 1 ∧ SameBytes s t)) ∧
        (∀ n, s.sch.ops.find? (fun y => y.q = q.toNat && y.seq % 2 ^ 32 = named) = none →
          x.unread.find? (fun k => k % 2 ^ 32 = named) = some n →
          Completes (.cancel v) s (fun t => (t.queue q.toNat) = { x with dead := x.dead ++ [(n, 6)] } ∧
            t.sch.canCount = 1 ∧ t.sch.canResult = 1 ∧ SameBytes s t))) ∧
      (v.getLsbD 8 = false → ∀ c, x.cmds.find? (fun y => y.seq % 2 ^ 32 = named) = some c → c.invalid = none →
        c.hasBlock = false → c.opcode ≠ 5 → c.bytes.length = 64 → s.sec.state ≠ .fatal → s.hrw.mode ≠ 1 →
        x.cfg.cplHost = false → s.linesHeld [slot c.seq / 64] = false →
        (∀ o ∈ s.sch.ops, o.id < s.sch.nextOp) → (∀ y ∈ s.sch.xsigs, y.op < s.sch.nextOp) →
        ∃ u : State, exec (.cancel v) s = .next (u.checkLedgers.cancelResult 1 1) ∧
          (u.queue q.toNat).cmds.map (·.seq) = (x.cmds.filter (fun y => y.seq ≠ c.seq)).map (·.seq) ∧
          (u.queue q.toNat).written = x.written + 1 ∧ u.opOf s.sch.nextOp = none ∧
          (byteAt u.dmem.cells (slot c.seq + 5)).toNat % 128 = 3 ∧ byteAt u.dmem.cells (slot c.seq + 6) = 6 ∧
          ∀ a, a / 64 ≠ slot c.seq / 64 → u.readByte .dmem a = s.readByte .dmem a) ∧
      (v.getLsbD 8 = true →
        Completes (.cancelAll v) s (fun t => t.sch.canCount = BitVec.ofNat 16 (min count 0xFFFF) ∧
          t.sch.canResult = (if 0 < count then 1
            else if (∃ o ∈ s.sch.ops, o.q = q.toNat) ∨ ∃ y ∈ s.hrw.snoops, y.2.recordOf q.toNat = true then 2 else 3) ∧
          (x.cmds = [] → (t.queue q.toNat).dead = x.dead ++ x.unread.map (fun n => (n, 6)) ∧ SameBytes s t ∧
            ∀ o ∈ live, s.opOf o.id = some o → (t.opOf o.id).map (fun y => (y.status, y.cause)) = some (some .cancelled, 6))))) ∧
    (Reaches s (0x11010 + 0x40 * q.toNat) w.toNat 0xFFFCC800 →
      let y := { x with prio := w.extractLsb' 12 2, vector := w.extractLsb' 0 11, halted := x.halted && !w.getLsbD 17 }
      let applied := { y with cfg := x.pend.getD x.cfg, pend := none }
      let hrw := if x.pend.isSome = true ∧ s.hrw.gGroup.toNat = 0x40 + q.toNat ∧ s.hrw.gResult = 1
        then { s.hrw with gResult := 2 } else s.hrw
      (w.getLsbD 16 = true → x.enabled = false →
        (x.accepted ≤ x.written →
          Completes (.queueEnable q w) s (fun t => t = { s.setQueue q.toNat { applied with
            enabled := true, accepted := 0, read := 0, written := 0, consumed := 0, count := 0, beyond := [], dead := [] } with hrw := hrw })) ∧
        (x.written < x.accepted →
          Completes (.queueEnable q w) s (fun t => t = s.setQueue q.toNat { y with enabled := true }))) ∧
      (w.getLsbD 16 = false → x.enabled = true →
        (x.written < x.accepted →
          Completes (.queueDisable q w) s (fun t => t = s.setQueue q.toNat { y with enabled := false })) ∧
        (x.accepted ≤ x.written →
          Completes (.queueDisable q w) s (fun t => t = { s.setQueue q.toNat { applied with enabled := false } with hrw := hrw }))) ∧
      (w.getLsbD 16 = x.enabled →
        Completes (.queueResume q w) s (fun t => t = s.setQueue q.toNat y)))

/-- A link report with granted = held + buffer + returning + parked in each class (which field holds each term: log
entry 41), a pilot report equal to its die's holding, and a lockkeeper report whose pool, reserve, transit and
holdings sum to 4,600 (the reports' form: log entry 69) are noted as checked and change nothing else. Any other
sets LEDGER and the bit of its kind: 4 for link credits, 8 for power credits, and leaves no command in a queue
waiting to be launched. (08_kernels_and_dispatcher.md, R276, R279, R331, R443.) -/
def Obligations.LedgerReportsAreChecked : Prop :=
  ∀ (s : State) (p : Port) (l : LinkId) (held : List Nat) (d : ComputeDie) (n pool reserve transit : Nat),
    let k := s.link p l
    let balanced : Prop := ∀ c, c < 5 →
      k.granted.getD c 0 = held.getD c 0 + k.buffer.getD c 0 + k.ret.getD c 0 + k.park.getD c 0
    let total := pool + reserve + transit + (s.pwr.dies.toList.map (·.hold)).sum
    let raised (c : Instr) (bit : BitVec 4) : Prop :=
      Completes c s (fun t => t.sch.ledger = true ∧ t.sch.kind &&& bit = bit ∧ (∀ q, (t.queue q).cmds = []) ∧
        ((∀ q, (s.queue q).cmds = []) → t.sch.kind = s.sch.kind ||| bit))
    (balanced → Completes (.ledgerReport (.link p l held)) s (fun t => t = s.noteLink p l (k.ledger held))) ∧
    (¬ balanced → raised (.ledgerReport (.link p l held)) 4) ∧
    (n = (s.die d).hold → Completes (.ledgerReport (.pilot d n)) s (fun t => t = s.noteHolding d.val n)) ∧
    (n ≠ (s.die d).hold → raised (.ledgerReport (.pilot d n)) 8) ∧
    (total = 4600 → Completes (.ledgerReport (.lockkeeper pool reserve transit)) s
      (fun t => t = s.noteParts [pool, reserve, transit])) ∧
    (total ≠ 4600 → raised (.ledgerReport (.lockkeeper pool reserve transit)) 8)

/-- A passing verdict within its deadline (the deadline's cycle counts as in time: log entry 34) takes the check
out: no granule of the core's scratchpad awaits it any more, and no byte changes. A failing one keeps the
check's operands as they were read, records RESIDUE for its instruction, DETAIL[13:12] naming the engine, under
the rule that the earliest instruction's fault is kept, stops the core and queues an arbitration; a scalar load
held on a granule that the check marked raises POISON first (log entry 32). A late verdict is counted and counts
as failed (the unit it charges is free: log entry 33). A collective engine's passing verdict takes its check
out; a failing one keeps it and ends the collective with code 10. (12_result_integrity.md, R400, R401, R405,
R407, R408.) -/
def Obligations.VerdictsReleaseOrFail : Prop :=
  ∀ (s : State) (g : Gcn) (id : Nat) (k : Check),
    let c := s.core g.toNat
    let now := (s.die (dieOf g.toNat)).cycles
    let residue : FaultRec := ⟨11, BitVec.ofNat 14 (engCode k.eng * 0x1000), k.pc, k.ord⟩
    let waits (w : Word0) : Prop := id ∈ c.marksOf (c.accAddr w / 64)
    let failed (t : State) : Prop :=
      (∃ r ∈ (t.core g.toNat).retained, r.chk = id ∧ r.eng = k.eng ∧ r.grans = k.reads ∧ r.sums = k.sums ∧ r.vals = k.vals ∧
        r.loaded = k.loaded) ∧
      (t.core g.toNat).seq.cond = .stopping ∧ SameBytes s t ∧
      ((∀ a w, c.seq.cond = .held a w → ¬ waits w) →
        (t.core g.toNat).seq.fault = some (keepFault c.seq.fault residue)) ∧
      (∀ w, (c.seq.cond = .held .dld w ∨ ∃ n sg to_, c.seq.cond = .held (.load n sg false to_) w) → waits w →
        (t.core g.toNat).seq.fault =
          some (keepFault (some (keepFault c.seq.fault ⟨8, 0x3000, c.seq.pc, c.seq.ord⟩)) residue)) ∧
      (t.int.arbs.map (fun a => (a.who, a.chk))) = s.int.arbs.map (fun a => (a.who, a.chk)) ++ [(.core g, id)]
    (c.findCheck id = some k → k.ready = true →
      (now ≤ k.due →
        Completes (.verdict (.core g) id none) s (fun t => t = { s with cores := t.cores, old := t.old } ∧ SameBytes s t ∧
          (∀ h, h ≠ g.toNat → t.core h = s.core h) ∧ (t.core g.toNat).checks = c.checks.filter (fun x => x.id ≠ id) ∧
          ∀ n, id ∉ (t.core g.toNat).marksOf n) ∧
        ∀ n, Completes (.verdict (.core g) id (some n)) s failed) ∧
      (k.due < now → Completes (.lateVerdict (.core g) id) s (fun t => failed t ∧ t.int.nLate = s.int.nLate + 1))) ∧
    ∀ (e : EngineId) (r : Coll) (y : CollChk), (s.eng e).run = some r → r.failed = false →
      r.checks.find? (fun z => z.id = id) = some y → s.wall ≤ y.due →
      Completes (.verdict (.coll e) id none) s (fun t =>
        t = s.setEng e { s.eng e with run := some { r with checks := r.checks.filter (fun z => z.id ≠ id) } }) ∧
      ∀ n, Completes (.verdict (.coll e) id (some n)) s (fun t => (t.eng e).retained = (s.eng e).retained ++ [y] ∧
        (t.eng e).lastCode = 10 ∧ t.int.arbs = s.int.arbs ++ [⟨.coll e, y.id, .adder e.val y.adder, none, none⟩] ∧ SameBytes s t)

/-- ARBITRATION_REPLAY notes whether the replay differs and passes its residue. ARBITRATION_WITNESS of a core's
unit, a quadrant or a lane group, with both cores at rest, or of a collective engine's adder, ends the earliest
arbitration (log entry 35) with CHECKER, TRANSIENT, PERSISTENT or UNRESOLVED as Table 12-4 gives, or UNRESOLVED
without a witness (log entry 120) or with the other engine's adder fenced, counts that outcome and no other,
charges the checker of the core or engine for CHECKER and else the unit, once or for PERSISTENT twice, and
removes the arbitration. (12_result_integrity.md Table 12-4, R410, R412, R415.) -/
def Obligations.ArbitrationFollowsItsTable : Prop :=
  ∀ (s : State) (u : Checker) (a : Arb) (rdiff pres pweq wres : Bool), s.arbOf u = some a → a.who = u →
    let idle : Prop := ∀ g, u = .core g → s.coreAtRest g.toNat = true
    let ends (o : ArbOutcome) : Prop := Completes (.arbitrationWitness u pweq wres) s (fun t =>
      t.int.arbs = s.int.arbs.erase a ∧ SameBytes s t ∧
      t.int.nChecker = s.int.nChecker + (if o = .checker then 1 else 0) ∧
      t.int.nTransient = s.int.nTransient + (if o = .transient then 1 else 0) ∧
      t.int.nPersistent = s.int.nPersistent + (if o = .persistent then 1 else 0) ∧
      t.int.nUnresolved = s.int.nUnresolved + (if o = .unresolved then 1 else 0) ∧
      t.log.history = s.log.history ++ (match o, u with
        | .checker, .core g => [(.checker g.toNat, s.log.pot)]
        | .checker, .coll e => [(.collChecker e.val, s.log.pot)]
        | .transient, _ => [(a.unit, s.log.pot)]
        | .persistent, _ => [(a.unit, s.log.pot), (a.unit, s.log.pot)]
        | _, _ => []))
    let table : Prop :=
      (rdiff = false → pweq = true → wres = true → ends .checker) ∧
      (rdiff = true → pweq = true → pres = true → wres = true → ends .transient) ∧
      (rdiff = false → pweq = false → pres = false → wres = true → ends .persistent) ∧
      (¬ (rdiff = false ∧ pweq = true ∧ wres = true) → ¬ (rdiff = true ∧ pweq = true ∧ pres = true ∧ wres = true) →
        ¬ (rdiff = false ∧ pweq = false ∧ pres = false ∧ wres = true) → ends .unresolved)
    (a.replay = none → idle → Completes (.arbitrationReplay u rdiff pres) s (fun t =>
      t = { s with int := { s.int with
        arbs := s.int.arbs.map (fun x => if x = a then { a with replay := some (rdiff, pres) } else x) } })) ∧
    (a.replay = some (rdiff, pres) →
      (∀ g w, u = .core g → a.witness = some w → s.coreAtRest g.toNat = true → s.coreAtRest w = true → table) ∧
      (∀ g, u = .core g → a.witness = none → ends .unresolved) ∧
      ∀ e n, u = .coll e → a.unit = .adder e.val n →
        (s.int.adders.getLsbD (adderCode (1 - e.val) n) = false → table) ∧
        (s.int.adders.getLsbD (adderCode (1 - e.val) n) = true → ends .unresolved))

/-- CORE_CANCEL of a core that is to be cancelled and runs, or stands in an instruction that waits (log entry 142),
stops it: it issues nothing more, and its queued commands, not those in execution (log entry 28), are discarded
and counted. CORE_REPORT of a core at END with its engines drained and its verdicts in, or stopped with its
engines stopped, makes it idle, poisons the granules still marked, takes it off the cores that its operation
awaits, and adds to the operation the core's report: its fault and each engine's counts of commands issued,
completed and discarded. (R107, R108, R109.) -/
def Obligations.CoresStopAndReport : Prop :=
  ∀ (s : State) (g : Gcn),
    let c := s.core g.toNat
    (c.cancel = true → c.seq.cond ≠ .idle → c.seq.cond ≠ .stopping →
      Completes (.coreCancel g) s (fun t => CoreOnly s t g ∧ t.core g.toNat =
        { c with
          seq := { c.seq with cond := .stopping }
          discarded := c.discards
          mat := { c.mat with queue := [] }, vec := { c.vec with queue := [] }, fer := { c.fer with queue := [] } })) ∧
    (∀ (id : Nat) (o : Op), c.op = some id → s.opOf id = some o →
      ((c.seq.cond = .ending ∧ c.seq.allDrained = true ∧ c.checks = []) ∨
        (c.seq.cond = .stopping ∧ c.enginesStopped = true ∧ c.checks = [])) →
      Completes (.coreReport g) s (fun t => (t.core g.toNat).seq.cond = .idle ∧ (t.core g.toNat).op = none ∧
        (t.core g.toNat).marks = [] ∧ (t.opOf id).map (fun x => (x.waiting, x.reports)) = some (setDel g.toNat o.waiting, o.reports ++ [c.toReport g.toNat]) ∧
        SameBytes s t ∧
        ∀ n, c.marksOf n ≠ [] → t.poisoned (.lsp g.toNat) n = true))

/-- SUSPECT_CLEARANCE that agrees, with a third core chosen and both cores at rest (one step: log entry 36), makes
the core suspect no more. PATROL_LAUNCH of a free pair of one die outside slack water and emergencies, with no
waiting launch delayed by a patrol before and a share still to run (or at margin with margin screening on), puts
the pair in patrol with the next work of the rotation; what each core owes of the 100 s that have ended, at the
share in force, it still owes (log entry 139). PATROL_COMPLETE takes it out and adds its tiles, with no core or
byte changed when the results of the work are the same on both cores and every residue is right, or at reduced
margin; a mismatch at full margin is counted. The errors in a core's results are the row's operand (log entry
37). (12_result_integrity.md, R419, R423, R425, R426.) -/
def Obligations.ClearanceAndPatrol : Prop :=
  ∀ (s : State) (g h : Gcn) (margin : Bool) (n : Nat),
    let quiet (t : State) : Prop := SameBytes s t ∧ t.cores = s.cores
    let u := s.rollPatrol
    let k := s.tt.now / 100000000000 - s.int.patrolPer
    let share := s.int.ppm.toNat * 100000
    (∀ w, s.pilotsOn = true → s.int.suspects.contains g.toNat = true →
      s.int.clearing.find? (fun x => x.1 = g.toNat) = some (g.toNat, w) → s.coreAtRest g.toNat = true → s.coreAtRest w = true →
      Completes (.suspectClearance g .agree) s (fun t => quiet t ∧ t.int.suspects = setDel g.toNat s.int.suspects ∧
        t.int.clearing = s.int.clearing.filter (fun x => x.1 ≠ g.toNat))) ∧
    (∀ c, u.patrolOf c = if k = 0 then s.patrolOf c
      else ⟨(s.patrolOf c).debt + share - (s.patrolOf c).ran + (k - 1) * share, 0, (s.patrolOf c).last⟩) ∧
    (s.launching = true → g.toNat / 512 = h.toNat / 512 → g ≠ h → s.canPatrol g.toNat = true → s.canPatrol h.toNat = true →
      s.delayedOnce g.toNat = false → s.delayedOnce h.toNat = false →
      s.anySlack = false → s.pwr.emerg = false →
      (if margin then s.int.margin = true
        else s.int.ppm ≠ 0 ∧ ((u.patrolOf g.toNat).ran < (u.patrolOf g.toNat).debt + share ∨ (u.patrolOf h.toNat).ran < (u.patrolOf h.toNat).debt + share)) →
      Completes (.patrolLaunch g h margin) s (fun t => quiet t ∧
        (∀ c, t.patrolOf c = if c = g.toNat ∨ c = h.toNat
          then { u.patrolOf c with ran := (u.patrolOf c).ran + patrolNs, last := some s.wall } else u.patrolOf c) ∧
        t.int = { u.int with
          patrols := s.int.patrols ++ [⟨min g.toNat h.toNat, max g.toNat h.toNat, margin, s.int.patrolRot % 4,
            s.int.patrolRot / 4 % 2 = 1, BitVec.ofNat 64 s.tt.now⟩]
          patrolRot := s.int.patrolRot + 1
          patrolled := t.int.patrolled })) ∧
    (∀ r, s.int.patrols.find? (fun x => x.lower = g.toNat) = some r →
      ∀ (lower upper : List (Nat × Int)) m mv,
        let work := r.results n
        let row : PatrolResult := ⟨n, lower, upper, m, mv⟩
        let same := withErrors work lower = withErrors work upper ∧ (∀ x ∈ lower, x.2 % 127 = 0) ∧ ∀ x ∈ upper, x.2 % 127 = 0
        let done (t : State) : Prop := t.int = { s.int with
          patrols := s.int.patrols.filter (fun x => x.lower ≠ g.toNat)
          patrolTiles := s.int.patrolTiles + BitVec.ofNat 64 n
          patrolled := t.int.patrolled }
        (same ∨ r.margin = true → Completes (.patrolComplete g row) s (fun t => quiet t ∧ done t ∧
          ∀ c, t.patrolOf c = if c = r.lower ∨ c = r.upper then { s.patrolOf c with last := some s.wall } else s.patrolOf c)) ∧
        (¬ same → r.margin = false → Completes (.patrolComplete g row) s (fun t => SameBytes s t ∧
          t.int.patrolMismatch = s.int.patrolMismatch + 1 ∧ t.int.patrolTiles = s.int.patrolTiles + BitVec.ofNat 64 n ∧
          t.int.patrols = s.int.patrols.filter (fun x => x.lower ≠ g.toNat))))

/-- A device in HOLDOVER for 10 ms becomes UNLOCKED. A master under BOARD that has had no edge of TT_SYNC for 2 s,
in ACQUIRE with no neighbour offering tide time, originates under LINK_REF, at 0 unless its time runs already
(log entry 136). An edge of TT_SYNC in ACQUIRE, with every neighbour reached having said that it offers none
(log entry 48), has a master originate, at a second that the model leaves free; an edge leaves a running
master's time and rate as they are, notes the offset of tide time from the nearest second as what is to be lost,
and ends a loss when that lies within 2 ns. Missing edges set its loss. Every 62.5 us, and no sooner, a message
goes to every neighbour reached. With it the rate of a master that has left ACQUIRE and sees its edges changes
by at most 0.02 ppm (log entry 50) and stays within 25 ppm, or 50 while it comes back from lost edges, and what
is to be lost is brought up to date; every other rate stands. A first message from the one neighbour that offers
tide time sets the time of a device in ACQUIRE to the sender's time plus the one-way delay, half the round trip
with its correction. A later one of the parent leaves tide time as it is, sets TT_OFFSET and a rate of at most
50 ppm, and locks a device in ACQUIRE whose offset is at most 1 ns (log entry 49).
(09_timetable_and_reduction.md, R285, R286, R287, R288, R289, R290, R292, R516.) -/
def Obligations.TideTimeIsKept : Prop :=
  ∀ (s : State) (p : Port) (m : TimeMsg),
    let off := secondOffset s.tt.now
    let bound := if s.tt.refLost then 50000 else 25000
    let delay := s.oneWay p m.turn
    let ofs : Int := (s.tt.now * 16 + s.tt.frac / 62500000 : Nat) - (m.now + delay : Nat)
    (s.tt.state = .holdover → s.tt.since + 10000000 ≤ s.wall →
      Completes .holdoverTimeout s (fun t => t = { s with tt := { s.tt with state := .unlocked, since := s.wall } })) ∧
    (s.boardMaster = true → s.tt.state = .acquire → bestOffer s = none → (∀ w, s.tt.lastSync = some w → w < s.tt.since) →
      s.tt.since + 2000000000 ≤ s.wall →
      Completes .boardSourceTimeout s (fun t => t.tt.runs = true ∧ t.tt.now = (if s.tt.runs then s.tt.now else 0) ∧ t.tt.state = .locked ∧ t.tt.src = 1 ∧
        t.tt.parent = none ∧ SameBytes s t)) ∧
    (s.boardMaster = true → s.tt.state = .acquire → s.noneOffers = true →
      Completes .ttSyncEdge s (fun t => t.tt.runs = true ∧ t.tt.state = .locked ∧ t.tt.src = 2 ∧ t.tt.ppb = 0 ∧
        (s.tt.runs = true → t.tt.now = s.tt.now) ∧ (s.tt.runs = false → t.tt.now % 1000000000 = 0) ∧ SameBytes s t)) ∧
    (s.boardMaster = true → s.tt.state ≠ .acquire →
      Completes .ttSyncEdge s (fun t => t = { s with
        pins := { s.pins with ttRef := true }
        tt := { s.tt with
          src := 2, lastSync := some s.wall, refLost := s.tt.refLost && decide (2 < off.natAbs)
          left := off * 1000000000 + s.tt.frac, leftAt := s.wall } })) ∧
    (s.boardMaster = true → s.tt.runs = true →
      Completes .ttRefLoss s (fun t => t = { s with
        pins := { s.pins with ttRef := false }, tt := { s.tt with refLost := true } })) ∧
    (s.tt.state ≠ .acquire →
      (s.tt.lastExch.any (fun w => s.wall < w + 62500) = true → Idles .timetableExchange s) ∧
      (s.tt.lastExch.any (fun w => s.wall < w + 62500) = false →
        Completes .timetableExchange s (fun t => SameBytes s t ∧
          t.tt = { s.tt with
            lastExch := some s.wall, sentAt := t.tt.sentAt
            sent := if s.tt.parent.any (fun q => (s.port q).up) then s.tt.sent + 1 else s.tt.sent
            ppb := t.tt.ppb, left := t.tt.left, leftAt := t.tt.leftAt } ∧
          (if s.boardMaster ∧ s.pins.ttRef then
            (t.tt.ppb - s.tt.ppb).natAbs ≤ 20 ∧ (s.tt.ppb.natAbs ≤ bound → t.tt.ppb.natAbs ≤ bound) ∧
            t.tt.left = s.tt.left + s.tt.ppb * ((s.wall - s.tt.leftAt : Nat) : Int) ∧ t.tt.leftAt = s.wall
          else t.tt.ppb = s.tt.ppb ∧ t.tt.left = s.tt.left ∧ t.tt.leftAt = s.tt.leftAt) ∧
          ∀ q, t.tt.sentAt[portNum q] = if (s.port q).up then some s.wall else s.tt.sentAt[portNum q]))) ∧
    ((s.port p).up = true → m.num = (s.port p).rxNum.getD 0 0 → (s.port p).early = [] → m.offers = true → s.isMaster = false →
      (s.tt.state = .acquire → s.tt.runs = false → s.tt.offers = [] →
        Completes (.timetableMessage p m) s (fun t => t.tt.now = (m.now + delay) / 16 ∧ t.tt.runs = true ∧
          t.tt.state = .acquire ∧ t.tt.parent = some p ∧ t.tt.depth = m.depth + 1 ∧
          t.tt.linkDly[portNum p] = BitVec.ofNat 32 delay)) ∧
      ((s.tt.state = .acquire ∨ s.tt.state = .locked) → s.tt.runs = true → s.tt.parent = some p →
        (∀ x ∈ s.tt.offers, x.1 = (portNum p).val) →
        Completes (.timetableMessage p m) s (fun t => t.tt.now = s.tt.now ∧ t.tt.frac = s.tt.frac ∧ t.tt.parent = some p ∧
          t.tt.offset = BitVec.ofInt 32 ofs ∧ t.tt.ppb.natAbs ≤ 50000 ∧
          t.tt.state = if ofs.natAbs ≤ 16 then .locked else s.tt.state)))

/-- No block of this device's collectives waits on a port past the end of its sailing (R295). -/
def OnTime (s : State) : Prop := ∀ p, ∀ b ∈ (s.port p).txq, b.late s.tt.now = false

/-- A departure at its time, 32 ns into the sailing or the ns after (log entry 60), with every due block ready and
room for all, what an overlapping sailing of the other collective carried taken off (log entry 152), sends every
due block, misses none of them and changes no byte. A step that has run out of sailings fails the collective
with EXHAUSTED. COLLECTIVE_ADD of a received block whose coverage pairs adds it: the engine's count rises by 1
and only the block's 256 bytes in WORK change; they hold, but where another party's write outran them (log entry
24), the 64 binary32 sums of the member's value, which an older copy may serve (log entry 26), and the block's,
the operand order being that of the coverage. COLLECTIVE_OUTPUT, in two steps (log entry 62), first converts a
shard that covers every position element by element, then, with its verdicts in, writes it to DST; the operation
is DONE, or fails with code 11 when a contribution was poisoned. (09_timetable_and_reduction.md, R295, R297,
R298, R311, R312, R313, R316, R317, R319.) -/
def Obligations.CollectivesSailAddAndFinish : Prop :=
  ∀ (s : State) (e : EngineId) (p : Port) (sail b step : Nat) (c : Coll), s.coll e = some c →
    let len := 2 ^ c.log2
    let lo := sail * len
    let hi := lo + len - 1
    let pn := (portNum p).val
    let due := c.due pn sail
    let before := (((s.port p).sailed.filter (fun x => lo ≤ x.2.1)).filter (fun x => x.1 ≤ hi)).foldl (fun n x => n + x.2.2) 0
    let free (a n : Nat) : Prop := s.linesHeld (granulesOf a n) = false
    let value (k x : Nat) : List Byte := (s.readDmem e c.op (c.steps.length + (s.eng e).nextChk + k) (c.blkSpan x).1 (c.blkSpan x).2).2.1
    let sum (left : Bool) (r : RxBlk) (i : Nat) : Machine.Num :=
      let own := (blockNums (value 0 b)).getD i .zero
      let got := (blockNums r.data).getD i .zero
      (if left then adderAdd own got else adderAdd got own).1
    let shardBytes (k x : Nat) : List Byte := ((blockNums (value k x)).mapIdx (fun i v =>
      leBytes (collElem c.outFmt.toNat) (convert v c.outFmt c.outRnd c.outOvf (rand24 c.seed c.tag (64 * x + i))).code)).flatten
    let ends (c : Instr) (P : State → Prop) : Prop := ∃ u, exec c s = .next (u.exhaustSends e) ∧ P u
    (lo + 32 ≤ s.tt.now → s.tt.now < lo + 34 → OnTime s → due ≠ [] → (pn, sail) ∉ c.left → s.goesFirst e p lo = true → (s.port p).up = true →
      (∀ x ∈ due, c.ready x.1 x.2.1 x.2.2 = true ∧ free (c.blkSpan x.2.2).1 (c.blkSpan x.2.2).2) →
      (due.map (fun x => c.wire x.2.2)).sum ≤ (len - 64) * s.sailRate p lo hi - before →
      ends (.sailingDeparture e p sail) (fun u => SameBytes s u ∧ (u.eng e).missed = ((s.catchUp e).eng e).missed ∧
        ∃ c', (u.eng e).run = some c' ∧ (pn, sail) ∈ c'.left ∧ ∀ x ∈ due, (x.1, x.2.2) ∈ c'.sent)) ∧
    (∀ st, c.steps[step]? = some st → c.exhausted s.tt.now step st = true →
      Completes (.sailingExhausted e step) s (fun t => (t.eng e).lastCode = BitVec.ofNat 8 cEXHAUSTED ∧ SameBytes s t ∧
        ∀ o, s.opOf c.op = some o → o.status = none → (t.opOf c.op).map (·.status) = some (some .failed))) ∧
    (∀ r left, c.nextRx b = some r → c.pairing (c.blk b).cover r.cover = some left →
      free (c.work + 256 * b) 256 → free (c.blkSpan b).1 (c.blkSpan b).2 → s.collDroops e = false →
      s.windowReady (granulesOf (c.work + 256 * b) 256) = true →
      Completes (.collectiveAdd e b) s (fun t => (t.eng e).adds = (s.eng e).adds + 1 ∧
        (∀ a, a < c.work + 256 * b ∨ c.work + 256 * b + 256 ≤ a → t.readByte .dmem a = s.readByte .dmem a) ∧
        (∀ i, i < 64 → ∀ j, j < 4 → t.readByte .dmem (c.work + 256 * b + (4 * i + j)) =
          if s.lands (some c.op) (.collective e) (.dmem, c.work + 256 * b + (4 * i + j)) then
            BitVec.ofNat 8 ((convert (sum left r i) 0xA 0 2 0).code / 256 ^ j)
          else s.readByte .dmem (c.work + 256 * b + (4 * i + j))) ∧
        ∃ c', (t.eng e).run = some c' ∧ (c'.blk b).inWork = true ∧ r.step ∈ (c'.blk b).applied ∧
          (c'.blk b).cover = if left then (c.blk b).cover ++ r.cover else r.cover ++ (c.blk b).cover)) ∧
    (c.stepsDone = true → s.blocksWait c.collId = false → c.checks = [] → (∀ x ∈ c.shard, free (c.blkSpan x).1 (c.blkSpan x).2) →
      (c.output = none → c.shard.all c.covers = true →
        Completes (.collectiveOutput e) s (fun t => SameBytes s t ∧
          (t.eng e).run.map (·.output) = some (some (c.shard.mapIdx (fun k x => (x, shardBytes k x)))))) ∧
      (∀ l, c.output = some l → free c.dst (c.outSize * c.shard.length) →
        s.windowReady (granulesOf c.dst (c.outSize * c.shard.length)) = true →
        let wrote (t : State) : Prop := Wrote s t (l.flatMap (fun x =>
          ((addressed (c.dst + c.outSize * (x.1 - c.shardLo)) x.2).filter
            (fun y => s.lands (some c.op) (.collective e) (.dmem, y.1))).map (fun y => ((.dmem, y.1), y.2))))
        let status (t : State) : Option (Option OpStatus) := (t.opOf c.op).map (·.status)
        (c.poisoned = false → Completes (.collectiveOutput e) s (fun t => (t.eng e).run = none ∧ wrote t ∧
          ∀ o, s.opOf c.op = some o → o.status = none → status t = some (some .done))) ∧
        (c.poisoned = true → Completes (.collectiveOutput e) s (fun t => (t.eng e).lastCode = 11 ∧ wrote t ∧
          ∀ o, s.opOf c.op = some o → o.status = none → status t = some (some .failed)))))

/-- A transaction for this device reaches it at port p in the order of its class, and nothing that came early follows it at
once (R333, R338). -/
structure Comes (s : State) (p : Port) (kind : Byte) (x : Txn) : Prop where
  up   : (s.port p).up = true
  turn : x.num = (s.port p).rxNum.getD (kindClass kind) 0
  here : s.route x.dst = .here
  next : ∀ e ∈ (s.port p).early,
    (s.port p).rxNum.getD e.class 0 + (if e.class = kindClass kind then 1 else 0) < e.num

/-- A transaction but for the number and the link that it gets when it leaves. -/
def Sys2Proof.Txn.plain (x : Txn) : Txn := { x with num := 0, link := .a }

/-- How often a transaction of this device is queued on port q, or lies in a frame sent on it. -/
def Sys2Proof.Machine.State.carried (s : State) (q : Port) (kind : Byte) (y : Txn) : Nat :=
  let is (z : OutTxn) : Bool := z.kind = kind && z.x.plain = y.plain && z.until_ = none
  (s.port q).txq.countP is + (s.out.flatMap (fun o => match o with
    | .frame p _ _ ts => if p = q then ts else []
    | _ => [])).countP is

/-- From s to t the device has answered transaction x: a transaction of the given kind with x's tag and address, to x's
source, of which P holds, is queued, or sent, once more on the port that leads there. -/
def Answers (s t : State) (x : Txn) (kind : Byte) (P : Txn → Prop) : Prop :=
  ∀ q, s.route x.src = .out q → ∃ y : Txn, y.tag = x.tag ∧ y.addr = x.addr ∧ y.dst = x.src ∧ y.src = s.own ∧ P y ∧
    s.carried q kind y < t.carried q kind y

/-- A remote write that reaches this device in its turn, waits for nothing and is not refused places its bytes in
the place that it names, but those that another device's write of the same instant outran (log entry 24),
changes no other byte, and is answered by WRITE_ACK. A remote read so is answered by READ_DATA, with the bytes
of its granules when it comes without poison (log entry 27), and no byte changes. A refused access changes no
byte and is answered by REFUSED. An access that must wait, or comes behind one that waits, waits in the port's
order and changes no byte (log entry 44). One that comes before its turn in its class waits in the link's
buffer, and one that came before is discarded. (R222, R333, R335, R336, R402.) -/
def Obligations.RemoteAccessesAreAnswered : Prop :=
  ∀ (s : State) (p : Port) (x : Txn),
    let l := (remotePlace x).1
    let a := (remotePlace x).2
    (Comes s p 1 x → (s.port p).waiting = [] → s.remoteWaits 1 x = false →
      (s.remoteRefuses x x.data.length = false → s.windowReady (dmemLines (remoteGrans x x.data.length)) = true →
        Completes (.remoteWrite p x) s (fun t => Answers s t x 3 (fun _ => True) ∧
          (∀ b, t.readByte l b = if a ≤ b ∧ b < a + x.data.length ∧ s.lands none (.device x.src) (l, b) = true then x.data.getD (b - a) 0
            else s.readByte l b) ∧
          ∀ k b, k ≠ l → t.readByte k b = s.readByte k b)) ∧
      (s.remoteRefuses x x.data.length = true →
        Completes (.remoteWrite p x) s (fun t => Answers s t x 5 (fun _ => True) ∧ SameBytes s t))) ∧
    (Comes s p 2 x → (s.port p).waiting = [] → s.remoteWaits 2 x = false →
      (s.remoteRefuses x (64 * x.count.toNat) = false →
        Completes (.remoteRead p x) s (fun t => SameBytes s t ∧
          Answers s t x 4 (fun y => y.poison = false →
            y.data = bytesAt (s.store l).cells a (64 * x.count.toNat)))) ∧
      (s.remoteRefuses x (64 * x.count.toNat) = true →
        Completes (.remoteRead p x) s (fun t => Answers s t x 5 (fun _ => True) ∧ SameBytes s t))) ∧
    (∀ k d, (k = 1 ∧ d = Instr.remoteWrite p x ∨ k = 2 ∧ d = Instr.remoteRead p x) → Comes s p k x →
      ((s.port p).waiting ≠ [] ∨ s.remoteWaits k x = true) →
      Completes d s (fun t => SameBytes s t ∧ (t.port p).waiting = (s.port p).waiting ++ [(k, x)])) ∧
    (∀ k d, (k = 1 ∧ d = Instr.remoteWrite p x ∨ k = 2 ∧ d = Instr.remoteRead p x) → (s.port p).up = true →
      let turn := (s.port p).rxNum.getD (kindClass k) 0
      let again : Prop := ∃ e ∈ (s.port p).early, e.class = kindClass k ∧ e.num = x.num
      (x.num < turn ∨ again →
        Completes d s (fun t => SameBytes s t ∧ t.sch = s.sch ∧ t.cores = s.cores ∧ (t.port p).waiting = (s.port p).waiting ∧
          (t.port p).early = (s.port p).early ∧ (t.port p).rxNum = (s.port p).rxNum)) ∧
      (turn < x.num → ¬ again →
        Completes d s (fun t => t = (s.setPort p { s.port p with early := (s.port p).early ++ [.txn k x] }).keepFlits p x.link
          (kindClass k) (flits k x))))

/-- An answer with the tag of a transaction that a channel command waits for takes the transaction out; WRITE_ACK
takes its tag off the command's; READ_DATA places the data, and the command goes on with its last; REFUSED,
UNROUTABLE and a timeout raise ENGINE codes 8, 6 and 7, and the failed command leaves its channel once every
write that it sent is answered. An answer with an unknown tag, an UNROUTABLE among them, is counted as late (log
entry 45). (R214, R239, R334.) -/
def Obligations.AnswersReachTheWaitingCommand : Prop :=
  ∀ (s : State) (p : Port) (x : Txn) (r : RTxn) (k : FExec),
    let core (t : State) := t.core r.core
    let codeRaised (code : Nat) (t : State) : Prop := t.txnOf r.tag = none ∧ SameBytes s t ∧
      (core t).fer.chan r.ch.toNat = (let left := if k.phase = .reading then [] else k.tags.erase r.tag
        if left = [] then none else some { k with tags := left, phase := .failing code }) ∧
      (core t).seq.fault = some (keepFault (core s).seq.fault
        ⟨9, BitVec.ofNat 14 (0x2000 + r.ch.toNat * 1024 + code), k.cmd.pc, k.cmd.ord⟩)
    (∀ d, Comes s p 3 x → s.txnOf x.tag = none →
      (d = Instr.writeAck p x ∨ d = Instr.readData p x ∨ d = Instr.refusedAnswer p x ∨
        d = Instr.unroutable p x ∧ s.engineOf (txnColl x) = none ∧ s.sch.xsigs = []) →
      Completes d s (fun t => t.lnk.late = s.lnk.late + 1 ∧ SameBytes s t ∧ t.cores = s.cores)) ∧
    (s.txnOf r.tag = some r → (core s).fer.chan r.ch.toNat = some k → k.tags.contains r.tag = true → k.cmd.ch = r.ch →
      k.copyOf = none →
      (∀ code, k.phase = .failing code → x.tag = r.tag → Comes s p 3 x →
        Completes (.writeAck p x) s (fun t => t.txnOf r.tag = none ∧ SameBytes s t ∧ (core t).seq = (core s).seq ∧
          (core t).fer.chan r.ch.toNat =
            if k.tags.erase r.tag = [] then none else some { k with tags := k.tags.erase r.tag })) ∧
      ((∀ code, k.phase ≠ .failing code) → x.tag = r.tag →
        (Comes s p 3 x → Completes (.writeAck p x) s (fun t => t.txnOf r.tag = none ∧ SameBytes s t ∧
          (core t).fer.chan r.ch.toNat = some { k with tags := k.tags.erase r.tag })) ∧
        (Comes s p 4 x → Completes (.readData p x) s (fun t => t.txnOf r.tag = none ∧ SameBytes s t ∧
          ∃ y, (core t).fer.chan r.ch.toNat = some y ∧ y.tags = k.tags.erase r.tag ∧ y.rx = putBytes k.rx r.addr x.data ∧
            (k.phase = .reading → k.tags.erase r.tag = [] → y.phase = .ready))) ∧
        (Comes s p 5 x → Completes (.refusedAnswer p x) s (codeRaised 8)) ∧
        (Comes s p 6 x → r.addr = x.addr.toNat → Completes (.unroutable p x) s (codeRaised 6))) ∧
      ((∀ code, k.phase ≠ .failing code) → r.sent + s.lnk.txnUs * 1000 ≤ s.wall → Completes (.txnTimeout r.tag) s (codeRaised 7)))

/-- A ticket message that has not been applied and has not expired adds its value to its ticket, is remembered, and
is acknowledged; one already applied is acknowledged and changes no ticket; an expired one is counted and
changes no ticket; AUX of the acknowledgement says which, 0, 1 or 2 (log entry 42). An acknowledgement that does
not say expired takes its increment off those pending, one that does changes nothing (log entry 43). An applied
message is forgotten once 1 microsecond past its expiry, and no sooner. (R263, R337.) -/
def Obligations.TicketMessagesApplyOnce : Prop :=
  ∀ (s : State) (p : Port) (x : Txn),
    let k := x.addr.toNat % 65536
    let v := BitVec.ofNat 32 (x.addr.toNat / 2 ^ 32)
    (Comes s p 7 x → s.schedOn = true →
      ((∀ e ∈ s.sch.appliedMsgs, ¬ (e.1 = x.src ∧ e.2.1 = x.tag)) →
        (s.tt.now < x.aux.toNat → s.sch.appliedMsgs.length < 65536 →
          Completes (.ticketMessage p x) s (fun t => SameBytes s t ∧
            (∀ j, t.ticket j = if j = k then s.ticket j + v else s.ticket j) ∧
            t.sch.appliedMsgs = s.sch.appliedMsgs ++ [(x.src, x.tag, x.aux.toNat)] ∧ Answers s t x 8 (fun y => y.aux = 0))) ∧
        (x.aux.toNat ≤ s.tt.now →
          Completes (.ticketMessage p x) s (fun t => t.sch = s.sch ∧ t.lnk.tkExpired = s.lnk.tkExpired + 1 ∧
            SameBytes s t ∧ Answers s t x 8 (fun y => y.aux = 2)))) ∧
      ((∃ e ∈ s.sch.appliedMsgs, e.1 = x.src ∧ e.2.1 = x.tag) →
        Completes (.ticketMessage p x) s (fun t => t.sch = s.sch ∧ SameBytes s t ∧ Answers s t x 8 (fun y => y.aux = 1)))) ∧
    (∀ y, Comes s p 8 x → s.sch.xsigs.find? (fun z => z.m = x.tag && z.dst = x.src) = some y → s.opOf y.op = none →
      Completes (.ticketAck p x) s (fun t => SameBytes s t ∧
        t.sch = if x.aux = 2 then s.sch else { s.sch with xsigs := s.sch.xsigs.erase y })) ∧
    ∀ (src : Coord) (m : Word32), Completes (.ticketEntryExpiry src m) s (fun t => ∃ l,
      t = { s with sch := { s.sch with appliedMsgs := l } } ∧
      ∀ e, e ∈ l ↔ e ∈ s.sch.appliedMsgs ∧ ¬ (e.1 = src ∧ e.2.1 = m ∧ e.2.2 + 1000 < s.tt.now))

/-- A block from a peer of a RECV step not yet done joins the receive buffer of its collective, held back when the
buffer lacks room; a block or abort that names no running collective is counted as stray, on engine 1 when it
ran that collective last and else on engine 0. An announcement is taken by the collective that runs, or kept in
both engines for one that may come (log entry 59). An abort fails the collective with PEER_FAILED.
(09_timetable_and_reduction.md, R299, R308, R314, R320.) -/
def Obligations.CollectiveMessagesReachTheirCollective : Prop :=
  ∀ (s : State) (p : Port) (x : Txn), OnTime s →
    (∀ e c step, s.engineOf (txnColl x) = some e → s.coll e = some c →
      (Comes s p 9 x → c.stepFor x.src (txnBlock x) = some step →
        Completes (.collectiveBlock p x) s (fun t => SameBytes s t ∧ ∃ r, (t.eng e).run = some { c with rx := c.rx ++ [r] } ∧
          r.step = step ∧ r.block = txnBlock x ∧ r.data = x.data ∧ r.cover = x.cover ∧ r.poison = x.poison ∧
          (r.via.isSome = true ↔ rxLimit < rxBytes c.rx + x.data.length))) ∧
      (∀ k, Comes s p 10 x → c.members.findIdx? (· = x.src) = some k →
        Completes (.collectiveAnnouncement p x) s (fun t => SameBytes s t ∧
          ∃ c', (t.eng e).run = some c' ∧ k ∈ c'.announced ∧ { c' with announced := c.announced } = c)) ∧
      (Comes s p 11 x →
        Completes (.collectiveAbort p x) s (fun t => SameBytes s t ∧ (t.eng e).lastCode = BitVec.ofNat 8 cPEER_FAILED ∧
          ∀ o, s.opOf c.op = some o → o.status = none → (t.opOf c.op).map (·.status) = some (some .failed)))) ∧
    (s.engineOf (txnColl x) = none →
      let e : EngineId := if (s.eng 1).id = txnColl x && (s.eng 0).id ≠ txnColl x then 1 else 0
      (Comes s p 9 x → Completes (.collectiveBlock p x) s (fun t => SameBytes s t ∧ (t.eng e).stray = satInc (s.eng e).stray)) ∧
      (Comes s p 10 x → Completes (.collectiveAnnouncement p x) s (fun t => SameBytes s t ∧
        ∀ i : EngineId, (txnColl x, x.src) ∈ (t.eng i).ann)) ∧
      (Comes s p 11 x → Completes (.collectiveAbort p x) s (fun t => SameBytes s t ∧
        (t.eng e).stray = satInc (s.eng e).stray)))

/-- Link l of port p carries no credit and no frame any more: it has gone down for reason r at this time, and its
unacknowledged frames, in order behind those that wait already, wait at the port or have been sent again on its other link. -/
def WentDown (s t : State) (p : Port) (l : LinkId) (st : LinkState) (r : BitVec 4) : Prop :=
  (t.link p l).state = st ∧ (t.link p l).reason = r ∧ (t.link p l).downAt = s.wall ∧ SameBytes s t ∧
    ((s.link p l).inUse = true → (t.link p l).held = zero5 ∧ (t.link p l).replay = [] ∧
      ∃ sent new, (s.port p).resend ++ (s.link p l).unacked = sent ++ (t.port p).resend ∧ t.out = s.out ++ new ∧
        ∀ ts ∈ sent, ∃ d, Out.frame p (otherLink l) d
          (ts.map (fun y => { y with x := { y.x with link := otherLink l } })) ∈ new)

/-- On a link in use a good frame with the next number becomes the last accepted one; any other is asked for again.
A lane's failure, reported or found by the errors of frames received, takes its link down for LANE, and on its
third in an hour holds it for RETRY_LIMIT. One second after LANE or NO_SIGNAL, or on a partner's signal regained
after a failed check, a link trains; that signal is LINK_REFCLK back (log entry 155: the model's reading).
Training that has taken 100 ms, or lacks the reference, fails with NO_SIGNAL, or RETRY_LIMIT the third time;
training that passes its checks brings the link UP with the highest common version, and a failed check takes it
down with its reason. (The errors that fail a lane are log entry 137; the credits a link parks log entry 40.)
(10_links_and_torus.md, R326, R327, R332, R342, R343, R345, R346, R355.) -/
def Obligations.LinksFailAndTrain : Prop :=
  ∀ (s : State) (p : Port) (l : LinkId),
    let k := s.link p l
    let trains (t : State) : Prop := (t.link p l).state = .training ∧ (t.link p l).reason = 0 ∧
      (t.link p l).trainAt = s.wall ∧ SameBytes s t
    let noSignal (t : State) : Prop := (t.link p l).trainFails = k.trainFails + 1 ∧
      (2 ≤ k.trainFails → WentDown s t p l .held rRETRY_LIMIT) ∧ (k.trainFails < 2 → WentDown s t p l .down rNO_SIGNAL)
    let third : Prop := 2 ≤ (k.laneDowns.filter (fun t => s.wall < t + hourNs)).length
    let failed (lane : Lane16) (t : State) : Prop := (t.port p).failLane = lane ∧
      (third → WentDown s t p l .held rRETRY_LIMIT) ∧ (¬ third → WentDown s t p l .down rLANE)
    (∀ f : FrameIn, k.inUse = true →
      let u := (s.countFrame p l f).noteErrors p l f
      let good : Prop := frameFecOk f = true ∧ frameCrcOk f = true ∧ frameSeq f = k.rxSeq + 1
      ((u.link p l).badLane u.freeCtr = none →
        (good →
          Completes (.frameReceived p l f) s (fun t => (t.link p l).rxSeq = frameSeq f ∧ SameBytes s t ∧
            t.sch = s.sch ∧ t.cores = s.cores ∧ (t.link p l).nak = false)) ∧
        (¬ good →
          Completes (.frameReceived p l f) s (fun t => (t.link p l).rxSeq = k.rxSeq ∧ (t.link p l).nak = true ∧ SameBytes s t ∧
            t.sch = s.sch ∧ t.cores = s.cores))) ∧
      (∀ i, (u.link p l).badLane u.freeCtr = some i →
        Completes (.frameReceived p l f) s (failed (BitVec.ofNat 4 (i + 8 * linkBit l))))) ∧
    (∀ lane : Lane16, l = (if lane.toNat < 8 then .a else .b) → k.inUse = true →
      Completes (.laneFailure p lane) s (failed lane)) ∧
    (k.state = .down → (k.reason = rLANE ∨ k.reason = rNO_SIGNAL) → k.downAt + 1000000000 ≤ s.wall →
      Completes (.linkRetrainTimer p l) s trains) ∧
    (∀ m, m = { s with pins := { s.pins with linkRef := true } } →
      (k.state = .down → (k.reason = rRECORD_ID ∨ k.reason = rCABLING ∨ k.reason = rVERSION) →
        Completes (.linkSignalRegained p l) s trains) ∧
      (¬ (k.state = .down ∧ 5 ≤ k.reason.toNat ∧ k.reason.toNat ≤ 7) →
        Completes (.linkSignalRegained p l) s (fun t => t = m))) ∧
    (k.state = .training → (k.trainAt + 100000000 ≤ s.wall ∨ s.pins.linkRef = false) →
      Completes (.linkTrainingTimeout p l) s noSignal) ∧
    (∀ x : Partner, k.state = .training → s.pins.linkRef = true → k.trainAt + 100000000 < s.wall →
      Completes (.linkUp p l x) s noSignal) ∧
    (∀ x : Partner, k.state = .training → s.pins.linkRef = true → s.wall ≤ k.trainAt + 100000000 →
      (s.trainRefusal p l x = none → Completes (.linkUp p l x) s (fun t => (t.link p l).state = .up ∧
        (t.link p l).reason = 0 ∧ commonVersion 1 x.vers.toNat = some (t.link p l).version ∧ (t.link p l).trainFails = 0 ∧
        SameBytes s t)) ∧
      (∀ r, s.trainRefusal p l x = some r → Completes (.linkUp p l x) s (fun t => WentDown s t p l .down r)))

/-- A write of LNK_Pp_CTRL that sets RETRAIN of one link not held for its port or disabled makes it train with its
failures forgotten, a link that is UP too (log entry 55: the model's reading); one that sets DISABLE of a link
not held for its port holds it; one that clears it makes it train. Before the strap samples are valid no link
trains: RETRAIN does nothing, and a link enabled stays down with reason 0 (log entry 55). A write that acts on
both links acts on each so. A link UP in its slack water window, its other link UP, goes quiet, and returns when
the window closes; with the other link not UP the window is skipped and counted. A stack's retraining window
opens and closes. (What a scan in the window measures is log entry 54.) (10_links_and_torus.md, R332, R346,
R349, R355, R366.) -/
def Obligations.LinkControlAndSlackWater : Prop :=
  ∀ (s : State) (p : Port) (l : LinkId) (v : Word32) (n : StackId) (eyes : List Eye),
    let k := s.link p l
    let o := s.link p (otherLink l)
    let dis (t : State) (i : LinkId) : Bool := match i with | .a => (t.port p).disA | .b => (t.port p).disB
    let trains (t : State) : Prop := (t.link p l).state = .training ∧ (t.link p l).reason = 0 ∧ SameBytes s t
    (Reaches s (0x31000 + 0x100 * (portNum p).val) v.toNat 0xFFFFFFCC →
      v.getLsbD (linkBit (otherLink l)) = dis s (otherLink l) → v.getLsbD (4 + linkBit (otherLink l)) = false →
      k.portHeld = false →
      (v.getLsbD (linkBit l) = dis s l → v.getLsbD (4 + linkBit l) = true → k.reason ≠ rDISABLED →
        (s.lnk.strapsOk = true →
          Completes (.linkRetrain p v) s (fun t => trains t ∧ (t.link p l).laneDowns = [] ∧ (t.link p l).trainFails = 0)) ∧
        (s.lnk.strapsOk = false → Completes (.linkRetrain p v) s (fun t => t.link p l = k ∧ SameBytes s t))) ∧
      (v.getLsbD (linkBit l) = true → dis s l = false → v.getLsbD (4 + linkBit l) = false →
        Completes (.linkDisable p v) s (fun t => WentDown s t p l .held rDISABLED ∧ dis t l = true)) ∧
      (v.getLsbD (linkBit l) = false → dis s l = true → v.getLsbD (4 + linkBit l) = false →
        Completes (.linkEnable p v) s (fun t => dis t l = false ∧ (s.lnk.strapsOk = true → trains t) ∧
          (s.lnk.strapsOk = false → (t.link p l).state = .down ∧ (t.link p l).reason = 0 ∧ SameBytes s t)))) ∧
    (Reaches s (0x31000 + 0x100 * (portNum p).val) v.toNat 0xFFFFFFCC → s.lnk.strapsOk = true →
      k.portHeld = false → o.portHeld = false →
      (∀ b, v.getLsbD 0 = b → v.getLsbD 1 = b → dis s .a = !b → dis s .b = !b → v.getLsbD 4 = false → v.getLsbD 5 = false →
        Completes (if b then .linkDisable p v else .linkEnable p v) s (fun t => SameBytes s t ∧ ∀ i, dis t i = b ∧
          (b = true → (t.link p i).state = .held ∧ (t.link p i).reason = rDISABLED) ∧
          (b = false → (t.link p i).state = .training ∧ (t.link p i).reason = 0))) ∧
      (v.getLsbD 0 = false → v.getLsbD 1 = false → dis s .a = false → dis s .b = false → v.getLsbD 4 = true →
        v.getLsbD 5 = true → k.reason ≠ rDISABLED → o.reason ≠ rDISABLED →
        Completes (.linkRetrain p v) s (fun t => SameBytes s t ∧ ∀ i,
          (t.link p i).state = .training ∧ (t.link p i).reason = 0))) ∧
    (k.state = .up → s.inSlack p l = true →
      (o.state = .up → Completes (.slackWaterStart p l eyes) s (fun t => (t.link p l).state = .slack ∧
        (t.link p (otherLink l)).state = .up ∧ SameBytes s t ∧ t.sch = s.sch)) ∧
      (o.state ≠ .up → Completes (.slackWaterStart p l eyes) s (fun t =>
        t = s.setPort p { s.port p with slackSkip := satInc (s.port p).slackSkip }))) ∧
    (k.state = .slack → s.inSlack p l = false →
      Completes (.slackWaterEnd p l) s (fun t => (t.link p l).state = .up ∧ SameBytes s t ∧ t.sch = s.sch)) ∧
    (s.inRetrain n = true →
      Completes (.hbmRetrainStart n) s (fun t => t = s.setStack n { s.stack n with retrain := true })) ∧
    (s.inRetrain n = false →
      Completes (.hbmRetrainEnd n) s (fun t => t = s.setStack n { s.stack n with retrain := false }))

/-- A write that passes its checks changes its register and nothing else: INT_MODE, INT_PATROL (after the patrol
periods that have ended are accounted at the share in force: log entry 139), HRW_CORE and TT_SLACK's period by
REGISTER_WRITE, HRW_INTF_SELECT, HRW_HDMH_SIZE, PWR_CAP, CLK_CCLK_MAX and SEC_RESET by their rows; LOG_MARK
queues a MARK record; while the queue holds 4,096, the record waits (log entry 106). One with a reserved bit
set, before an interface version is selected, or of no register changes nothing but HRW_ERR, which keeps the
first error. A write of 32 bits to a doorbell of BAR2 rings it, one of another size changes nothing. A staged
installation record is read from usable DMEM, waits while a stack that holds it retrains, and when its fields
and digest are right is written to the copy not in use (log entry 56). (HRW_ERR keeping the first error: log
entry 81.) (11_device_memory_and_host.md Table 11-9, R354, R381, R386, R390, R444, R457, R485, R500.) -/
def Obligations.RegisterWritesReachTheirRegister : Prop :=
  ∀ (s : State) (v : Word64) (w : Word32) (d : ComputeDie),
    (∀ q : QueueId,
      exec (.registerWrite (.bar2 (8 * q.toNat)) 32 v) s = exec (.submitDoorbell q (v.setWidth 32)) s ∧
      exec (.registerWrite (.bar2 (8 * q.toNat + 4)) 32 v) s = exec (.completionDoorbell q (v.setWidth 32)) s) ∧
    (∀ off bits, off < 0x200 → bits ≠ 32 → Idles (.registerWrite (.bar2 off) bits v) s) ∧
    let mw := w.toNat % 8192
    let m := w.toNat % 4096
    let alone (c : Instr) (t : State) : Prop := Completes c s (fun u => u = t)
    let failed (c : Instr) (off reason : Nat) : Prop := alone c { s with hrw :=
      if s.hrw.errValid then { s.hrw with errMulti := true }
      else { s.hrw with errValid := true, errOff := BitVec.ofNat 32 off, errReason := BitVec.ofNat 8 reason } }
    let low := v.toNat % 2 ^ 32
    (Reaches s 0x80000 low 0xFFFFFFFE → alone (.registerWrite (.bar0 0x80000) 32 v) { s with int := { s.int with j3 := v.getLsbD 0 } }) ∧
    (Reaches s 0x80008 low 0xFFFE0000 →
      (low % 65536 ≤ 10000 → alone (.registerWrite (.bar0 0x80008) 32 v)
        { s.rollPatrol with int := { s.rollPatrol.int with margin := v.getLsbD 16, ppm := v.setWidth 16 } }) ∧
      (10000 < low % 65536 → failed (.registerWrite (.bar0 0x80008) 32 v) 0x80008 2)) ∧
    (Reaches s 0x300 low 0xFFFFF000 → alone (.registerWrite (.bar0 0x300) 32 v) { s with hrw := { s.hrw with coreSel := v.setWidth 12 } }) ∧
    (Reaches s 0x20020 low 0xFF000000 → alone (.registerWrite (.bar0 0x20020) 32 v)
      { s with tt := { s.tt with shadow := { s.tt.shadow with period := low } } }) ∧
    (s.hrwOn = true →
      (s.hrw.locked = false → failed (.registerWrite (.bar0 0x300) 32 v) 0x300 5) ∧
      (s.hrw.locked = true → s.sec.state ≠ .recovery → low &&& 0xFFFFF000 ≠ 0 → failed (.registerWrite (.bar0 0x300) 32 v) 0x300 1) ∧
      (∀ off, off % 4 = 0 → inCoreWindow off = false → inLogWindow off = false → regInfo off = none →
        failed (.registerWrite (.bar0 off) 32 v) off 3) ∧
      (s.hrw.locked = false → s.sec.state ≠ .recovery → w.toNat % 256 = 1 → w.toNat &&& 0xFFFFFE00 = 0 →
        alone (.hrwIntfSelect w) { s with hrw := { s.hrw with version := 1, locked := true } })) ∧
    (Reaches s 0x320 w.toNat 0xFFFFF000 → m ≤ 2299 → (s.hrw.dec1.committed = true → s.hrw.dec1.size ≤ m * 0x10000000) →
      alone (.hrwHdmhSizeWrite w) { s with hrw := { s.hrw with hdmh := m } }) ∧
    (Reaches s 0x60004 w.toNat 0xFFFEE000 → mw ≤ 4600 →
      alone (.pwrCapWrite w) { s with pwr := { s.pwr with
        cap := if 1 ≤ mw ∧ mw < 400 then 400 else mw, clamped := decide (1 ≤ mw ∧ mw < 400)
        capMiss := s.pwr.capMiss && decide (mw ≠ 0) } }) ∧
    (Reaches s (0x70040 + 4 * d.val) w.toNat 0xFFFFF000 → m % 25 = 0 → 600 ≤ m → m ≤ 2700 →
      alone (.clkCclkMaxWrite d w) (s.setDie d { s.die d with maxMhz := m })) ∧
    (Reaches s 0x90060 w.toNat 0xFFFF0000 →
      (w = 0xB007 → alone (.secReset w) { s with sec := { s.sec with resetReq := some s.wall } }) ∧
      (w ≠ 0xB007 → failed (.secReset w) 0x90060 2)) ∧
    (Reaches s 0x100030 w.toNat 0 → s.log.accepting = true →
      let r : LogRec := ⟨0x0060, 0xFF, 1, 0, leBytes 4 w.toNat⟩
      (s.log.queue.length < 4096 → Completes (.logMark w) s (fun t => t = { s with log := t.log } ∧
        t.log.seqNext = s.log.seqNext + 1 ∧ t.log.waiting = s.log.waiting ∧
        t.log.queue = s.log.queue ++ [(s.log.seqNext, r, recordBytes s s.log.seqNext r)])) ∧
      (4096 ≤ s.log.queue.length → alone (.logMark w) { s with log := { s.log with waiting := s.log.waiting ++ [r] } })) ∧
    (Reaches s 0x30020 w.toNat 0xFFFFFFFE → w.getLsbD 0 = true →
      let a := s.lnk.irecAddr.toNat
      let l := bytesAt s.dmem.cells a recordMax
      (a % 64 ≠ 0 ∨ a < 0x40000000 ∨ 0x9000000000 ≤ a → alone (.irecWrite w) { s with lnk := { s.lnk with cmdRes := 5 } }) ∧
      (a % 64 = 0 → 0x40000000 ≤ a → a < 0x9000000000 → s.linesHeld (granulesOf a recordMax) = true →
        alone (.irecWrite w) { s with lnk := { s.lnk with cmdRes := 1, irecHeld := some a } }) ∧
      (a % 64 = 0 → 0x40000000 ≤ a → a < 0x9000000000 → s.linesHeld (granulesOf a recordMax) = false →
        recordFields l = false → Completes (.irecWrite w) s (fun t => SameBytes s t ∧
          t.lnk = { s.lnk with cmdRes := 3 } ∧ t.sec.flash = s.sec.flash)) ∧
      (a % 64 = 0 → 0x40000000 ≤ a → a < 0x9000000000 → s.linesHeld (granulesOf a recordMax) = false →
        recordFields l = true → ∀ r, s.lnk.irec = some r →
        let body := l.take 0x14 ++ leBytes 4 (r.gen + 1) ++ (l.drop 0x18).take (recordLen l - 0x18)
        Completes (.irecWrite w) s (fun t => SameBytes s t ∧
          t.lnk = { s.lnk with cmdRes := if recordDigestOk l then 2 else 4 } ∧
          t.sec.flash = if recordDigestOk l then flashPut s.sec.flash (recordAt (!s.lnk.irecCopy)) (body ++ shake body)
            else s.sec.flash)))

/-- A commit of a group whose shadow values pass, with no earlier commit pending, reports result 1 and keeps a
snapshot of the values; a pending group, a value out of range and a number that is no group are reported and
change nothing else. At its safe point a group's committed values come into force: the slack water settings, the
job block with its routing tables, a port's credit limits, a queue's configuration, and the HOST aperture. (The
slack water settings' safe point, also while tide time does not run, is log entry 53.)
(11_device_memory_and_host.md, R254, R322, R330, R341, R380, R394, R395.) -/
def Obligations.GangwayGroupsCommitAndApply : Prop :=
  ∀ (s : State) (w : Word32) (p : Port) (q : QueueId),
    let g := w.toNat % 256
    let told (res why fofs : Nat) (t : State) : Prop := t = { s with hrw := { s.hrw with
      gGroup := BitVec.ofNat 8 g, gResult := BitVec.ofNat 2 res, gReason := BitVec.ofNat 4 why, gFofs := BitVec.ofNat 16 fofs } }
    let reported (k : Nat) (t : State) : Prop := s.hrw.gGroup.toNat = k → s.hrw.gResult = 1 → t.hrw.gResult = 2
    (Reaches s 0x20 w.toNat 0xFFFFFF00 →
      (isGroup g = false → Completes (.hrwGangwayCommit w) s (told 3 3 0)) ∧
      (isGroup g = true → s.groupPending g = true → Completes (.hrwGangwayCommit w) s (told 3 2 0)) ∧
      (∀ off, isGroup g = true → s.groupPending g = false → s.groupBad g = some off →
        Completes (.hrwGangwayCommit w) s (told 3 1 off)) ∧
      (isGroup g = true → s.groupPending g = false → s.groupBad g = none →
        Completes (.hrwGangwayCommit w) s (fun t => t.groupPending g = true ∧ t.hrw.gGroup.toNat = g ∧ t.hrw.gResult = 1 ∧
          SameBytes s t ∧ t.cores = s.cores ∧ t.out = s.out))) ∧
    (∀ x, s.tt.pend = some x → s.periodTurned = true →
      Completes (.gangwayApply 0x10) s (fun t => t.tt.slack = x ∧ t.tt.pend = none ∧ t.lnk = s.lnk ∧ reported 0x10 t)) ∧
    (∀ b, s.lnk.pend = some b → s.lnk.txns = [] → (∀ e : EngineId, (s.eng e).run = none) →
      Completes (.gangwayApply 0x21) s (fun t => t.lnk.origin = b.1 ∧ (t.lnk.extX, t.lnk.extY, t.lnk.extZ) = b.2 ∧
        t.lnk.pend = none ∧ t.lnk.ports = s.lnk.ports ∧ reported 0x21 t)) ∧
    (∀ l, (s.port p).pend = some l →
      Completes (.gangwayApply (0x30 + BitVec.ofNat 8 (portNum p).val)) s (fun t => (t.port p).limits = l ∧
        (t.port p).pend = none ∧ SameBytes s t ∧ reported (0x30 + (portNum p).val) t)) ∧
    (∀ c, (s.queue q.toNat).pend = some c → (s.queue q.toNat).enabled = false →
      (s.queue q.toNat).accepted ≤ (s.queue q.toNat).written →
      Completes (.gangwayApply (0x40 + q.setWidth 8)) s (fun t => t.queue q.toNat =
        { s.queue q.toNat with cfg := c, pend := none } ∧ t.cores = s.cores ∧ reported (0x40 + q.toNat) t)) ∧
    (∀ b, s.hrw.apPend = some b → (∀ x ∈ s.cores, x.2.fer.namesHost = false) →
      (∀ x ∈ s.cores, ∀ i, x.2.seq.cond ≠ .apertureHeld i) → (∀ x ∈ s.cores, s.core x.1 = x.2) →
      Completes (.gangwayApply 0x80) s (fun t => (t.hrw.apBase, t.hrw.apSize) = b ∧ t.hrw.apPend = none ∧
        t.cores = s.cores ∧ reported 0x80 t))

/-- A line that a committed decoder serves, or that BAR4 reaches in PCIe mode, is read with its poison, or written,
and no other byte changes. A decoder commit within its limits takes effect, any other sets its error. A whole
line is written with the mark that the host's data carries. An access whose stack accepts none, or that comes
behind one that waits, waits. An answered snoop does what it was sent for: a record is written to its line, an
invalidated line is noted. A completion brings a ferry command its granule, ends one that awaited the flush, and
ends a host fence, whatever it is (log entry 71: the model's choice), whose record is then written in PCIe mode
and waits for its line in CXL mode; an error or a timeout raises ENGINE code 8, and the command leaves its
channel once every write that it sent is answered. All but a timeout comes over a host link that PERST# does not
hold in reset; an answer's DevLoad is a free value. (11_device_memory_and_host.md, R213, R361, R362, R366, R372,
R373, R375, R379.) -/
def Obligations.HostReachesMemory : Prop :=
  ∀ (s : State) (a : Nat) (g : Gcn) (ch : Channel) (x : FExec) (q : QueueId),
    let line := dpaAddr a / 64
    let read (t : State) (at_ n : Nat) (lines : List Nat) : Prop := SameBytes s t ∧ t.reply.bytes = bytesAt s.dmem.cells at_ n ∧
      (t.reply.poison = true ↔ ∃ m ∈ lines, t.poisoned .dmem m = true)
    let wrote (t : State) (at_ : Nat) (b : List Byte) : Prop :=
      (∀ i, t.readByte .dmem i = if at_ ≤ i ∧ i < at_ + b.length then b.getD (i - at_) 0 else s.readByte .dmem i) ∧
      ∀ k i, k ≠ .dmem → t.readByte k i = s.readByte k i
    let c (t : State) := t.core g.toNat
    let left := if x.phase = .reading then [] else x.tags
    let failed (t : State) : Prop := SameBytes s t ∧
      (c t).fer.chan ch.toNat = (if left = [] then none else some { x with tags := left, phase := .failing 8 }) ∧
      (c t).seq.fault = some (keepFault (c s).seq.fault ⟨9, BitVec.ofNat 14 (0x2000 + ch.toNat * 1024 + 8), x.cmd.pc, x.cmd.ord⟩)
    let waits (y : HostAccess) (t : State) : Prop := t = { s with hrw := { s.hrw with waiting := s.hrw.waiting ++ [y] } }
    (s.hostUp = true → s.hdmServes a = true →
      (s.hrw.waiting = [] → s.linesHeld [line] = false →
        Completes (.hostMemRead a) s (fun t => read t (line * 64) 64 [line]) ∧
        ∀ (b : List Byte) (psn : Bool), b.length = 64 → Completes (.hostMemWrite a ⟨b, psn⟩) s (fun t =>
          wrote t (line * 64) b ∧ t.poisoned .dmem line = psn)) ∧
      (s.hrw.waiting ≠ [] ∨ s.linesHeld [line] = true →
        Completes (.hostMemRead a) s (waits (.read a)) ∧
        ∀ b psn, Completes (.hostMemWrite a ⟨b, psn⟩) s (waits (.write a b psn)))) ∧
    (s.hostUp = true → s.hrw.mode = 2 → s.hrw.waiting = [] → ∀ (b : List Byte) (psn : Bool) (n : Nat), a + n ≤ 0x10000000 → a + b.length ≤ 0x10000000 →
      (s.linesHeld (granulesOf (0x40000000 + a) n) = false →
        Completes (.bar4Access a none n) s (fun t => read t (0x40000000 + a) n (granulesOf (0x40000000 + a) n))) ∧
      (s.linesHeld (granulesOf (0x40000000 + a) b.length) = false →
        Completes (.bar4Access a (some ⟨b, psn⟩) n) s (fun t => wrote t (0x40000000 + a) b))) ∧
    (∀ n dpa size ways base,
      let dec (t : State) := if n then t.hrw.dec1 else t.hrw.dec0
      s.hostUp = true → Completes (.hdmDecoderCommit n dpa size ways base) s (fun t => SameBytes s t ∧ t.cores = s.cores ∧
        (if n then t.hrw.dec0 = s.hrw.dec0 else t.hrw.dec1 = s.hrw.dec1) ∧
        (s.decoderOk n dpa size ways = true → dec t = ⟨true, false, size, base⟩) ∧
        (s.decoderOk n dpa size ways = false → (dec t).committed = false ∧ (dec t).err = true))) ∧
    (s.hostUp = true → s.hrw.waiting = [] → s.linesHeld [a] = false →
      (s.hrw.snoops.find? (fun y => y.1 = a) = some (a, .inv) →
        Completes (.bisnpResponse a) s (fun t => a ∈ t.hrw.inval ∧ t.hrw.snoops = s.hrw.snoops.erase (a, .inv) ∧ SameBytes s t)) ∧
      ∀ op seq irq b, s.hrw.snoops.find? (fun y => y.1 = a) = some (a, .record op q.toNat seq irq b) → b.length = 64 →
        s.sec.state ≠ .fatal →
        CompletesChecked (.bisnpResponse a) s (fun t => wrote t (a * 64) (b.take 0x18 ++ leBytes 8 s.tt.now ++ b.drop 0x20) ∧
          (t.queue q.toNat).written = (s.queue q.toNat).written + 1)) ∧
    ((c s).fer.chan ch.toNat = some x → x.cmd.ch = ch → x.copyOf = none →
      (∀ n rest b psn, s.hostUp = true → x.phase = .reading → x.pend = n :: rest →
        Completes (.hostCompletion (.ferry g ch) (.data b psn)) s (fun t => SameBytes s t ∧
          (c t).fer.chan ch.toNat = some { x with
            pend := rest, rx := putBytes x.rx (n * 64) (b.take 64)
            rxPoison := if psn then setAdd n x.rxPoison else x.rxPoison
            phase := if rest = [] then .ready else .reading })) ∧
      (s.hostUp = true → x.phase = .flushing → x.psn = false → (c s).fer.done = [] → x.cmd.n = (c s).seq.fec + 1 →
        Completes (.hostCompletion (.ferry g ch) .flushed) s (fun t => (c t).fer.chan ch.toNat = none ∧
          (c t).seq = { (c s).seq with fec := x.cmd.n } ∧ SameBytes s t)) ∧
      (x.phase = .flushing ∨ (x.phase = .reading ∧ x.pend ≠ []) →
        (s.hostUp = true → Completes (.hostCompletion (.ferry g ch) .error) s failed) ∧ Completes (.hostCompletionTimeout g ch) s failed)) ∧
    ∀ o cpl, s.hostUp = true → s.sch.ops.find? (fun y => y.q = q.toNat && y.kind = .hostFence && !y.waiting.isEmpty) = some o →
      s.opOf o.id = some o → o.status = none → o.settled = false → o.unread = false → o.blk = [] → o.deferred = [] → s.sec.state ≠ .fatal →
      (∀ y ∈ s.sch.xsigs, y.op ≠ o.id) → (s.queue q.toNat).cfg.cplHost = false →
      let slot := 0x40000000 + (s.queue q.toNat).cplSlot o.seq
      s.linesHeld [slot / 64] = false → (∀ y ∈ s.sch.ops, y.id = o.id → y = o) →
      (s.hrw.mode = 1 → Completes (.hostCompletion (.fence q) cpl) s (fun t => t.opOf o.id = none ∧ SameBytes s t ∧
        ∃ irq b, t.hrw.snoops = s.hrw.snoops ++ [(slot / 64, .record o.id q.toNat o.seq irq b)])) ∧
      (s.hrw.mode ≠ 1 → o.bytes.length = 64 → CompletesChecked (.hostCompletion (.fence q) cpl) s (fun t => t.opOf o.id = none ∧
        (t.queue q.toNat).written = (s.queue q.toNat).written + 1 ∧
        fieldAt (bytesAt t.dmem.cells slot 64) 5 1 % 128 = 1 ∧ fieldAt (bytesAt t.dmem.cells slot 64) 6 1 = 0 ∧
        ∀ a, a / 64 ≠ slot / 64 → t.readByte .dmem a = s.readByte .dmem a))

/-- A naturally aligned read of 32 or 64 bits of the selected core's registers answers the register's value, of 64
bits only of a register that wide, and of a half the half; of a fenced core it answers 0 and leaves the error
FENCED. A read of another size, a misaligned one and one that finds no register answer 0 and change nothing.
While the harbour master runs, a DOE request answers and is noted: CDAT with the figures of its entry, GET_CERT
with the chain, GET_REPORT with the nonce in its place, signed; both answer that there is no identity when there
is none, or the seed could not be read under the scan lock; an abort discards the request. In CXL mode the
mailbox answers the capacity, the health of the memory (its temperature, its corrected errors, whether pages are
bad), the number of event records, the poisoned lines and the one log (log entry 161), and clears event records.
Nothing else of the state changes. (What the mailbox and DOE answer that CXL 3.1 and the firmware lay down is
free: log entries 73, 76 and 77; an abort, log entry 74; HRW_ERR, log entry 81; whose certificates make the
chain, log entry 75; the address a read names, log entry 80.) (11_device_memory_and_host.md, R369, R370, R384,
R388, R467, R474, R475.) -/
def Obligations.HostRequestsAreAnswered : Prop :=
  ∀ (s : State) (off n len : Nat) (nonce : List Byte) (mask : Byte),
    let g := s.hrw.coreSel.toNat
    let answers (c : Instr) (P : Reply → Prop) : Prop := ∃ r, exec c s = .next { s with reply := r } ∧ P r
    let doe (c : Instr) (P : Reply → Doe → Prop) : Prop :=
      ∃ r d, exec c s = .next { s with reply := r, hrw := { s.hrw with doe := some d } } ∧ P r d
    let base := if csrWide (off / 8 * 8) then off / 8 * 8 else off
    let read (z : ReadSize) := Instr.coreWindowRead (.bar0 (0xC0000 + off)) z
    let zero (z : ReadSize) : Prop := answers (read z) (fun r => r.value = 0)
    let fenced (z : ReadSize) : Prop := Completes (read z) s (fun t => t = { s with
      reply := ⟨0, [], false, 0⟩
      hrw := { s.hrw with errValid := true, errOff := BitVec.ofNat 32 (0xC0000 + off), errReason := 9 } })
    (s.hrwOn = true → s.hrw.locked = true → s.sec.state ≠ .recovery →
      off < 0x4000 →
      (zero .b8 ∧ zero .b16 ∧ (off % 4 ≠ 0 → zero .b32) ∧ (off % 8 ≠ 0 → zero .b64) ∧
        (s.coreReg g base = none → zero .b32 ∧ zero .b64)) ∧
      (∀ v, s.coreReg g base = some v → g ∉ s.int.fenced →
        (off % 4 = 0 → answers (read .b32) (fun r => r.value = BitVec.ofNat 64
          (if base = off then v % 2 ^ 32 else v / 2 ^ 32))) ∧
        (off % 8 = 0 → answers (read .b64) (fun r => r.value = if csrWide off then BitVec.ofNat 64 v else 0))) ∧
      (∀ v, s.coreReg g base = some v → g ∈ s.int.fenced → s.hrw.errValid = false →
        (off % 4 = 0 → fenced .b32) ∧ (off % 8 = 0 → fenced .b64))) ∧
    (s.hostUp = true → s.sec.state = .running ∨ s.sec.state = .recovery →
      doe .doeDiscovery (fun r d => r.bytes = (List.range Config.doeLen).map Config.doeByte ∧ d = .discovery) ∧
      doe (.cdatRead n) (fun r d => r.bytes.drop 8 = cdatFigures n ∧ d = .cdat n) ∧
      doe .getCert (fun r d => r.bytes = (if s.hasIdentity then s.certChain else [Config.statusNoIdentity]) ∧ d = .cert) ∧
      (s.hasIdentity = false → doe (.getReport nonce mask) (fun r d => d = .report nonce mask ∧ r.bytes = [Config.statusNoIdentity])) ∧
      (s.hasIdentity = true → nonce.length = 32 → Completes (.getReport nonce mask) s (fun t =>
        t = { s with
          reply := t.reply, freeCtr := s.freeCtr + 1, hrw := { s.hrw with doe := some (.report nonce mask) }
          sec := { s.sec with secrets := { s.sec.secrets with keccak := s.sec.secrets.seed } } } ∧
        t.reply.bytes.head? = some Config.statusOk ∧ (t.reply.bytes.drop 9).take 32 = nonce ∧
        t.reply.bytes.drop 1105 = slhSign s.sec.secrets.seed ((List.range 32).map (Config.sigRandom s.freeCtr))
          ((t.reply.bytes.drop 1).take 1104)))) ∧
    (s.hrw.doe.isSome = true → Completes .doeAbort s (fun t =>
      t = { s with hrw := { s.hrw with doe := none }, reply := Reply.reset })) ∧
    (s.hrw.mode = 1 →
      answers .identifyMemoryDevice (fun r => r.value = BitVec.ofNat 64 (0x9000000000 - 4096 * s.hbm.pages.length)) ∧
      answers .getHealthInfo (fun r => r.bytes.length = 18 ∧ fieldAt r.bytes 4 2 = s.memTemp % 65536 ∧
        fieldAt r.bytes 10 4 = min 0xFFFFFFFF (s.hbm.stk.toList.map (·.ce.toNat)).sum ∧
        (fieldAt r.bytes 0 1).testBit 3 = !s.hbm.pages.isEmpty) ∧
      answers .getEventRecords (fun r => r.value = BitVec.ofNat 64 s.hrw.events.length) ∧
      answers (.getPoisonList n len) (fun r => r.value = BitVec.ofNat 64
        (s.dmem.poison.filter (fun k => 0x40000000 + n ≤ k * 64 && k * 64 < 0x40000000 + n + len)).length) ∧
      answers .getSupportedLogs (fun r => r.bytes = supportedLogs) ∧
      answers (.getLog off len) (fun r => r.bytes = if off + len ≤ 28 then (effectsLog.drop off).take len else []) ∧
      Completes (.clearEventRecords n) s (fun t => t = { s with hrw := { s.hrw with events := s.hrw.events.drop n } }))

/-- A host link reset selects the mode, rate and width that it trained and unselects the interface version; the
decoders stay as they are (log entry 78: the model's reading); without its reference, or with PERST# low, the
link does not train. A function-level reset disables every queue and unselects the version; both leave MSI-X
off, its table masked and nothing pending (log entry 138: the rules of PCIe); SCH_CANCEL's last result stays
(log entry 70: the model's reading). Unmasking a vector sends a pending message, once, while MSI-X is enabled
and the function not masked (log entry 138). A scrub read finds a line's errors: an uncorrectable one poisons
the line, a correctable one is corrected, and no byte changes; a scratchpad scrub does the same. Refreshes are
counted. (What a read makes of latent errors: log entries 79 and 82.) (11_device_memory_and_host.md, R231, R361,
R363, R364, R371, R383, R392.) -/
def Obligations.HostResetsAndMemoryUpkeep : Prop :=
  ∀ (s : State) (cxl : Bool) (rate : LinkRate) (width : LinkWidth) (v : VectorId) (n : StackId) (k bank : Nat) (u : SramRef),
    let line := lineOfStack n (k % stackLines)
    let place : Loc × Nat := match u with | .lsp g => (.lsp g.toNat, k % 2 ^ 20) | .quay d => (.quay d, k % 2 ^ 23)
    (s.pins.perstLow = true ∨ s.pins.cxlRef = false → Idles (.hostLinkReset cxl rate width) s) ∧
    (s.pins.perstLow = false → s.pins.cxlRef = true → s.pins.inReset = false → s.pwr.stage = .operating → s.hrw.snoops = [] →
      Completes (.hostLinkReset cxl rate width) s (fun t => t = { s with hrw := { s.hrw with
        version := 0, locked := false, mode := if cxl then 1 else 2, rate := rateCode rate, width := widthCode width
        msix := [], msixPend := [], cfg := { s.hrw.cfg with bars := Vector.replicate 3 0, msixOn := false, msixMask := false }
        snoops := [], inval := [], waiting := [] } })) ∧
    (s.hostUp = true → Completes .functionLevelReset s (fun t => (∀ q, q < 64 → (t.queue q).enabled = false) ∧ t.hrw.locked = false ∧
      t.hrw.version = 0 ∧ t.hrw.msix = [] ∧ t.hrw.msixPend = [] ∧ t.sch.canCount = s.sch.canCount ∧ t.sch.canResult = s.sch.canResult)) ∧
    (s.hostUp = true → Completes (.msixUnmask v) s (fun t => (t.hrw.msixEntry v.toNat).masked = false ∧ SameBytes s t ∧
      let sends := s.hrw.cfg.msixOn = true ∧ s.hrw.cfg.msixMask = false ∧ v.toNat ∈ s.hrw.msixPend
      (∀ n, n ∈ t.hrw.msixPend ↔ n ∈ s.hrw.msixPend ∧ ¬ (sends ∧ n = v.toNat)) ∧
      t.out = s.out ++ if sends then [.msix v.toNat (s.hrw.msixEntry v.toNat).addr (s.hrw.msixEntry v.toNat).data] else [])) ∧
    (s.linesHeld [line] = false →
      Completes (.hbmPatrolScrub n k) s (fun t => SameBytes s t ∧ t.dmem.errors line = [] ∧
        (2 ≤ (s.dmem.errors line).length → t.poisoned .dmem line = true) ∧
        ((s.dmem.errors line).length < 2 → t.dmem.poison = s.dmem.poison))) ∧
    Completes (.hbmRefresh n bank) s (fun t =>
      t = s.setStack n { s.stack n with refreshes := (s.stack n).refreshes + 1 }) ∧
    Completes (.hbmRefreshRequest n) s (fun t => t = s.setStack n { s.stack n with
      refreshes := (s.stack n).refreshes + 1, honoured := (s.stack n).honoured + 1 }) ∧
    Completes (.scratchpadScrub u k) s (fun t => SameBytes s t ∧
      let found := (s.store place.1).errors place.2
      (2 ≤ found.length → t.poisoned place.1 (place.2 / 8) = true) ∧
      (found.length < 2 → (t.store place.1).errors place.2 = [] ∧ (t.store place.1).poison = (s.store place.1).poison))

/-- A record offered while the logbook accepts takes the next SEQ; an INFO record is dropped and counted while the
queue is more than three-quarters full, and a higher one waits while it is full (log entry 106). The oldest
queued record is written to its ring slot with its CRC, and the first that waits takes the room; the first ERROR
or FATAL of its kind is copied to the next first-fault slot, the last of them sets SEALFULL, and ALERT rises. A
checkpoint, within the first 2 ns of a second of tide time (log entry 108), writes each changed count to its
place, keeps the ledgers as last checked and leaves CKPT even (by way of the journal: log entry 109). What was
dropped is told in one SUPPRESSED record (its payload's form: log entry 107). A second of powered-on time counts
each die's temperature bin. (15_logbook_and_health.md Table 15-4, R489, R490, R492, R494, R496, R498.) -/
def Obligations.LogbookKeepsRecords : Prop :=
  ∀ (s : State) (r : LogRec), s.log.accepting = true →
    let l := s.log
    let only (t : State) : Prop := t = { s with log := t.log }
    (3072 < l.queue.length → r.sev = 0 → Completes (.logRecord r) s (fun t => only t ∧ t.log.queue = l.queue ∧
      t.log.seqNext = l.seqNext ∧ t.log.dropped = satInc l.dropped)) ∧
    ((r.sev ≠ 0 ∧ l.queue.length < 4096) ∨ (r.sev = 0 ∧ l.queue.length ≤ 3072) →
      Completes (.logRecord r) s (fun t => only t ∧ t.log.seqNext = l.seqNext + 1 ∧
        t.log.queue = l.queue ++ [(l.seqNext, r, recordBytes s l.seqNext r)])) ∧
    (r.sev ≠ 0 → 4096 ≤ l.queue.length →
      Completes (.logRecord r) s (fun t => t = { s with log := { l with waiting := l.waiting ++ [r] } })) ∧
    (∀ seq b rest, l.queue = (seq, r, b) :: rest → b.length = 60 →
      let bytes := b ++ leBytes 4 (crc32 b).toNat
      Completes .logRecordWrite s (fun t => only t ∧
        (l.waiting = [] → t.log.queue = rest ∧ t.log.seqNext = l.seqNext ∧ t.log.waiting = []) ∧
        (∀ w ws, l.waiting = w :: ws → rest.length < 4096 → t.log.waiting = ws ∧ t.log.seqNext = l.seqNext + 1 ∧
          t.log.queue = rest ++ [(l.seqNext, w, recordBytes s l.seqNext w)]) ∧
        bytesAt t.log.mram (0x400000 + 64 * (seq % 458752)) 64 = bytes ∧
        (r.sev.toNat < 2 → t.log.alert = l.alert ∧ t.log.firsts = l.firsts) ∧
        (2 ≤ r.sev.toNat → t.log.alert = true ∧
          ((r.type, r.die, r.unit) ∈ l.firsts → t.log.firsts = l.firsts) ∧
          ((r.type, r.die, r.unit) ∉ l.firsts → l.firsts.length < 15360 →
            t.log.firsts = l.firsts ++ [(r.type, r.die, r.unit)] ∧ t.log.sealFull = decide (l.firsts.length = 15359) ∧
            bytesAt t.log.mram (0x110000 + 64 * l.firsts.length) 64 = bytes) ∧
          ((r.type, r.die, r.unit) ∉ l.firsts → 15360 ≤ l.firsts.length → t.log.sealFull = l.sealFull ∧ t.log.firsts = l.firsts)))) ∧
    (l.drops ≠ [] → l.queue.length < 4096 → Completes .suppressed s (fun t => only t ∧ t.log.drops = [] ∧ t.log.seqNext = l.seqNext + 1 ∧
      ∃ b, t.log.queue = l.queue ++ [(l.seqNext, ⟨0x0061, 0xFF, 1, 0,
        l.drops.flatMap (fun x => leBytes 2 x.1.toNat ++ leBytes 4 x.2)⟩, b)])) ∧
    (let apart (x y : Nat × Nat × Nat) : Prop := x.1 + x.2.1 ≤ y.1 ∨ y.1 + y.2.1 ≤ x.1
     let counts := s.canaryHealth.pageHealth.log.health
     let kept (t : State) : Prop := only t ∧ t.log.health = [] ∧ t.log.queue = l.queue ∧ t.log.ledgers = s.sch.checked ∧
      leNat (bytesAt t.log.mram 0x200FF8 8) % 2 = 0 ∧
      (∀ x ∈ counts, apart x (0x200FF8, 8, 0) → (∀ y ∈ counts, y = x ∨ apart x y) →
        bytesAt t.log.mram x.1 x.2.1 = leBytes x.2.1 x.2.2) ∧
      (∀ x ∈ l.health, (∀ d : Fin 8, x.1 ≠ dieHealth d.val + 0x30 ∧ x.1 ≠ dieHealth d.val + 0x31) →
        (∀ n : Fin 12, x.1 ≠ stackHealth n.val + 0x36) → x ∈ counts) ∧
      ∀ n : Fin 12, (stackHealth n.val + 0x36, 2, (s.hbm.pages.filter (fun y => y.1 % 12 = n.val)).length % 2 ^ 16) ∈ counts
     (s.tt.runs = true → s.tt.now % 1000000000 < 2 →
       (s.log.ckpt ≠ some (s.tt.now / 1000000000) → Completes .logbookCheckpoint s kept) ∧
       (s.log.ckpt = some (s.tt.now / 1000000000) → Idles .logbookCheckpoint s)) ∧
     (s.tt.state = .acquire → Completes .acquireCheckpoint s kept)) ∧
    (s.pwr.stage = .operating → Completes .poweredOnSecond s (fun t => only t ∧ t.log.pot = l.pot + 1 ∧
      ∀ d : DieId, let at_ := dieHealth d.val + 4 * tempBin s.pwr.temps[d]
        healthVal t at_ 4 = (healthVal s at_ 4 + 1) % 2 ^ 32))

/-- While the target answers, a private write of a space and an address sets the pointer within the space; the write
2, 1 clears ALERT; any other is refused and changes nothing. A private read answers at most 4,096 bytes of the
space from the pointer, which moves on: each byte is that of the status block, or that of the logbook where its
layout is given (log entry 105); the pointer, and an address past the end, wrap within the space (the address:
log entry 110). SETDASA to the static address and ENTDAA give the dynamic address once.
(15_logbook_and_health.md Table 15-10, R498, R502.) -/
def Obligations.I3cTargetAnswers : Prop :=
  ∀ (s : State) (a b c d : Byte) (data : List Byte) (n : Nat) (st dyn : BitVec 7), s.log.i3cStatic.isSome = true →
    s.pwr.stage = .operating →
    let size := if s.log.i3cStatus then 64 else 0x2000000
    let v := a.toNat + 256 * (b.toNat + 256 * (c.toNat + 256 * d.toNat))
    Completes (.i3cSetPointer [0, a, b, c, d]) s (fun t =>
      t = { s with log := { s.log with i3cStatus := false, i3cPtr := v % 0x2000000 } }) ∧
    Completes (.i3cSetPointer [1, a, b, c, d]) s (fun t =>
      t = { s with log := { s.log with i3cStatus := true, i3cPtr := v % 64 } }) ∧
    Completes (.i3cClearAlert [2, 1]) s (fun t => t = { s with log := { s.log with alert := false } }) ∧
    (data ≠ [2, 1] → (data.length = 5 → 1 < (data.getD 0 0).toNat) →
      Completes (.i3cInvalidWrite data) s (fun t => t = { s with out := s.out ++ [.i3cNack] })) ∧
    Completes (.i3cRead n) s (fun t => t.reply.bytes.length = min n 4096 ∧
      t = { s with
        reply := t.reply, freeCtr := s.freeCtr + 1
        log := { s.log with i3cPtr := (s.log.i3cPtr + min n 4096) % size } } ∧
      ∀ i, i < min n 4096 →
        let at_ := (s.log.i3cPtr + i) % size
        (s.log.i3cStatus = true → t.reply.bytes.getD i 0 = s.statusBlock.getD at_ 0) ∧
        (s.log.i3cStatus = false → layoutKnown at_ = true → t.reply.bytes.getD i 0 = byteAt s.log.mram at_)) ∧
    (s.log.i3cDyn = none →
      (s.log.i3cStatic = some st → Completes (.setdasa st dyn) s (fun t =>
        t = { s with log := { s.log with i3cDyn := some dyn } })) ∧
      Completes (.entdaa dyn) s (fun t => t = { s with log := { s.log with i3cDyn := some dyn } }))

/-- A clock of d MHz, m steps of 25 MHz lower but not below 600 MHz; of a die whose clock moves. -/
def stepped (x : DiePwr) (m : Nat) : Nat := if x.movable then x.mhz - 25 * min m ((x.mhz - 600) / 25) else x.mhz

/-- A sample while operating records P, and a new peak breach, the rising edge of R435's (log entry 87), steps each
active die down by four; one above 65 V acts as one of 62 V to 65 V (log entry 116: the spec promises no
behaviour there). Below 42 V, and after 2 us above 62 V, every regulator goes off after one POWER_LOSS record;
fences, flash and fuses stay. Above 58 V OV is set and logged, once each second. SHED#, and an input below 46 V
or a current of 105 A for 2 us, each begin an emergency: every die runs at 600 MHz and HBM at a quarter. A cause
clears at its own threshold, and 1 ms after the last the emergency ends. (Which causes are held, and when they
go: log entry 96.) (Averages over windows that have not filled: log entry 84.) (13_power_thermal_clocks.md Table
13-4, R429, R431, R435, R446, R447, R448, R491.) -/
def Obligations.InputsAndEmergencies : Prop :=
  ∀ (s : State) (mv ca : Nat),
    let p := s.pwr
    let l := ((mv * ca / 100) :: p.samples).take 2000000
    let since := p.since.next mv ca s.wall
    let begun (t : State) : Prop := t.pwr.emerg = true ∧ t.hbm.quarterRate = true ∧ ∀ n, (t.die n).mhz = 600
    let lost (t : State) (cause : BitVec 4) : Prop := t.log.lastEnd = cause ∧ t.log.queue = [] ∧ t.cores = [] ∧
      t.released = false ∧ t.log.seqNext = s.log.seqNext + 1 ∧ t.int.fenced = s.int.fenced ∧ t.sec.flash = s.sec.flash ∧
      t.sec.otp = s.sec.otp
    let clears (q : Pwr) (t : State) : Prop := t = { s with pwr := if q.anyCause then q else { q with clearAt := s.wall } }
    ((p.stage ≠ .operating → Completes (.vinSample mv ca) s (fun t => t = { s with pwr := { p with
        mv := mv, ca := ca, since := since, highLog := if 58000 < mv then p.highLog else none } })) ∧
      (p.stage = .operating → Completes (.vinSample mv ca) s (fun t => t.pwr.mv = mv ∧ t.pwr.ca = ca ∧ t.pwr.samples = l ∧
        t.pwr.since = since ∧
        t.pwr.peak10 = max p.peak10 (avgOf 10 l) ∧ t.pwr.ov = (p.ov || decide (58000 < mv)) ∧
        t.pwr.burstNj = burstNext p.burstNj (mv * ca / 100) ∧
        ∀ n, (t.die n).mhz = if p.inControl = true ∧ peakBreach l p.samples = true ∧
          (s.die n).active = true then stepped (s.die n) 4 else (s.die n).mhz))) ∧
    (p.mv < 42000 → p.stage = .operating → Completes .undervoltageLockout s (fun t => lost t 1 ∧ t.pwr.stage = .off)) ∧
    (heldFor p.since.high 2000 s.wall = true → p.stage = .operating →
      Completes .overvoltageLockout s (fun t => lost t 2 ∧ t.pwr.stage = .overvoltage ∧ t.pins.fault = true)) ∧
    (58000 < p.mv → p.stage = .operating → p.highLog.all (fun t => t + 1000000000 ≤ s.wall) = false → Idles .highInputLog s) ∧
    (58000 < p.mv → p.stage = .operating → p.highLog.all (fun t => t + 1000000000 ≤ s.wall) = true → s.log.accepting = true →
      s.log.queue.length < 4096 → Completes .highInputLog s (fun t => t.pwr = { p with ov := true, highLog := some s.wall } ∧ ∃ b, t.log.queue = s.log.queue ++ [(s.log.seqNext, ⟨0x0051, 0xFF, 2, 0, leBytes 4 p.mv⟩, b)])) ∧
    (p.inControl = true →
      (p.stage = .operating → Completes .shedAssert s (fun t => begun t ∧ t.pwr.shed = true ∧ t.pins.shedLow = true)) ∧
      (heldFor p.since.low 2000 s.wall = true → Completes .uvEmergency s (fun t => begun t ∧ t.pwr.uv = true)) ∧
      (heldFor p.since.limit 2000 s.wall = true → Completes .ilimEmergency s (fun t => begun t ∧ t.pwr.ilim = true))) ∧
    (p.inControl = false → Completes .shedAssert s (fun t => t = { s with pins := { s.pins with shedLow := true } })) ∧
    Completes .shedRelease s (fun t => t.pins = { s.pins with shedLow := false } ∧ t.pwr.shed = false) ∧
    (p.uv = true → 46500 ≤ p.mv → Completes .uvClear s (clears { p with uv := false })) ∧
    (p.ilim = true → p.ca < 9500 → Completes .ilimClear s (clears { p with ilim := false })) ∧
    (∀ k, p.therm = true → p.coolAt = some k → k + 10000000 ≤ s.wall → Completes .thermClear s (clears { p with therm := false })) ∧
    (p.emerg = true → p.anyCause = false → p.clearAt + 1000000 ≤ s.wall →
      Completes .emergencyEnd s (fun t => t.pwr = { p with emerg := false } ∧ t.hbm = { s.hbm with quarterRate := false }))

/-- A die's sample sets its temperature to the highest fresh reading, 105 degrees when too few are fresh; at 115
degrees the module trips, at 105 an emergency begins and the die runs at 600 MHz. A stack's reading does the
same by its own limits. At 100 degrees a die's clock falls a step. A canary below 5 ps lowers its die one step
and holds it for 1 s, and again while it stays low. A droop is counted and halves the clock of a compute die for
256 cycles. The process monitors' filtered readings give the drift of the health report. A Vmin measurement
records its margin. (A canary still low at the end of its hold: log entry 144. The 54 ns hold of an I/O die: 93.
The corners of a Vmin measurement: 94. Which readings are valid, and the drift: 92.) (The median of fewer than
five samples: log entry 85. What THERMAL_THROTTLE does in an emergency and at 98 degrees: 89.)
(13_power_thermal_clocks.md Table 13-5, R446, R450, R451, R452, R454, R455, R456.) -/
def Obligations.MonitorsActOnTheClocks : Prop :=
  ∀ (s : State) (d : DieId) (c : ComputeDie) (n : StackId) (vals : List Int) (degc : Byte) (freqs : List Int) (steps : List MarginStep),
    let tripped (t : State) : Prop := t.pwr.stage = .trip ∧ t.pins.thermTrip = true ∧ t.pins.fault = true ∧ t.cores = [] ∧
      t.int.fenced = s.int.fenced
    let fresh := freshVals (sampleAll (-640) 2400 s.wall (s.monitorsOf d.val (sensorsOf d)) (vals.take (sensorsOf d))) s.wall 1000000
    let hot := (maxInt fresh).getD 0
    let temp := if fresh.length < sensorsNeeded d then 1680 else (maxInt fresh).getD 1680
    let k := s.stack n
    let mon := if degc.toNat ≤ 150 then k.mon.take_ degc.toNat s.wall else k.mon
    let read := (Stack.reading { k with mon := mon } s.wall).getD 0
    let procs := (((s.pwr.process.find? (fun x => x.1 = d.val)).map Prod.snd).getD (List.replicate (processOf d) ⟨[], 0⟩)).zip freqs
      |>.map (fun x => x.1.take_ x.2 s.wall)
    let readings := procs.filterMap Monitor.value
    (s.pwr.stage = .operating →
      (1840 ≤ hot → Completes (.tempSample d vals) s tripped) ∧
      (hot < 1840 → Completes (.tempSample d vals) s (fun t => t.pwr.temps[d] = temp ∧ t.cores = s.cores ∧
        (∀ h : d.val < 8, (t.die ⟨d.val, h⟩).warm = (decide (1600 ≤ temp) || ((s.die ⟨d.val, h⟩).warm && decide (1568 < temp)))) ∧
        (temp < 1680 → t.pwr.emerg = s.pwr.emerg ∧ ∀ n, (t.die n).mhz = (s.die n).mhz) ∧
        (1680 ≤ temp → s.pwr.inControl = true → t.pwr.emerg = true ∧ t.pwr.therm = true ∧
          ∀ h : d.val < 8, (t.die ⟨d.val, h⟩).mhz = 600))) ∧
      (115 ≤ read → Completes (.hbmTempRead n degc) s tripped) ∧
      (read < 115 → Completes (.hbmTempRead n degc) s (fun t => t.stack n =
          { k with temp := degc, mon := mon, hot := decide (85 ≤ degc.toNat), halfRate := decide (100 ≤ read) } ∧
        (105 ≤ read → s.pwr.inControl = true → t.pwr.emerg = true ∧ t.pwr.therm = true) ∧
        (read < 105 → t.pwr.emerg = s.pwr.emerg))) ∧
      (processOf d ≤ freqs.length → Completes (.processMonitorSample d freqs) s (fun t =>
        t = { s with log := t.log, pwr := { s.pwr with process := t.pwr.process } } ∧
        (d.val, procs) ∈ t.pwr.process ∧
        healthVal t (dieHealth d.val + 0x32) 2 = ofSigned (drift (s.processBase d readings) readings) 16 % 65536)) ∧
      (freqs.length < processOf d → Idles (.processMonitorSample d freqs) s) ∧
      Completes (.droopEvent d) s (fun t => t.pwr.droops[d] = s.pwr.droops[d] + 1 ∧ t.cores = s.cores ∧
        (∀ h : d.val < 8, (t.die ⟨d.val, h⟩).droopHold = some ((s.die ⟨d.val, h⟩).cycles + 256)) ∧
        (8 ≤ d.val → t.pwr.ioDroop[ioSide d] = some s.wall))) ∧
    (s.pwr.inControl = true →
      (s.pwr.therm = false → (∃ e : DieId, 1680 ≤ s.pwr.temps[e]) → Completes .thermalThrottle s (fun t =>
        t.pwr.emerg = true ∧ t.pwr.therm = true ∧
        ∀ i : ComputeDie, ∀ h : i.val < 10, 1680 ≤ s.pwr.temps[i.val] → (t.die i).mhz = 600)) ∧
      (s.pwr.emerg = false → (s.pwr.therm = true ∨ ∀ e : DieId, s.pwr.temps[e] < 1680) → Completes .thermalThrottle s (fun t => t.cores = s.cores ∧ ∀ i : ComputeDie, ∀ h : i.val < 10,
        (1600 ≤ s.pwr.temps[i.val] → (t.die i).mhz = stepped (s.die i) 1) ∧
        (1568 < s.pwr.temps[i.val] → s.pwr.temps[i.val] < 1600 → t.die i = s.die i) ∧
        (s.pwr.temps[i.val] ≤ 1568 → (s.die i).mhz ≤ (t.die i).mhz ∧ (t.die i).mhz ≤ (s.die i).mhz + 25))) ∧
      (let old := if (s.die c).canaries.isEmpty then List.replicate 256 ⟨[], 0⟩ else (s.die c).canaries
       let new := sampleAll 0 200 s.wall old (vals.take 256)
       Completes (.canarySample c vals) s (fun t => (t.die c).canaries = new ∧
        (∀ i v, lowCanary s.wall old new = some (i, v) → (t.die c).canaryHold = some s.wall ∧ (t.die c).mhz = stepped (s.die c) 1) ∧
        (lowCanary s.wall old new = none → t.die c = { s.die c with canaries := new })))) ∧
    (∀ a, (s.die c).canaryHold = some a → a + 1000000000 ≤ s.wall →
      (lowCanary s.wall [] (s.die c).canaries = none →
        Completes (.canaryHoldEnd c) s (fun t => t = s.setDie c { s.die c with canaryHold := none })) ∧
      (∀ y, lowCanary s.wall [] (s.die c).canaries = some y → Completes (.canaryHoldEnd c) s (fun t =>
        (t.die c).canaryHold = some s.wall ∧ (t.die c).mhz = stepped (s.die c) 1))) ∧
    (∀ (h : d.val < 8) a, (s.die ⟨d.val, h⟩).droopHold = some a → a ≤ (s.die ⟨d.val, h⟩).cycles →
      Completes (.droopHoldEnd d) s (fun t => t = s.setDie ⟨d.val, h⟩ { s.die ⟨d.val, h⟩ with droopHold := none })) ∧
    (∀ a, 8 ≤ d.val → s.pwr.ioDroop[ioSide d] = some a → a + 54 ≤ s.wall →
      Completes (.droopHoldEnd d) s (fun t => t = { s with pwr := { s.pwr with ioDroop := s.pwr.ioDroop.set (ioSide d) none } })) ∧
    (s.schedOn = true → s.int.margin = true → s.dieIdle c = true → (s.die c).pilotDown = false → (s.die c).vmin = none →
      Completes (.vminMeasurement c steps) s (fun t => (t.die c).vmin = some s.log.pot ∧ SameBytes s t ∧
        healthVal t (dieHealth c.val + 0x2A) 2 = 5 * passedSteps 12 steps))

/-- When a window must fall, each active die, and each above its ceiling whatever its activity (log entry 95), steps
down by 25 MHz, and every die while the cap cannot be met; otherwise a die rises by at most one step, and not
while it is warm. A request for a multiple of 16 credits waits in turn; the first that its own die's state does
not bar is granted when it may be (passing over the others is log entry 143, when it may be is 90); a release
gives back no credit of the idle share and none that the die used in the last 1 ms (log entries 90 and 143). A
millisecond above 3,000 W charges each die that was active in it, and no other, and one whose allowance is spent
holds at most 300. (When a window must fall and when clocks may rise: log entries 84, 86 and 88. CCLK_STEP in an
emergency: 89.) (13_power_thermal_clocks.md Table 13-3, R433, R437, R438, R439, R440, R441, R442, R445, R450,
R457.) -/
def Obligations.CreditsAndClockSteps : Prop :=
  ∀ (s : State) (c : ComputeDie) (k : Nat), s.pwr.inControl = true →
    (s.pwr.emerg = false → Completes .cclkStep s (fun t => t.cores = s.cores ∧ ∀ n, let x := s.die n
      (x.maxMhz < x.mhz → (t.die n).mhz = stepped x 1) ∧
      let down := s.pwr.mustLower || s.pwr.capMiss
      (x.mhz ≤ x.maxMhz → down = true → (t.die n).mhz = if x.active || s.pwr.capMiss then stepped x 1 else x.mhz) ∧
      (x.mhz ≤ x.maxMhz → down = false → x.mhz ≤ (t.die n).mhz ∧ (t.die n).mhz ≤ x.mhz + 25 ∧
        (x.active = false ∨ x.warm = true → (t.die n).mhz = x.mhz)))) ∧
    (k % 16 = 0 → 0 < k → Completes (.creditRequest c k) s (fun t =>
      t = { s with pwr := { s.pwr with requests := s.pwr.requests ++ [(c.val, k)] } })) ∧
    (s.pwr.requests.all s.barred = true → Idles .creditGrant s) ∧
    (∀ first rest, s.pwr.requests = first ++ (c.val, k) :: rest → first.all s.barred = true → s.barred (c.val, k) = false →
      (s.grantable c k = true → Completes .creditGrant s (fun t => t.pwr.requests = first ++ rest ∧
        (t.die c).hold = (s.die c).hold + k ∧ ∀ n, n ≠ c → t.die n = s.die n)) ∧
      (s.grantable c k = false → Idles .creditGrant s)) ∧
    Completes (.creditRelease c k) s (fun t =>
      let left := (s.die c).hold - min k (s.unused c)
      ((s.die c).idle + s.activity c (s.die c).mhz ≤ left ∨ left = (s.die c).hold) ∧
      t = s.setDie c { s.die c with
        hold := left, ceased := if (s.die c).active && left ≤ (s.die c).idle then some s.wall else (s.die c).ceased }) ∧
    (3000000 < avgOf 1000 s.pwr.samples → Completes .wearCharge s (fun t => SameBytes s t ∧ ∀ n,
      (t.die n).wearMs = (if (s.die n).wasActive s.wall then (s.die n).wearMs + 1 else (s.die n).wearMs) ∧
      ((s.die n).wasActive s.wall = true → (s.die n).wearSpent = true → (t.die n).hold ≤ 300))) ∧
    (avgOf 1000 s.pwr.samples ≤ 3000000 → Idles .wearCharge s)

/-- What boot measures is good: secrets erased, the signatures of the blocks boot needs those of the fuses, and memory
trained. -/
structure GoodBoot (s : State) (b : BootInputs) : Prop where
  secrets : b.secretsZero = true
  io      : ∀ x ∈ s.sec.otp.failed b.bist, isIo x.1 = false
  hbm     : b.hbmTrained = true

/-- The first image of a slot's bundle that fails a check, and the check. -/
def slotFault (s : State) (slot recovery : Bool) : Option (Nat × Nat) :=
  bundleFault (flashBundle s.sec.flash (if recovery then recoveryAt else bundleAt slot)) recovery s.sec.otp

/-- From s to t boot has run past its measurements: images run from the boot slot, else from the other slot, else from the
recovery bundle, and the cores are released except under recovery; with none valid it halts. The scan lock is set (R467),
a device that runs attests exactly when the fused seeds' key is that of the leaf certificate (R474), the count of resets is one higher
unless the journal holds another that is not yet in its place (log entry 109), memory is clear, and every core that failed its test, or was fenced before, is fenced. -/
structure Booted (s t : State) (b : BootInputs) : Prop where
  images   : let x := (bootCtl s.sec.flash).1.slot
    let runs (slot : Bool) : Prop := t.sec.state = .running ∧ t.sec.slot = slot ∧ t.released = true
    if slotFault s x false = none then runs x
    else if slotFault s (!x) false = none then runs (!x) ∧ t.sec.fallback = true ∧ t.sec.resetPend = true ∧ t.sec.failCode = 1
    else if slotFault s x true = none then t.sec.state = .recovery ∧ t.sec.recovery = true ∧ t.sec.failCode = 2
    else t.sec.state = .halted ∧ t.sec.step = 6 ∧ t.sec.failCode = 3
  locked   : t.sec.scanLock = true ∧ t.sec.scanOn = false
  on       : t.sec.state ≠ .halted → t.hrw.alive = true ∧ t.pwr.inControl = true
  identity : t.sec.state ≠ .halted → (t.sec.noIdentity = false ↔ slhPublic s.sec.otp.idSeed = certKey (flashBytes s.sec.flash chainAt 65536))
  memory   : t.dmem = Store.empty
  resets   : (∀ e, s.log.journal = some e → (s.log.put e.write).resets = s.log.resets) → t.log.resets = s.log.resets + 1
  tested   : ∀ x ∈ s.sec.otp.failed b.bist, ∀ g, x.1 = .core g → t.isFenced g.toNat
  fences   : ∀ g, s.isFenced g → t.isFenced g
  time     : t.wall = s.wall + b.wallNs

/-- An input that has stayed within 46 V to 58 V for 20 ms, a released PERST# and a device reset boot the module:
when what it measures is good, the images of the boot slot run, else those of the other slot, else the recovery
bundle; boot halts with its step and code when secrets remain, an I/O block's signature differs from that of the
fuses (log entry 100) or memory does not train. So it does after a reset out of a recovery boot. An input that
is qualified again after a loss of power that no record tells boots with LASTEND 5. An asserted PERST#, once it
has been seen high, at power-up or later, stops everything and leaves fences, flash and fuses. The third strap
sample decides whether the straps are valid, and invalid ones hold every link; the third slot sample gives the
I3C address. (Boot as one step: log entry 97. Corners of failed boots: 98. LOG_RESETS rises at every boot: 104.
A loss of power: 109.) A lost link reference takes every link in use or in training down. (The copies of boot
control: log entry 99. Which bytes of a certificate are its key: 75.) (14_firmware_boot_security.md Table 14-5,
R430, R467, R468, R470, R472, R502, R515, R517, R518, R521.) -/
def Obligations.BootAndResetRun : Prop :=
  ∀ (s : State) (b : BootInputs) (v : StrapPins) (y : BitVec 3),
    let boots (c : Instr) (r : State → Prop) (u : State) : Prop :=
      (GoodBoot s b → Completes c s (fun t => r t ∧ Booted s t b)) ∧
      (let halts (step code : Nat) : Prop := Completes c s (fun t => r t ∧ t.sec.state = .halted ∧ t.sec.step = step ∧
          t.sec.failCode = BitVec.ofNat 8 code ∧ t.pins.fault = true ∧ t.released = u.released)
       (b.secretsZero = false → halts 3 4) ∧
       (b.secretsZero = true → (∃ x ∈ s.sec.otp.failed b.bist, isIo x.1 = true) → halts 4 5) ∧
       (b.secretsZero = true → (∀ x ∈ s.sec.otp.failed b.bist, isIo x.1 = false) → b.hbmTrained = false → halts 5 6))
    (heldFor s.pwr.since.good 20000000 s.wall = false → Idles (.inputQualified b) s) ∧
    (heldFor s.pwr.since.good 20000000 s.wall = true →
      (s.pwr.stage = .off → boots (.inputQualified b) (fun t => t.pwr.stage = .operating ∧
        t.pins.perstSeen = (s.pins.perstSeen || !s.pins.perstLow)) s) ∧
      (s.pwr.stage = .operating →
        (s.pwr.failing = false → Idles (.inputQualified b) s) ∧
        (s.pwr.failing = true → boots (.inputQualified b) (fun t => t.log.lastEnd = 5 ∧ t.cores = []) { s with released := false }))) ∧
    (s.pwr.stage = .operating →
      (s.pins.inReset = true →
        boots (.perstRelease b) (fun t => t.pins.perstLow = false ∧ t.pins.perstSeen = true) s) ∧
      (s.pins.inReset = false → Completes (.perstRelease b) s (fun t =>
        t = { s with pins := { s.pins with perstLow := false, perstSeen := true } })) ∧
      (s.sec.resetReq.isSome = true →
        boots (.deviceReset b) (fun t => t.cores = []) { s with released := false }) ∧
      (s.pwr.failing = true → Completes .perstAssert s (fun t => t = { s with pins := { s.pins with perstLow := true } })) ∧
      (s.pwr.failing = false → s.pins.perstSeen = true → s.pins.inReset = false → Completes .perstAssert s (fun t => t.pins.perstLow = true ∧
        t.pins.inReset = true ∧ t.cores = [] ∧ t.released = false ∧ t.sec.flash = s.sec.flash ∧ t.sec.otp = s.sec.otp ∧
        ∀ g, s.isFenced g → t.isFenced g)) ∧
      (s.pins.perstLow = false → s.pins.inReset = false →
        (s.lnk.straps.length < 2 → Completes (.strapSample (s.lnk.straps.length + 1) v) s (fun t =>
          t = { s with lnk := { s.lnk with straps := s.lnk.straps ++ [v] } })) ∧
        (s.lnk.straps.length = 2 → Completes (.strapSample 3 v) s (fun t => t.lnk.straps = s.lnk.straps ++ [v] ∧
          (t.lnk.strapsOk = true ↔ strapOnes v % 2 = 1 ∧ ∀ x ∈ s.lnk.straps, x = v) ∧
          (t.lnk.strapsOk = false → ∀ p l, (t.link p l).state = .held ∧ (t.link p l).reason = rSTRAPS)))) ∧
      (s.pins.inReset = false →
        (s.log.slotSamples.length < 2 → Completes (.boardSlotSample (s.log.slotSamples.length + 1) y) s (fun t =>
          t = { s with log := { s.log with slotSamples := s.log.slotSamples ++ [y] } })) ∧
        (s.log.slotSamples.length = 2 → Completes (.boardSlotSample 3 y) s (fun t =>
          t = { s with log := { s.log with slotSamples := s.log.slotSamples ++ [y], i3cStatic := some (0x50 + y.setWidth 7) } })))) ∧
    Completes .linkRefclkLoss s (fun t => t.pins = { s.pins with linkRef := false } ∧ SameBytes s t ∧
      ∀ p l, ((s.link p l).inUse = true ∨ (s.link p l).state = .training) →
        (t.link p l).state = .down ∧ (t.link p l).reason = rNO_SIGNAL)

/-- A fault of the harbour master, lockkeeper or dispatcher is fatal: every die runs at 600 MHz and FAULT# falls;
where boot has halted the harbour master's alone is. A pilot's first in a day is reloaded from its running
image, its second is fatal. A fault within 1 s of a switch returns to the previous images. START captures the
address and the length, waits while a stack retrains, verifies the bundle where it lies and erases the other
slot, which is then programmed with it. GO moves the boot slot and pauses the dispatcher, or waits under an
emergency; the switch runs the staged images once nothing is in flight. A commit raises the fused SVN to the
lowest of the boot slot's images. (Faults where boot has halted, and in the fatal state: log entry 117. The
split of staging into START and its end, its waiting, and the corners of a rollback: log entry 101.) (The fatal
state: log entry 103. When a reset is pending: 98. The copies of boot control: 99.)
(14_firmware_boot_security.md, R460, R461, R477, R479, R480, R481, R482, R484.) -/
def Obligations.FirmwareFaultsStagesAndActivates : Prop :=
  ∀ (s : State) (u : Processor) (cause : FwCause) (fpc : Word32) (w : Word32) (d : ComputeDie) (ok : Bool),
    let c := s.sec
    let sec (k : Instr) (x : Sec) : Prop := Completes k s (fun t => t = { s with sec := x })
    let next := flashBundle c.flash (bundleAt c.bootSlot)
    let paused (k : Instr) : Prop := Completes k s (fun t => t.sec.act = .pausing ∧ t.sec.actRes = 3 ∧ t.sch.paused = true ∧
      t.sec.bootSlot = !c.bootSlot ∧ t.sec.prevSlot = c.bootSlot ∧ t.sec.resetPend = true)
    (∀ k, (k = Instr.fwWatchdogExpiry u ∨ k = Instr.fwProcessorFault u cause fpc) → (c.state = .running ∨ c.state = .recovery) →
      let dies : Prop := Completes k s (fun t => t.sec.state = .fatal ∧ t.sec.failCode = 7 ∧ t.pins.fault = true ∧
        ∀ n, (t.die n).mhz = 600)
      (s.justSwitched u = false →
        ((∀ n, u ≠ .pilot n) → dies) ∧
        (∀ n, u = .pilot n →
          (s.secondFault n = true → dies) ∧
          (s.secondFault n = false → Completes k s (fun t => (t.die n).pilotDown = true ∧
            (t.die n).fwFaultAt = some s.log.pot ∧ t.sec = c ∧ SameBytes s t)))) ∧
      (s.justSwitched u = true →
        (c.rolled = true → dies) ∧
        (c.rolled = false → Completes k s (fun t => t.sec.images = (c.images.set 2 c.prevImages[0]).set 3 c.prevImages[1] ∧
          t.sec.bootSlot = c.prevSlot ∧ t.sec.actRes = 9 ∧ t.sec.rolled = true ∧ t.sec.state = c.state ∧
          ∀ n, u = .pilot n → (t.die n).fwFaultAt = some s.log.pot)))) ∧
    (∀ k, (k = Instr.fwWatchdogExpiry u ∨ k = Instr.fwProcessorFault u cause fpc) →
      (c.state = .halted → u = .harbour → Completes k s (fun t => t.sec.state = .fatal ∧ t.pins.fault = true)) ∧
      (c.state = .halted → u ≠ .harbour → Completes k s (fun t => t = { s with freeCtr := t.freeCtr })) ∧
      (c.state = .fatal → Completes k s (fun t => t.sec = c ∧ SameBytes s t))) ∧
    (c.state ≠ .fatal → (s.die d).pilotDown = true → Completes (.pilotRestart d) s (fun t =>
      t.die d = { s.die d with pilotDown := false } ∧ (∀ n, n ≠ d → t.die n = s.die n) ∧
      t.sec = { c with procMem := t.sec.procMem } ∧ SameBytes s t ∧
      (d.val + 3, imageBody (c.bundle c.images[3]) 3) ∈ t.sec.procMem)) ∧
    ((s.die d).pilotDown = false → Idles (.pilotRestart d) s) ∧
    (Reaches s 0x9004C w.toNat 0xFFFFFFFE → w.getLsbD 0 = true →
      let a := c.stageAddr.toNat
      let n := c.stageLen.toNat
      (c.resetPend = true → sec (.secStageStart w) { c with stageRes := 10, stageImg := 0 }) ∧
      (c.resetPend = false →
        ((c.staging.isSome = true ∨ c.act ≠ .idle) → sec (.secStageStart w) { c with stageRes := 11, stageImg := 0 }) ∧
        (c.staging = none → c.act = .idle →
          (stageAddrOk a n = false → Completes (.secStageStart w) s (fun t => t.sec.stageRes = 9 ∧ t.sec.staging = none)) ∧
          (stageAddrOk a n = true → s.linesHeld (granulesOf a n) = true → sec (.secStageStart w)
            { c with staging := some (a, n), startHeld := true, stageRes := 1, stageImg := 0 }) ∧
          (stageAddrOk a n = true → s.linesHeld (granulesOf a n) = false →
            Completes (.secStageStart w) s (fun t => SameBytes s t ∧ match bundleFault (dmemBundle s.dmem.cells a n) false c.otp with
              | some (k, r) => t.sec.stageRes = BitVec.ofNat 8 r ∧ t.sec.stageImg = BitVec.ofNat 4 k ∧ t.sec.staging = none
              | none => t.sec.stageRes = 1 ∧ t.sec.staging = some (a, n) ∧
                ∀ i, bundleAt (!c.bootSlot) ≤ i → i < bundleAt (!c.bootSlot) + 0x4000000 → flashByte t.sec.flash i = 0xFF))))) ∧
    (∀ a n, c.staging = some (a, n) → (c.startHeld = true ∨ s.linesHeld (granulesOf a n) = true) → Idles (.stagingComplete ok) s) ∧
    (∀ a n, c.staging = some (a, n) → n ≤ 0x4000000 → c.startHeld = false → s.linesHeld (granulesOf a n) = false →
      let base := bundleAt (!c.bootSlot)
      let flash := flashPut c.flash base (bytesAt s.dmem.cells a n)
      let placed (t : State) : Prop := t.sec.staging = none ∧ SameBytes s t ∧
        ∀ i, i < n → flashByte t.sec.flash (base + i) = byteAt s.dmem.cells (a + i)
      (ok = false → Completes (.stagingComplete ok) s (fun t => placed t ∧ t.sec.stageRes = 8)) ∧
      (ok = true → Completes (.stagingComplete ok) s (fun t => placed t ∧ match bundleFault (flashBundle flash base) false c.otp with
        | some (k, r) => t.sec.stageRes = BitVec.ofNat 8 r ∧ t.sec.stageImg = BitVec.ofNat 4 k
        | none => t.sec.stageRes = 2))) ∧
    (Reaches s 0x90058 w.toNat 0xFFFFFFFE → w.getLsbD 0 = true →
      (c.act ≠ .idle → sec (.secActivateGo w) { c with actRes := 8 }) ∧
      (c.act = .idle →
        (s.staged = false → sec (.secActivateGo w) { c with actRes := 7 }) ∧
        (s.staged = true →
          (s.pwr.emerg = true → sec (.secActivateGo w) { c with act := .deferred s.wall none, actRes := 2 }) ∧
          (s.pwr.emerg = false → c.recovery = false → paused (.secActivateGo w))))) ∧
    (∀ x y, c.act = .deferred x (some y) → s.pwr.emerg = false → y + 1000000000 ≤ s.wall → c.recovery = false →
      paused .activationHoldoffEnd) ∧
    (∀ x, c.act = .deferred x none → x + 60000000000 ≤ s.wall →
      Completes .deferredTimeout s (fun t => t.sec = { c with act := .idle, actRes := 6 } ∧ SameBytes s t)) ∧
    (c.act = .pausing → s.quiet = true → c.state = .running →
      Completes .activationSwitch s (fun t => t.sch.paused = false ∧
        if bundleFault next false c.otp = none ∧ (c.load next [2, 3]).loadedOk next [2, 3] = true
        then t.sec = { c.load next [2, 3] with
          images := (c.images.set 2 (imageOf next 2 c.bootSlot)).set 3 (imageOf next 3 c.bootSlot)
          act := .idle, actRes := 5, switched := some s.wall, rolled := false, activations := c.activations + 1 }
        else t.sec.actRes = 9 ∧ t.sec.bootSlot = c.prevSlot ∧ t.sec.images = c.images)) ∧
    (Reaches s 0x90034 w.toNat 0xFFFFFFFE →
      (w.getLsbD 0 = true → s.svnRefused = false →
        sec (.secSvnCommit w) { c with otp := { c.otp with svn := lowestSvn c.flash c.bootSlot } }) ∧
      (w.getLsbD 0 = true → s.svnRefused = true → s.hrw.errValid = false → Completes (.secSvnCommit w) s (fun t =>
        t = { s with hrw := { s.hrw with errValid := true, errOff := 0x90034, errReason := 2 } })) ∧
      (w.getLsbD 0 = false → Idles (.secSvnCommit w) s))

/-- A write to s0 or p0 is discarded: the registers are as before. s0 always reads as 0 and p0 always as 1. (R65.) -/
def Obligations.ZeroAndTrueRegistersStay : Prop :=
  ∀ (q : Seq) (v : Word64) (b : Bool), q.setS 0 v = q ∧ q.setP 0 b = q ∧ q.getS 0 = 0 ∧ q.getP 0 = true

/-- DBL and what FD, FA and FB name, by class and operation (Tables 3-6 to 3-17); an engine command's are in `commandLegal`. -/
def shapeOf (cls op : Nat) : Form :=
  match cls with
  | 0 => if op ≤ 0x0E then fSSS else if op = 0x10 then ⟨false, .s, .none, .none⟩ else if op ≤ 0x13 then fPPP
    else if op = 0x14 then ⟨false, .p, .p, .none⟩ else if op = 0x15 then ⟨false, .a, .a, .s⟩
    else if op = 0x16 then ⟨false, .a, .s, .none⟩ else if op = 0x17 then ⟨false, .s, .a, .none⟩
    else if op ≤ 0x1D then fPSS else if op ≤ 0x2E then fSS else if op = 0x35 then ⟨false, .a, .a, .none⟩ else fPS
  | 1 => if op = 1 then ⟨false, .none, .s, .none⟩ else if op = 4 then ⟨false, .s, .none, .none⟩ else fNone
  | 2 => if op % 16 = 7 then ⟨false, .a, .a, .none⟩ else if op = 0xC then ⟨false, .none, .a, .a⟩
    else if 8 ≤ op ∧ op ≤ 0xB then ⟨false, .none, .a, .s⟩ else ⟨false, .s, .a, .none⟩
  | 3 => if op = 0 ∨ op = 5 then ⟨false, .d, .a, .none⟩ else if op = 1 then ⟨false, .none, .a, .d⟩
    else if op = 2 then ⟨false, .d, .d, .none⟩ else if op = 4 then ⟨false, .d, .none, .none⟩ else ⟨false, .d, .none, .s⟩
  | 7 => if op ≤ 6 then ⟨false, .none, .s, .none⟩ else if op = 8 then fNone else ⟨false, .s, .none, .none⟩
  | 8 => if op = 0 then ⟨false, .none, .s, .s⟩ else if op = 1 then fNone else fSS
  | _ => if op = 3 ∨ op = 6 then ⟨false, .none, .s, .none⟩ else if op = 4 ∨ op = 5 then ⟨false, .s, .none, .none⟩ else fNone

/-- The operations of the vector class (Tables 3-13 and 5-2). -/
def vectorOps : List (Nat × VOp) :=
  [(0x00, .vld), (0x01, .vst), (0x04, .vadd), (0x05, .vsub), (0x06, .vmul), (0x07, .vfma), (0x08, .vfms), (0x09, .vdiv)] ++
  [(0x0A, .vsqrt), (0x0B, .vmin), (0x0C, .vmax), (0x0D, .vminn), (0x0E, .vmaxn), (0x0F, .vabs), (0x10, .vneg), (0x11, .vcvt)] ++
  [(0x12, .vcmp), (0x13, .vsel), (0x14, .vand), (0x15, .vor), (0x16, .vxor), (0x17, .vshl), (0x18, .vshr), (0x19, .vsar)] ++
  [(0x1A, .viota), (0x1B, .vsplat), (0x1C, .vshuf), (0x20, .vexp2), (0x21, .vlog2), (0x22, .vrcp), (0x23, .vrsqrt)] ++
  [(0x24, .vsin), (0x25, .vcos), (0x28, .vrsum), (0x29, .vrmax), (0x2A, .vrmin), (0x30, .vsma), (0x31, .vsmmrg)] ++
  [(0x32, .vsminit), (0x38, .vrand), (0x39, .vdrop)]

/-- An engine command's words hold no reserved value and no field that its operation does not use (R71, Tables 3-11 to
3-15, 5-2 and 5-3). -/
def commandLegal (quad : Bool) (cls op : Nat) (w : Word0) (w1 : Word64) : Bool :=
  match cls with
  | 4 => if op = 0 then matOk .mwl w && word1Ok quad (.mat .mwl w w1) else if op = 1 then matOk .mtile w && word1Ok quad (.mat .mtile w w1)
    else matOk .mmode w
  | 5 => (vectorOps.find? (fun x => x.1 = op)).any (fun x => vecOk x.2 w && word1Ok quad (.vec x.2 w w1))
  | _ => ferOk w && word1Ok quad (.fer (if 2 ≤ op ∧ op ≤ 4 then .fgath else .fcopy) w w1)

/-- The words of an instruction are legal on core g (R71): its fields against its table's row, and what IMM may hold. -/
def legalWords (s : State) (g : Gcn) (cls op : Nat) (w : Word0) (w1 : Word64) : Bool :=
  if 4 ≤ cls ∧ cls ≤ 6 then commandLegal (s.core g.toNat).seq.quad cls op w w1
  else (shapeOf cls op).ok w &&
    (if cls = 3 ∧ (op = 6 ∨ op = 7) then w.imm.toNat % 8 ≤ 4
     else if cls = 7 ∧ 9 ≤ op then w.imm.toNat ≤ 2
     else if cls = 9 ∧ 5 ≤ op then (s.coreReg g.toNat (w.imm.toNat % 65536)).isSome else true)

/-- Every instruction that core g meets with a guard that reads 0 and whose words are legal completes: it moves PC
past its words and changes no register, no count, no queue and no memory. Where word 0 or word 1 is not legal,
it raises ILLEGAL, which comes before the guard. (That legality comes before the guard: log entry 17.) (R70,
R71.) -/
def Obligations.AFalseGuardLeavesANoOp : Prop :=
  ∀ (i : Instr) (g : Gcn) (cls : BitVec 4) (op : BitVec 6) (w : Word0) (w1 : Word64) (s : State),
    i.parts = some (g, cls, op, w, w1) → (s.core g.toNat).seq.cond = .running → (s.core g.toNat).cancel = false →
    (s.core g.toNat).seq.guard w = false →
    (s.core g.toNat).seq.pc.toNat + wordBytes w < 0x10000 →
      (legalWords s g cls.toNat op.toNat w w1 = true →
        Completes i s (fun t => Retires s t g ((s.core g.toNat).seq.pc + BitVec.ofNat 16 (wordBytes w)) .none)) ∧
      (legalWords s g cls.toNat op.toNat w w1 = false → Completes i s (fun t => Raises s t g cILLEGAL 0))

/-- The words of ADD s1, s2, s3; LD64 s5, [a1 + 0x240]; LOOP s9 back 40 bytes; WAIT on MEC for 8; END; NOP guarded
by not p3; and the two words of chapter 03's examples, DADDBI d7, 32 and MTILE, decode to those instructions.
(03_core_and_opvan.md Table 3-3.) -/
def Obligations.EncodingsOfAFewInstructions : Prop :=
  ∀ g : Gcn,
    decodeWords g 0x0000044300000000 0 = some (.add g ⟨false, false, 0, 0, 1, 2, 3, 0⟩) ∧
    decodeWords g 0x2180142000000240 0 = some (.ld64 g ⟨false, false, 0, 0, 5, 1, 0, 0x240⟩) ∧
    decodeWords g 0x11002400FFFFFFD8 0 = some (.loop g ⟨false, false, 0, 0, 9, 0, 0, 0xFFFFFFD8⟩) ∧
    decodeWords g 0x7000000000000008 0 = some (.waitM g ⟨false, false, 0, 0, 0, 0, 0, 8⟩) ∧
    decodeWords g 0x9040000000000000 0 = some (.endKernel g ⟨false, false, 0, 0, 0, 0, 0, 0⟩) ∧
    decodeWords g 0x9016000000000000 0 = some (.nop g ⟨false, true, 3, 0, 0, 0, 0, 0⟩) ∧
    decodeWords g 0x31001C0000000020 0 = some (.daddbi g ⟨false, false, 0, 0, 7, 0, 0, 32⟩) ∧
    decodeWords g 0x4060000000000000 0x394C010000000000 =
      some (.mtile g ⟨true, false, 0, 0, 0, 0, 0, 0⟩ 0x394C010000000000)

/-- For every instruction with any fields, the words that Tables 3-3 to 3-17 give it decode to it. Conversely the
words that decode to an instruction are its own: word 0 in every bit, and word 1 where it has one.
(03_core_and_opvan.md Table 3-3, R69.) -/
def Obligations.WordsAndInstructionsAgree : Prop :=
  (∀ (i : Instr) (g : Gcn) (cls : BitVec 4) (op : BitVec 6) (w : Word0) (w1 : Word64),
    i.parts = some (g, cls, op, w, w1) → decodeWords g (w.encode cls op) w1 = some i) ∧
  ∀ (g : Gcn) (x y : Word64) (i : Instr), decodeWords g x y = some i →
    i.words = some (x, y) ∨ i.words = some (x, 0)

/-- For every state, whatever is in front of the queue and on a tick too: if a step answers a next state, every core
and adder that was fenced is fenced, the next sequence number of the logbook and the fused SVN have not fallen,
and the keys and revocations are as they were; and if every memory was in canonical form (device memory, quays,
scratchpads, instruction memories, flash, logbook: addresses strictly rising, no byte listed that an unlisted
address reads as), every memory is. (12_result_integrity.md, R417, R418, R489.) -/
def Obligations.WhatNoCommandUndoes : Prop :=
  ∀ s t : State, step s = .next t → s.Lasting t ∧ (s.memWf = true → t.memWf = true)

/-- Right after reset nothing waits in the queue of commands, every memory is empty and in canonical form, no core
runs or is fenced, every queue is disabled with its own number as its vector, the next record is number 1, the
patrol rate is 1,000 and each port's credit limits are those of Table 10-17. The model's choices, which no rule
of the spec gives: the input stage is off and no core is released (PRESUMED, log entry 7); flash and MRAM are
empty (DESIGN CHOICE, log entry 8); registers without a reset value of the spec are 0 (DESIGN CHOICE, log entry
1). (08_kernels_and_dispatcher.md Table 8-15, 10_links_and_torus.md, 12_result_integrity.md, R489.) -/
def Obligations.ResetLeavesTheModuleOff : Prop :=
  State.reset.pending = [] ∧ State.reset.memWf = true ∧
    State.reset.dmem = Store.empty ∧ (∀ d : Fin 8, State.reset.quays[d] = Store.empty) ∧ State.reset.sec.flash = [] ∧ State.reset.log.mram = [] ∧
    (∀ l a, State.reset.readByte l a = 0) ∧ State.reset.int.fenced = [] ∧ State.reset.log.seqNext = 1 ∧
    State.reset.int.ppm = 1000 ∧ State.reset.pwr.stage = .off ∧ State.reset.released = false ∧
    (∀ g, State.reset.core g = Core.reset ∧ (State.reset.core g).seq.cond = .idle) ∧
    (∀ q : QueueId, State.reset.queue q.toNat = Queue.reset q.toNat ∧ (Queue.reset q.toNat).vector.toNat = q.toNat ∧
      (Queue.reset q.toNat).enabled = false) ∧
    ∀ p, (State.reset.port p).limits = [0x010, 0x040, 0x400, 0x1F0, 0x1C0]
end

