-- ==== Sys2Proof/Laws/Ops.lean ====
section
/-!
SUPPORT. Laws of the sparse maps and byte memories: what a read gives after a write, and that every write keeps
the canonical form.
-/

namespace Sys2Proof.Machine

/-! ## Sparse maps -/

variable {α : Type}

@[simp] theorem smGet_smDel_self (d : α) (m : List (Nat × α)) (k : Nat) : smGet d (smDel k m) k = d := by
  induction m with
  | nil => rfl
  | cons x t ih => simp only [smDel]; split <;> simp_all [smGet]

@[simp] theorem smGet_smDel_ne (d : α) (m : List (Nat × α)) {k j : Nat} (h : j ≠ k) :
    smGet d (smDel k m) j = smGet d m j := by
  induction m with
  | nil => rfl
  | cons x t ih =>
    simp only [smDel]; split
    · rename_i hk; simp [smGet, ih, hk, Ne.symm h]
    · simp [smGet, ih]

/-- Keys of a map are all other than k. -/
theorem key_smDel {k : Nat} {m : List (Nat × α)} {x : Nat × α} (h : x ∈ smDel k m) : x ∈ m ∧ x.1 ≠ k := by
  induction m with
  | nil => simp [smDel] at h
  | cons y t ih =>
    simp only [smDel] at h
    split at h
    · exact ⟨List.mem_cons_of_mem _ (ih h).1, (ih h).2⟩
    · rcases List.mem_cons.1 h with rfl | h'
      · exact ⟨List.mem_cons_self .., by assumption⟩
      · exact ⟨List.mem_cons_of_mem _ (ih h').1, (ih h').2⟩

@[simp] theorem smGet_smIns_ne (d v : α) (m : List (Nat × α)) {k j : Nat} (h : j ≠ k) :
    smGet d (smIns k v m) j = smGet d m j := by
  induction m with
  | nil => simp [smIns, smGet, Ne.symm h]
  | cons x t ih => simp only [smIns]; split <;> simp [smGet, Ne.symm h, ih]

theorem smGet_smIns_self (d v : α) (m : List (Nat × α)) (k : Nat) (h : ∀ x ∈ m, x.1 ≠ k) :
    smGet d (smIns k v m) k = v := by
  induction m with
  | nil => simp [smIns, smGet]
  | cons x t ih =>
    simp only [smIns]; split
    · simp [smGet]
    · simp [smGet, h x (List.mem_cons_self ..), ih (fun y hy => h y (List.mem_cons_of_mem _ hy))]

theorem smDel_eq_filter (k : Nat) (m : List (Nat × α)) : smDel k m = m.filter (fun x => x.1 ≠ k) := by
  induction m with
  | nil => rfl
  | cons x t ih => simp only [smDel, List.filter_cons, ih]; split <;> simp_all

theorem mem_smIns {k : Nat} {v : α} {m : List (Nat × α)} {x : Nat × α} (h : x ∈ smIns k v m) :
    x = (k, v) ∨ x ∈ m := by
  induction m with
  | nil => simpa [smIns] using h
  | cons y t ih =>
    simp only [smIns] at h; split at h
    · simpa using h
    · rcases List.mem_cons.1 h with rfl | h'
      · simp
      · rcases ih h' with h'' | h'' <;> simp [h'']

variable [DecidableEq α]

/-- A read after a write to the same key gives the value written. -/
@[simp] theorem smGet_smPut_self (d v : α) (m : List (Nat × α)) (k : Nat) : smGet d (smPut d m k v) k = v := by
  unfold smPut; split
  · rename_i h; simp [h]
  · exact smGet_smIns_self d v _ k (fun x hx => (key_smDel hx).2)

/-- A write leaves every other key alone. -/
@[simp] theorem smGet_smPut_ne (d v : α) (m : List (Nat × α)) {k j : Nat} (h : j ≠ k) :
    smGet d (smPut d m k v) j = smGet d m j := by
  unfold smPut; split <;> simp [h]

theorem smGet_smPut (d v : α) (m : List (Nat × α)) (k j : Nat) :
    smGet d (smPut d m k v) j = if j = k then v else smGet d m j := by
  split
  · rename_i h; simp [h]
  · rename_i h; simp [h]

/-- The canonical form in two parts. -/
theorem smWf_iff (d : α) (m : List (Nat × α)) :
    smWf d m = true ↔ m.Pairwise (fun x y => x.1 < y.1) ∧ ∀ x ∈ m, x.2 ≠ d := by
  induction m with
  | nil => simp [smWf]
  | cons x t ih =>
    cases t with
    | nil => simp [smWf]
    | cons y t =>
      simp only [smWf, Bool.and_eq_true, ih, decide_eq_true_eq, Bool.not_eq_true', decide_eq_false_iff_not,
        List.pairwise_cons, List.mem_cons, forall_eq_or_imp]
      constructor
      · rintro ⟨⟨h1, h2⟩, ⟨h3, h4⟩, h5, h6⟩
        exact ⟨⟨⟨h2, fun z hz => Nat.lt_trans h2 (h3 z hz)⟩, h3, h4⟩, h1, h5, h6⟩
      · rintro ⟨⟨⟨h2, _⟩, h3, h4⟩, h1, h5, h6⟩
        exact ⟨⟨h1, h2⟩, ⟨h3, h4⟩, h5, h6⟩

theorem smWf_smDel (d : α) (m : List (Nat × α)) (k : Nat) (h : smWf d m = true) : smWf d (smDel k m) = true := by
  rw [smWf_iff] at *
  rw [smDel_eq_filter]
  exact ⟨h.1.filter _, fun x hx => h.2 x (List.mem_filter.1 hx).1⟩

theorem smWf_smIns (d v : α) (m : List (Nat × α)) (k : Nat) (hv : v ≠ d) (hk : ∀ x ∈ m, x.1 ≠ k)
    (h : smWf d m = true) : smWf d (smIns k v m) = true := by
  rw [smWf_iff] at *
  refine ⟨?_, fun x hx => (mem_smIns hx).elim (fun e => e ▸ hv) (h.2 x)⟩
  replace h := h.1
  induction m with
  | nil => simp [smIns]
  | cons y t ih =>
    have hy := hk y (List.mem_cons_self ..)
    simp only [smIns]; split
    · rename_i hlt
      exact List.pairwise_cons.2 ⟨fun z hz => (List.mem_cons.1 hz).elim (fun e => e ▸ hlt)
        (fun hz => Nat.lt_trans hlt ((List.pairwise_cons.1 h).1 z hz)), h⟩
    · rename_i hlt
      refine List.pairwise_cons.2 ⟨fun z hz => ?_, ih (fun x hx => hk x (List.mem_cons_of_mem _ hx))
        (List.pairwise_cons.1 h).2⟩
      rcases mem_smIns hz with rfl | hz
      · show y.1 < k; omega
      · exact (List.pairwise_cons.1 h).1 z hz

/-- Every write keeps the canonical form. -/
@[simp] theorem smWf_smPut (d v : α) (m : List (Nat × α)) (k : Nat) (h : smWf d m = true) :
    smWf d (smPut d m k v) = true := by
  unfold smPut; split
  · exact smWf_smDel d m k h
  · exact smWf_smIns d v _ k (by assumption) (fun x hx => (key_smDel hx).2) (smWf_smDel d m k h)

/-! ## Byte memories -/

/-- A byte reads as it was last written, and a write of one byte leaves every other alone. -/
theorem byteAt_putByte (m : List Host.Cell) (a b : Nat) (v : Byte) :
    byteAt (putByte m a v) b = if b = a then v else byteAt m b := smGet_smPut 0 v m a b

@[simp] theorem smWf_putByte (m : List Host.Cell) (a : Nat) (v : Byte) (h : smWf (0 : Byte) m = true) :
    smWf (0 : Byte) (putByte m a v) = true := smWf_smPut 0 v m a h

@[simp] theorem smWf_putBytes (m : List Host.Cell) (a : Nat) (l : List Byte) (h : smWf (0 : Byte) m = true) :
    smWf (0 : Byte) (putBytes m a l) = true := by
  induction l generalizing m a with
  | nil => exact h
  | cons b t ih => exact ih _ _ (smWf_putByte m a b h)

@[simp] theorem smWf_putCells (m : List Host.Cell) (l : List (Nat × Byte)) (h : smWf (0 : Byte) m = true) :
    smWf (0 : Byte) (putCells m l) = true := by
  induction l generalizing m with
  | nil => exact h
  | cons b t ih => exact ih _ (smWf_putByte m b.1 b.2 h)

/-- A write of a run of bytes leaves every byte outside the run alone. -/
theorem byteAt_putBytes_out (m : List Host.Cell) (a b : Nat) (l : List Byte) (h : b < a ∨ a + l.length ≤ b) :
    byteAt (putBytes m a l) b = byteAt m b := by
  induction l generalizing m a with
  | nil => rfl
  | cons x t ih =>
    simp only [List.length_cons] at h
    rw [putBytes, ih _ _ (by omega), byteAt_putByte, if_neg (by omega)]

/-- Each byte of the run reads as it was written. -/
theorem byteAt_putBytes_in (m : List Host.Cell) (a i : Nat) (l : List Byte) (h : i < l.length) :
    byteAt (putBytes m a l) (a + i) = l[i] := by
  induction l generalizing m a i with
  | nil => simp at h
  | cons x t ih =>
    cases i with
    | zero => rw [putBytes, Nat.add_zero, byteAt_putBytes_out _ _ _ _ (by omega), byteAt_putByte]; simp
    | succ i =>
      have := ih (putByte m a x) (a + 1) i (by simpa using h)
      rw [putBytes, show a + (i + 1) = a + 1 + i by omega, this]; rfl

theorem putCells_addressed (m : List Host.Cell) (a : Nat) (l : List Byte) :
    putCells m (addressed a l) = putBytes m a l := by
  induction l generalizing m a with
  | nil => rfl
  | cons b t ih => exact ih (putByte m a b) (a + 1)

/-- What storing bytes does to the other bytes of a store. -/
theorem byteAt_putCells_out (m : List Host.Cell) (b : Nat) (l : List (Nat × Byte)) (h : ∀ x ∈ l, x.1 ≠ b) :
    byteAt (putCells m l) b = byteAt m b := by
  induction l generalizing m with
  | nil => rfl
  | cons x t ih =>
    have e := ih (putByte m x.1 x.2) (fun y hy => h y (List.mem_cons_of_mem _ hy))
    rw [byteAt_putByte, if_neg (Ne.symm (h x (List.mem_cons_self ..)))] at e
    exact e

@[simp] theorem smWf_storeWrite (st : Store) (sram : Bool) (gran : Nat) (l : List (Nat × Byte)) (p : Bool)
    (h : smWf (0 : Byte) st.cells = true) : smWf (0 : Byte) (storeWrite st sram gran l p).cells = true :=
  smWf_putCells _ _ h

/-! ## Parts of the state by number -/

@[simp] theorem core_setCore (s : State) (g : Nat) (c : Core) : (s.setCore g c).core g = c :=
  smGet_smPut_self _ _ _ _

@[simp] theorem core_setCore_ne (s : State) {g h : Nat} (c : Core) (e : h ≠ g) : (s.setCore g c).core h = s.core h :=
  smGet_smPut_ne _ _ _ e

theorem core_setCore_eq (s : State) (g h : Nat) (c : Core) :
    (s.setCore g c).core h = if h = g then c else s.core h := smGet_smPut _ _ _ _ _

@[simp] theorem queue_setQueue (s : State) (n : Nat) (q : Queue) : (s.setQueue n q).queue n = q :=
  smGet_smPut_self _ _ _ _

@[simp] theorem die_setDie (s : State) (d : Fin 8) (x : DiePwr) : (s.setDie d x).die d = x := by
  simp [State.die, State.setDie]

@[simp] theorem stack_setStack (s : State) (n : Fin 12) (x : Stack) : (s.setStack n x).stack n = x := by
  simp [State.stack, State.setStack]

@[simp] theorem port_setPort (s : State) (p : Port) (x : PortSt) : (s.setPort p x).port p = x := by
  simp [State.port, State.setPort]

@[simp] theorem eng_setEng (s : State) (e : Fin 2) (x : ColEng) : (s.setEng e x).eng e = x := by
  simp [State.eng, State.setEng]

/-! ## Registers with a fixed value (R65) -/

/-- A write of s0 is discarded; of any other register, it is what later reads give. -/
theorem getS_setS (q : Seq) (r k : BitVec 5) (v : Word64) :
    (q.setS r v).getS k = if k = r ∧ r ≠ 0 then v else q.getS k := by
  have hr := r.isLt
  have hk := k.isLt
  by_cases hr0 : r = 0#5
  · simp [Seq.setS, hr0]
  · by_cases hkr : k = r
    · simp [Seq.setS, Seq.getS, hkr, hr0]
    · have : r.toNat ≠ k.toNat := fun e => hkr (BitVec.eq_of_toNat_eq e.symm)
      simp [Seq.setS, Seq.getS, hkr, hr0, Vector.getElem_set_ne _ _ this]

/-- p0 reads 1. -/
theorem getP_zero (q : Seq) : q.getP 0 = true := rfl

end Sys2Proof.Machine
end

