-- ==== Sys2Proof/Laws/State.lean ====
section
/-!
SUPPORT. What each update of the state leaves as it was: one lemma for each field and update.
-/

namespace Sys2Proof.Machine

/-! ## setCore -/

@[simp] theorem setCore_pending (s : State) (g : Nat) (c : Core) : (s.setCore g c).pending = s.pending := rfl
@[simp] theorem setCore_quays (s : State) (g : Nat) (c : Core) : (s.setCore g c).quays = s.quays := rfl
@[simp] theorem setCore_dmem (s : State) (g : Nat) (c : Core) : (s.setCore g c).dmem = s.dmem := rfl
@[simp] theorem setCore_old (s : State) (g : Nat) (c : Core) : (s.setCore g c).old = s.old := rfl
@[simp] theorem setCore_sch (s : State) (g : Nat) (c : Core) : (s.setCore g c).sch = s.sch := rfl
@[simp] theorem setCore_tt (s : State) (g : Nat) (c : Core) : (s.setCore g c).tt = s.tt := rfl
@[simp] theorem setCore_col (s : State) (g : Nat) (c : Core) : (s.setCore g c).col = s.col := rfl
@[simp] theorem setCore_lnk (s : State) (g : Nat) (c : Core) : (s.setCore g c).lnk = s.lnk := rfl
@[simp] theorem setCore_hbm (s : State) (g : Nat) (c : Core) : (s.setCore g c).hbm = s.hbm := rfl
@[simp] theorem setCore_hrw (s : State) (g : Nat) (c : Core) : (s.setCore g c).hrw = s.hrw := rfl
@[simp] theorem setCore_int (s : State) (g : Nat) (c : Core) : (s.setCore g c).int = s.int := rfl
@[simp] theorem setCore_pwr (s : State) (g : Nat) (c : Core) : (s.setCore g c).pwr = s.pwr := rfl
@[simp] theorem setCore_sec (s : State) (g : Nat) (c : Core) : (s.setCore g c).sec = s.sec := rfl
@[simp] theorem setCore_log (s : State) (g : Nat) (c : Core) : (s.setCore g c).log = s.log := rfl
@[simp] theorem setCore_pins (s : State) (g : Nat) (c : Core) : (s.setCore g c).pins = s.pins := rfl
@[simp] theorem setCore_out (s : State) (g : Nat) (c : Core) : (s.setCore g c).out = s.out := rfl
@[simp] theorem setCore_reply (s : State) (g : Nat) (c : Core) : (s.setCore g c).reply = s.reply := rfl
@[simp] theorem setCore_released (s : State) (g : Nat) (c : Core) : (s.setCore g c).released = s.released := rfl
@[simp] theorem setCore_wall (s : State) (g : Nat) (c : Core) : (s.setCore g c).wall = s.wall := rfl
@[simp] theorem setCore_freeCtr (s : State) (g : Nat) (c : Core) : (s.setCore g c).freeCtr = s.freeCtr := rfl

/-! ## setQueue -/

@[simp] theorem setQueue_pending (s : State) (n : Nat) (q : Queue) : (s.setQueue n q).pending = s.pending := rfl
@[simp] theorem setQueue_cores (s : State) (n : Nat) (q : Queue) : (s.setQueue n q).cores = s.cores := rfl
@[simp] theorem setQueue_quays (s : State) (n : Nat) (q : Queue) : (s.setQueue n q).quays = s.quays := rfl
@[simp] theorem setQueue_dmem (s : State) (n : Nat) (q : Queue) : (s.setQueue n q).dmem = s.dmem := rfl
@[simp] theorem setQueue_old (s : State) (n : Nat) (q : Queue) : (s.setQueue n q).old = s.old := rfl
@[simp] theorem setQueue_tt (s : State) (n : Nat) (q : Queue) : (s.setQueue n q).tt = s.tt := rfl
@[simp] theorem setQueue_col (s : State) (n : Nat) (q : Queue) : (s.setQueue n q).col = s.col := rfl
@[simp] theorem setQueue_lnk (s : State) (n : Nat) (q : Queue) : (s.setQueue n q).lnk = s.lnk := rfl
@[simp] theorem setQueue_hbm (s : State) (n : Nat) (q : Queue) : (s.setQueue n q).hbm = s.hbm := rfl
@[simp] theorem setQueue_hrw (s : State) (n : Nat) (q : Queue) : (s.setQueue n q).hrw = s.hrw := rfl
@[simp] theorem setQueue_int (s : State) (n : Nat) (q : Queue) : (s.setQueue n q).int = s.int := rfl
@[simp] theorem setQueue_pwr (s : State) (n : Nat) (q : Queue) : (s.setQueue n q).pwr = s.pwr := rfl
@[simp] theorem setQueue_sec (s : State) (n : Nat) (q : Queue) : (s.setQueue n q).sec = s.sec := rfl
@[simp] theorem setQueue_log (s : State) (n : Nat) (q : Queue) : (s.setQueue n q).log = s.log := rfl
@[simp] theorem setQueue_pins (s : State) (n : Nat) (q : Queue) : (s.setQueue n q).pins = s.pins := rfl
@[simp] theorem setQueue_out (s : State) (n : Nat) (q : Queue) : (s.setQueue n q).out = s.out := rfl
@[simp] theorem setQueue_reply (s : State) (n : Nat) (q : Queue) : (s.setQueue n q).reply = s.reply := rfl
@[simp] theorem setQueue_released (s : State) (n : Nat) (q : Queue) : (s.setQueue n q).released = s.released := rfl
@[simp] theorem setQueue_wall (s : State) (n : Nat) (q : Queue) : (s.setQueue n q).wall = s.wall := rfl
@[simp] theorem setQueue_freeCtr (s : State) (n : Nat) (q : Queue) : (s.setQueue n q).freeCtr = s.freeCtr := rfl

/-! ## setDie -/

@[simp] theorem setDie_pending (s : State) (d : Fin 8) (x : DiePwr) : (s.setDie d x).pending = s.pending := rfl
@[simp] theorem setDie_cores (s : State) (d : Fin 8) (x : DiePwr) : (s.setDie d x).cores = s.cores := rfl
@[simp] theorem setDie_quays (s : State) (d : Fin 8) (x : DiePwr) : (s.setDie d x).quays = s.quays := rfl
@[simp] theorem setDie_dmem (s : State) (d : Fin 8) (x : DiePwr) : (s.setDie d x).dmem = s.dmem := rfl
@[simp] theorem setDie_old (s : State) (d : Fin 8) (x : DiePwr) : (s.setDie d x).old = s.old := rfl
@[simp] theorem setDie_sch (s : State) (d : Fin 8) (x : DiePwr) : (s.setDie d x).sch = s.sch := rfl
@[simp] theorem setDie_tt (s : State) (d : Fin 8) (x : DiePwr) : (s.setDie d x).tt = s.tt := rfl
@[simp] theorem setDie_col (s : State) (d : Fin 8) (x : DiePwr) : (s.setDie d x).col = s.col := rfl
@[simp] theorem setDie_lnk (s : State) (d : Fin 8) (x : DiePwr) : (s.setDie d x).lnk = s.lnk := rfl
@[simp] theorem setDie_hbm (s : State) (d : Fin 8) (x : DiePwr) : (s.setDie d x).hbm = s.hbm := rfl
@[simp] theorem setDie_hrw (s : State) (d : Fin 8) (x : DiePwr) : (s.setDie d x).hrw = s.hrw := rfl
@[simp] theorem setDie_int (s : State) (d : Fin 8) (x : DiePwr) : (s.setDie d x).int = s.int := rfl
@[simp] theorem setDie_sec (s : State) (d : Fin 8) (x : DiePwr) : (s.setDie d x).sec = s.sec := rfl
@[simp] theorem setDie_log (s : State) (d : Fin 8) (x : DiePwr) : (s.setDie d x).log = s.log := rfl
@[simp] theorem setDie_pins (s : State) (d : Fin 8) (x : DiePwr) : (s.setDie d x).pins = s.pins := rfl
@[simp] theorem setDie_out (s : State) (d : Fin 8) (x : DiePwr) : (s.setDie d x).out = s.out := rfl
@[simp] theorem setDie_reply (s : State) (d : Fin 8) (x : DiePwr) : (s.setDie d x).reply = s.reply := rfl
@[simp] theorem setDie_released (s : State) (d : Fin 8) (x : DiePwr) : (s.setDie d x).released = s.released := rfl
@[simp] theorem setDie_wall (s : State) (d : Fin 8) (x : DiePwr) : (s.setDie d x).wall = s.wall := rfl
@[simp] theorem setDie_freeCtr (s : State) (d : Fin 8) (x : DiePwr) : (s.setDie d x).freeCtr = s.freeCtr := rfl

/-! ## setStack -/

@[simp] theorem setStack_pending (s : State) (n : Fin 12) (x : Stack) : (s.setStack n x).pending = s.pending := rfl
@[simp] theorem setStack_cores (s : State) (n : Fin 12) (x : Stack) : (s.setStack n x).cores = s.cores := rfl
@[simp] theorem setStack_quays (s : State) (n : Fin 12) (x : Stack) : (s.setStack n x).quays = s.quays := rfl
@[simp] theorem setStack_dmem (s : State) (n : Fin 12) (x : Stack) : (s.setStack n x).dmem = s.dmem := rfl
@[simp] theorem setStack_old (s : State) (n : Fin 12) (x : Stack) : (s.setStack n x).old = s.old := rfl
@[simp] theorem setStack_sch (s : State) (n : Fin 12) (x : Stack) : (s.setStack n x).sch = s.sch := rfl
@[simp] theorem setStack_tt (s : State) (n : Fin 12) (x : Stack) : (s.setStack n x).tt = s.tt := rfl
@[simp] theorem setStack_col (s : State) (n : Fin 12) (x : Stack) : (s.setStack n x).col = s.col := rfl
@[simp] theorem setStack_lnk (s : State) (n : Fin 12) (x : Stack) : (s.setStack n x).lnk = s.lnk := rfl
@[simp] theorem setStack_hrw (s : State) (n : Fin 12) (x : Stack) : (s.setStack n x).hrw = s.hrw := rfl
@[simp] theorem setStack_int (s : State) (n : Fin 12) (x : Stack) : (s.setStack n x).int = s.int := rfl
@[simp] theorem setStack_pwr (s : State) (n : Fin 12) (x : Stack) : (s.setStack n x).pwr = s.pwr := rfl
@[simp] theorem setStack_sec (s : State) (n : Fin 12) (x : Stack) : (s.setStack n x).sec = s.sec := rfl
@[simp] theorem setStack_log (s : State) (n : Fin 12) (x : Stack) : (s.setStack n x).log = s.log := rfl
@[simp] theorem setStack_pins (s : State) (n : Fin 12) (x : Stack) : (s.setStack n x).pins = s.pins := rfl
@[simp] theorem setStack_out (s : State) (n : Fin 12) (x : Stack) : (s.setStack n x).out = s.out := rfl
@[simp] theorem setStack_reply (s : State) (n : Fin 12) (x : Stack) : (s.setStack n x).reply = s.reply := rfl
@[simp] theorem setStack_released (s : State) (n : Fin 12) (x : Stack) : (s.setStack n x).released = s.released := rfl
@[simp] theorem setStack_wall (s : State) (n : Fin 12) (x : Stack) : (s.setStack n x).wall = s.wall := rfl
@[simp] theorem setStack_freeCtr (s : State) (n : Fin 12) (x : Stack) : (s.setStack n x).freeCtr = s.freeCtr := rfl

/-! ## setPort -/

@[simp] theorem setPort_pending (s : State) (p : Port) (x : PortSt) : (s.setPort p x).pending = s.pending := rfl
@[simp] theorem setPort_cores (s : State) (p : Port) (x : PortSt) : (s.setPort p x).cores = s.cores := rfl
@[simp] theorem setPort_quays (s : State) (p : Port) (x : PortSt) : (s.setPort p x).quays = s.quays := rfl
@[simp] theorem setPort_dmem (s : State) (p : Port) (x : PortSt) : (s.setPort p x).dmem = s.dmem := rfl
@[simp] theorem setPort_old (s : State) (p : Port) (x : PortSt) : (s.setPort p x).old = s.old := rfl
@[simp] theorem setPort_sch (s : State) (p : Port) (x : PortSt) : (s.setPort p x).sch = s.sch := rfl
@[simp] theorem setPort_tt (s : State) (p : Port) (x : PortSt) : (s.setPort p x).tt = s.tt := rfl
@[simp] theorem setPort_col (s : State) (p : Port) (x : PortSt) : (s.setPort p x).col = s.col := rfl
@[simp] theorem setPort_hbm (s : State) (p : Port) (x : PortSt) : (s.setPort p x).hbm = s.hbm := rfl
@[simp] theorem setPort_hrw (s : State) (p : Port) (x : PortSt) : (s.setPort p x).hrw = s.hrw := rfl
@[simp] theorem setPort_int (s : State) (p : Port) (x : PortSt) : (s.setPort p x).int = s.int := rfl
@[simp] theorem setPort_pwr (s : State) (p : Port) (x : PortSt) : (s.setPort p x).pwr = s.pwr := rfl
@[simp] theorem setPort_sec (s : State) (p : Port) (x : PortSt) : (s.setPort p x).sec = s.sec := rfl
@[simp] theorem setPort_log (s : State) (p : Port) (x : PortSt) : (s.setPort p x).log = s.log := rfl
@[simp] theorem setPort_pins (s : State) (p : Port) (x : PortSt) : (s.setPort p x).pins = s.pins := rfl
@[simp] theorem setPort_out (s : State) (p : Port) (x : PortSt) : (s.setPort p x).out = s.out := rfl
@[simp] theorem setPort_reply (s : State) (p : Port) (x : PortSt) : (s.setPort p x).reply = s.reply := rfl
@[simp] theorem setPort_released (s : State) (p : Port) (x : PortSt) : (s.setPort p x).released = s.released := rfl
@[simp] theorem setPort_wall (s : State) (p : Port) (x : PortSt) : (s.setPort p x).wall = s.wall := rfl
@[simp] theorem setPort_freeCtr (s : State) (p : Port) (x : PortSt) : (s.setPort p x).freeCtr = s.freeCtr := rfl

/-! ## setEng -/

@[simp] theorem setEng_pending (s : State) (e : Fin 2) (x : ColEng) : (s.setEng e x).pending = s.pending := rfl
@[simp] theorem setEng_cores (s : State) (e : Fin 2) (x : ColEng) : (s.setEng e x).cores = s.cores := rfl
@[simp] theorem setEng_quays (s : State) (e : Fin 2) (x : ColEng) : (s.setEng e x).quays = s.quays := rfl
@[simp] theorem setEng_dmem (s : State) (e : Fin 2) (x : ColEng) : (s.setEng e x).dmem = s.dmem := rfl
@[simp] theorem setEng_old (s : State) (e : Fin 2) (x : ColEng) : (s.setEng e x).old = s.old := rfl
@[simp] theorem setEng_sch (s : State) (e : Fin 2) (x : ColEng) : (s.setEng e x).sch = s.sch := rfl
@[simp] theorem setEng_tt (s : State) (e : Fin 2) (x : ColEng) : (s.setEng e x).tt = s.tt := rfl
@[simp] theorem setEng_lnk (s : State) (e : Fin 2) (x : ColEng) : (s.setEng e x).lnk = s.lnk := rfl
@[simp] theorem setEng_hbm (s : State) (e : Fin 2) (x : ColEng) : (s.setEng e x).hbm = s.hbm := rfl
@[simp] theorem setEng_hrw (s : State) (e : Fin 2) (x : ColEng) : (s.setEng e x).hrw = s.hrw := rfl
@[simp] theorem setEng_int (s : State) (e : Fin 2) (x : ColEng) : (s.setEng e x).int = s.int := rfl
@[simp] theorem setEng_pwr (s : State) (e : Fin 2) (x : ColEng) : (s.setEng e x).pwr = s.pwr := rfl
@[simp] theorem setEng_sec (s : State) (e : Fin 2) (x : ColEng) : (s.setEng e x).sec = s.sec := rfl
@[simp] theorem setEng_log (s : State) (e : Fin 2) (x : ColEng) : (s.setEng e x).log = s.log := rfl
@[simp] theorem setEng_pins (s : State) (e : Fin 2) (x : ColEng) : (s.setEng e x).pins = s.pins := rfl
@[simp] theorem setEng_out (s : State) (e : Fin 2) (x : ColEng) : (s.setEng e x).out = s.out := rfl
@[simp] theorem setEng_reply (s : State) (e : Fin 2) (x : ColEng) : (s.setEng e x).reply = s.reply := rfl
@[simp] theorem setEng_released (s : State) (e : Fin 2) (x : ColEng) : (s.setEng e x).released = s.released := rfl
@[simp] theorem setEng_wall (s : State) (e : Fin 2) (x : ColEng) : (s.setEng e x).wall = s.wall := rfl
@[simp] theorem setEng_freeCtr (s : State) (e : Fin 2) (x : ColEng) : (s.setEng e x).freeCtr = s.freeCtr := rfl

/-! ## addTicket -/

@[simp] theorem addTicket_pending (s : State) (t : Nat) (v : Word32) : (s.addTicket t v).pending = s.pending := rfl
@[simp] theorem addTicket_cores (s : State) (t : Nat) (v : Word32) : (s.addTicket t v).cores = s.cores := rfl
@[simp] theorem addTicket_quays (s : State) (t : Nat) (v : Word32) : (s.addTicket t v).quays = s.quays := rfl
@[simp] theorem addTicket_dmem (s : State) (t : Nat) (v : Word32) : (s.addTicket t v).dmem = s.dmem := rfl
@[simp] theorem addTicket_old (s : State) (t : Nat) (v : Word32) : (s.addTicket t v).old = s.old := rfl
@[simp] theorem addTicket_tt (s : State) (t : Nat) (v : Word32) : (s.addTicket t v).tt = s.tt := rfl
@[simp] theorem addTicket_col (s : State) (t : Nat) (v : Word32) : (s.addTicket t v).col = s.col := rfl
@[simp] theorem addTicket_lnk (s : State) (t : Nat) (v : Word32) : (s.addTicket t v).lnk = s.lnk := rfl
@[simp] theorem addTicket_hbm (s : State) (t : Nat) (v : Word32) : (s.addTicket t v).hbm = s.hbm := rfl
@[simp] theorem addTicket_hrw (s : State) (t : Nat) (v : Word32) : (s.addTicket t v).hrw = s.hrw := rfl
@[simp] theorem addTicket_int (s : State) (t : Nat) (v : Word32) : (s.addTicket t v).int = s.int := rfl
@[simp] theorem addTicket_pwr (s : State) (t : Nat) (v : Word32) : (s.addTicket t v).pwr = s.pwr := rfl
@[simp] theorem addTicket_sec (s : State) (t : Nat) (v : Word32) : (s.addTicket t v).sec = s.sec := rfl
@[simp] theorem addTicket_log (s : State) (t : Nat) (v : Word32) : (s.addTicket t v).log = s.log := rfl
@[simp] theorem addTicket_pins (s : State) (t : Nat) (v : Word32) : (s.addTicket t v).pins = s.pins := rfl
@[simp] theorem addTicket_out (s : State) (t : Nat) (v : Word32) : (s.addTicket t v).out = s.out := rfl
@[simp] theorem addTicket_reply (s : State) (t : Nat) (v : Word32) : (s.addTicket t v).reply = s.reply := rfl
@[simp] theorem addTicket_released (s : State) (t : Nat) (v : Word32) : (s.addTicket t v).released = s.released := rfl
@[simp] theorem addTicket_wall (s : State) (t : Nat) (v : Word32) : (s.addTicket t v).wall = s.wall := rfl
@[simp] theorem addTicket_freeCtr (s : State) (t : Nat) (v : Word32) : (s.addTicket t v).freeCtr = s.freeCtr := rfl

/-! ## emit -/

@[simp] theorem emit_pending (s : State) (o : Out) : (s.emit o).pending = s.pending := rfl
@[simp] theorem emit_cores (s : State) (o : Out) : (s.emit o).cores = s.cores := rfl
@[simp] theorem emit_quays (s : State) (o : Out) : (s.emit o).quays = s.quays := rfl
@[simp] theorem emit_dmem (s : State) (o : Out) : (s.emit o).dmem = s.dmem := rfl
@[simp] theorem emit_old (s : State) (o : Out) : (s.emit o).old = s.old := rfl
@[simp] theorem emit_sch (s : State) (o : Out) : (s.emit o).sch = s.sch := rfl
@[simp] theorem emit_tt (s : State) (o : Out) : (s.emit o).tt = s.tt := rfl
@[simp] theorem emit_col (s : State) (o : Out) : (s.emit o).col = s.col := rfl
@[simp] theorem emit_lnk (s : State) (o : Out) : (s.emit o).lnk = s.lnk := rfl
@[simp] theorem emit_hbm (s : State) (o : Out) : (s.emit o).hbm = s.hbm := rfl
@[simp] theorem emit_hrw (s : State) (o : Out) : (s.emit o).hrw = s.hrw := rfl
@[simp] theorem emit_int (s : State) (o : Out) : (s.emit o).int = s.int := rfl
@[simp] theorem emit_pwr (s : State) (o : Out) : (s.emit o).pwr = s.pwr := rfl
@[simp] theorem emit_sec (s : State) (o : Out) : (s.emit o).sec = s.sec := rfl
@[simp] theorem emit_log (s : State) (o : Out) : (s.emit o).log = s.log := rfl
@[simp] theorem emit_pins (s : State) (o : Out) : (s.emit o).pins = s.pins := rfl
@[simp] theorem emit_reply (s : State) (o : Out) : (s.emit o).reply = s.reply := rfl
@[simp] theorem emit_released (s : State) (o : Out) : (s.emit o).released = s.released := rfl
@[simp] theorem emit_wall (s : State) (o : Out) : (s.emit o).wall = s.wall := rfl
@[simp] theorem emit_freeCtr (s : State) (o : Out) : (s.emit o).freeCtr = s.freeCtr := rfl

/-! ## answer -/

@[simp] theorem answer_pending (s : State) (v : Nat) (b : List Byte) (p : Bool) : (s.answer v b p).pending = s.pending := rfl
@[simp] theorem answer_cores (s : State) (v : Nat) (b : List Byte) (p : Bool) : (s.answer v b p).cores = s.cores := rfl
@[simp] theorem answer_quays (s : State) (v : Nat) (b : List Byte) (p : Bool) : (s.answer v b p).quays = s.quays := rfl
@[simp] theorem answer_dmem (s : State) (v : Nat) (b : List Byte) (p : Bool) : (s.answer v b p).dmem = s.dmem := rfl
@[simp] theorem answer_old (s : State) (v : Nat) (b : List Byte) (p : Bool) : (s.answer v b p).old = s.old := rfl
@[simp] theorem answer_sch (s : State) (v : Nat) (b : List Byte) (p : Bool) : (s.answer v b p).sch = s.sch := rfl
@[simp] theorem answer_tt (s : State) (v : Nat) (b : List Byte) (p : Bool) : (s.answer v b p).tt = s.tt := rfl
@[simp] theorem answer_col (s : State) (v : Nat) (b : List Byte) (p : Bool) : (s.answer v b p).col = s.col := rfl
@[simp] theorem answer_lnk (s : State) (v : Nat) (b : List Byte) (p : Bool) : (s.answer v b p).lnk = s.lnk := rfl
@[simp] theorem answer_hbm (s : State) (v : Nat) (b : List Byte) (p : Bool) : (s.answer v b p).hbm = s.hbm := rfl
@[simp] theorem answer_hrw (s : State) (v : Nat) (b : List Byte) (p : Bool) : (s.answer v b p).hrw = s.hrw := rfl
@[simp] theorem answer_int (s : State) (v : Nat) (b : List Byte) (p : Bool) : (s.answer v b p).int = s.int := rfl
@[simp] theorem answer_pwr (s : State) (v : Nat) (b : List Byte) (p : Bool) : (s.answer v b p).pwr = s.pwr := rfl
@[simp] theorem answer_sec (s : State) (v : Nat) (b : List Byte) (p : Bool) : (s.answer v b p).sec = s.sec := rfl
@[simp] theorem answer_log (s : State) (v : Nat) (b : List Byte) (p : Bool) : (s.answer v b p).log = s.log := rfl
@[simp] theorem answer_pins (s : State) (v : Nat) (b : List Byte) (p : Bool) : (s.answer v b p).pins = s.pins := rfl
@[simp] theorem answer_out (s : State) (v : Nat) (b : List Byte) (p : Bool) : (s.answer v b p).out = s.out := rfl
@[simp] theorem answer_released (s : State) (v : Nat) (b : List Byte) (p : Bool) : (s.answer v b p).released = s.released := rfl
@[simp] theorem answer_wall (s : State) (v : Nat) (b : List Byte) (p : Bool) : (s.answer v b p).wall = s.wall := rfl
@[simp] theorem answer_freeCtr (s : State) (v : Nat) (b : List Byte) (p : Bool) : (s.answer v b p).freeCtr = s.freeCtr := rfl

/-! ## healthSet -/

@[simp] theorem healthSet_pending (s : State) (o w v : Nat) : (s.healthSet o w v).pending = s.pending := rfl
@[simp] theorem healthSet_cores (s : State) (o w v : Nat) : (s.healthSet o w v).cores = s.cores := rfl
@[simp] theorem healthSet_quays (s : State) (o w v : Nat) : (s.healthSet o w v).quays = s.quays := rfl
@[simp] theorem healthSet_dmem (s : State) (o w v : Nat) : (s.healthSet o w v).dmem = s.dmem := rfl
@[simp] theorem healthSet_old (s : State) (o w v : Nat) : (s.healthSet o w v).old = s.old := rfl
@[simp] theorem healthSet_sch (s : State) (o w v : Nat) : (s.healthSet o w v).sch = s.sch := rfl
@[simp] theorem healthSet_tt (s : State) (o w v : Nat) : (s.healthSet o w v).tt = s.tt := rfl
@[simp] theorem healthSet_col (s : State) (o w v : Nat) : (s.healthSet o w v).col = s.col := rfl
@[simp] theorem healthSet_lnk (s : State) (o w v : Nat) : (s.healthSet o w v).lnk = s.lnk := rfl
@[simp] theorem healthSet_hbm (s : State) (o w v : Nat) : (s.healthSet o w v).hbm = s.hbm := rfl
@[simp] theorem healthSet_hrw (s : State) (o w v : Nat) : (s.healthSet o w v).hrw = s.hrw := rfl
@[simp] theorem healthSet_int (s : State) (o w v : Nat) : (s.healthSet o w v).int = s.int := rfl
@[simp] theorem healthSet_pwr (s : State) (o w v : Nat) : (s.healthSet o w v).pwr = s.pwr := rfl
@[simp] theorem healthSet_sec (s : State) (o w v : Nat) : (s.healthSet o w v).sec = s.sec := rfl
@[simp] theorem healthSet_pins (s : State) (o w v : Nat) : (s.healthSet o w v).pins = s.pins := rfl
@[simp] theorem healthSet_out (s : State) (o w v : Nat) : (s.healthSet o w v).out = s.out := rfl
@[simp] theorem healthSet_reply (s : State) (o w v : Nat) : (s.healthSet o w v).reply = s.reply := rfl
@[simp] theorem healthSet_released (s : State) (o w v : Nat) : (s.healthSet o w v).released = s.released := rfl
@[simp] theorem healthSet_wall (s : State) (o w v : Nat) : (s.healthSet o w v).wall = s.wall := rfl
@[simp] theorem healthSet_freeCtr (s : State) (o w v : Nat) : (s.healthSet o w v).freeCtr = s.freeCtr := rfl

/-! ## healthInc -/

@[simp] theorem healthInc_pending (s : State) (o w : Nat) : (s.healthInc o w).pending = s.pending := rfl
@[simp] theorem healthInc_cores (s : State) (o w : Nat) : (s.healthInc o w).cores = s.cores := rfl
@[simp] theorem healthInc_quays (s : State) (o w : Nat) : (s.healthInc o w).quays = s.quays := rfl
@[simp] theorem healthInc_dmem (s : State) (o w : Nat) : (s.healthInc o w).dmem = s.dmem := rfl
@[simp] theorem healthInc_old (s : State) (o w : Nat) : (s.healthInc o w).old = s.old := rfl
@[simp] theorem healthInc_sch (s : State) (o w : Nat) : (s.healthInc o w).sch = s.sch := rfl
@[simp] theorem healthInc_tt (s : State) (o w : Nat) : (s.healthInc o w).tt = s.tt := rfl
@[simp] theorem healthInc_col (s : State) (o w : Nat) : (s.healthInc o w).col = s.col := rfl
@[simp] theorem healthInc_lnk (s : State) (o w : Nat) : (s.healthInc o w).lnk = s.lnk := rfl
@[simp] theorem healthInc_hbm (s : State) (o w : Nat) : (s.healthInc o w).hbm = s.hbm := rfl
@[simp] theorem healthInc_hrw (s : State) (o w : Nat) : (s.healthInc o w).hrw = s.hrw := rfl
@[simp] theorem healthInc_int (s : State) (o w : Nat) : (s.healthInc o w).int = s.int := rfl
@[simp] theorem healthInc_pwr (s : State) (o w : Nat) : (s.healthInc o w).pwr = s.pwr := rfl
@[simp] theorem healthInc_sec (s : State) (o w : Nat) : (s.healthInc o w).sec = s.sec := rfl
@[simp] theorem healthInc_pins (s : State) (o w : Nat) : (s.healthInc o w).pins = s.pins := rfl
@[simp] theorem healthInc_out (s : State) (o w : Nat) : (s.healthInc o w).out = s.out := rfl
@[simp] theorem healthInc_reply (s : State) (o w : Nat) : (s.healthInc o w).reply = s.reply := rfl
@[simp] theorem healthInc_released (s : State) (o w : Nat) : (s.healthInc o w).released = s.released := rfl
@[simp] theorem healthInc_wall (s : State) (o w : Nat) : (s.healthInc o w).wall = s.wall := rfl
@[simp] theorem healthInc_freeCtr (s : State) (o w : Nat) : (s.healthInc o w).freeCtr = s.freeCtr := rfl

/-! ## takeRec -/

@[simp] theorem takeRec_pending (s : State) (r : LogRec) : (s.takeRec r).pending = s.pending := rfl
@[simp] theorem takeRec_cores (s : State) (r : LogRec) : (s.takeRec r).cores = s.cores := rfl
@[simp] theorem takeRec_quays (s : State) (r : LogRec) : (s.takeRec r).quays = s.quays := rfl
@[simp] theorem takeRec_dmem (s : State) (r : LogRec) : (s.takeRec r).dmem = s.dmem := rfl
@[simp] theorem takeRec_old (s : State) (r : LogRec) : (s.takeRec r).old = s.old := rfl
@[simp] theorem takeRec_sch (s : State) (r : LogRec) : (s.takeRec r).sch = s.sch := rfl
@[simp] theorem takeRec_tt (s : State) (r : LogRec) : (s.takeRec r).tt = s.tt := rfl
@[simp] theorem takeRec_col (s : State) (r : LogRec) : (s.takeRec r).col = s.col := rfl
@[simp] theorem takeRec_lnk (s : State) (r : LogRec) : (s.takeRec r).lnk = s.lnk := rfl
@[simp] theorem takeRec_hbm (s : State) (r : LogRec) : (s.takeRec r).hbm = s.hbm := rfl
@[simp] theorem takeRec_hrw (s : State) (r : LogRec) : (s.takeRec r).hrw = s.hrw := rfl
@[simp] theorem takeRec_int (s : State) (r : LogRec) : (s.takeRec r).int = s.int := rfl
@[simp] theorem takeRec_pwr (s : State) (r : LogRec) : (s.takeRec r).pwr = s.pwr := rfl
@[simp] theorem takeRec_sec (s : State) (r : LogRec) : (s.takeRec r).sec = s.sec := rfl
@[simp] theorem takeRec_pins (s : State) (r : LogRec) : (s.takeRec r).pins = s.pins := rfl
@[simp] theorem takeRec_out (s : State) (r : LogRec) : (s.takeRec r).out = s.out := rfl
@[simp] theorem takeRec_reply (s : State) (r : LogRec) : (s.takeRec r).reply = s.reply := rfl
@[simp] theorem takeRec_released (s : State) (r : LogRec) : (s.takeRec r).released = s.released := rfl
@[simp] theorem takeRec_wall (s : State) (r : LogRec) : (s.takeRec r).wall = s.wall := rfl
@[simp] theorem takeRec_freeCtr (s : State) (r : LogRec) : (s.takeRec r).freeCtr = s.freeCtr := rfl

/-! ## logRec -/

@[simp] theorem logRec_pending (s : State) (r : LogRec) : (s.logRec r).pending = s.pending := by unfold State.logRec; split_ifs <;> rfl
@[simp] theorem logRec_cores (s : State) (r : LogRec) : (s.logRec r).cores = s.cores := by unfold State.logRec; split_ifs <;> rfl
@[simp] theorem logRec_quays (s : State) (r : LogRec) : (s.logRec r).quays = s.quays := by unfold State.logRec; split_ifs <;> rfl
@[simp] theorem logRec_dmem (s : State) (r : LogRec) : (s.logRec r).dmem = s.dmem := by unfold State.logRec; split_ifs <;> rfl
@[simp] theorem logRec_old (s : State) (r : LogRec) : (s.logRec r).old = s.old := by unfold State.logRec; split_ifs <;> rfl
@[simp] theorem logRec_sch (s : State) (r : LogRec) : (s.logRec r).sch = s.sch := by unfold State.logRec; split_ifs <;> rfl
@[simp] theorem logRec_tt (s : State) (r : LogRec) : (s.logRec r).tt = s.tt := by unfold State.logRec; split_ifs <;> rfl
@[simp] theorem logRec_col (s : State) (r : LogRec) : (s.logRec r).col = s.col := by unfold State.logRec; split_ifs <;> rfl
@[simp] theorem logRec_lnk (s : State) (r : LogRec) : (s.logRec r).lnk = s.lnk := by unfold State.logRec; split_ifs <;> rfl
@[simp] theorem logRec_hbm (s : State) (r : LogRec) : (s.logRec r).hbm = s.hbm := by unfold State.logRec; split_ifs <;> rfl
@[simp] theorem logRec_hrw (s : State) (r : LogRec) : (s.logRec r).hrw = s.hrw := by unfold State.logRec; split_ifs <;> rfl
@[simp] theorem logRec_int (s : State) (r : LogRec) : (s.logRec r).int = s.int := by unfold State.logRec; split_ifs <;> rfl
@[simp] theorem logRec_pwr (s : State) (r : LogRec) : (s.logRec r).pwr = s.pwr := by unfold State.logRec; split_ifs <;> rfl
@[simp] theorem logRec_sec (s : State) (r : LogRec) : (s.logRec r).sec = s.sec := by unfold State.logRec; split_ifs <;> rfl
@[simp] theorem logRec_pins (s : State) (r : LogRec) : (s.logRec r).pins = s.pins := by unfold State.logRec; split_ifs <;> rfl
@[simp] theorem logRec_out (s : State) (r : LogRec) : (s.logRec r).out = s.out := by unfold State.logRec; split_ifs <;> rfl
@[simp] theorem logRec_reply (s : State) (r : LogRec) : (s.logRec r).reply = s.reply := by unfold State.logRec; split_ifs <;> rfl
@[simp] theorem logRec_released (s : State) (r : LogRec) : (s.logRec r).released = s.released := by unfold State.logRec; split_ifs <;> rfl
@[simp] theorem logRec_wall (s : State) (r : LogRec) : (s.logRec r).wall = s.wall := by unfold State.logRec; split_ifs <;> rfl
@[simp] theorem logRec_freeCtr (s : State) (r : LogRec) : (s.logRec r).freeCtr = s.freeCtr := by unfold State.logRec; split_ifs <;> rfl

/-! ## Seq.setS -/

@[simp] theorem setS_a (q : Seq) (r : BitVec 5) (v : Word64) : (q.setS r v).a = q.a := by unfold Seq.setS; split <;> rfl
@[simp] theorem setS_p (q : Seq) (r : BitVec 5) (v : Word64) : (q.setS r v).p = q.p := by unfold Seq.setS; split <;> rfl
@[simp] theorem setS_d (q : Seq) (r : BitVec 5) (v : Word64) : (q.setS r v).d = q.d := by unfold Seq.setS; split <;> rfl
@[simp] theorem setS_pc (q : Seq) (r : BitVec 5) (v : Word64) : (q.setS r v).pc = q.pc := by unfold Seq.setS; split <;> rfl
@[simp] theorem setS_seed (q : Seq) (r : BitVec 5) (v : Word64) : (q.setS r v).seed = q.seed := by unfold Seq.setS; split <;> rfl
@[simp] theorem setS_mIssued (q : Seq) (r : BitVec 5) (v : Word64) : (q.setS r v).mIssued = q.mIssued := by unfold Seq.setS; split <;> rfl
@[simp] theorem setS_vIssued (q : Seq) (r : BitVec 5) (v : Word64) : (q.setS r v).vIssued = q.vIssued := by unfold Seq.setS; split <;> rfl
@[simp] theorem setS_fIssued (q : Seq) (r : BitVec 5) (v : Word64) : (q.setS r v).fIssued = q.fIssued := by unfold Seq.setS; split <;> rfl
@[simp] theorem setS_mec (q : Seq) (r : BitVec 5) (v : Word64) : (q.setS r v).mec = q.mec := by unfold Seq.setS; split <;> rfl
@[simp] theorem setS_vec (q : Seq) (r : BitVec 5) (v : Word64) : (q.setS r v).vec = q.vec := by unfold Seq.setS; split <;> rfl
@[simp] theorem setS_fec (q : Seq) (r : BitVec 5) (v : Word64) : (q.setS r v).fec = q.fec := by unfold Seq.setS; split <;> rfl
@[simp] theorem setS_cond (q : Seq) (r : BitVec 5) (v : Word64) : (q.setS r v).cond = q.cond := by unfold Seq.setS; split <;> rfl
@[simp] theorem setS_ord (q : Seq) (r : BitVec 5) (v : Word64) : (q.setS r v).ord = q.ord := by unfold Seq.setS; split <;> rfl
@[simp] theorem setS_quad (q : Seq) (r : BitVec 5) (v : Word64) : (q.setS r v).quad = q.quad := by unfold Seq.setS; split <;> rfl
@[simp] theorem setS_fault (q : Seq) (r : BitVec 5) (v : Word64) : (q.setS r v).fault = q.fault := by unfold Seq.setS; split <;> rfl
@[simp] theorem setS_multi (q : Seq) (r : BitVec 5) (v : Word64) : (q.setS r v).multi = q.multi := by unfold Seq.setS; split <;> rfl
@[simp] theorem setS_deferred (q : Seq) (r : BitVec 5) (v : Word64) : (q.setS r v).deferred = q.deferred := by unfold Seq.setS; split <;> rfl

/-! ## Seq.setA -/

@[simp] theorem setA_s (q : Seq) (r : BitVec 5) (v : Addr) : (q.setA r v).s = q.s := rfl
@[simp] theorem setA_p (q : Seq) (r : BitVec 5) (v : Addr) : (q.setA r v).p = q.p := rfl
@[simp] theorem setA_d (q : Seq) (r : BitVec 5) (v : Addr) : (q.setA r v).d = q.d := rfl
@[simp] theorem setA_pc (q : Seq) (r : BitVec 5) (v : Addr) : (q.setA r v).pc = q.pc := rfl
@[simp] theorem setA_seed (q : Seq) (r : BitVec 5) (v : Addr) : (q.setA r v).seed = q.seed := rfl
@[simp] theorem setA_mIssued (q : Seq) (r : BitVec 5) (v : Addr) : (q.setA r v).mIssued = q.mIssued := rfl
@[simp] theorem setA_vIssued (q : Seq) (r : BitVec 5) (v : Addr) : (q.setA r v).vIssued = q.vIssued := rfl
@[simp] theorem setA_fIssued (q : Seq) (r : BitVec 5) (v : Addr) : (q.setA r v).fIssued = q.fIssued := rfl
@[simp] theorem setA_mec (q : Seq) (r : BitVec 5) (v : Addr) : (q.setA r v).mec = q.mec := rfl
@[simp] theorem setA_vec (q : Seq) (r : BitVec 5) (v : Addr) : (q.setA r v).vec = q.vec := rfl
@[simp] theorem setA_fec (q : Seq) (r : BitVec 5) (v : Addr) : (q.setA r v).fec = q.fec := rfl
@[simp] theorem setA_cond (q : Seq) (r : BitVec 5) (v : Addr) : (q.setA r v).cond = q.cond := rfl
@[simp] theorem setA_ord (q : Seq) (r : BitVec 5) (v : Addr) : (q.setA r v).ord = q.ord := rfl
@[simp] theorem setA_quad (q : Seq) (r : BitVec 5) (v : Addr) : (q.setA r v).quad = q.quad := rfl
@[simp] theorem setA_fault (q : Seq) (r : BitVec 5) (v : Addr) : (q.setA r v).fault = q.fault := rfl
@[simp] theorem setA_multi (q : Seq) (r : BitVec 5) (v : Addr) : (q.setA r v).multi = q.multi := rfl
@[simp] theorem setA_deferred (q : Seq) (r : BitVec 5) (v : Addr) : (q.setA r v).deferred = q.deferred := rfl

/-! ## Seq.setP -/

@[simp] theorem setP_s (q : Seq) (r : BitVec 5) (v : Bool) : (q.setP r v).s = q.s := by unfold Seq.setP; split <;> rfl
@[simp] theorem setP_a (q : Seq) (r : BitVec 5) (v : Bool) : (q.setP r v).a = q.a := by unfold Seq.setP; split <;> rfl
@[simp] theorem setP_d (q : Seq) (r : BitVec 5) (v : Bool) : (q.setP r v).d = q.d := by unfold Seq.setP; split <;> rfl
@[simp] theorem setP_pc (q : Seq) (r : BitVec 5) (v : Bool) : (q.setP r v).pc = q.pc := by unfold Seq.setP; split <;> rfl
@[simp] theorem setP_seed (q : Seq) (r : BitVec 5) (v : Bool) : (q.setP r v).seed = q.seed := by unfold Seq.setP; split <;> rfl
@[simp] theorem setP_mIssued (q : Seq) (r : BitVec 5) (v : Bool) : (q.setP r v).mIssued = q.mIssued := by unfold Seq.setP; split <;> rfl
@[simp] theorem setP_vIssued (q : Seq) (r : BitVec 5) (v : Bool) : (q.setP r v).vIssued = q.vIssued := by unfold Seq.setP; split <;> rfl
@[simp] theorem setP_fIssued (q : Seq) (r : BitVec 5) (v : Bool) : (q.setP r v).fIssued = q.fIssued := by unfold Seq.setP; split <;> rfl
@[simp] theorem setP_mec (q : Seq) (r : BitVec 5) (v : Bool) : (q.setP r v).mec = q.mec := by unfold Seq.setP; split <;> rfl
@[simp] theorem setP_vec (q : Seq) (r : BitVec 5) (v : Bool) : (q.setP r v).vec = q.vec := by unfold Seq.setP; split <;> rfl
@[simp] theorem setP_fec (q : Seq) (r : BitVec 5) (v : Bool) : (q.setP r v).fec = q.fec := by unfold Seq.setP; split <;> rfl
@[simp] theorem setP_cond (q : Seq) (r : BitVec 5) (v : Bool) : (q.setP r v).cond = q.cond := by unfold Seq.setP; split <;> rfl
@[simp] theorem setP_ord (q : Seq) (r : BitVec 5) (v : Bool) : (q.setP r v).ord = q.ord := by unfold Seq.setP; split <;> rfl
@[simp] theorem setP_quad (q : Seq) (r : BitVec 5) (v : Bool) : (q.setP r v).quad = q.quad := by unfold Seq.setP; split <;> rfl
@[simp] theorem setP_fault (q : Seq) (r : BitVec 5) (v : Bool) : (q.setP r v).fault = q.fault := by unfold Seq.setP; split <;> rfl
@[simp] theorem setP_multi (q : Seq) (r : BitVec 5) (v : Bool) : (q.setP r v).multi = q.multi := by unfold Seq.setP; split <;> rfl
@[simp] theorem setP_deferred (q : Seq) (r : BitVec 5) (v : Bool) : (q.setP r v).deferred = q.deferred := by unfold Seq.setP; split <;> rfl

/-! ## Seq.setD -/

@[simp] theorem setD_s (q : Seq) (r : BitVec 5) (v : Desc) : (q.setD r v).s = q.s := rfl
@[simp] theorem setD_a (q : Seq) (r : BitVec 5) (v : Desc) : (q.setD r v).a = q.a := rfl
@[simp] theorem setD_p (q : Seq) (r : BitVec 5) (v : Desc) : (q.setD r v).p = q.p := rfl
@[simp] theorem setD_pc (q : Seq) (r : BitVec 5) (v : Desc) : (q.setD r v).pc = q.pc := rfl
@[simp] theorem setD_seed (q : Seq) (r : BitVec 5) (v : Desc) : (q.setD r v).seed = q.seed := rfl
@[simp] theorem setD_mIssued (q : Seq) (r : BitVec 5) (v : Desc) : (q.setD r v).mIssued = q.mIssued := rfl
@[simp] theorem setD_vIssued (q : Seq) (r : BitVec 5) (v : Desc) : (q.setD r v).vIssued = q.vIssued := rfl
@[simp] theorem setD_fIssued (q : Seq) (r : BitVec 5) (v : Desc) : (q.setD r v).fIssued = q.fIssued := rfl
@[simp] theorem setD_mec (q : Seq) (r : BitVec 5) (v : Desc) : (q.setD r v).mec = q.mec := rfl
@[simp] theorem setD_vec (q : Seq) (r : BitVec 5) (v : Desc) : (q.setD r v).vec = q.vec := rfl
@[simp] theorem setD_fec (q : Seq) (r : BitVec 5) (v : Desc) : (q.setD r v).fec = q.fec := rfl
@[simp] theorem setD_cond (q : Seq) (r : BitVec 5) (v : Desc) : (q.setD r v).cond = q.cond := rfl
@[simp] theorem setD_ord (q : Seq) (r : BitVec 5) (v : Desc) : (q.setD r v).ord = q.ord := rfl
@[simp] theorem setD_quad (q : Seq) (r : BitVec 5) (v : Desc) : (q.setD r v).quad = q.quad := rfl
@[simp] theorem setD_fault (q : Seq) (r : BitVec 5) (v : Desc) : (q.setD r v).fault = q.fault := rfl
@[simp] theorem setD_multi (q : Seq) (r : BitVec 5) (v : Desc) : (q.setD r v).multi = q.multi := rfl
@[simp] theorem setD_deferred (q : Seq) (r : BitVec 5) (v : Desc) : (q.setD r v).deferred = q.deferred := rfl

end Sys2Proof.Machine
end

