-- ==== Sys2Proof/Laws/Memory.lean ====
section
/-!
SUPPORT. What reads and writes of the device's storage do: a read changes no byte and no core but for the errors it
finds; a write changes the bytes it names and no other.
-/

namespace Sys2Proof.Machine

/-! ## Places -/

theorem store_setStore (s : State) (l k : Loc) (st : Store) :
    (s.setStore l st).store k = if k = l then st else s.store k := by
  cases l with
  | lsp g =>
    cases k with
    | lsp h => simp only [State.setStore, State.store, core_setCore_eq, Loc.lsp.injEq]; split <;> simp_all
    | quay d => rfl
    | dmem => rfl
  | quay d =>
    cases k with
    | lsp h => rfl
    | quay e =>
      simp only [State.setStore, State.store, Loc.quay.injEq]
      by_cases h : e = d
      · simp [h]
      · rw [if_neg h]
        exact Vector.getElem_set_ne _ _ (fun x => h (Fin.ext x.symm))
    | dmem => rfl
  | dmem =>
    cases k with
    | lsp h => rfl
    | quay e => rfl
    | dmem => simp [State.setStore, State.store]

@[simp] theorem store_setStore_self (s : State) (l : Loc) (st : Store) : (s.setStore l st).store l = st := by
  simp [store_setStore]

theorem store_congr {s t : State} (hc : t.cores = s.cores) (hq : t.quays = s.quays) (hd : t.dmem = s.dmem) (l : Loc) :
    t.store l = s.store l := by
  cases l <;> simp [State.store, State.core, hc, hq, hd]

@[simp] theorem store_healthInc (s : State) (o w : Nat) (l : Loc) : (s.healthInc o w).store l = s.store l :=
  store_congr (by simp) (by simp) (by simp) l

@[simp] theorem store_logRec (s : State) (r : LogRec) (l : Loc) : (s.logRec r).store l = s.store l :=
  store_congr (by simp) (by simp) (by simp) l

@[simp] theorem core_healthInc (s : State) (o w g : Nat) : (s.healthInc o w).core g = s.core g := by
  simp [State.core]

@[simp] theorem core_logRec (s : State) (r : LogRec) (g : Nat) : (s.logRec r).core g = s.core g := by
  simp [State.core]

/-- A store leaves a core as it was but for its scratchpad. -/
theorem core_setStore (s : State) (l : Loc) (st : Store) (g : Nat) :
    ∃ x, (s.setStore l st).core g = { s.core g with lsp := x } := by
  cases l with
  | lsp h =>
    by_cases e : g = h
    · exact ⟨st, by simp [State.setStore, e]⟩
    · exact ⟨(s.core g).lsp, by simp [State.setStore, core_setCore_ne _ _ e]⟩
  | quay d => exact ⟨(s.core g).lsp, rfl⟩
  | dmem => exact ⟨(s.core g).lsp, rfl⟩

/-! ## Reads -/

@[simp] theorem listPage_cores (s : State) (p : Nat) (y : PageReason) : (s.listPage p y).cores = s.cores := by
  unfold State.listPage; dsimp only; split <;> (try split) <;> simp
@[simp] theorem listPage_quays (s : State) (p : Nat) (y : PageReason) : (s.listPage p y).quays = s.quays := by
  unfold State.listPage; dsimp only; split <;> (try split) <;> simp
@[simp] theorem listPage_dmem (s : State) (p : Nat) (y : PageReason) : (s.listPage p y).dmem = s.dmem := by
  unfold State.listPage; dsimp only; split <;> (try split) <;> simp

@[simp] theorem onDieEcc_cores (s : State) (n : Nat) : (s.onDieEcc n).cores = s.cores := by
  unfold State.onDieEcc; split <;> simp
@[simp] theorem onDieEcc_quays (s : State) (n : Nat) : (s.onDieEcc n).quays = s.quays := by
  unfold State.onDieEcc; split <;> simp
@[simp] theorem onDieEcc_dmem (s : State) (n : Nat) : (s.onDieEcc n).dmem = s.dmem := by
  unfold State.onDieEcc; split <;> simp

@[simp] theorem lineUe_cores (s : State) (n : Nat) : (s.lineUe n).cores = s.cores := by simp [State.lineUe]
@[simp] theorem lineUe_quays (s : State) (n : Nat) : (s.lineUe n).quays = s.quays := by simp [State.lineUe]
@[simp] theorem lineUe_dmem (s : State) (n : Nat) : (s.lineUe n).dmem =
    { s.dmem with errs := smDel n s.dmem.errs, poison := setAdd n s.dmem.poison } := by simp [State.lineUe]

@[simp] theorem lineCe_cores (s : State) (n : Nat) : (s.lineCe n).cores = s.cores := by
  unfold State.lineCe; dsimp only; split <;> simp
@[simp] theorem lineCe_quays (s : State) (n : Nat) : (s.lineCe n).quays = s.quays := by
  unfold State.lineCe; dsimp only; split <;> simp
@[simp] theorem lineCe_dmem (s : State) (n : Nat) : (s.lineCe n).dmem =
    { s.dmem with errs := smDel n s.dmem.errs } := by unfold State.lineCe; dsimp only; split <;> simp

@[simp] theorem touchLine_cores (s : State) (n : Nat) : (s.touchLine n).cores = s.cores := by
  unfold State.touchLine; split <;> simp
@[simp] theorem touchLine_quays (s : State) (n : Nat) : (s.touchLine n).quays = s.quays := by
  unfold State.touchLine; split <;> simp
@[simp] theorem touchLine_cells (s : State) (n : Nat) : (s.touchLine n).dmem.cells = s.dmem.cells := by
  unfold State.touchLine; split <;> simp

/-- Between s and t no byte differs, and no core but for what its scratchpad has found. -/
structure OnlyFound (s t : State) : Prop where
  cells : ∀ l, (t.store l).cells = (s.store l).cells
  core  : ∀ g, ∃ x, t.core g = { s.core g with lsp := x }

theorem OnlyFound.refl (s : State) : OnlyFound s s := ⟨fun _ => rfl, fun g => ⟨(s.core g).lsp, rfl⟩⟩

theorem OnlyFound.trans {s t u : State} (h : OnlyFound s t) (k : OnlyFound t u) : OnlyFound s u :=
  ⟨fun l => (k.cells l).trans (h.cells l), fun g => by
    obtain ⟨x, hx⟩ := h.core g
    obtain ⟨y, hy⟩ := k.core g
    exact ⟨y, by rw [hy, hx]⟩⟩

theorem onlyFound_setStore (s : State) (l : Loc) (st : Store) (h : st.cells = (s.store l).cells) :
    OnlyFound s (s.setStore l st) :=
  ⟨fun k => by rw [store_setStore]; split <;> simp_all, fun g => core_setStore s l st g⟩

theorem onlyFound_of_eq {s t u : State} (h : OnlyFound s t) (hs : ∀ l, u.store l = t.store l)
    (hc : ∀ g, u.core g = t.core g) : OnlyFound s u :=
  ⟨fun l => by rw [hs, h.cells], fun g => by rw [hc]; exact h.core g⟩

/-- Reading a word of a scratchpad or quay changes no byte. -/
theorem onlyFound_touchWord (s : State) (l : Loc) (w : Nat) : OnlyFound s (s.touchWord l w) := by
  unfold State.touchWord; dsimp only; split
  · exact OnlyFound.refl s
  · exact onlyFound_of_eq (onlyFound_setStore s l { s.store l with errs := smDel w (s.store l).errs } rfl)
      (fun k => by simp) (fun g => by simp)
  · exact onlyFound_of_eq (onlyFound_setStore s l { s.store l with poison := setAdd (w / 8) (s.store l).poison } rfl)
      (fun k => by simp) (fun g => by simp)

theorem onlyFound_foldl {α : Type} (f : State → α → State) (h : ∀ t x, OnlyFound t (f t x)) (l : List α) (s : State) :
    OnlyFound s (l.foldl f s) := by
  induction l generalizing s with
  | nil => exact OnlyFound.refl s
  | cons x t ih => exact (h s x).trans (ih (f s x))

theorem onlyFound_touchLine (s : State) (n : Nat) : OnlyFound s (s.touchLine n) := by
  refine ⟨fun l => ?_, fun g => ⟨(s.core g).lsp, by simp [State.core]⟩⟩
  cases l <;> simp [State.store, State.core]

/-- Reading a granule changes no byte, and no core but for what its scratchpad has found (R230, R361). -/
theorem onlyFound_touch (s : State) (l : Loc) (n : Nat) : OnlyFound s (s.touch l n) := by
  cases l with
  | dmem => exact onlyFound_touchLine s n
  | lsp g => exact onlyFound_foldl _ (fun t i => onlyFound_touchWord t _ _) _ s
  | quay d => exact onlyFound_foldl _ (fun t i => onlyFound_touchWord t _ _) _ s

/-- The reads before a masked write change no byte. -/
theorem onlyFound_preWrite (s : State) (l : Loc) (n : Nat) (b : List (Nat × Byte)) : OnlyFound s (s.preWrite l n b) := by
  unfold State.preWrite; split
  · exact OnlyFound.refl s
  · split
    · exact onlyFound_touchLine s n
    · refine onlyFound_foldl _ (fun t i => ?_) _ s
      split
      · exact onlyFound_touchWord t _ _
      · exact OnlyFound.refl t

/-! ## Writes -/

/-- What one access writes: the bytes it names, in its place (R225, R231). -/
theorem writeGran_cells (s : State) (l k : Loc) (n : Nat) (b : List (Nat × Byte)) (p : Bool) (m : List Nat) :
    ((s.writeGran l n b p m).store k).cells = if k = l then putCells (s.store l).cells b else (s.store k).cells := by
  have hp := onlyFound_preWrite s l n b
  cases l with
  | lsp g =>
    by_cases e : k = .lsp g
    · subst e; simp [State.writeGran, State.store, storeWrite]
      exact congrArg (putCells · b) (hp.cells (.lsp g))
    · rw [if_neg e, ← hp.cells k]
      cases k with
      | lsp h =>
        have : h ≠ g := fun x => e (by rw [x])
        simp [State.writeGran, State.store, core_setCore_ne _ _ this]
      | quay d => rfl
      | dmem => rfl
  | quay d =>
    simp only [State.writeGran, store_setStore]
    split
    · exact congrArg (putCells · b) (hp.cells (.quay d))
    · exact hp.cells k
  | dmem =>
    simp only [State.writeGran, store_setStore]
    split
    · exact congrArg (putCells · b) (hp.cells .dmem)
    · exact hp.cells k

/-- One access leaves a core as it was but for its scratchpad and the checks its granules await. -/
theorem writeGran_core (s : State) (l : Loc) (n : Nat) (b : List (Nat × Byte)) (p : Bool) (m : List Nat) (g : Nat) :
    ∃ x y, (s.writeGran l n b p m).core g = { s.core g with lsp := x, marks := y } := by
  obtain ⟨x, hx⟩ := (onlyFound_preWrite s l n b).core g
  cases l with
  | lsp h =>
    by_cases e : g = h
    · subst e; simp [State.writeGran, hx]
    · exact ⟨x, (s.core g).marks, by simp [State.writeGran, core_setCore_ne _ _ e, hx]⟩
  | quay d =>
    obtain ⟨y, hy⟩ := core_setStore (s.preWrite (.quay d) n b) (.quay d) (storeWrite ((s.preWrite (.quay d) n b).store (.quay d)) true n b p) g
    exact ⟨y, (s.core g).marks, by simp only [State.writeGran]; rw [hy, hx]⟩
  | dmem =>
    obtain ⟨y, hy⟩ := core_setStore (s.preWrite .dmem n b) .dmem (storeWrite (s.preWrite .dmem n b).dmem false n b p) g
    exact ⟨y, (s.core g).marks, by simp only [State.writeGran]; rw [hy, hx]⟩

end Sys2Proof.Machine
end

