-- ==== Sys2Proof/Laws/Canonical.lean ====
section
/-!
SUPPORT. Every operation on a memory of the device keeps the canonical form, and the memories at reset have it.
-/

namespace Sys2Proof.Machine

/-! ## Rising lists of numbers -/

theorem rising_iff (l : List Nat) : rising l = true ↔ l.Pairwise (· < ·) := by
  induction l with
  | nil => simp [rising]
  | cons x t ih =>
    cases t with
    | nil => simp [rising]
    | cons y t =>
      simp only [rising, Bool.and_eq_true, decide_eq_true_eq, ih, List.pairwise_cons, List.mem_cons, forall_eq_or_imp]
      exact ⟨fun ⟨a, b, c⟩ => ⟨⟨a, fun z hz => Nat.lt_trans a (b z hz)⟩, b, c⟩, fun ⟨⟨a, _⟩, b, c⟩ => ⟨a, b, c⟩⟩

theorem mem_setAdd {x z : Nat} {l : List Nat} (h : z ∈ setAdd x l) : z = x ∨ z ∈ l := by
  induction l with
  | nil => simpa [setAdd] using h
  | cons y t ih =>
    unfold setAdd at h; split at h
    · simpa using h
    · split at h
      · exact .inr h
      · rcases List.mem_cons.1 h with rfl | h
        · simp
        · rcases ih h with rfl | h <;> simp_all

@[simp] theorem rising_setAdd (x : Nat) (l : List Nat) (h : rising l = true) : rising (setAdd x l) = true := by
  rw [rising_iff] at *
  induction l with
  | nil => simp [setAdd]
  | cons y t ih =>
    have ⟨hy, ht⟩ := List.pairwise_cons.1 h
    unfold setAdd; split
    · exact List.pairwise_cons.2 ⟨fun z hz => (List.mem_cons.1 hz).elim (fun e => e ▸ ‹x < y›)
        (fun hz => Nat.lt_trans ‹x < y› (hy z hz)), h⟩
    · split
      · exact h
      · exact List.pairwise_cons.2 ⟨fun z hz => (mem_setAdd hz).elim (fun e => by omega) (hy z), ih ht⟩

@[simp] theorem rising_setDel (x : Nat) (l : List Nat) (h : rising l = true) : rising (setDel x l) = true := by
  rw [rising_iff] at *
  exact h.filter _

theorem rising_setUnion (a b : List Nat) (h : rising b = true) : rising (setUnion a b) = true := by
  unfold setUnion
  induction a generalizing b with
  | nil => exact h
  | cons x t ih => exact ih _ (rising_setAdd x b h)

/-! ## One store -/

theorem wf_iff (st : Store) : st.wf = true ↔
    Memory.wf st.cells = true ∧ rising st.poison = true ∧ smWf ([] : List Nat) st.errs = true := by
  simp [Store.wf, and_assoc]

/-- What is left of a map in the form is in the form. -/
theorem smWf_filter {α : Type} [DecidableEq α] (d : α) (m : List (Nat × α)) (p : Nat × α → Bool) (h : smWf d m = true) :
    smWf d (m.filter p) = true := by
  rw [smWf_iff] at *
  exact ⟨h.1.filter _, fun x hx => h.2 x (List.mem_filter.1 hx).1⟩

theorem wf_storeWrite (st : Store) (sram : Bool) (gran : Nat) (l : List (Nat × Byte)) (p : Bool) (h : st.wf = true) :
    (storeWrite st sram gran l p).wf = true := by
  rw [wf_iff] at *
  refine ⟨smWf_storeWrite st sram gran l p h.1, ?_, smWf_filter _ _ _ h.2.2⟩
  show rising (if _ then (if _ then _ else _) else if _ then _ else _) = true
  split <;> split <;> simp [h.2.1]

/-! ## The memories of a state -/

theorem memWf_iff (s : State) : s.memWf = true ↔
    (s.dmem.wf = true ∧ (∀ d : Fin 8, (s.quays[d]).wf = true) ∧ smWf (0xFF : Byte) s.sec.flash = true ∧
      Memory.wf s.log.mram = true ∧ ∀ x ∈ s.cores, x.2.lsp.wf = true ∧ Memory.wf x.2.imem = true) := by
  have hq : (s.quays.toList.all Store.wf = true) ↔ ∀ d : Fin 8, (s.quays[d]).wf = true := by
    simp only [List.all_eq_true, Vector.mem_toList_iff, Vector.mem_iff_getElem]
    exact ⟨fun h d => h _ ⟨d.val, d.isLt, rfl⟩, fun h x ⟨i, hi, e⟩ => e ▸ h ⟨i, hi⟩⟩
  simp only [State.memWf, Bool.and_eq_true, hq, List.all_eq_true, and_assoc]

theorem memWf_core {s : State} (h : s.memWf = true) (g : Nat) :
    (s.core g).lsp.wf = true ∧ Memory.wf (s.core g).imem = true := by
  have hc := ((memWf_iff s).1 h).2.2.2.2
  unfold State.core
  generalize s.cores = m at hc
  induction m with
  | nil => exact ⟨rfl, rfl⟩
  | cons x t ih =>
    unfold smGet; split
    · exact hc x (List.mem_cons_self ..)
    · exact ih (fun y hy => hc y (List.mem_cons_of_mem _ hy))

/-- A core whose memories keep the form may be stored. -/
theorem memWf_setCore {s : State} (h : s.memWf = true) (g : Nat) (c : Core) (hl : c.lsp.wf = true)
    (hi : Memory.wf c.imem = true) : (s.setCore g c).memWf = true := by
  rw [memWf_iff] at *
  refine ⟨h.1, h.2.1, h.2.2.1, h.2.2.2.1, fun x hx => ?_⟩
  have hx : x ∈ smPut Core.reset s.cores g c := hx
  unfold smPut at hx; split at hx
  · exact h.2.2.2.2 x (key_smDel hx).1
  · rcases mem_smIns hx with rfl | hx
    · exact ⟨hl, hi⟩
    · exact h.2.2.2.2 x (key_smDel hx).1

theorem memWf_store {s : State} (h : s.memWf = true) (l : Loc) : (s.store l).wf = true := by
  cases l with
  | lsp g => exact (memWf_core h g).1
  | quay d => exact ((memWf_iff s).1 h).2.1 d
  | dmem => exact ((memWf_iff s).1 h).1

/-- A store in the form may be put in any place. -/
theorem memWf_setStore {s : State} (h : s.memWf = true) (l : Loc) (st : Store) (hs : st.wf = true) :
    (s.setStore l st).memWf = true := by
  cases l with
  | lsp g => exact memWf_setCore h g _ hs (memWf_core h g).2
  | quay d =>
    rw [memWf_iff] at *
    refine ⟨h.1, fun e => ?_, h.2.2⟩
    by_cases x : d = e
    · subst x; simpa [State.setStore] using hs
    · have : (d : Nat) ≠ e := fun y => x (Fin.ext y)
      simpa [State.setStore, Vector.getElem_set_ne _ _ this] using h.2.1 e
  | dmem =>
    rw [memWf_iff] at *
    exact ⟨hs, h.2⟩

/-- A state whose memories are those of one in the form is in the form. -/
theorem memWf_congr {s t : State} (h : s.memWf = true) (hd : t.dmem.wf = true) (hq : t.quays = s.quays)
    (hc : t.cores = s.cores) (hf : t.sec.flash = s.sec.flash) (hm : Memory.wf t.log.mram = true) : t.memWf = true := by
  rw [memWf_iff] at *
  exact ⟨hd, hq ▸ h.2.1, hf ▸ h.2.2.1, hm, hc ▸ h.2.2.2.2⟩

/-! ## Operations -/

@[simp] theorem logRec_mram (s : State) (r : LogRec) : (s.logRec r).log.mram = s.log.mram := by
  unfold State.logRec; split_ifs <;> rfl

@[simp] theorem healthInc_mram (s : State) (o w : Nat) : (s.healthInc o w).log.mram = s.log.mram := rfl

theorem memWf_healthInc {s : State} (h : s.memWf = true) (o w : Nat) : (s.healthInc o w).memWf = true :=
  memWf_congr h ((memWf_iff s).1 h).1 rfl rfl rfl ((memWf_iff s).1 h).2.2.2.1

theorem memWf_logRec {s : State} (h : s.memWf = true) (r : LogRec) : (s.logRec r).memWf = true :=
  memWf_congr h (by rw [logRec_dmem]; exact ((memWf_iff s).1 h).1) (logRec_quays s r) (logRec_cores s r)
    (by rw [logRec_sec]) (by rw [logRec_mram]; exact ((memWf_iff s).1 h).2.2.2.1)

/-- A journaled write keeps the MRAM's form. -/
theorem smWf_jwrite {l : LogSt} (h : smWf (0 : Byte) l.mram = true) (w : JWrite) : smWf (0 : Byte) (l.jwrite w).mram = true := by
  cases w with
  | bytes a b => exact smWf_putBytes _ a b h
  | _ => exact h

/-- A write of the inner MRAM keeps the form. -/
theorem memWf_mramPut {s : State} (h : s.memWf = true) (a : Nat) (l : List Byte) : (s.mramPut a l).memWf = true :=
  memWf_congr h (((memWf_iff s).1 h).1) rfl rfl rfl (smWf_putBytes _ a l ((memWf_iff s).1 h).2.2.2.1)

/-- A program of the flash keeps the form, with an erased byte reading 0xFF. -/
theorem smWf_flashPut (m : List Host.Cell) (a : Nat) (l : List Byte) (h : smWf (0xFF : Byte) m = true) :
    smWf (0xFF : Byte) (flashPut m a l) = true := by
  induction l generalizing m a with
  | nil => exact h
  | cons b t ih => exact ih _ _ (smWf_smPut 0xFF b m a h)

/-- An erase of the flash keeps the form. -/
theorem smWf_flashErase (m : List Host.Cell) (a n : Nat) (h : smWf (0xFF : Byte) m = true) :
    smWf (0xFF : Byte) (flashErase m a n) = true := by
  rw [smWf_iff] at *
  exact ⟨h.1.filter _, fun x hx => h.2 x (List.mem_filter.1 hx).1⟩

/-- A new content of the flash, in the form, keeps every memory in the form. -/
theorem memWf_setFlash {s : State} (h : s.memWf = true) (m : List Host.Cell) (hm : smWf (0xFF : Byte) m = true) :
    (s.setFlash m).memWf = true := by
  rw [memWf_iff] at *
  exact ⟨h.1, h.2.1, hm, h.2.2.2⟩

@[simp] theorem listPage_sec (s : State) (p : Nat) (y : PageReason) : (s.listPage p y).sec = s.sec := by
  unfold State.listPage; dsimp only; split <;> (try split) <;> simp

theorem listPage_mram (s : State) (p : Nat) (y : PageReason) (h : Memory.wf s.log.mram = true) :
    Memory.wf (s.listPage p y).log.mram = true := by
  unfold State.listPage; dsimp only; split
  · exact h
  · split
    · rw [logRec_mram]; exact smWf_putBytes _ _ _ h
    · rw [logRec_mram]; exact h

@[simp] theorem onDieEcc_sec (s : State) (n : Nat) : (s.onDieEcc n).sec = s.sec := by
  unfold State.onDieEcc; split <;> simp
@[simp] theorem onDieEcc_mram (s : State) (n : Nat) : (s.onDieEcc n).log.mram = s.log.mram := by
  unfold State.onDieEcc; split <;> simp

@[simp] theorem lineUe_sec (s : State) (n : Nat) : (s.lineUe n).sec = s.sec := by simp [State.lineUe]
@[simp] theorem lineCe_sec (s : State) (n : Nat) : (s.lineCe n).sec = s.sec := by
  unfold State.lineCe; dsimp only; split <;> simp

theorem lineUe_mram (s : State) (n : Nat) (h : Memory.wf s.log.mram = true) : Memory.wf (s.lineUe n).log.mram = true :=
  listPage_mram _ _ _ (by simpa using h)

theorem lineCe_mram (s : State) (n : Nat) (h : Memory.wf s.log.mram = true) : Memory.wf (s.lineCe n).log.mram = true := by
  unfold State.lineCe; dsimp only; split
  · exact listPage_mram _ _ _ (by simpa using h)
  · simpa using h

@[simp] theorem touchLine_sec (s : State) (n : Nat) : (s.touchLine n).sec = s.sec := by
  unfold State.touchLine; split <;> simp

theorem touchLine_mram (s : State) (n : Nat) (h : Memory.wf s.log.mram = true) :
    Memory.wf (s.touchLine n).log.mram = true := by
  unfold State.touchLine; split
  · simpa using h
  · exact lineCe_mram _ n (by simpa using h)
  · exact lineUe_mram _ n (by simpa using h)

theorem wf_touchLine (s : State) (n : Nat) (h : s.dmem.wf = true) : (s.touchLine n).dmem.wf = true := by
  have hd := (wf_iff _).1 h
  unfold State.touchLine; split
  · simpa using h
  · exact (wf_iff _).2 (by simpa using ⟨hd.1, hd.2.1, smWf_smDel _ _ n hd.2.2⟩)
  · exact (wf_iff _).2 (by simpa using ⟨hd.1, rising_setAdd n _ hd.2.1, smWf_smDel _ _ n hd.2.2⟩)

theorem memWf_touchLine {s : State} (h : s.memWf = true) (n : Nat) : (s.touchLine n).memWf = true :=
  memWf_congr h (wf_touchLine s n ((memWf_iff s).1 h).1) (touchLine_quays s n) (touchLine_cores s n) (by rw [touchLine_sec])
    (touchLine_mram s n ((memWf_iff s).1 h).2.2.2.1)

theorem memWf_touchWord {s : State} (h : s.memWf = true) (l : Loc) (w : Nat) : (s.touchWord l w).memWf = true := by
  have hs := (wf_iff _).1 (memWf_store h l)
  have ha : ({ s.store l with poison := setAdd (w / 8) (s.store l).poison } : Store).wf = true :=
    (wf_iff _).2 ⟨hs.1, rising_setAdd _ _ hs.2.1, hs.2.2⟩
  have hb : ({ s.store l with errs := smDel w (s.store l).errs } : Store).wf = true :=
    (wf_iff _).2 ⟨hs.1, hs.2.1, smWf_smDel _ _ _ hs.2.2⟩
  unfold State.touchWord; dsimp only; split
  · exact h
  · exact memWf_healthInc (memWf_setStore h l _ hb) _ _
  · exact memWf_logRec (memWf_healthInc (memWf_setStore h l _ ha) _ _) _

theorem memWf_foldl {α : Type} {f : State → α → State} (hf : ∀ t x, t.memWf = true → (f t x).memWf = true)
    (l : List α) {s : State} (h : s.memWf = true) : (l.foldl f s).memWf = true := by
  induction l generalizing s with
  | nil => exact h
  | cons x t ih => exact ih (hf s x h)

/-- A read keeps the form: it may poison a granule and list a page. -/
theorem memWf_touch {s : State} (h : s.memWf = true) (l : Loc) (n : Nat) : (s.touch l n).memWf = true := by
  cases l with
  | dmem => exact memWf_touchLine h n
  | lsp g => exact memWf_foldl (fun t i ht => memWf_touchWord ht _ _) _ h
  | quay d => exact memWf_foldl (fun t i ht => memWf_touchWord ht _ _) _ h

theorem memWf_preWrite {s : State} (h : s.memWf = true) (l : Loc) (n : Nat) (b : List (Nat × Byte)) :
    (s.preWrite l n b).memWf = true := by
  unfold State.preWrite; split
  · exact h
  · split
    · exact memWf_touchLine h n
    · refine memWf_foldl (fun t i ht => ?_) _ h
      split
      · exact memWf_touchWord ht _ _
      · exact ht

/-- One write access keeps the form. -/
theorem memWf_writeGran {s : State} (h : s.memWf = true) (l : Loc) (n : Nat) (b : List (Nat × Byte)) (p : Bool)
    (m : List Nat) : (s.writeGran l n b p m).memWf = true := by
  have hp := memWf_preWrite h l n b
  cases l with
  | lsp g => exact memWf_setCore hp g _ (wf_storeWrite _ _ _ _ _ (memWf_core hp g).1) (memWf_core hp g).2
  | quay d => exact memWf_setStore hp _ _ (wf_storeWrite _ _ _ _ _ (memWf_store hp (.quay d)))
  | dmem => exact memWf_setStore hp _ _ (wf_storeWrite _ _ _ _ _ (memWf_store hp .dmem))

/-- A write of a run of bytes keeps the form. -/
theorem memWf_writeRun {s : State} (h : s.memWf = true) (l : Loc) (a : Nat) (b : List Byte) (p : Bool) (m : List Nat) :
    (s.writeRun l a b p m).memWf = true :=
  memWf_foldl (fun _ _ ht => memWf_writeGran ht _ _ _ _ _) _ h

/-- Poisoning a range keeps the form. -/
theorem memWf_poisonRange {s : State} (h : s.memWf = true) (l : Loc) (a n : Nat) : (s.poisonRange l a n).memWf = true := by
  have hs := (wf_iff _).1 (memWf_store h l)
  refine memWf_setStore h _ _ ((wf_iff _).2 ⟨hs.1, ?_, hs.2.2⟩)
  generalize List.range _ = r
  have hr := hs.2.1
  revert hr
  generalize (s.store l).poison = q
  intro hr
  induction r generalizing q with
  | nil => exact hr
  | cons x t ih => exact ih _ (rising_setAdd _ _ hr)

/-- The memories at reset are in the form. -/
theorem memWf_reset : State.reset.memWf = true := by rfl

/-! ## The flash -/

/-- A program of the flash leaves every byte outside its run alone. -/
theorem flashByte_flashPut_out (m : List Host.Cell) (a b : Nat) (l : List Byte) (h : b < a ∨ a + l.length ≤ b) :
    flashByte (flashPut m a l) b = flashByte m b := by
  induction l generalizing m a with
  | nil => rfl
  | cons x t ih =>
    simp only [List.length_cons] at h
    rw [flashPut, ih _ _ (by omega), flashByte, smGet_smPut, if_neg (by omega)]; rfl

/-- Each byte of the run reads as it was programmed. -/
theorem flashByte_flashPut_in (m : List Host.Cell) (a i : Nat) (l : List Byte) (h : i < l.length) :
    flashByte (flashPut m a l) (a + i) = l[i] := by
  induction l generalizing m a i with
  | nil => simp at h
  | cons x t ih =>
    cases i with
    | zero => rw [flashPut, Nat.add_zero, flashByte_flashPut_out _ _ _ _ (by omega), flashByte, smGet_smPut]; simp
    | succ i =>
      have := ih (smPut 0xFF m a x) (a + 1) i (by simpa using h)
      rw [flashPut, show a + (i + 1) = a + 1 + i by omega, this]; rfl

/-- A programmed run reads back. -/
theorem flashBytes_flashPut (m : List Host.Cell) (a : Nat) (l : List Byte) : flashBytes (flashPut m a l) a l.length = l := by
  apply List.ext_getElem
  · simp [flashBytes]
  · intro i h k
    simp only [flashBytes, List.getElem_map, List.getElem_range]
    exact flashByte_flashPut_in m a i l k

/-- Erased bytes read as 0xFF, the others as before. -/
theorem flashByte_flashErase (m : List Host.Cell) (a n i : Nat) :
    flashByte (flashErase m a n) i = if a ≤ i ∧ i < a + n then 0xFF else flashByte m i := by
  induction m with
  | nil => simp [flashErase, flashByte, smGet]
  | cons x t ih =>
    unfold flashErase flashByte at *
    rw [List.filter_cons]
    by_cases hx : x.1 = i
    · by_cases hk : a ≤ i ∧ i < a + n
      · rw [if_neg (by simp; omega), ih, if_pos hk, if_pos hk]
      · rw [if_pos (by simp; omega), if_neg hk]; simp [smGet, hx]
    · split <;> simp_all [smGet]

end Sys2Proof.Machine
end

