-- ==== Sys2Proof/Laws/Log.lean ====
section
/-!
SUPPORT. What offering a record to the logbook can change: its queue, what waits for it and what it counts; and what a journaled
write can change.
-/

namespace Sys2Proof.Machine

theorem logRec_only (s : State) (r : LogRec) : s.logRec r = { s with log := (s.logRec r).log } := by
  unfold State.logRec
  repeat' split
  all_goals rfl

/-- The queue never holds more than 4,096 records (R490). -/
theorem logRec_queue_le (s : State) (r : LogRec) (h : s.log.queue.length ≤ 4096) : (s.logRec r).log.queue.length ≤ 4096 := by
  unfold State.logRec
  split
  · exact h
  · split
    · exact h
    · split
      · exact h
      · simp only [State.takeRec, List.length_append, List.length_singleton]
        omega

/-- A record taken joins the end of the queue under the next sequence number; one that is not leaves the queue as it is. -/
theorem logRec_queue (s : State) (r : LogRec) : (s.logRec r).log.queue = s.log.queue ∨
    (s.logRec r).log.queue = s.log.queue ++ [(s.log.seqNext, r, recordBytes s s.log.seqNext r)] := by
  unfold State.logRec
  repeat' split
  · exact .inl rfl
  · exact .inl rfl
  · exact .inl rfl
  · exact .inr rfl

/-! ## Journaled writes (R488) -/

@[simp] theorem LogSt.jwrite_queue (l : LogSt) (w : JWrite) : (l.jwrite w).queue = l.queue := by cases w <;> rfl
@[simp] theorem LogSt.jwrite_waiting (l : LogSt) (w : JWrite) : (l.jwrite w).waiting = l.waiting := by cases w <;> rfl
@[simp] theorem LogSt.jwrite_seqNext (l : LogSt) (w : JWrite) : (l.jwrite w).seqNext = l.seqNext := by cases w <;> rfl
@[simp] theorem LogSt.jwrite_health (l : LogSt) (w : JWrite) : (l.jwrite w).health = l.health := by cases w <;> rfl
@[simp] theorem LogSt.jwrite_measured (l : LogSt) (w : JWrite) : (l.jwrite w).measured = l.measured := by cases w <;> rfl
@[simp] theorem LogSt.jwrite_drops (l : LogSt) (w : JWrite) : (l.jwrite w).drops = l.drops := by cases w <;> rfl
@[simp] theorem LogSt.jwrite_firsts (l : LogSt) (w : JWrite) : (l.jwrite w).firsts = l.firsts := by cases w <;> rfl
@[simp] theorem LogSt.jwrite_accepting (l : LogSt) (w : JWrite) : (l.jwrite w).accepting = l.accepting := by cases w <;> rfl
@[simp] theorem LogSt.jwrite_alert (l : LogSt) (w : JWrite) : (l.jwrite w).alert = l.alert := by cases w <;> rfl
@[simp] theorem LogSt.jwrite_sealFull (l : LogSt) (w : JWrite) : (l.jwrite w).sealFull = l.sealFull := by cases w <;> rfl
@[simp] theorem LogSt.jwrite_lastEnd (l : LogSt) (w : JWrite) : (l.jwrite w).lastEnd = l.lastEnd := by cases w <;> rfl
@[simp] theorem LogSt.jwrite_ckpt (l : LogSt) (w : JWrite) : (l.jwrite w).ckpt = l.ckpt := by cases w <;> rfl
@[simp] theorem LogSt.jwrite_mfg (l : LogSt) (w : JWrite) : (l.jwrite w).mfg = l.mfg := by cases w <;> rfl
@[simp] theorem LogSt.jwrite_i3cStatic (l : LogSt) (w : JWrite) : (l.jwrite w).i3cStatic = l.i3cStatic := by cases w <;> rfl
@[simp] theorem LogSt.jwrite_i3cDyn (l : LogSt) (w : JWrite) : (l.jwrite w).i3cDyn = l.i3cDyn := by cases w <;> rfl

@[simp] theorem LogSt.jwrite_journal (l : LogSt) (w : JWrite) : (l.jwrite w).journal = some (JEntry.make w) := rfl

/-- The entry of a journaled write is valid: a boot that finds it writes its target again. -/
theorem JEntry.make_valid (w : JWrite) : (JEntry.make w).valid = true := by simp [JEntry.valid, JEntry.make]

/-- Only a write of its own kind changes it. -/
theorem LogSt.jwrite_mram (l : LogSt) (w : JWrite) (h : ∀ a b, w ≠ .bytes a b) : (l.jwrite w).mram = l.mram := by
  cases w <;> first | rfl | exact absurd rfl (h _ _)

/-- Only a write of its own kind changes it. -/
theorem LogSt.jwrite_baselines (l : LogSt) (w : JWrite) (h : ∀ x, w ≠ .baselines x) : (l.jwrite w).baselines = l.baselines := by
  cases w <;> first | rfl | exact absurd rfl (h _)

/-- Only a write of its own kind changes it. -/
theorem LogSt.jwrite_ledgers (l : LogSt) (w : JWrite) (h : ∀ x, w ≠ .ledgers x) : (l.jwrite w).ledgers = l.ledgers := by
  cases w <;> first | rfl | exact absurd rfl (h _)

/-- Only a write of its own kind changes it. -/
theorem LogSt.jwrite_history (l : LogSt) (w : JWrite) (h : ∀ x, w ≠ .history x) : (l.jwrite w).history = l.history := by
  cases w <;> first | rfl | exact absurd rfl (h _)

/-- Writing a target again changes nothing more (R488). -/
theorem LogSt.put_put (l : LogSt) (w : JWrite) (h : ∀ a b, w ≠ .bytes a b) : (l.put w).put w = l.put w := by
  cases w <;> first | rfl | exact absurd rfl (h _ _)

end Sys2Proof.Machine
end

