-- ==== Sys2Proof/Laws/Order.lean ====
section
/-!
SUPPORT. What an ordered write leaves unchanged and what it stores, and what reads and writes do where no write is kept
that readers in flight may miss.
-/

namespace Sys2Proof.Machine

/-- Noting a write changes the record of writes and nothing else. -/
theorem noted_eq (t s : State) (op : Option Nat) (w : Writer) (after : Option Nat) (l : Loc) (n : Nat) (p : GranPut)
    (r : List OldGran) : t.noted s op w after l n p r = { t with old := (t.noted s op w after l n p r).old } := by
  unfold State.noted
  split <;> rfl

@[simp] theorem noted_store (t s : State) (op : Option Nat) (w : Writer) (after : Option Nat) (l : Loc) (n : Nat)
    (p : GranPut) (r : List OldGran) (k : Loc) : (t.noted s op w after l n p r).store k = t.store k := by
  rw [noted_eq]
  cases k <;> rfl

theorem memWf_noted {t : State} (h : t.memWf = true) (s : State) (op : Option Nat) (w : Writer) (after : Option Nat)
    (l : Loc) (n : Nat) (p : GranPut) (r : List OldGran) : (t.noted s op w after l n p r).memWf = true := by
  rw [noted_eq]
  exact h

theorem memWf_setGran {s : State} (h : s.memWf = true) (l : Loc) (n : Nat) (live : List (Nat × Byte)) (p : Bool)
    (m : List Nat) : (s.setGran l n live p m).memWf = true := by
  have hs := (wf_iff _).1 (memWf_store h l)
  have hw := memWf_setStore h l
    { cells := putCells (s.store l).cells live
      poison := if p then setAdd n (s.store l).poison else setDel n (s.store l).poison
      errs := (s.store l).errs.filter (fun x =>
        !(if l ≠ .dmem then touchesWord live x.1 else live.any (fun b => b.1 / 64 = x.1))) }
    ((wf_iff _).2 ⟨smWf_putCells _ _ hs.1, by dsimp only; split <;> simp [hs.2.1], smWf_filter _ _ _ hs.2.2⟩)
  cases l with
  | lsp g => exact memWf_setCore hw g _ (memWf_core hw g).1 (memWf_core hw g).2
  | quay d => exact hw
  | dmem => exact hw

/-- A write that another's may overtake keeps the memories' form. -/
theorem memWf_orderGran {s : State} (h : s.memWf = true) (op : Option Nat) (w : Writer) (after : Option Nat) (l : Loc)
    (n : Nat) (b : List (Nat × Byte)) (p : Bool) (m : List Nat) : (s.orderGran op w after l n b p m).memWf = true := by
  unfold State.orderGran
  dsimp only
  refine memWf_noted ?_ ..
  split
  · exact memWf_writeGran h ..
  · exact memWf_setGran (memWf_preWrite h ..) ..

theorem memWf_writeRunAs {s : State} (h : s.memWf = true) (op : Option Nat) (w : Writer) (after : Option Nat) (l : Loc)
    (a : Nat) (b : List Byte) (p : Bool) : (s.writeRunAs op w after l a b p).memWf = true :=
  memWf_foldl (fun _ _ ht => memWf_orderGran ht ..) _ h

@[simp] theorem setGran_cells (s : State) (l k : Loc) (n : Nat) (live : List (Nat × Byte)) (p : Bool) (m : List Nat) :
    ((s.setGran l n live p m).store k).cells = if k = l then putCells (s.store l).cells live else (s.store k).cells := by
  have key (t : State) (g : Nat) (x : List (Nat × List Nat)) (k : Loc) :
      ((t.setCore g { t.core g with marks := x }).store k).cells = (t.store k).cells := by
    cases k with
    | lsp h => simp only [State.store, core_setCore_eq]; split <;> simp_all
    | quay d => rfl
    | dmem => rfl
  unfold State.setGran
  cases l with
  | lsp g => dsimp only; rw [key, store_setStore]; split <;> simp_all
  | quay d => dsimp only; rw [store_setStore]; split <;> simp_all
  | dmem => dsimp only; rw [store_setStore]; split <;> simp_all

/-- An ordered write stores the bytes that no later write covers, and no other. -/
theorem orderGran_cells (s : State) (op : Option Nat) (w : Writer) (after : Option Nat) (l k : Loc) (n : Nat)
    (b : List (Nat × Byte)) (p : Bool) (m : List Nat) (hb : ∀ y ∈ b, y.1 / 64 = n) :
    ((s.orderGran op w after l n b p m).store k).cells =
      if k = l then putCells (s.store l).cells (b.filter (fun y => s.lands op w (l, y.1))) else (s.store k).cells := by
  unfold State.orderGran
  dsimp only
  rw [noted_store]
  split
  · next hl =>
    have : b.filter (fun y => s.lands op w (l, y.1)) = b := by
      refine List.filter_eq_self.2 (fun y hy => ?_)
      simp [State.lands, hb y hy, hl]
    rw [writeGran_cells, this]
  · rw [setGran_cells, (onlyFound_preWrite s l n b).cells, (onlyFound_preWrite s l n b).cells]

/-! ## With no write kept -/

theorem later_of_none_old {s : State} (h : s.old = []) (op : Option Nat) (w : Writer) (l : Loc) (n : Nat) :
    s.later op w l n = [] := by
  simp [State.later, State.writesOf, h, lastOnes]

/-- Where no write is kept, every write stays. -/
theorem lands_of_none_old {s : State} (h : s.old = []) (op : Option Nat) (w : Writer) (y : Loc × Nat) : s.lands op w y = true := by
  simp [State.lands, later_of_none_old h]

theorem copies_of_none_old {s : State} (h : s.old = []) (r : Reader) (l : Loc) (n : Nat) : s.copies r l n = [] := by
  simp [State.copies, State.writesOf, h]

/-- Where no write is kept, a read returns the granule as it stands. -/
theorem pick_of_none_old {s : State} (h : s.old = []) (r : Reader) (k : Nat) (l : Loc) (n : Nat) : s.pick r k l n = none := by
  simp [State.pick, copies_of_none_old h]

theorem seenByte_of_none_old {s : State} (h : s.old = []) (r : Reader) (k : Nat) (l : Loc) (a : Nat) :
    s.seenByte r k l a = s.readByte l a := by
  rw [State.seenByte, pick_of_none_old h]

theorem bytesAt_add (m : List Host.Cell) (a i j : Nat) : bytesAt m a (i + j) = bytesAt m a i ++ bytesAt m (a + i) j := by
  induction i generalizing a with
  | zero => simp [bytesAt]
  | succ i ih =>
    rw [Nat.add_right_comm, bytesAt, bytesAt, ih, show a + 1 + i = a + (i + 1) by omega]
    rfl

@[simp] theorem length_bytesAt (m : List Host.Cell) (a n : Nat) : (bytesAt m a n).length = n := by
  induction n generalizing a with
  | zero => rfl
  | succ n ih => simp [bytesAt, ih]

/-- The bytes of granules in a row. -/
theorem flatMap_granules (m : List Host.Cell) (g k : Nat) :
    ((List.range k).map (fun i => g + i)).flatMap (fun x => bytesAt m (64 * x) 64) = bytesAt m (64 * g) (64 * k) := by
  induction k with
  | zero => rfl
  | succ k ih =>
    rw [List.range_succ, List.map_append, List.flatMap_append, ih, Nat.mul_succ, bytesAt_add, ← Nat.mul_add]
    simp

/-- Where no write is kept, the dispatcher reads memory as it stands. -/
theorem dispBytes_of_none_old {s : State} (h : s.old = []) (ord k a n : Nat) :
    s.dispBytes ord k a n = bytesAt s.dmem.cells a n := by
  unfold State.dispBytes
  simp only [pick_of_none_old h]
  unfold granulesOf
  split
  · subst n; simp [bytesAt]
  · rw [flatMap_granules]
    have e : 64 * ((a + n + 63) / 64 - a / 64) = a % 64 + (n + (64 * ((a + n + 63) / 64) - a - n)) := by omega
    rw [e, bytesAt_add, bytesAt_add, List.drop_append_of_le_length (by simp), List.drop_of_length_le (by simp),
      List.nil_append, List.take_append_of_le_length (by simp), List.take_of_length_le (by simp)]
    congr 1
    omega

end Sys2Proof.Machine
end

