-- ==== Sys2Proof/Laws/PerInstr.lean ====
section
/-!
SUPPORT. The family RowRoundTrip: an instruction's class, operation, word 0 fields and word 1 are read back as that
instruction. One lemma for each constructor of Instr.
-/

namespace Sys2Proof.Laws.RowRoundTrip

/-- The rows of the encoding tables read each code back as the instruction that has it. -/
def Statement (i : Instr) : Prop :=
  ∀ g cls op w w1, i.parts = some (g, cls, op, w, w1) → decodeRow g cls op w w1 = some i

theorem add (g : Gcn) (w : Word0) : Statement (Instr.add g w) := by  rintro _ _ _ _ _ ⟨⟩; rfl
theorem addi (g : Gcn) (w : Word0) : Statement (Instr.addi g w) := by  rintro _ _ _ _ _ ⟨⟩; rfl
theorem sub (g : Gcn) (w : Word0) : Statement (Instr.sub g w) := by  rintro _ _ _ _ _ ⟨⟩; rfl
theorem subi (g : Gcn) (w : Word0) : Statement (Instr.subi g w) := by  rintro _ _ _ _ _ ⟨⟩; rfl
theorem mul (g : Gcn) (w : Word0) : Statement (Instr.mul g w) := by  rintro _ _ _ _ _ ⟨⟩; rfl
theorem muli (g : Gcn) (w : Word0) : Statement (Instr.muli g w) := by  rintro _ _ _ _ _ ⟨⟩; rfl
theorem mulhu (g : Gcn) (w : Word0) : Statement (Instr.mulhu g w) := by  rintro _ _ _ _ _ ⟨⟩; rfl
theorem mulhui (g : Gcn) (w : Word0) : Statement (Instr.mulhui g w) := by  rintro _ _ _ _ _ ⟨⟩; rfl
theorem mulhs (g : Gcn) (w : Word0) : Statement (Instr.mulhs g w) := by  rintro _ _ _ _ _ ⟨⟩; rfl
theorem mulhsi (g : Gcn) (w : Word0) : Statement (Instr.mulhsi g w) := by  rintro _ _ _ _ _ ⟨⟩; rfl
theorem and (g : Gcn) (w : Word0) : Statement (Instr.and g w) := by  rintro _ _ _ _ _ ⟨⟩; rfl
theorem andi (g : Gcn) (w : Word0) : Statement (Instr.andi g w) := by  rintro _ _ _ _ _ ⟨⟩; rfl
theorem or (g : Gcn) (w : Word0) : Statement (Instr.or g w) := by  rintro _ _ _ _ _ ⟨⟩; rfl
theorem ori (g : Gcn) (w : Word0) : Statement (Instr.ori g w) := by  rintro _ _ _ _ _ ⟨⟩; rfl
theorem xor (g : Gcn) (w : Word0) : Statement (Instr.xor g w) := by  rintro _ _ _ _ _ ⟨⟩; rfl
theorem xori (g : Gcn) (w : Word0) : Statement (Instr.xori g w) := by  rintro _ _ _ _ _ ⟨⟩; rfl
theorem shl (g : Gcn) (w : Word0) : Statement (Instr.shl g w) := by  rintro _ _ _ _ _ ⟨⟩; rfl
theorem shli (g : Gcn) (w : Word0) : Statement (Instr.shli g w) := by  rintro _ _ _ _ _ ⟨⟩; rfl
theorem shr (g : Gcn) (w : Word0) : Statement (Instr.shr g w) := by  rintro _ _ _ _ _ ⟨⟩; rfl
theorem shri (g : Gcn) (w : Word0) : Statement (Instr.shri g w) := by  rintro _ _ _ _ _ ⟨⟩; rfl
theorem sar (g : Gcn) (w : Word0) : Statement (Instr.sar g w) := by  rintro _ _ _ _ _ ⟨⟩; rfl
theorem sari (g : Gcn) (w : Word0) : Statement (Instr.sari g w) := by  rintro _ _ _ _ _ ⟨⟩; rfl
theorem min (g : Gcn) (w : Word0) : Statement (Instr.min g w) := by  rintro _ _ _ _ _ ⟨⟩; rfl
theorem mini (g : Gcn) (w : Word0) : Statement (Instr.mini g w) := by  rintro _ _ _ _ _ ⟨⟩; rfl
theorem max (g : Gcn) (w : Word0) : Statement (Instr.max g w) := by  rintro _ _ _ _ _ ⟨⟩; rfl
theorem maxi (g : Gcn) (w : Word0) : Statement (Instr.maxi g w) := by  rintro _ _ _ _ _ ⟨⟩; rfl
theorem minu (g : Gcn) (w : Word0) : Statement (Instr.minu g w) := by  rintro _ _ _ _ _ ⟨⟩; rfl
theorem minui (g : Gcn) (w : Word0) : Statement (Instr.minui g w) := by  rintro _ _ _ _ _ ⟨⟩; rfl
theorem maxu (g : Gcn) (w : Word0) : Statement (Instr.maxu g w) := by  rintro _ _ _ _ _ ⟨⟩; rfl
theorem maxui (g : Gcn) (w : Word0) : Statement (Instr.maxui g w) := by  rintro _ _ _ _ _ ⟨⟩; rfl
theorem movhi (g : Gcn) (w : Word0) : Statement (Instr.movhi g w) := by  rintro _ _ _ _ _ ⟨⟩; rfl
theorem pand (g : Gcn) (w : Word0) : Statement (Instr.pand g w) := by  rintro _ _ _ _ _ ⟨⟩; rfl
theorem por (g : Gcn) (w : Word0) : Statement (Instr.por g w) := by  rintro _ _ _ _ _ ⟨⟩; rfl
theorem pxor (g : Gcn) (w : Word0) : Statement (Instr.pxor g w) := by  rintro _ _ _ _ _ ⟨⟩; rfl
theorem pnot (g : Gcn) (w : Word0) : Statement (Instr.pnot g w) := by  rintro _ _ _ _ _ ⟨⟩; rfl
theorem aadd (g : Gcn) (w : Word0) : Statement (Instr.aadd g w) := by  rintro _ _ _ _ _ ⟨⟩; rfl
theorem aaddi (g : Gcn) (w : Word0) : Statement (Instr.aaddi g w) := by  rintro _ _ _ _ _ ⟨⟩; rfl
theorem amov (g : Gcn) (w : Word0) : Statement (Instr.amov g w) := by  rintro _ _ _ _ _ ⟨⟩; rfl
theorem aread (g : Gcn) (w : Word0) : Statement (Instr.aread g w) := by  rintro _ _ _ _ _ ⟨⟩; rfl
theorem cmpEq (g : Gcn) (w : Word0) : Statement (Instr.cmpEq g w) := by  rintro _ _ _ _ _ ⟨⟩; rfl
theorem cmpEqI (g : Gcn) (w : Word0) : Statement (Instr.cmpEqI g w) := by  rintro _ _ _ _ _ ⟨⟩; rfl
theorem cmpNe (g : Gcn) (w : Word0) : Statement (Instr.cmpNe g w) := by  rintro _ _ _ _ _ ⟨⟩; rfl
theorem cmpNeI (g : Gcn) (w : Word0) : Statement (Instr.cmpNeI g w) := by  rintro _ _ _ _ _ ⟨⟩; rfl
theorem cmpLt (g : Gcn) (w : Word0) : Statement (Instr.cmpLt g w) := by  rintro _ _ _ _ _ ⟨⟩; rfl
theorem cmpLtI (g : Gcn) (w : Word0) : Statement (Instr.cmpLtI g w) := by  rintro _ _ _ _ _ ⟨⟩; rfl
theorem cmpLtu (g : Gcn) (w : Word0) : Statement (Instr.cmpLtu g w) := by  rintro _ _ _ _ _ ⟨⟩; rfl
theorem cmpLtuI (g : Gcn) (w : Word0) : Statement (Instr.cmpLtuI g w) := by  rintro _ _ _ _ _ ⟨⟩; rfl
theorem cmpLe (g : Gcn) (w : Word0) : Statement (Instr.cmpLe g w) := by  rintro _ _ _ _ _ ⟨⟩; rfl
theorem cmpLeI (g : Gcn) (w : Word0) : Statement (Instr.cmpLeI g w) := by  rintro _ _ _ _ _ ⟨⟩; rfl
theorem cmpLeu (g : Gcn) (w : Word0) : Statement (Instr.cmpLeu g w) := by  rintro _ _ _ _ _ ⟨⟩; rfl
theorem cmpLeuI (g : Gcn) (w : Word0) : Statement (Instr.cmpLeuI g w) := by  rintro _ _ _ _ _ ⟨⟩; rfl
theorem br (g : Gcn) (w : Word0) : Statement (Instr.br g w) := by  rintro _ _ _ _ _ ⟨⟩; rfl
theorem bra (g : Gcn) (w : Word0) : Statement (Instr.bra g w) := by  rintro _ _ _ _ _ ⟨⟩; rfl
theorem call (g : Gcn) (w : Word0) : Statement (Instr.call g w) := by  rintro _ _ _ _ _ ⟨⟩; rfl
theorem ret (g : Gcn) (w : Word0) : Statement (Instr.ret g w) := by  rintro _ _ _ _ _ ⟨⟩; rfl
theorem loop (g : Gcn) (w : Word0) : Statement (Instr.loop g w) := by  rintro _ _ _ _ _ ⟨⟩; rfl
theorem ld8u (g : Gcn) (w : Word0) : Statement (Instr.ld8u g w) := by  rintro _ _ _ _ _ ⟨⟩; rfl
theorem ld8s (g : Gcn) (w : Word0) : Statement (Instr.ld8s g w) := by  rintro _ _ _ _ _ ⟨⟩; rfl
theorem ld16u (g : Gcn) (w : Word0) : Statement (Instr.ld16u g w) := by  rintro _ _ _ _ _ ⟨⟩; rfl
theorem ld16s (g : Gcn) (w : Word0) : Statement (Instr.ld16s g w) := by  rintro _ _ _ _ _ ⟨⟩; rfl
theorem ld32u (g : Gcn) (w : Word0) : Statement (Instr.ld32u g w) := by  rintro _ _ _ _ _ ⟨⟩; rfl
theorem ld32s (g : Gcn) (w : Word0) : Statement (Instr.ld32s g w) := by  rintro _ _ _ _ _ ⟨⟩; rfl
theorem ld64 (g : Gcn) (w : Word0) : Statement (Instr.ld64 g w) := by  rintro _ _ _ _ _ ⟨⟩; rfl
theorem lda (g : Gcn) (w : Word0) : Statement (Instr.lda g w) := by  rintro _ _ _ _ _ ⟨⟩; rfl
theorem st8 (g : Gcn) (w : Word0) : Statement (Instr.st8 g w) := by  rintro _ _ _ _ _ ⟨⟩; rfl
theorem st16 (g : Gcn) (w : Word0) : Statement (Instr.st16 g w) := by  rintro _ _ _ _ _ ⟨⟩; rfl
theorem st32 (g : Gcn) (w : Word0) : Statement (Instr.st32 g w) := by  rintro _ _ _ _ _ ⟨⟩; rfl
theorem st64 (g : Gcn) (w : Word0) : Statement (Instr.st64 g w) := by  rintro _ _ _ _ _ ⟨⟩; rfl
theorem sta (g : Gcn) (w : Word0) : Statement (Instr.sta g w) := by  rintro _ _ _ _ _ ⟨⟩; rfl
theorem ldq8u (g : Gcn) (w : Word0) : Statement (Instr.ldq8u g w) := by  rintro _ _ _ _ _ ⟨⟩; rfl
theorem ldq8s (g : Gcn) (w : Word0) : Statement (Instr.ldq8s g w) := by  rintro _ _ _ _ _ ⟨⟩; rfl
theorem ldq16u (g : Gcn) (w : Word0) : Statement (Instr.ldq16u g w) := by  rintro _ _ _ _ _ ⟨⟩; rfl
theorem ldq16s (g : Gcn) (w : Word0) : Statement (Instr.ldq16s g w) := by  rintro _ _ _ _ _ ⟨⟩; rfl
theorem ldq32u (g : Gcn) (w : Word0) : Statement (Instr.ldq32u g w) := by  rintro _ _ _ _ _ ⟨⟩; rfl
theorem ldq32s (g : Gcn) (w : Word0) : Statement (Instr.ldq32s g w) := by  rintro _ _ _ _ _ ⟨⟩; rfl
theorem ldq64 (g : Gcn) (w : Word0) : Statement (Instr.ldq64 g w) := by  rintro _ _ _ _ _ ⟨⟩; rfl
theorem ldqa (g : Gcn) (w : Word0) : Statement (Instr.ldqa g w) := by  rintro _ _ _ _ _ ⟨⟩; rfl
theorem dld (g : Gcn) (w : Word0) : Statement (Instr.dld g w) := by  rintro _ _ _ _ _ ⟨⟩; rfl
theorem dst (g : Gcn) (w : Word0) : Statement (Instr.dst g w) := by  rintro _ _ _ _ _ ⟨⟩; rfl
theorem dcpy (g : Gcn) (w : Word0) : Statement (Instr.dcpy g w) := by  rintro _ _ _ _ _ ⟨⟩; rfl
theorem daddb (g : Gcn) (w : Word0) : Statement (Instr.daddb g w) := by  rintro _ _ _ _ _ ⟨⟩; rfl
theorem daddbi (g : Gcn) (w : Word0) : Statement (Instr.daddbi g w) := by  rintro _ _ _ _ _ ⟨⟩; rfl
theorem dsetb (g : Gcn) (w : Word0) : Statement (Instr.dsetb g w) := by  rintro _ _ _ _ _ ⟨⟩; rfl
theorem dsete (g : Gcn) (w : Word0) : Statement (Instr.dsete g w) := by  rintro _ _ _ _ _ ⟨⟩; rfl
theorem dsets (g : Gcn) (w : Word0) : Statement (Instr.dsets g w) := by  rintro _ _ _ _ _ ⟨⟩; rfl
theorem dsett (g : Gcn) (w : Word0) : Statement (Instr.dsett g w) := by  rintro _ _ _ _ _ ⟨⟩; rfl
theorem mwl (g : Gcn) (w : Word0) (w1 : Word64) : Statement (Instr.mwl g w w1) := by  rintro _ _ _ _ _ ⟨⟩; rfl
theorem mtile (g : Gcn) (w : Word0) (w1 : Word64) : Statement (Instr.mtile g w w1) := by  rintro _ _ _ _ _ ⟨⟩; rfl
theorem mmode (g : Gcn) (w : Word0) : Statement (Instr.mmode g w) := by  rintro _ _ _ _ _ ⟨⟩; rfl
theorem vld (g : Gcn) (w : Word0) (w1 : Word64) : Statement (Instr.vld g w w1) := by  rintro _ _ _ _ _ ⟨⟩; rfl
theorem vst (g : Gcn) (w : Word0) (w1 : Word64) : Statement (Instr.vst g w w1) := by  rintro _ _ _ _ _ ⟨⟩; rfl
theorem vadd (g : Gcn) (w : Word0) : Statement (Instr.vadd g w) := by  rintro _ _ _ _ _ ⟨⟩; rfl
theorem vsub (g : Gcn) (w : Word0) : Statement (Instr.vsub g w) := by  rintro _ _ _ _ _ ⟨⟩; rfl
theorem vmul (g : Gcn) (w : Word0) : Statement (Instr.vmul g w) := by  rintro _ _ _ _ _ ⟨⟩; rfl
theorem vfma (g : Gcn) (w : Word0) : Statement (Instr.vfma g w) := by  rintro _ _ _ _ _ ⟨⟩; rfl
theorem vfms (g : Gcn) (w : Word0) : Statement (Instr.vfms g w) := by  rintro _ _ _ _ _ ⟨⟩; rfl
theorem vdiv (g : Gcn) (w : Word0) : Statement (Instr.vdiv g w) := by  rintro _ _ _ _ _ ⟨⟩; rfl
theorem vsqrt (g : Gcn) (w : Word0) : Statement (Instr.vsqrt g w) := by  rintro _ _ _ _ _ ⟨⟩; rfl
theorem vmin (g : Gcn) (w : Word0) : Statement (Instr.vmin g w) := by  rintro _ _ _ _ _ ⟨⟩; rfl
theorem vmax (g : Gcn) (w : Word0) : Statement (Instr.vmax g w) := by  rintro _ _ _ _ _ ⟨⟩; rfl
theorem vminn (g : Gcn) (w : Word0) : Statement (Instr.vminn g w) := by  rintro _ _ _ _ _ ⟨⟩; rfl
theorem vmaxn (g : Gcn) (w : Word0) : Statement (Instr.vmaxn g w) := by  rintro _ _ _ _ _ ⟨⟩; rfl
theorem vabs (g : Gcn) (w : Word0) : Statement (Instr.vabs g w) := by  rintro _ _ _ _ _ ⟨⟩; rfl
theorem vneg (g : Gcn) (w : Word0) : Statement (Instr.vneg g w) := by  rintro _ _ _ _ _ ⟨⟩; rfl
theorem vcvt (g : Gcn) (w : Word0) : Statement (Instr.vcvt g w) := by  rintro _ _ _ _ _ ⟨⟩; rfl
theorem vcmp (g : Gcn) (w : Word0) : Statement (Instr.vcmp g w) := by  rintro _ _ _ _ _ ⟨⟩; rfl
theorem vsel (g : Gcn) (w : Word0) : Statement (Instr.vsel g w) := by  rintro _ _ _ _ _ ⟨⟩; rfl
theorem vand (g : Gcn) (w : Word0) : Statement (Instr.vand g w) := by  rintro _ _ _ _ _ ⟨⟩; rfl
theorem vor (g : Gcn) (w : Word0) : Statement (Instr.vor g w) := by  rintro _ _ _ _ _ ⟨⟩; rfl
theorem vxor (g : Gcn) (w : Word0) : Statement (Instr.vxor g w) := by  rintro _ _ _ _ _ ⟨⟩; rfl
theorem vshl (g : Gcn) (w : Word0) : Statement (Instr.vshl g w) := by  rintro _ _ _ _ _ ⟨⟩; rfl
theorem vshr (g : Gcn) (w : Word0) : Statement (Instr.vshr g w) := by  rintro _ _ _ _ _ ⟨⟩; rfl
theorem vsar (g : Gcn) (w : Word0) : Statement (Instr.vsar g w) := by  rintro _ _ _ _ _ ⟨⟩; rfl
theorem viota (g : Gcn) (w : Word0) : Statement (Instr.viota g w) := by  rintro _ _ _ _ _ ⟨⟩; rfl
theorem vsplat (g : Gcn) (w : Word0) : Statement (Instr.vsplat g w) := by  rintro _ _ _ _ _ ⟨⟩; rfl
theorem vshuf (g : Gcn) (w : Word0) : Statement (Instr.vshuf g w) := by  rintro _ _ _ _ _ ⟨⟩; rfl
theorem vexp2 (g : Gcn) (w : Word0) : Statement (Instr.vexp2 g w) := by  rintro _ _ _ _ _ ⟨⟩; rfl
theorem vlog2 (g : Gcn) (w : Word0) : Statement (Instr.vlog2 g w) := by  rintro _ _ _ _ _ ⟨⟩; rfl
theorem vrcp (g : Gcn) (w : Word0) : Statement (Instr.vrcp g w) := by  rintro _ _ _ _ _ ⟨⟩; rfl
theorem vrsqrt (g : Gcn) (w : Word0) : Statement (Instr.vrsqrt g w) := by  rintro _ _ _ _ _ ⟨⟩; rfl
theorem vsin (g : Gcn) (w : Word0) : Statement (Instr.vsin g w) := by  rintro _ _ _ _ _ ⟨⟩; rfl
theorem vcos (g : Gcn) (w : Word0) : Statement (Instr.vcos g w) := by  rintro _ _ _ _ _ ⟨⟩; rfl
theorem vrsum (g : Gcn) (w : Word0) : Statement (Instr.vrsum g w) := by  rintro _ _ _ _ _ ⟨⟩; rfl
theorem vrmax (g : Gcn) (w : Word0) : Statement (Instr.vrmax g w) := by  rintro _ _ _ _ _ ⟨⟩; rfl
theorem vrmin (g : Gcn) (w : Word0) : Statement (Instr.vrmin g w) := by  rintro _ _ _ _ _ ⟨⟩; rfl
theorem vsma (g : Gcn) (w : Word0) : Statement (Instr.vsma g w) := by  rintro _ _ _ _ _ ⟨⟩; rfl
theorem vsmmrg (g : Gcn) (w : Word0) : Statement (Instr.vsmmrg g w) := by  rintro _ _ _ _ _ ⟨⟩; rfl
theorem vsminit (g : Gcn) (w : Word0) : Statement (Instr.vsminit g w) := by  rintro _ _ _ _ _ ⟨⟩; rfl
theorem vrand (g : Gcn) (w : Word0) (w1 : Word64) : Statement (Instr.vrand g w w1) := by  rintro _ _ _ _ _ ⟨⟩; rfl
theorem vdrop (g : Gcn) (w : Word0) (w1 : Word64) : Statement (Instr.vdrop g w w1) := by  rintro _ _ _ _ _ ⟨⟩; rfl
theorem fcopy (g : Gcn) (w : Word0) (w1 : Word64) : Statement (Instr.fcopy g w w1) := by  rintro _ _ _ _ _ ⟨⟩; rfl
theorem fconv (g : Gcn) (w : Word0) (w1 : Word64) : Statement (Instr.fconv g w w1) := by  rintro _ _ _ _ _ ⟨⟩; rfl
theorem fgath (g : Gcn) (w : Word0) (w1 : Word64) : Statement (Instr.fgath g w w1) := by  rintro _ _ _ _ _ ⟨⟩; rfl
theorem fscat (g : Gcn) (w : Word0) (w1 : Word64) : Statement (Instr.fscat g w w1) := by  rintro _ _ _ _ _ ⟨⟩; rfl
theorem fscadd (g : Gcn) (w : Word0) (w1 : Word64) : Statement (Instr.fscadd g w w1) := by  rintro _ _ _ _ _ ⟨⟩; rfl
theorem fqbc (g : Gcn) (w : Word0) (w1 : Word64) : Statement (Instr.fqbc g w w1) := by  rintro _ _ _ _ _ ⟨⟩; rfl
theorem waitM (g : Gcn) (w : Word0) : Statement (Instr.waitM g w) := by  rintro _ _ _ _ _ ⟨⟩; rfl
theorem waitV (g : Gcn) (w : Word0) : Statement (Instr.waitV g w) := by  rintro _ _ _ _ _ ⟨⟩; rfl
theorem waitF (g : Gcn) (w : Word0) : Statement (Instr.waitF g w) := by  rintro _ _ _ _ _ ⟨⟩; rfl
theorem waitoM (g : Gcn) (w : Word0) : Statement (Instr.waitoM g w) := by  rintro _ _ _ _ _ ⟨⟩; rfl
theorem waitoV (g : Gcn) (w : Word0) : Statement (Instr.waitoV g w) := by  rintro _ _ _ _ _ ⟨⟩; rfl
theorem waitoF (g : Gcn) (w : Word0) : Statement (Instr.waitoF g w) := by  rintro _ _ _ _ _ ⟨⟩; rfl
theorem waitall (g : Gcn) (w : Word0) : Statement (Instr.waitall g w) := by  rintro _ _ _ _ _ ⟨⟩; rfl
theorem rdcnt (g : Gcn) (w : Word0) : Statement (Instr.rdcnt g w) := by  rintro _ _ _ _ _ ⟨⟩; rfl
theorem rdiss (g : Gcn) (w : Word0) : Statement (Instr.rdiss g w) := by  rintro _ _ _ _ _ ⟨⟩; rfl
theorem tadd (g : Gcn) (w : Word0) : Statement (Instr.tadd g w) := by  rintro _ _ _ _ _ ⟨⟩; rfl
theorem taddi (g : Gcn) (w : Word0) : Statement (Instr.taddi g w) := by  rintro _ _ _ _ _ ⟨⟩; rfl
theorem tread (g : Gcn) (w : Word0) : Statement (Instr.tread g w) := by  rintro _ _ _ _ _ ⟨⟩; rfl
theorem nop (g : Gcn) (w : Word0) : Statement (Instr.nop g w) := by  rintro _ _ _ _ _ ⟨⟩; rfl
theorem endKernel (g : Gcn) (w : Word0) : Statement (Instr.endKernel g w) := by  rintro _ _ _ _ _ ⟨⟩; rfl
theorem faultSw (g : Gcn) (w : Word0) : Statement (Instr.faultSw g w) := by  rintro _ _ _ _ _ ⟨⟩; rfl
theorem setseed (g : Gcn) (w : Word0) : Statement (Instr.setseed g w) := by  rintro _ _ _ _ _ ⟨⟩; rfl
theorem rdtime (g : Gcn) (w : Word0) : Statement (Instr.rdtime g w) := by  rintro _ _ _ _ _ ⟨⟩; rfl
theorem rdcsr (g : Gcn) (w : Word0) : Statement (Instr.rdcsr g w) := by  rintro _ _ _ _ _ ⟨⟩; rfl
theorem wrcsr (g : Gcn) (w : Word0) : Statement (Instr.wrcsr g w) := by  rintro _ _ _ _ _ ⟨⟩; rfl
theorem histClear (g : Gcn) (e : HistEngine) : Statement (Instr.histClear g e) := by  rintro _ _ _ _ _ ⟨⟩
theorem queueFullRelease (g : Gcn) : Statement (Instr.queueFullRelease g) := by  rintro _ _ _ _ _ ⟨⟩
theorem waitRelease (g : Gcn) : Statement (Instr.waitRelease g) := by  rintro _ _ _ _ _ ⟨⟩
theorem containedAccessRelease (g : Gcn) : Statement (Instr.containedAccessRelease g) := by  rintro _ _ _ _ _ ⟨⟩
theorem matrixCommandBegin (g : Gcn) : Statement (Instr.matrixCommandBegin g) := by  rintro _ _ _ _ _ ⟨⟩
theorem matrixDrainWrite (g : Gcn) (n : Word32) (j : Repetition) : Statement (Instr.matrixDrainWrite g n j) := by  rintro _ _ _ _ _ ⟨⟩
theorem matrixCommandComplete (g : Gcn) (n : Word32) : Statement (Instr.matrixCommandComplete g n) := by  rintro _ _ _ _ _ ⟨⟩
theorem matrixResume (g : Gcn) (n : Word32) : Statement (Instr.matrixResume g n) := by  rintro _ _ _ _ _ ⟨⟩
theorem arrayRampUp (g : Gcn) : Statement (Instr.arrayRampUp g) := by  rintro _ _ _ _ _ ⟨⟩
theorem arrayRampDown (g : Gcn) : Statement (Instr.arrayRampDown g) := by  rintro _ _ _ _ _ ⟨⟩
theorem frozenRampDown (g : Gcn) : Statement (Instr.frozenRampDown g) := by  rintro _ _ _ _ _ ⟨⟩
theorem vectorCommandBegin (g : Gcn) : Statement (Instr.vectorCommandBegin g) := by  rintro _ _ _ _ _ ⟨⟩
theorem vectorCommandComplete (g : Gcn) : Statement (Instr.vectorCommandComplete g) := by  rintro _ _ _ _ _ ⟨⟩
theorem ferryCommandBegin (g : Gcn) : Statement (Instr.ferryCommandBegin g) := by  rintro _ _ _ _ _ ⟨⟩
theorem ferryCommandComplete (g : Gcn) (ch : Channel) : Statement (Instr.ferryCommandComplete g ch) := by  rintro _ _ _ _ _ ⟨⟩
theorem ferryIndexFault (g : Gcn) (ch : Channel) : Statement (Instr.ferryIndexFault g ch) := by  rintro _ _ _ _ _ ⟨⟩
theorem coreCancel (g : Gcn) : Statement (Instr.coreCancel g) := by  rintro _ _ _ _ _ ⟨⟩
theorem coreReport (g : Gcn) : Statement (Instr.coreReport g) := by  rintro _ _ _ _ _ ⟨⟩
theorem verdict (u : Checker) (id : Nat) (bad : (Option Lane4)) : Statement (Instr.verdict u id bad) := by  rintro _ _ _ _ _ ⟨⟩
theorem lateVerdict (u : Checker) (id : Nat) : Statement (Instr.lateVerdict u id) := by  rintro _ _ _ _ _ ⟨⟩
theorem submitDoorbell (q : QueueId) (v : Word32) : Statement (Instr.submitDoorbell q v) := by  rintro _ _ _ _ _ ⟨⟩
theorem completionDoorbell (q : QueueId) (v : Word32) : Statement (Instr.completionDoorbell q v) := by  rintro _ _ _ _ _ ⟨⟩
theorem commandRead (q : QueueId) : Statement (Instr.commandRead q) := by  rintro _ _ _ _ _ ⟨⟩
theorem launch (q : QueueId) : Statement (Instr.launch q) := by  rintro _ _ _ _ _ ⟨⟩
theorem copyCmd (q : QueueId) (g : Gcn) (ch : Channel) : Statement (Instr.copyCmd q g ch) := by  rintro _ _ _ _ _ ⟨⟩
theorem collective (q : QueueId) : Statement (Instr.collective q) := by  rintro _ _ _ _ _ ⟨⟩
theorem ticketWait (q : QueueId) : Statement (Instr.ticketWait q) := by  rintro _ _ _ _ _ ⟨⟩
theorem ticketSignal (q : QueueId) : Statement (Instr.ticketSignal q) := by  rintro _ _ _ _ _ ⟨⟩
theorem marker (q : QueueId) : Statement (Instr.marker q) := by  rintro _ _ _ _ _ ⟨⟩
theorem hostFence (q : QueueId) : Statement (Instr.hostFence q) := by  rintro _ _ _ _ _ ⟨⟩
theorem ticketWaitTimeout (q : QueueId) : Statement (Instr.ticketWaitTimeout q) := by  rintro _ _ _ _ _ ⟨⟩
theorem watchdogExpiry (op : Nat) : Statement (Instr.watchdogExpiry op) := by  rintro _ _ _ _ _ ⟨⟩
theorem endOperation (op : Nat) : Statement (Instr.endOperation op) := by  rintro _ _ _ _ _ ⟨⟩
theorem ticketMessageResend (m : Nat) : Statement (Instr.ticketMessageResend m) := by  rintro _ _ _ _ _ ⟨⟩
theorem signalWithdraw (m : Nat) : Statement (Instr.signalWithdraw m) := by  rintro _ _ _ _ _ ⟨⟩
theorem cancel (v : Word64) : Statement (Instr.cancel v) := by  rintro _ _ _ _ _ ⟨⟩
theorem cancelAll (v : Word64) : Statement (Instr.cancelAll v) := by  rintro _ _ _ _ _ ⟨⟩
theorem queueEnable (q : QueueId) (v : Word32) : Statement (Instr.queueEnable q v) := by  rintro _ _ _ _ _ ⟨⟩
theorem queueDisable (q : QueueId) (v : Word32) : Statement (Instr.queueDisable q v) := by  rintro _ _ _ _ _ ⟨⟩
theorem queueResume (q : QueueId) (v : Word32) : Statement (Instr.queueResume q v) := by  rintro _ _ _ _ _ ⟨⟩
theorem ledgerReport (r : LedgerReport) : Statement (Instr.ledgerReport r) := by  rintro _ _ _ _ _ ⟨⟩
theorem timetableExchange : Statement Instr.timetableExchange := by  rintro _ _ _ _ _ ⟨⟩
theorem timetableMessage (p : Port) (m : TimeMsg) : Statement (Instr.timetableMessage p m) := by  rintro _ _ _ _ _ ⟨⟩
theorem holdoverTimeout : Statement Instr.holdoverTimeout := by  rintro _ _ _ _ _ ⟨⟩
theorem boardSourceTimeout : Statement Instr.boardSourceTimeout := by  rintro _ _ _ _ _ ⟨⟩
theorem ttSyncEdge : Statement Instr.ttSyncEdge := by  rintro _ _ _ _ _ ⟨⟩
theorem ttRefLoss : Statement Instr.ttRefLoss := by  rintro _ _ _ _ _ ⟨⟩
theorem sailingDeparture (e : EngineId) (p : Port) (sail : Nat) : Statement (Instr.sailingDeparture e p sail) := by  rintro _ _ _ _ _ ⟨⟩
theorem sailingExhausted (e : EngineId) (step : Nat) : Statement (Instr.sailingExhausted e step) := by  rintro _ _ _ _ _ ⟨⟩
theorem collectiveAdd (e : EngineId) (b : Nat) : Statement (Instr.collectiveAdd e b) := by  rintro _ _ _ _ _ ⟨⟩
theorem collectiveOutput (e : EngineId) : Statement (Instr.collectiveOutput e) := by  rintro _ _ _ _ _ ⟨⟩
theorem slackWaterStart (p : Port) (l : LinkId) (eyes : (List Eye)) : Statement (Instr.slackWaterStart p l eyes) := by  rintro _ _ _ _ _ ⟨⟩
theorem slackWaterEnd (p : Port) (l : LinkId) : Statement (Instr.slackWaterEnd p l) := by  rintro _ _ _ _ _ ⟨⟩
theorem hbmRetrainStart (n : StackId) : Statement (Instr.hbmRetrainStart n) := by  rintro _ _ _ _ _ ⟨⟩
theorem hbmRetrainEnd (n : StackId) : Statement (Instr.hbmRetrainEnd n) := by  rintro _ _ _ _ _ ⟨⟩
theorem logbookCheckpoint : Statement Instr.logbookCheckpoint := by  rintro _ _ _ _ _ ⟨⟩
theorem frameReceived (p : Port) (l : LinkId) (f : FrameIn) : Statement (Instr.frameReceived p l f) := by  rintro _ _ _ _ _ ⟨⟩
theorem laneFailure (p : Port) (lane : Lane16) : Statement (Instr.laneFailure p lane) := by  rintro _ _ _ _ _ ⟨⟩
theorem linkRetrainTimer (p : Port) (l : LinkId) : Statement (Instr.linkRetrainTimer p l) := by  rintro _ _ _ _ _ ⟨⟩
theorem linkTrainingTimeout (p : Port) (l : LinkId) : Statement (Instr.linkTrainingTimeout p l) := by  rintro _ _ _ _ _ ⟨⟩
theorem linkUp (p : Port) (l : LinkId) (t : Partner) : Statement (Instr.linkUp p l t) := by  rintro _ _ _ _ _ ⟨⟩
theorem linkSignalRegained (p : Port) (l : LinkId) : Statement (Instr.linkSignalRegained p l) := by  rintro _ _ _ _ _ ⟨⟩
theorem remoteWrite (p : Port) (x : Txn) : Statement (Instr.remoteWrite p x) := by  rintro _ _ _ _ _ ⟨⟩
theorem remoteRead (p : Port) (x : Txn) : Statement (Instr.remoteRead p x) := by  rintro _ _ _ _ _ ⟨⟩
theorem writeAck (p : Port) (x : Txn) : Statement (Instr.writeAck p x) := by  rintro _ _ _ _ _ ⟨⟩
theorem readData (p : Port) (x : Txn) : Statement (Instr.readData p x) := by  rintro _ _ _ _ _ ⟨⟩
theorem refusedAnswer (p : Port) (x : Txn) : Statement (Instr.refusedAnswer p x) := by  rintro _ _ _ _ _ ⟨⟩
theorem unroutable (p : Port) (x : Txn) : Statement (Instr.unroutable p x) := by  rintro _ _ _ _ _ ⟨⟩
theorem ticketMessage (p : Port) (x : Txn) : Statement (Instr.ticketMessage p x) := by  rintro _ _ _ _ _ ⟨⟩
theorem ticketAck (p : Port) (x : Txn) : Statement (Instr.ticketAck p x) := by  rintro _ _ _ _ _ ⟨⟩
theorem collectiveBlock (p : Port) (x : Txn) : Statement (Instr.collectiveBlock p x) := by  rintro _ _ _ _ _ ⟨⟩
theorem collectiveAnnouncement (p : Port) (x : Txn) : Statement (Instr.collectiveAnnouncement p x) := by  rintro _ _ _ _ _ ⟨⟩
theorem collectiveAbort (p : Port) (x : Txn) : Statement (Instr.collectiveAbort p x) := by  rintro _ _ _ _ _ ⟨⟩
theorem txnTimeout (tag : Word32) : Statement (Instr.txnTimeout tag) := by  rintro _ _ _ _ _ ⟨⟩
theorem ticketEntryExpiry (src : Coord) (m : Word32) : Statement (Instr.ticketEntryExpiry src m) := by  rintro _ _ _ _ _ ⟨⟩
theorem linkRetrain (p : Port) (v : Word32) : Statement (Instr.linkRetrain p v) := by  rintro _ _ _ _ _ ⟨⟩
theorem linkDisable (p : Port) (v : Word32) : Statement (Instr.linkDisable p v) := by  rintro _ _ _ _ _ ⟨⟩
theorem linkEnable (p : Port) (v : Word32) : Statement (Instr.linkEnable p v) := by  rintro _ _ _ _ _ ⟨⟩
theorem irecWrite (v : Word32) : Statement (Instr.irecWrite v) := by  rintro _ _ _ _ _ ⟨⟩
theorem hrwGangwayCommit (v : Word32) : Statement (Instr.hrwGangwayCommit v) := by  rintro _ _ _ _ _ ⟨⟩
theorem gangwayApply (group : Byte) : Statement (Instr.gangwayApply group) := by  rintro _ _ _ _ _ ⟨⟩
theorem hrwIntfSelect (v : Word32) : Statement (Instr.hrwIntfSelect v) := by  rintro _ _ _ _ _ ⟨⟩
theorem coreWindowRead (off : HostOff) (size : ReadSize) : Statement (Instr.coreWindowRead off size) := by  rintro _ _ _ _ _ ⟨⟩
theorem hrwHdmhSizeWrite (v : Word32) : Statement (Instr.hrwHdmhSizeWrite v) := by  rintro _ _ _ _ _ ⟨⟩
theorem registerWrite (off : HostOff) (bits : Nat) (v : Word64) : Statement (Instr.registerWrite off bits v) := by  rintro _ _ _ _ _ ⟨⟩
theorem hostMemRead (dpa : Nat) : Statement (Instr.hostMemRead dpa) := by  rintro _ _ _ _ _ ⟨⟩
theorem hostMemWrite (dpa : Nat) (data : HostData) : Statement (Instr.hostMemWrite dpa data) := by  rintro _ _ _ _ _ ⟨⟩
theorem hdmDecoderCommit (n : Bool) (dpa : Nat) (size : Nat) (ways : Nat) (base : Word64) : Statement (Instr.hdmDecoderCommit n dpa size ways base) := by  rintro _ _ _ _ _ ⟨⟩
theorem bisnpResponse (line : Nat) : Statement (Instr.bisnpResponse line) := by  rintro _ _ _ _ _ ⟨⟩
theorem hostCompletion (r : Requester) (c : Completion) : Statement (Instr.hostCompletion r c) := by  rintro _ _ _ _ _ ⟨⟩
theorem hostLinkReset (cxl : Bool) (rate : LinkRate) (width : LinkWidth) : Statement (Instr.hostLinkReset cxl rate width) := by  rintro _ _ _ _ _ ⟨⟩
theorem functionLevelReset : Statement Instr.functionLevelReset := by  rintro _ _ _ _ _ ⟨⟩
theorem msixUnmask (vec : VectorId) : Statement (Instr.msixUnmask vec) := by  rintro _ _ _ _ _ ⟨⟩
theorem doeDiscovery : Statement Instr.doeDiscovery := by  rintro _ _ _ _ _ ⟨⟩
theorem cdatRead (handle : Nat) : Statement (Instr.cdatRead handle) := by  rintro _ _ _ _ _ ⟨⟩
theorem getCert : Statement Instr.getCert := by  rintro _ _ _ _ _ ⟨⟩
theorem getReport (nonce : (List Byte)) (mask : Byte) : Statement (Instr.getReport nonce mask) := by  rintro _ _ _ _ _ ⟨⟩
theorem doeAbort : Statement Instr.doeAbort := by  rintro _ _ _ _ _ ⟨⟩
theorem identifyMemoryDevice : Statement Instr.identifyMemoryDevice := by  rintro _ _ _ _ _ ⟨⟩
theorem getHealthInfo : Statement Instr.getHealthInfo := by  rintro _ _ _ _ _ ⟨⟩
theorem getEventRecords : Statement Instr.getEventRecords := by  rintro _ _ _ _ _ ⟨⟩
theorem clearEventRecords (n : Nat) : Statement (Instr.clearEventRecords n) := by  rintro _ _ _ _ _ ⟨⟩
theorem getPoisonList (dpa : Nat) (len : Nat) : Statement (Instr.getPoisonList dpa len) := by  rintro _ _ _ _ _ ⟨⟩
theorem getSupportedLogs : Statement Instr.getSupportedLogs := by  rintro _ _ _ _ _ ⟨⟩
theorem getLog (off : Nat) (len : Nat) : Statement (Instr.getLog off len) := by  rintro _ _ _ _ _ ⟨⟩
theorem hbmPatrolScrub (n : StackId) (line : Nat) : Statement (Instr.hbmPatrolScrub n line) := by  rintro _ _ _ _ _ ⟨⟩
theorem hbmRefresh (n : StackId) (bank : Nat) : Statement (Instr.hbmRefresh n bank) := by  rintro _ _ _ _ _ ⟨⟩
theorem hbmRefreshRequest (n : StackId) : Statement (Instr.hbmRefreshRequest n) := by  rintro _ _ _ _ _ ⟨⟩
theorem hbmTempRead (n : StackId) (degc : Byte) : Statement (Instr.hbmTempRead n degc) := by  rintro _ _ _ _ _ ⟨⟩
theorem scratchpadScrub (u : SramRef) (word : Nat) : Statement (Instr.scratchpadScrub u word) := by  rintro _ _ _ _ _ ⟨⟩
theorem vinSample (mv : Nat) (ca : Nat) : Statement (Instr.vinSample mv ca) := by  rintro _ _ _ _ _ ⟨⟩
theorem cclkStep : Statement Instr.cclkStep := by  rintro _ _ _ _ _ ⟨⟩
theorem inputQualified (b : BootInputs) : Statement (Instr.inputQualified b) := by  rintro _ _ _ _ _ ⟨⟩
theorem undervoltageLockout : Statement Instr.undervoltageLockout := by  rintro _ _ _ _ _ ⟨⟩
theorem overvoltageLockout : Statement Instr.overvoltageLockout := by  rintro _ _ _ _ _ ⟨⟩
theorem highInputLog : Statement Instr.highInputLog := by  rintro _ _ _ _ _ ⟨⟩
theorem shedAssert : Statement Instr.shedAssert := by  rintro _ _ _ _ _ ⟨⟩
theorem shedRelease : Statement Instr.shedRelease := by  rintro _ _ _ _ _ ⟨⟩
theorem uvEmergency : Statement Instr.uvEmergency := by  rintro _ _ _ _ _ ⟨⟩
theorem uvClear : Statement Instr.uvClear := by  rintro _ _ _ _ _ ⟨⟩
theorem ilimEmergency : Statement Instr.ilimEmergency := by  rintro _ _ _ _ _ ⟨⟩
theorem ilimClear : Statement Instr.ilimClear := by  rintro _ _ _ _ _ ⟨⟩
theorem thermClear : Statement Instr.thermClear := by  rintro _ _ _ _ _ ⟨⟩
theorem emergencyEnd : Statement Instr.emergencyEnd := by  rintro _ _ _ _ _ ⟨⟩
theorem thermalThrottle : Statement Instr.thermalThrottle := by  rintro _ _ _ _ _ ⟨⟩
theorem tempSample (d : DieId) (vals : (List Int)) : Statement (Instr.tempSample d vals) := by  rintro _ _ _ _ _ ⟨⟩
theorem canarySample (d : ComputeDie) (vals : (List Int)) : Statement (Instr.canarySample d vals) := by  rintro _ _ _ _ _ ⟨⟩
theorem canaryHoldEnd (d : ComputeDie) : Statement (Instr.canaryHoldEnd d) := by  rintro _ _ _ _ _ ⟨⟩
theorem processMonitorSample (d : DieId) (vals : (List Int)) : Statement (Instr.processMonitorSample d vals) := by  rintro _ _ _ _ _ ⟨⟩
theorem droopEvent (d : DieId) : Statement (Instr.droopEvent d) := by  rintro _ _ _ _ _ ⟨⟩
theorem droopHoldEnd (d : DieId) : Statement (Instr.droopHoldEnd d) := by  rintro _ _ _ _ _ ⟨⟩
theorem vminMeasurement (d : ComputeDie) (steps : (List MarginStep)) : Statement (Instr.vminMeasurement d steps) := by  rintro _ _ _ _ _ ⟨⟩
theorem creditRequest (d : ComputeDie) (n : Nat) : Statement (Instr.creditRequest d n) := by  rintro _ _ _ _ _ ⟨⟩
theorem creditGrant : Statement Instr.creditGrant := by  rintro _ _ _ _ _ ⟨⟩
theorem creditRelease (d : ComputeDie) (n : Nat) : Statement (Instr.creditRelease d n) := by  rintro _ _ _ _ _ ⟨⟩
theorem wearCharge : Statement Instr.wearCharge := by  rintro _ _ _ _ _ ⟨⟩
theorem pwrCapWrite (v : Word32) : Statement (Instr.pwrCapWrite v) := by  rintro _ _ _ _ _ ⟨⟩
theorem clkCclkMaxWrite (d : ComputeDie) (v : Word32) : Statement (Instr.clkCclkMaxWrite d v) := by  rintro _ _ _ _ _ ⟨⟩
theorem fwWatchdogExpiry (u : Processor) : Statement (Instr.fwWatchdogExpiry u) := by  rintro _ _ _ _ _ ⟨⟩
theorem fwProcessorFault (u : Processor) (cause : FwCause) (fpc : Word32) : Statement (Instr.fwProcessorFault u cause fpc) := by  rintro _ _ _ _ _ ⟨⟩
theorem perstAssert : Statement Instr.perstAssert := by  rintro _ _ _ _ _ ⟨⟩
theorem perstRelease (b : BootInputs) : Statement (Instr.perstRelease b) := by  rintro _ _ _ _ _ ⟨⟩
theorem strapSample (k : Nat) (v : StrapPins) : Statement (Instr.strapSample k v) := by  rintro _ _ _ _ _ ⟨⟩
theorem boardSlotSample (k : Nat) (v : (BitVec 3)) : Statement (Instr.boardSlotSample k v) := by  rintro _ _ _ _ _ ⟨⟩
theorem secStageStart (v : Word32) : Statement (Instr.secStageStart v) := by  rintro _ _ _ _ _ ⟨⟩
theorem secActivateGo (v : Word32) : Statement (Instr.secActivateGo v) := by  rintro _ _ _ _ _ ⟨⟩
theorem activationHoldoffEnd : Statement Instr.activationHoldoffEnd := by  rintro _ _ _ _ _ ⟨⟩
theorem deferredTimeout : Statement Instr.deferredTimeout := by  rintro _ _ _ _ _ ⟨⟩
theorem activationSwitch : Statement Instr.activationSwitch := by  rintro _ _ _ _ _ ⟨⟩
theorem secSvnCommit (v : Word32) : Statement (Instr.secSvnCommit v) := by  rintro _ _ _ _ _ ⟨⟩
theorem secReset (v : Word32) : Statement (Instr.secReset v) := by  rintro _ _ _ _ _ ⟨⟩
theorem deviceReset (b : BootInputs) : Statement (Instr.deviceReset b) := by  rintro _ _ _ _ _ ⟨⟩
theorem arbitrationReplay (u : Checker) (rdiff : Bool) (pres : Bool) : Statement (Instr.arbitrationReplay u rdiff pres) := by  rintro _ _ _ _ _ ⟨⟩
theorem arbitrationWitness (u : Checker) (pweq : Bool) (wres : Bool) : Statement (Instr.arbitrationWitness u pweq wres) := by  rintro _ _ _ _ _ ⟨⟩
theorem suspectClearance (g : Gcn) (r : Clearance) : Statement (Instr.suspectClearance g r) := by  rintro _ _ _ _ _ ⟨⟩
theorem patrolLaunch (g : Gcn) (h : Gcn) (margin : Bool) : Statement (Instr.patrolLaunch g h margin) := by  rintro _ _ _ _ _ ⟨⟩
theorem patrolComplete (g : Gcn) (r : PatrolResult) : Statement (Instr.patrolComplete g r) := by  rintro _ _ _ _ _ ⟨⟩
theorem logRecord (r : LogRec) : Statement (Instr.logRecord r) := by  rintro _ _ _ _ _ ⟨⟩
theorem logRecordWrite : Statement Instr.logRecordWrite := by  rintro _ _ _ _ _ ⟨⟩
theorem suppressed : Statement Instr.suppressed := by  rintro _ _ _ _ _ ⟨⟩
theorem acquireCheckpoint : Statement Instr.acquireCheckpoint := by  rintro _ _ _ _ _ ⟨⟩
theorem poweredOnSecond : Statement Instr.poweredOnSecond := by  rintro _ _ _ _ _ ⟨⟩
theorem logMark (v : Word32) : Statement (Instr.logMark v) := by  rintro _ _ _ _ _ ⟨⟩
theorem i3cSetPointer (data : (List Byte)) : Statement (Instr.i3cSetPointer data) := by  rintro _ _ _ _ _ ⟨⟩
theorem i3cClearAlert (data : (List Byte)) : Statement (Instr.i3cClearAlert data) := by  rintro _ _ _ _ _ ⟨⟩
theorem i3cRead (len : Nat) : Statement (Instr.i3cRead len) := by  rintro _ _ _ _ _ ⟨⟩
theorem i3cInvalidWrite (data : (List Byte)) : Statement (Instr.i3cInvalidWrite data) := by  rintro _ _ _ _ _ ⟨⟩
theorem setdasa (static : (BitVec 7)) (dyn : (BitVec 7)) : Statement (Instr.setdasa static dyn) := by  rintro _ _ _ _ _ ⟨⟩
theorem entdaa (dyn : (BitVec 7)) : Statement (Instr.entdaa dyn) := by  rintro _ _ _ _ _ ⟨⟩
theorem hostCompletionTimeout (g : Gcn) (ch : Channel) : Statement (Instr.hostCompletionTimeout g ch) := by  rintro _ _ _ _ _ ⟨⟩
theorem stagingComplete (flashOk : Bool) : Statement (Instr.stagingComplete flashOk) := by  rintro _ _ _ _ _ ⟨⟩
theorem pilotRestart (d : ComputeDie) : Statement (Instr.pilotRestart d) := by  rintro _ _ _ _ _ ⟨⟩
theorem linkRefclkLoss : Statement Instr.linkRefclkLoss := by  rintro _ _ _ _ _ ⟨⟩
theorem bar4Access (off : Nat) (wr : (Option HostData)) (len : Nat) : Statement (Instr.bar4Access off wr len) := by  rintro _ _ _ _ _ ⟨⟩

end Sys2Proof.Laws.RowRoundTrip
end

