-- ==== Sys2Proof/Laws/Seq.lean ====
section
/-!
SUPPORT. What the sequencer's shared operations do: an instruction that is ready goes on with its effect, and one
that writes a register changes that register, the program counter and the program order.
-/

namespace Sys2Proof.Machine

/-- A ready instruction whose words are legal is issued with its effect. -/
theorem issue_ready {s : State} {g : Gcn} {f : Form} {w : Word0} (h : Ready s g f w) (eff : SeqRes) :
    s.issue g.toNat w true true eff = s.finish g.toNat (wordBytes w) eff := by
  have hr := h.running
  have hg := h.guard
  have hk := h.kept
  have hm := h.room
  have hd : w.dbl = true → (s.core g.toNat).seq.pc ≠ 0xFFF8#16 := by
    intro hw e
    simp [wordBytes, hw, e] at hm
  simp only [State.issue, hr, hg, hk]
  by_cases hw : w.dbl = true
  · simp [hd hw]
  · simp [hw]

/-- The form's DBL gives the length. -/
theorem wordBytes_of_ok {f : Form} {w : Word0} (h : f.ok w = true) : wordBytes w = if f.dbl then 16 else 8 := by
  have : w.dbl = f.dbl := by simp only [Form.ok, Bool.and_eq_true, decide_eq_true_eq] at h; exact h.1.1.1.1
  simp [wordBytes, this]

/-- Away from the end of instruction memory an instruction moves the program counter past itself. -/
theorem advance_room (c : Core) (len : Nat) (h : c.seq.pc.toNat + len < 0x10000) :
    c.advance len = { c with seq := { c.seq with pc := c.seq.pc + BitVec.ofNat 16 len, ord := c.seq.ord + 1 } } := by
  simp [Core.advance, Nat.not_le.2 h]

theorem getA_setA (q : Seq) (r k : BitVec 5) (v : Addr) :
    (q.setA r v).getA k = if k.toNat % 16 = r.toNat % 16 then v else q.getA k := by
  simp only [Seq.setA, Seq.getA]
  split
  · rename_i h; simp [h]
  · rename_i h; exact Vector.getElem_set_ne _ _ (Ne.symm h)

theorem getP_setP (q : Seq) (r k : BitVec 5) (v : Bool) :
    (q.setP r v).getP k = if k.toNat % 8 = r.toNat % 8 ∧ r.toNat % 8 ≠ 0 then v else q.getP k := by
  unfold Seq.setP
  by_cases hr : r.toNat % 8 = 0
  · simp [hr]
  · by_cases hk : k.toNat % 8 = r.toNat % 8
    · simp [Seq.getP, hr, hk]
    · simp [Seq.getP, hr, hk, Vector.getElem_set_ne _ _ (Ne.symm hk)]

theorem getD_setD (q : Seq) (r k : BitVec 5) (v : Desc) :
    (q.setD r v).getD k = if k = r then v else q.getD k := by
  have hr := r.isLt
  have hk := k.isLt
  simp only [Seq.setD, Seq.getD]
  split
  · rename_i h; simp [h]
  · rename_i h
    exact Vector.getElem_set_ne _ _ (fun e => h (BitVec.eq_of_toNat_eq e.symm))

/-- Completing in the core with the sequencer's registers changed. -/
theorem retires_upd {s : State} {g : Gcn} (c : Core) (hc : s.core g.toNat = c) (f : Seq → Seq) (len : Nat) (x : RegWrite)
    (hroom : c.seq.pc.toNat + len < 0x10000) (hx : x.From c.seq (f c.seq))
    (hf : f c.seq = { c.seq with s := (f c.seq).s, a := (f c.seq).a, p := (f c.seq).p, d := (f c.seq).d }) :
    Retires s (s.finish g.toNat len (.core (c.upd f))) g (c.seq.pc + BitVec.ofNat 16 len) x := by
  have hpc : (f c.seq).pc = c.seq.pc := by rw [hf]
  have hord : (f c.seq).ord = c.seq.ord := by rw [hf]
  have ha : (c.upd f).advance len =
      { c with seq := { f c.seq with pc := c.seq.pc + BitVec.ofNat 16 len, ord := c.seq.ord + 1 } } := by
    rw [advance_room _ _ (by simpa [Core.upd, hpc] using hroom)]
    simp [Core.upd, hpc, hord]
  refine ⟨⟨⟨rfl, fun k hk => core_setCore_ne _ _ hk⟩, ?_⟩, ?_, ?_⟩
  · simp [State.finish, ha, hc]
  · simp only [State.finish, ha, core_setCore, hc]
    cases x <;> simpa [RegWrite.From, Seq.getS, Seq.getA, Seq.getP, Seq.getD] using hx
  · simp only [State.finish, ha, core_setCore, hc]
    rw [hf]

/-- A ready single-word instruction that changes registers of its own core. -/
theorem retires_issue1 {s : State} {g : Gcn} {f : Form} {w : Word0} (h : Ready s g f w) (hd : f.dbl = false)
    (F : Core → Seq → Seq) (x : RegWrite) (hx : x.From (s.core g.toNat).seq (F (s.core g.toNat) (s.core g.toNat).seq))
    (hf : ∀ c q, F c q = { q with s := (F c q).s, a := (F c q).a, p := (F c q).p, d := (F c q).d }) :
    Retires s (s.issue1 g.toNat f w true (fun c => .core (c.upd (F c)))) g ((s.core g.toNat).seq.pc + 8) x := by
  have hw := wordBytes_of_ok h.legal
  have hl := h.legal
  simp only [hd] at hw
  simp only [State.issue1, hl, Bool.and_true]
  rw [issue_ready h, hw]
  exact retires_upd _ rfl _ _ _ (by simpa [hw] using h.room) hx (hf _ _)

theorem From_setS (q : Seq) (r : BitVec 5) (v : Word64) : (RegWrite.s r v).From q (q.setS r v) := by
  refine ⟨fun k => getS_setS q r k v, ?_⟩
  unfold Seq.setS; split <;> exact ⟨rfl, rfl, rfl⟩

theorem From_setP (q : Seq) (r : BitVec 5) (v : Bool) : (RegWrite.p r v).From q (q.setP r v) := by
  refine ⟨fun k => getP_setP q r k v, ?_⟩
  unfold Seq.setP; split <;> exact ⟨rfl, rfl, rfl⟩

theorem From_setA (q : Seq) (r : BitVec 5) (v : Addr) : (RegWrite.a r v).From q (q.setA r v) :=
  ⟨fun k => getA_setA q r k v, rfl, rfl, rfl⟩

theorem From_setD (q : Seq) (r : BitVec 5) (v : Desc) : (RegWrite.d r v).From q (q.setD r v) :=
  ⟨fun k => getD_setD q r k v, rfl, rfl, rfl⟩

theorem setS_files (q : Seq) (r : BitVec 5) (v : Word64) :
    q.setS r v = { q with s := (q.setS r v).s, a := (q.setS r v).a, p := (q.setS r v).p, d := (q.setS r v).d } := by
  unfold Seq.setS; split <;> rfl

theorem setP_files (q : Seq) (r : BitVec 5) (v : Bool) :
    q.setP r v = { q with s := (q.setP r v).s, a := (q.setP r v).a, p := (q.setP r v).p, d := (q.setP r v).d } := by
  unfold Seq.setP; split <;> rfl

end Sys2Proof.Machine
end

