-- ==== Sys2Proof/Laws/Timetable.lean ====
section
/-!
SUPPORT. Laws of steering (R285, R290, R291): the bounds of a rate, whatever the free magnitude is, and how near one
exchange brings a follower to its parent.
-/

namespace Sys2Proof.Machine

theorem clampRate_bound (b : Nat) (r : Int) : (clampRate b r).natAbs ≤ b := by
  simp only [clampRate]; omega

theorem clampRate_within {b : Nat} {r : Int} (h : r.natAbs ≤ b) : clampRate b r = r := by
  simp only [clampRate]; omega

/-- A rate against an offset takes nearly all of it away in 62.5 µs, and never more than all. -/
theorem steerRate_bounds (draw : Nat) (ofs : Int) :
    (ofs.natAbs - 4) * 1000 ≤ (steerRate draw ofs).natAbs ∧ (steerRate draw ofs).natAbs ≤ ofs.natAbs * 1000 := by
  have hm : Config.steer draw % (ofs.natAbs * 1000 - (ofs.natAbs - 4) * 1000 + 1) <
      ofs.natAbs * 1000 - (ofs.natAbs - 4) * 1000 + 1 := Nat.mod_lt _ (by omega)
  simp only [steerRate]
  split <;> constructor <;> omega

/-- A rate never adds to the offset that it answers. -/
theorem steerRate_against (draw : Nat) (ofs : Int) :
    (0 < ofs → steerRate draw ofs ≤ 0) ∧ (ofs ≤ 0 → 0 ≤ steerRate draw ofs) := by
  simp only [steerRate]
  constructor <;> intro h <;> split <;> omega

@[simp] theorem follow_ppb (s : State) (p : Port) (ofs : Int) :
    (s.follow p ofs).tt.ppb = clampRate 50000 (s.parentRate p ofs + steerRate s.freeCtr ofs) := rfl

/-- A follower steers by at most 50 ppm (R290). -/
theorem follow_bound (s : State) (p : Port) (ofs : Int) : (s.follow p ofs).tt.ppb.natAbs ≤ 50000 :=
  clampRate_bound _ _

/-- Where a parent's rate leaves room for it, 62.5 µs bring an offset of the follower within 0.25 ns, whatever the
parent's rate is (R291). A rate of 1,000 parts in 10^9 takes away a sixteenth of a ns in that time. -/
theorem follow_within (s : State) (p : Port) (ofs : Int) (h : (s.parentRate p ofs).natAbs + ofs.natAbs * 1000 ≤ 50000) :
    (1000 * ofs + ((s.follow p ofs).tt.ppb - s.parentRate p ofs)).natAbs ≤ 4000 := by
  have hb := steerRate_bounds s.freeCtr ofs
  have ha := steerRate_against s.freeCtr ofs
  rw [follow_ppb, clampRate_within (by omega)]
  rcases Int.lt_or_le 0 ofs with h0 | h0
  · have := ha.1 h0; omega
  · have := ha.2 h0; omega

/-- A master's speed changes by a step at most, and stays within a bound that it is within (R287, R291). -/
theorem slewSpeed_step (bound left : Nat) (v : Int) :
    (slewSpeed bound left v - v).natAbs ≤ slewStep ∧ (v.natAbs ≤ bound → (slewSpeed bound left v).natAbs ≤ bound) := by
  have fits (u : Int) (h : slewFits bound left u = true) : u ≤ bound := by
    simp only [slewFits, Bool.and_eq_true, decide_eq_true_eq] at h; exact h.1
  have hs : (slewStep : Int) = 20 := rfl
  unfold slewSpeed
  split
  · simp only [slewStep]; omega
  · split
    · have := fits _ ‹_›; simp only [slewStep] at *; omega
    · split
      · have := fits _ ‹_›; simp only [slewStep]; omega
      · simp only [slewStep]; omega

theorem slewRate_step (bound : Nat) (left ppb : Int) :
    (slewRate bound left ppb - ppb).natAbs ≤ slewStep ∧ (ppb.natAbs ≤ bound → (slewRate bound left ppb).natAbs ≤ bound) := by
  simp only [slewRate]
  split
  · have := slewSpeed_step bound left.natAbs (-ppb); omega
  · exact slewSpeed_step bound left.natAbs ppb

end Sys2Proof.Machine
end

