-- ==== Sys2Proof/Machine/Fetch.lean ====
section
/-!
DEFINITION. What a core's instruction memory holds at its program counter (R67, R69). The commands of the table name
the instruction that a core executes; this is the one that a program names.
-/

namespace Sys2Proof.Machine

/-- The instruction that core g's memory spells at its program counter, if the core runs. (DESIGN CHOICE, log entry 16.) -/
def State.fetched (s : State) (g : Gcn) : Option Instr :=
  let c := s.core g.toNat
  match c.seq.cond with
  | .running => decodeWords g (c.imemWord c.seq.pc.toNat) (c.imemWord (c.seq.pc.toNat + 8))
  | _ => none

end Sys2Proof.Machine
end

