-- ==== Sys2Proof/WellFormed.lean ====
section
/-!
DEFINITION. Well-formed commands: operands whose ranges the spec gives and whose types do not already keep them.
-/

namespace Sys2Proof

/-! ## Checks -/

/-- A DPA of a line: DPA 0 is DMEM 0x4000_0000 (Table 11-1). -/
def lineOk (dpa : Nat) : Bool := decide (dpa % 64 = 0 ∧ dpa < 0x8FC0000000)

/-- An access through BAR4's window of 256 MiB; a write's length is its data's (R372). -/
def accessOk (off : Nat) (wr : Option HostData) (len : Nat) : Bool :=
  decide (off + len ≤ 0x10000000) && (match wr with | some d => decide (d.bytes.length = len) | none => true)

/-- A read's completion carries a granule (R379). -/
def completionOk : Completion → Bool
  | .data b _ => decide (b.length = 64)
  | .flushed => true
  | .error => true

/-- Sizes of an access in bits (R387). -/
def sizeOk (bits : Nat) : Bool := decide (bits = 8 ∨ bits = 16 ∨ bits = 32 ∨ bits = 64)

/-- Offsets in BAR0 and BAR2 (Table 11-5). -/
def barOk : HostOff → Bool
  | .bar0 off => decide (off < 2 ^ 24)
  | .bar2 off => decide (off < 2 ^ 16)
  | .cfg _ => true

/-- A frame has eight lanes and 1,280 bytes (R324, R325). -/
def frameOk (f : FrameIn) : Bool := decide (f.errors.length = 8 ∧ f.data.length = 1280)

/-- A word of a scratchpad of 8 MiB or a quay of 64 MiB (R231, Table 7-1). -/
def scrubOk : SramRef → Nat → Bool
  | .lsp _, w => decide (w < 2 ^ 20)
  | .quay _, w => decide (w < 2 ^ 23)

/-- The samples of R517 are the first, second and third. -/
def sampleOk (k : Nat) : Bool := decide (1 ≤ k ∧ k ≤ 3)

/-- Credits of the five classes (Table 10-4). -/
def fiveOk (l : List Nat) : Bool := decide (l.length = 5)

/-- A link's ledger report names its five classes. -/
def reportOk : LedgerReport → Bool
  | .link _ _ held => fiveOk held
  | .pilot _ _ => true
  | .lockkeeper _ _ _ => true

/-- A private write that sets the pointer (R502). -/
def pointerOk (data : List Byte) : Bool :=
  decide (data.length = 5) && (match data with | s :: _ => decide (s.toNat ≤ 1) | [] => false)

/-- The gangway groups (Table 11-8). -/
def groupOk (g : Nat) : Bool := decide (g = 0x10 ∨ g = 0x21 ∨ (0x30 ≤ g ∧ g ≤ 0x35) ∨ (0x40 ≤ g ∧ g ≤ 0x80))

/-- A transaction carries at most 16 granules (Table 10-5). -/
def txnOk (x : Txn) : Bool := decide (x.data.length ≤ 1024 ∧ x.count.toNat ≤ 16)

/-! ## The check of a command -/

/-- Whether a command is well formed. -/
def Instr.wf : Instr → Bool
  | .add _ _ => true
  | .addi _ _ => true
  | .sub _ _ => true
  | .subi _ _ => true
  | .mul _ _ => true
  | .muli _ _ => true
  | .mulhu _ _ => true
  | .mulhui _ _ => true
  | .mulhs _ _ => true
  | .mulhsi _ _ => true
  | .and _ _ => true
  | .andi _ _ => true
  | .or _ _ => true
  | .ori _ _ => true
  | .xor _ _ => true
  | .xori _ _ => true
  | .shl _ _ => true
  | .shli _ _ => true
  | .shr _ _ => true
  | .shri _ _ => true
  | .sar _ _ => true
  | .sari _ _ => true
  | .min _ _ => true
  | .mini _ _ => true
  | .max _ _ => true
  | .maxi _ _ => true
  | .minu _ _ => true
  | .minui _ _ => true
  | .maxu _ _ => true
  | .maxui _ _ => true
  | .movhi _ _ => true
  | .pand _ _ => true
  | .por _ _ => true
  | .pxor _ _ => true
  | .pnot _ _ => true
  | .aadd _ _ => true
  | .aaddi _ _ => true
  | .amov _ _ => true
  | .aread _ _ => true
  | .cmpEq _ _ => true
  | .cmpEqI _ _ => true
  | .cmpNe _ _ => true
  | .cmpNeI _ _ => true
  | .cmpLt _ _ => true
  | .cmpLtI _ _ => true
  | .cmpLtu _ _ => true
  | .cmpLtuI _ _ => true
  | .cmpLe _ _ => true
  | .cmpLeI _ _ => true
  | .cmpLeu _ _ => true
  | .cmpLeuI _ _ => true
  | .br _ _ => true
  | .bra _ _ => true
  | .call _ _ => true
  | .ret _ _ => true
  | .loop _ _ => true
  | .ld8u _ _ => true
  | .ld8s _ _ => true
  | .ld16u _ _ => true
  | .ld16s _ _ => true
  | .ld32u _ _ => true
  | .ld32s _ _ => true
  | .ld64 _ _ => true
  | .lda _ _ => true
  | .st8 _ _ => true
  | .st16 _ _ => true
  | .st32 _ _ => true
  | .st64 _ _ => true
  | .sta _ _ => true
  | .ldq8u _ _ => true
  | .ldq8s _ _ => true
  | .ldq16u _ _ => true
  | .ldq16s _ _ => true
  | .ldq32u _ _ => true
  | .ldq32s _ _ => true
  | .ldq64 _ _ => true
  | .ldqa _ _ => true
  | .dld _ _ => true
  | .dst _ _ => true
  | .dcpy _ _ => true
  | .daddb _ _ => true
  | .daddbi _ _ => true
  | .dsetb _ _ => true
  | .dsete _ _ => true
  | .dsets _ _ => true
  | .dsett _ _ => true
  | .mwl _ _ _ => true
  | .mtile _ _ _ => true
  | .mmode _ _ => true
  | .vld _ _ _ => true
  | .vst _ _ _ => true
  | .vadd _ _ => true
  | .vsub _ _ => true
  | .vmul _ _ => true
  | .vfma _ _ => true
  | .vfms _ _ => true
  | .vdiv _ _ => true
  | .vsqrt _ _ => true
  | .vmin _ _ => true
  | .vmax _ _ => true
  | .vminn _ _ => true
  | .vmaxn _ _ => true
  | .vabs _ _ => true
  | .vneg _ _ => true
  | .vcvt _ _ => true
  | .vcmp _ _ => true
  | .vsel _ _ => true
  | .vand _ _ => true
  | .vor _ _ => true
  | .vxor _ _ => true
  | .vshl _ _ => true
  | .vshr _ _ => true
  | .vsar _ _ => true
  | .viota _ _ => true
  | .vsplat _ _ => true
  | .vshuf _ _ => true
  | .vexp2 _ _ => true
  | .vlog2 _ _ => true
  | .vrcp _ _ => true
  | .vrsqrt _ _ => true
  | .vsin _ _ => true
  | .vcos _ _ => true
  | .vrsum _ _ => true
  | .vrmax _ _ => true
  | .vrmin _ _ => true
  | .vsma _ _ => true
  | .vsmmrg _ _ => true
  | .vsminit _ _ => true
  | .vrand _ _ _ => true
  | .vdrop _ _ _ => true
  | .fcopy _ _ _ => true
  | .fconv _ _ _ => true
  | .fgath _ _ _ => true
  | .fscat _ _ _ => true
  | .fscadd _ _ _ => true
  | .fqbc _ _ _ => true
  | .waitM _ _ => true
  | .waitV _ _ => true
  | .waitF _ _ => true
  | .waitoM _ _ => true
  | .waitoV _ _ => true
  | .waitoF _ _ => true
  | .waitall _ _ => true
  | .rdcnt _ _ => true
  | .rdiss _ _ => true
  | .tadd _ _ => true
  | .taddi _ _ => true
  | .tread _ _ => true
  | .nop _ _ => true
  | .endKernel _ _ => true
  | .faultSw _ _ => true
  | .setseed _ _ => true
  | .rdtime _ _ => true
  | .rdcsr _ _ => true
  | .wrcsr _ _ => true
  | .histClear _ _ => true
  | .queueFullRelease _ => true
  | .waitRelease _ => true
  | .containedAccessRelease _ => true
  | .matrixCommandBegin _ => true
  | .matrixDrainWrite _ _ _ => true
  | .matrixCommandComplete _ _ => true
  | .matrixResume _ _ => true
  | .arrayRampUp _ => true
  | .arrayRampDown _ => true
  | .frozenRampDown _ => true
  | .vectorCommandBegin _ => true
  | .vectorCommandComplete _ => true
  | .ferryCommandBegin _ => true
  | .ferryCommandComplete _ _ => true
  | .ferryIndexFault _ _ => true
  | .coreCancel _ => true
  | .coreReport _ => true
  | .verdict _ _ _ => true
  | .lateVerdict _ _ => true
  | .submitDoorbell _ _ => true
  | .completionDoorbell _ _ => true
  | .commandRead _ => true
  | .launch _ => true
  | .copyCmd _ _ _ => true
  | .collective _ => true
  | .ticketWait _ => true
  | .ticketSignal _ => true
  | .marker _ => true
  | .hostFence _ => true
  | .ticketWaitTimeout _ => true
  | .watchdogExpiry _ => true
  | .endOperation _ => true
  | .ticketMessageResend _ => true
  | .signalWithdraw _ => true
  | .cancel _ => true
  | .cancelAll _ => true
  | .queueEnable _ _ => true
  | .queueDisable _ _ => true
  | .queueResume _ _ => true
  | .ledgerReport r => reportOk r
  | .timetableExchange => true
  | .timetableMessage _ _ => true
  | .holdoverTimeout => true
  | .boardSourceTimeout => true
  | .ttSyncEdge => true
  | .ttRefLoss => true
  | .sailingDeparture _ _ _ => true
  | .sailingExhausted _ _ => true
  | .collectiveAdd _ _ => true
  | .collectiveOutput _ => true
  | .slackWaterStart _ _ eyes => decide (eyes.length ≤ 8)
  | .slackWaterEnd _ _ => true
  | .hbmRetrainStart _ => true
  | .hbmRetrainEnd _ => true
  | .logbookCheckpoint => true
  | .frameReceived _ _ f => frameOk f
  | .laneFailure _ _ => true
  | .linkRetrainTimer _ _ => true
  | .linkTrainingTimeout _ _ => true
  | .linkUp _ _ t => fiveOk t.limits && fiveOk t.buffered
  | .linkSignalRegained _ _ => true
  | .remoteWrite _ x => txnOk x
  | .remoteRead _ x => txnOk x
  | .writeAck _ x => txnOk x
  | .readData _ x => txnOk x
  | .refusedAnswer _ x => txnOk x
  | .unroutable _ x => txnOk x
  | .ticketMessage _ x => txnOk x
  | .ticketAck _ x => txnOk x
  | .collectiveBlock _ x => txnOk x
  | .collectiveAnnouncement _ x => txnOk x
  | .collectiveAbort _ x => txnOk x
  | .txnTimeout _ => true
  | .ticketEntryExpiry _ _ => true
  | .linkRetrain _ _ => true
  | .linkDisable _ _ => true
  | .linkEnable _ _ => true
  | .irecWrite _ => true
  | .hrwGangwayCommit _ => true
  | .gangwayApply group => groupOk group.toNat
  | .hrwIntfSelect _ => true
  | .coreWindowRead off _ => barOk off
  | .hrwHdmhSizeWrite _ => true
  | .registerWrite off bits _ => sizeOk bits && barOk off
  | .hostMemRead dpa => lineOk dpa
  | .hostMemWrite dpa data => lineOk dpa && data.bytes.length = 64
  | .hdmDecoderCommit _ _ _ _ _ => true
  | .bisnpResponse line => decide (line < 9663676416)
  | .hostCompletion _ c => completionOk c
  | .hostLinkReset _ _ _ => true
  | .functionLevelReset => true
  | .msixUnmask _ => true
  | .doeDiscovery => true
  | .cdatRead _ => true
  | .getCert => true
  | .getReport nonce _ => decide (nonce.length = 32)
  | .doeAbort => true
  | .identifyMemoryDevice => true
  | .getHealthInfo => true
  | .getEventRecords => true
  | .clearEventRecords _ => true
  | .getPoisonList _ _ => true
  | .getSupportedLogs => true
  | .getLog _ _ => true
  | .hbmPatrolScrub _ line => decide (line < 805306368)
  | .hbmRefresh _ _ => true
  | .hbmRefreshRequest _ => true
  | .hbmTempRead _ _ => true
  | .scratchpadScrub u word => scrubOk u word
  | .vinSample _ _ => true
  | .cclkStep => true
  | .inputQualified _ => true
  | .undervoltageLockout => true
  | .overvoltageLockout => true
  | .highInputLog => true
  | .shedAssert => true
  | .shedRelease => true
  | .uvEmergency => true
  | .uvClear => true
  | .ilimEmergency => true
  | .ilimClear => true
  | .thermClear => true
  | .emergencyEnd => true
  | .thermalThrottle => true
  | .tempSample d vals => decide (vals.length ≤ if d.val < 8 then 64 else 16)
  | .canarySample _ vals => decide (vals.length ≤ 256)
  | .canaryHoldEnd _ => true
  | .processMonitorSample _ _ => true
  | .droopEvent _ => true
  | .droopHoldEnd _ => true
  | .vminMeasurement _ steps => decide (steps.length ≤ 12)
  | .creditRequest _ n => decide (n % 16 = 0)
  | .creditGrant => true
  | .creditRelease _ _ => true
  | .wearCharge => true
  | .pwrCapWrite _ => true
  | .clkCclkMaxWrite _ _ => true
  | .fwWatchdogExpiry _ => true
  | .fwProcessorFault _ _ _ => true
  | .perstAssert => true
  | .perstRelease _ => true
  | .strapSample k _ => sampleOk k
  | .boardSlotSample k _ => sampleOk k
  | .secStageStart _ => true
  | .secActivateGo _ => true
  | .activationHoldoffEnd => true
  | .deferredTimeout => true
  | .activationSwitch => true
  | .secSvnCommit _ => true
  | .secReset _ => true
  | .deviceReset _ => true
  | .arbitrationReplay _ _ _ => true
  | .arbitrationWitness _ _ _ => true
  | .suspectClearance _ _ => true
  | .patrolLaunch g h _ => decide (g.toNat / 512 = h.toNat / 512 ∧ g ≠ h)
  | .patrolComplete _ _ => true
  | .logRecord r => decide (r.payload.length ≤ 32)
  | .logRecordWrite => true
  | .suppressed => true
  | .acquireCheckpoint => true
  | .poweredOnSecond => true
  | .logMark _ => true
  | .i3cSetPointer data => pointerOk data
  | .i3cClearAlert data => decide (data = [2, 1])
  | .i3cRead len => decide (len ≤ 4096)
  | .i3cInvalidWrite data => !pointerOk data && decide (data ≠ [2, 1])
  | .setdasa _ _ => true
  | .entdaa _ => true
  | .hostCompletionTimeout _ _ => true
  | .stagingComplete _ => true
  | .pilotRestart _ => true
  | .linkRefclkLoss => true
  | .bar4Access off wr len => accessOk off wr len

end Sys2Proof
end

