-- ==== Sys2Proof/Tests/Slice0.lean ====
section
/-!
SUPPORT. Tests of the model on fixed values, and for each statement a state and operands that meet its hypotheses.
-/

open Sys2Proof Sys2Proof.Machine

namespace Sys2Proof.Tests

set_option Elab.async false

/-! ## Small states -/

/-- A sequencer that runs. -/
def seqOn : Seq := { Seq.reset with cond := .running }

/-- Core 0 as given, all else at reset. -/
def with0 (c : Core) : State := { State.reset with cores := [(0, c)] }

/-- Core 0 runs with this sequencer. -/
def at0 (q : Seq) : State := with0 { Core.reset with seq := q }

/-- Word 0 with these fields, a single word without guard. -/
def wd (fd fa fb : BitVec 5) (imm : Word32) : Word0 := ⟨false, false, 0, 0, fd, fa, fb, imm⟩

theorem ready {s : State} {g : Gcn} {f : Form} {w : Word0}
    (h : (s.core g.toNat).seq.cond = .running ∧ (s.core g.toNat).cancel = false ∧ f.ok w = true ∧
      (s.core g.toNat).seq.guard w = true ∧ (s.core g.toNat).seq.pc.toNat + wordBytes w < 0x10000) : Ready s g f w :=
  ⟨⟨h.1, h.2.1, h.2.2.1, h.2.2.2.1⟩, h.2.2.2.2⟩

theorem issues {s : State} {g : Gcn} {f : Form} {w : Word0}
    (h : (s.core g.toNat).seq.cond = .running ∧ (s.core g.toNat).cancel = false ∧ f.ok w = true ∧
      (s.core g.toNat).seq.guard w = true) : Issues s g f w := ⟨h.1, h.2.1, h.2.2.1, h.2.2.2⟩

theorem canIssue {s : State} {g : Gcn} {i : EngineIssue} {len : Nat}
    (h : (s.core g.toNat).seq.cond = .running ∧ (s.core g.toNat).cancel = false ∧
      (s.core g.toNat).seq.guard i.word = true ∧ wordBytes i.word = len ∧
      (s.core g.toNat).seq.pc.toNat + len < 0x10000 ∧ word1Ok (s.core g.toNat).seq.quad i = true ∧
      firstInvalid s.hrw.apSize (s.core g.toNat).seq i.roles = none ∧
      (s.core g.toNat).queueLen i.eng < queueDepth i.eng ∧ s.hrw.apPend = none) : CanIssue s g i len :=
  ⟨h.1, h.2.1, h.2.2.1, h.2.2.2.1, h.2.2.2.2.1, h.2.2.2.2.2.1, h.2.2.2.2.2.2.1, h.2.2.2.2.2.2.2.1, h.2.2.2.2.2.2.2.2⟩

/-! ## The statements' hypotheses are met -/

theorem witness_StepTakesTheFrontCommand : State.reset.pending = [] := rfl

theorem witness_ScalarArithmeticOfTwoRegisters :
    Ready (at0 { seqOn with pc := 0xFFF0 }) 0 ⟨false, .s, .s, .s⟩ (wd 31 0 31 0) ∧
    Ready (at0 seqOn) 0 ⟨false, .s, .s, .s⟩ (wd 0 1 2 0) :=
  ⟨ready (by decide +kernel), ready (by decide +kernel)⟩

theorem witness_ScalarArithmeticWithImmediate :
    Ready (at0 seqOn) 0 ⟨false, .s, .s, .none⟩ (wd 31 0 0 0xFFFFFFFF) := ready (by decide +kernel)

theorem witness_MovesAndPredicateLogic :
    Ready (at0 seqOn) 0 ⟨false, .s, .none, .none⟩ (wd 5 0 0 0xFFFFFFFF) ∧
    Ready (at0 seqOn) 0 ⟨false, .a, .a, .s⟩ (wd 15 15 31 0) ∧
    Ready (at0 seqOn) 0 ⟨false, .a, .a, .none⟩ (wd 0 15 0 0x80000000) ∧
    Ready (at0 seqOn) 0 ⟨false, .a, .s, .none⟩ (wd 15 31 0 0) ∧
    Ready (at0 seqOn) 0 ⟨false, .s, .a, .none⟩ (wd 31 15 0 0) ∧
    Ready (at0 seqOn) 0 ⟨false, .p, .p, .p⟩ (wd 7 0 7 0) ∧
    Ready (at0 seqOn) 0 ⟨false, .p, .p, .none⟩ (wd 0 7 0 0) :=
  ⟨ready (by decide +kernel), ready (by decide +kernel), ready (by decide +kernel), ready (by decide +kernel),
    ready (by decide +kernel), ready (by decide +kernel), ready (by decide +kernel)⟩

theorem witness_ComparisonsWriteOnePredicate :
    Ready (at0 seqOn) 0 ⟨false, .p, .s, .s⟩ (wd 7 1 2 0) ∧
    Ready (at0 seqOn) 0 ⟨false, .p, .s, .none⟩ (wd 0 31 0 0x80000000) :=
  ⟨ready (by decide +kernel), ready (by decide +kernel)⟩

/-- A target at either end of instruction memory, one past it, and one that is no multiple of 8; s31 and sA at a
multiple of 8 and not; LOOP's register at 2, at 1, and s0. -/
theorem witness_BranchesGoToTheirTargets :
    let q (pc : Half) (v : Word64) : Seq := { seqOn with pc := pc, s := (seqOn.s.set 31 v).set 1 v }
    let rel (q : Seq) (w : Word0) : Int := (q.pc.toNat : Int) + w.imm.toInt
    Issues (at0 (q 0xFFF8 8)) 0 ⟨false, .none, .none, .none⟩ (wd 0 0 0 0xFFFF0008) ∧
    rel (q 0xFFF8 8) (wd 0 0 0 0xFFFF0008) = 0 ∧
    Issues (at0 (q 0 4)) 0 ⟨false, .none, .none, .none⟩ (wd 0 0 0 0xFFF8) ∧ rel (q 0 4) (wd 0 0 0 0xFFF8) = 0xFFF8 ∧
    rel (q 8 4) (wd 0 0 0 0xFFF8) = 0x10000 ∧ rel (q 8 4) (wd 0 0 0 0xFFFFFFF0) = -8 ∧ rel (q 8 4) (wd 0 0 0 4) % 8 = 4 ∧
    ((q 0 8).getS 31).toNat % 8 = 0 ∧ ((q 0 4).getS 31).toNat % 8 = 4 ∧
    Issues (at0 (q 0 8)) 0 ⟨false, .none, .s, .none⟩ (wd 0 1 0 0) ∧
    ((q 0 8).getS 1).toNat % 8 = 0 ∧ ((q 0 4).getS 1).toNat % 8 = 4 ∧
    Issues (at0 (q 8 2)) 0 ⟨false, .s, .none, .none⟩ (wd 1 0 0 0xFFFFFFF8) ∧ (q 8 2).getS 1 ≠ 1 ∧
    rel (q 8 2) (wd 1 0 0 0xFFFFFFF8) = 0 ∧
    (q 0 1).getS 1 = 1 ∧ Issues (at0 (q 0xFFF0 1)) 0 ⟨false, .s, .none, .none⟩ (wd 0 0 0 8) := by
  dsimp only
  refine ⟨issues ?_, ?_, issues ?_, ?_, ?_, ?_, ?_, ?_, ?_, issues ?_, ?_, ?_, issues ?_, ?_, ?_, ?_, issues ?_⟩ <;>
    decide +kernel

theorem witness_ScalarLoads :
    let s := at0 { seqOn with a := seqOn.a.set 1 0x7FFFC0 }
    let a := ((s.core 0).seq.getA 1 + (0 : Word32).signExtend 40).toNat
    Ready s 0 ⟨false, .s, .a, .none⟩ (wd 3 1 0 0) ∧ Ready s 0 ⟨false, .a, .a, .none⟩ (wd 3 1 0 0) ∧
    Ready s 0 ⟨false, .d, .a, .none⟩ (wd 31 1 0 0) ∧ a % 64 = 0 ∧ a + 64 ≤ 0x800000 ∧ s.marksOf (.lsp 0) (a / 64) = [] ∧
    let bad (l : Loc) : Bool :=
      let u := s.touch l (a / 64)
      u.seenBad (u.reader 0 none 0 false) 0 l (a / 64) || !(u.copies (u.reader 0 none 0 false) l (a / 64)).isEmpty
    bad (.lsp 0) = false ∧ bad (.quay 0) = false := by
  dsimp only
  refine ⟨ready ?_, ready ?_, ready ?_, ?_, ?_, ?_, ?_, ?_⟩ <;> decide +kernel

theorem witness_ScalarStores :
    let s := at0 { seqOn with a := seqOn.a.set 1 0x7FFFC0 }
    let a := ((s.core 0).seq.getA 1 + (0 : Word32).signExtend 40).toNat
    Ready s 0 ⟨false, .none, .a, .s⟩ (wd 0 1 31 0) ∧ Ready s 0 ⟨false, .none, .a, .a⟩ (wd 0 1 15 0) ∧
    Ready s 0 ⟨false, .none, .a, .d⟩ (wd 0 1 31 0) ∧ a % 64 = 0 ∧ a + 64 ≤ 0x800000 ∧ s.storeHeld 0 (a / 64) = false := by
  dsimp only
  refine ⟨ready ?_, ready ?_, ready ?_, ?_, ?_, ?_⟩ <;> decide +kernel

/-- Address 1 is a multiple of none of 2, 4, 8 and 64; 0x800000 and 0x4000000 lie just beyond. No access of one byte is
misaligned. -/
theorem witness_MisplacedScalarAccessesFault :
    let s (a : Addr) := at0 { seqOn with a := seqOn.a.set 1 a }
    Issues (s 1) 0 ⟨false, .s, .a, .none⟩ (wd 3 1 0 0) ∧ Issues (s 1) 0 ⟨false, .a, .a, .none⟩ (wd 3 1 0 0) ∧
    Issues (s 1) 0 ⟨false, .d, .a, .none⟩ (wd 3 1 0 0) ∧ Issues (s 1) 0 ⟨false, .none, .a, .s⟩ (wd 0 1 3 0) ∧
    Issues (s 1) 0 ⟨false, .none, .a, .a⟩ (wd 0 1 3 0) ∧ Issues (s 1) 0 ⟨false, .none, .a, .d⟩ (wd 0 1 3 0) ∧
    (((s 1).core 0).seq.getA 1 + (0 : Word32).signExtend 40).toNat = 1 ∧
    Issues (s 0x800000) 0 ⟨false, .s, .a, .none⟩ (wd 3 1 0 0) ∧
    (((s 0x800000).core 0).seq.getA 1 + (0 : Word32).signExtend 40).toNat = 0x800000 ∧
    (((s 0x4000000).core 0).seq.getA 1 + (0 : Word32).signExtend 40).toNat = 0x4000000 := by
  dsimp only
  refine ⟨issues ?_, issues ?_, issues ?_, issues ?_, issues ?_, issues ?_, ?_, issues ?_, ?_, ?_⟩ <;> decide +kernel

theorem witness_DescriptorFieldWrites :
    Ready (at0 seqOn) 0 ⟨false, .d, .d, .none⟩ (wd 31 0 0 0) ∧
    Ready (at0 seqOn) 0 ⟨false, .d, .none, .s⟩ (wd 31 0 31 4) ∧
    Ready (at0 seqOn) 0 ⟨false, .d, .none, .none⟩ (wd 7 0 0 0xFFFFFFFF) ∧
    Ready (at0 seqOn) 0 ⟨false, .d, .a, .none⟩ (wd 0 15 0 0) :=
  ⟨ready (by decide +kernel), ready (by decide +kernel), ready (by decide +kernel), ready (by decide +kernel)⟩

/-- A descriptor of rank 1. -/
def desc1 (base ext stride fmt space : Nat) : Desc :=
  BitVec.ofNat 512 (base + stride * 2 ^ 40 + ext * 2 ^ 240 + fmt * 2 ^ 472 + 2 ^ 476 + space * 2 ^ 479)

/-- Legal words of each vector operation. -/
def vecWord (op : VOp) : Word0 :=
  let dbl : Bool := op = .vld || op = .vst || op = .vrand || op = .vdrop
  let fmt : Nat := match op with
    | .vand | .vor | .vxor | .vshl | .vshr | .vsar | .viota | .vrand => 12
    | _ => 10
  ⟨dbl, false, 0, 0, 0, if op = .vsmmrg then 28 else 0, 0, BitVec.ofNat 32 (fmt * 2 ^ 20 + if op = .vcvt then 8 else 0)⟩

def vecOps : List VOp :=
  [.vld, .vst, .vadd, .vsub, .vmul, .vfma, .vfms, .vdiv, .vsqrt, .vmin, .vmax, .vminn, .vmaxn, .vabs, .vneg, .vcvt, .vcmp,
   .vsel, .vand, .vor, .vxor, .vshl, .vshr, .vsar, .viota, .vsplat, .vshuf, .vexp2, .vlog2, .vrcp, .vrsqrt, .vsin, .vcos,
   .vrsum, .vrmax, .vrmin, .vsma, .vsmmrg, .vsminit, .vrand, .vdrop]

/-- A queue with one entry free. -/
def vecFull : Vec :=
  { Vec.reset with queue := List.replicate 31 ⟨1, 0, 0, .vadd, vecWord .vadd, 0, 0, 0⟩ }

def issuing : State :=
  with0 { Core.reset with
    seq := { seqOn with d := (seqOn.d.set 1 (desc1 0 16 4 10 0)).set 2 (desc1 0x1000 16 4 10 0) }
    vec := vecFull }

theorem witness_VectorInstructionsEnterTheirQueue (op : VOp) (h : op ∈ vecOps) :
    vecOk op (vecWord op) = true ∧
    CanIssue issuing 0 (.vec op (vecWord op) (if (vecWord op).dbl then 0x0800000000000000 else 0))
      (if (vecWord op).dbl then 16 else 8) := by
  have a : vecOps.all (fun op => vecOk op (vecWord op)) = true := by decide +kernel
  have b : vecOps.all (fun op =>
      let i : EngineIssue := .vec op (vecWord op) (if (vecWord op).dbl then 0x0800000000000000 else 0)
      let q := (issuing.core 0).seq
      decide (q.cond = .running ∧ (issuing.core 0).cancel = false ∧ q.guard i.word = true ∧ wordBytes i.word = (if (vecWord op).dbl then 16 else 8) ∧
        q.pc.toNat + (if (vecWord op).dbl then 16 else 8) < 0x10000 ∧ word1Ok q.quad i = true ∧
        firstInvalid issuing.hrw.apSize q i.roles = none ∧ (issuing.core 0).queueLen i.eng < queueDepth i.eng ∧
        issuing.hrw.apPend = none)) = true := by decide +kernel
  exact ⟨List.all_eq_true.1 a op h, canIssue (of_decide_eq_true (List.all_eq_true.1 b op h))⟩

/-- Word 0 of a double form with no operand. -/
def wdbl : Word0 := ⟨true, false, 0, 0, 0, 0, 0, 0⟩

/-- Word 1: a ferry command from slot 1 to slot 2 with indices of slot 3, and an MTILE of slot 1 to slot 2 that is
INIT and LAST. -/
theorem witness_FerryAndMatrixInstructionsEnterTheirQueues :
    let d3 := desc1 0x2000 16 4 12 0
    let s := with0 { Core.reset with seq := { seqOn with
      d := ((seqOn.d.set 1 (desc1 0 16 4 10 0)).set 2 (desc1 0x1000 16 4 10 0)).set 3 d3 } }
    let wf : Word64 := 0x0880000000000000
    let wi : Word64 := 0x0886000000000000
    ferOk wdbl = true ∧ (∀ op ∈ [FOp.fcopy, .fconv, .fqbc], CanIssue s 0 (.fer op wdbl wf) 16) ∧
    (∀ op ∈ [FOp.fgath, .fscat, .fscadd], CanIssue s 0 (.fer op wdbl wi) 16) ∧
    matOk .mwl wdbl = true ∧ CanIssue s 0 (.mat .mwl wdbl 0x0800000000000000) 16 ∧
    matOk .mtile wdbl = true ∧ CanIssue s 0 (.mat .mtile wdbl 0x0804018000000000) 16 ∧
    matOk .mmode (wd 0 0 0 1) = true ∧ CanIssue s 0 (.mat .mmode (wd 0 0 0 1) 0) 8 := by
  dsimp only
  simp only [List.forall_mem_cons, List.not_mem_nil, false_implies, implies_true, and_true]
  refine ⟨?_, ⟨canIssue ?_, canIssue ?_, canIssue ?_⟩, ⟨canIssue ?_, canIssue ?_, canIssue ?_⟩, ?_, canIssue ?_, ?_,
    canIssue ?_, ?_, canIssue ?_⟩ <;> decide +kernel

/-- Targets at the issue count, one short of it and one beyond; a limit at, above and below what is outstanding, and a
negative one; all complete and not. -/
theorem witness_WaitsAndCounterReads :
    let q (n c : Word32) (x : Word64) : Seq :=
      { seqOn with mIssued := n, vIssued := n, fIssued := n, mec := c, vec := c, fec := c, s := seqOn.s.set 1 x }
    let at' (c t : Word32) : Prop := (c - t).toNat < 2 ^ 31
    Ready (at0 (q 8 7 7)) 0 ⟨false, .none, .s, .none⟩ (wd 0 1 0 1) ∧
    at' ((q 8 7 7).issued .matrix) 8 ∧ ¬ at' ((q 8 7 7).completed .matrix) 8 ∧ at' ((q 8 7 7).completed .matrix) 7 ∧
    ¬ at' ((q 8 7 7).issued .matrix) 9 ∧ ((q 8 7 7).getS 1 + (1 : Word32).signExtend 64).setWidth 32 = (8 : Word32) ∧
    Ready (at0 (q 8 7 0)) 0 ⟨false, .none, .s, .none⟩ (wd 0 1 0 0xFFFFFFFF) ∧
    ((q 8 7 0).getS 1 + (0xFFFFFFFF : Word32).signExtend 64).toInt < 0 ∧
    Ready (at0 (q 8 7 1)) 0 ⟨false, .none, .s, .none⟩ (wd 0 1 0 0) ∧
    (((q 8 7 1).issued .ferry - (q 8 7 1).completed .ferry).toNat : Int) ≤ ((q 8 7 1).getS 1 + (0 : Word32).signExtend 64).toInt ∧
    ((q 8 7 0).getS 1 + (0 : Word32).signExtend 64).toInt < (((q 8 7 0).issued .vector - (q 8 7 0).completed .vector).toNat : Int) ∧
    Ready (at0 (q 8 8 0)) 0 ⟨false, .none, .none, .none⟩ (wd 0 0 0 0) ∧ (q 8 8 0).mIssued = (q 8 8 0).mec ∧
    (q 8 7 0).mIssued ≠ (q 8 7 0).mec ∧
    Ready (at0 (q 8 7 0)) 0 ⟨false, .s, .none, .none⟩ (wd 31 0 0 2) ∧ (2 : Word32).toNat ≤ 2 := by
  dsimp only
  refine ⟨ready ?_, ?_, ?_, ?_, ?_, ?_, ready ?_, ?_, ready ?_, ?_, ?_, ready ?_, ?_, ?_, ready ?_, ?_⟩ <;> decide +kernel

/-- An increment of 0; a seventeenth ticket; a sum that would pass 0xFFFF_FFFF; and one that just fits. -/
theorem witness_TicketInstructions :
    let many : List (Half × Word32) := (List.range 16).map (fun i => (BitVec.ofNat 16 i, 0xFFFFFFFE))
    let q : Seq := { seqOn with deferred := many, s := (seqOn.s.set 1 0).set 2 1 }
    let sum (t : Half) : Nat := ((defFind t q.deferred).getD 0).toNat
    Ready (at0 q) 0 ⟨false, .none, .s, .s⟩ (wd 0 1 2 0) ∧ Ready (at0 q) 0 ⟨false, .none, .none, .none⟩ (wd 0 0 0 0x00100001) ∧
    Ready (at0 q) 0 ⟨false, .s, .s, .none⟩ (wd 31 1 0 0) ∧
    (q.getS 0).setWidth 32 = (0 : Word32) ∧ (q.getS 2).setWidth 32 ≠ (0 : Word32) ∧
    defFind 16 q.deferred = none ∧ 16 ≤ q.deferred.length ∧
    defFind 15 q.deferred ≠ none ∧ sum 15 + 1 < 2 ^ 32 ∧ 2 ^ 32 ≤ sum 15 + 2 := by
  dsimp only
  refine ⟨ready ?_, ready ?_, ready ?_, ?_, ?_, ?_, ?_, ?_, ?_, ?_⟩ <;> decide +kernel

theorem witness_SystemInstructions :
    let s := at0 { seqOn with s := seqOn.s.set 1 15 }
    let v := (s.core 0).seq.getS 1
    Ready s 0 ⟨false, .none, .none, .none⟩ (wd 0 0 0 0) ∧
    Ready s 0 ⟨false, .s, .none, .none⟩ (wd 31 0 0 0) ∧ Ready s 0 ⟨false, .s, .none, .none⟩ (wd 31 0 0 0x108) ∧
    (s.coreReg 0 0x108).isSome ∧ Ready s 0 ⟨false, .none, .s, .none⟩ (wd 0 1 0 0) ∧
    Ready s 0 ⟨false, .none, .s, .none⟩ (wd 0 1 0 0x108) ∧ Ready s 0 ⟨false, .none, .s, .none⟩ (wd 0 1 0 0x1100) ∧
    Ready s 0 ⟨false, .none, .s, .none⟩ (wd 0 1 0 0x2100) ∧ Ready s 0 ⟨false, .none, .s, .none⟩ (wd 0 1 0 0x3100) ∧
    v.toNat % 2 ^ 32 < 16 ∧ (s.coreReg 0 0x1100).isSome ∧ csrRefused 0x1100 (csrVal 0x1100 16) = true := by
  dsimp only
  refine ⟨ready ?_, ready ?_, ready ?_, ?_, ready ?_, ready ?_, ready ?_, ready ?_, ready ?_, ?_, ?_, ?_⟩ <;> decide +kernel

theorem witness_StalledInstructionsGoOn :
    let mmode : EngineIssue := .mat .mmode (wd 0 0 0 1) 0
    let q (c : SeqCond) : Seq := { seqOn with cond := c, a := seqOn.a.set 1 0x7FFFF8 }
    let s (c : SeqCond) := at0 (q c)
    let w := wd 2 1 2 0
    let addr := ((q .idle).getA 1 + (0 : Word32).signExtend 40).toNat
    (q .waitAll).waitOver .waitAll = true ∧ (q .waitAll).pc.toNat + 8 < 0x10000 ∧
    ((s (.queueFull mmode)).core 0).seq.cond = .queueFull mmode ∧ (s (.queueFull mmode)).hrw.apPend = none ∧
    firstInvalid 0 (q (.queueFull mmode)) mmode.roles = none ∧
    ((s (.queueFull mmode)).core 0).queueLen mmode.eng < queueDepth mmode.eng ∧
    ((s (.held (.store 8 false) w)).core 0).seq.cond = .held (.store 8 false) w ∧ addr % 8 = 0 ∧ addr + 8 ≤ 0x800000 ∧
    (s (.held (.store 8 false) w)).storeHeld 0 (addr / 64) = false ∧
    ((s (.held (.load 8 true false false) w)).core 0).seq.cond = .held (.load 8 true false false) w ∧
    (s (.held (.load 8 true false false) w)).marksOf (.lsp 0) (addr / 64) = [] ∧
    (let u := ((s (.held (.load 8 true false false) w)).setCore 0 { Core.reset with seq := q .running }).touch (.lsp 0) (addr / 64)
     u.seenBad (u.reader 0 none 0 false) 0 (.lsp 0) (addr / 64) = false) ∧
    Core.reset.mat.counting = false ∧ Core.reset.vec.counting = false := by
  dsimp only
  refine ⟨?_, ?_, ?_, ?_, ?_, ?_, ?_, ?_, ?_, ?_, ?_, ?_, ?_, ?_, ?_⟩ <;> decide +kernel

/-- A tile of one element in a weight buffer, and the sub-arrays with it current in quadrant 0. -/
def tile1 : Tile := ⟨1, 1, 10, false, [[(.fin false 1 0, false)]], []⟩

def subOne : Vector SubArr 4 := (Vector.replicate 4 SubArr.empty).set 0 ⟨some tile1, none, some false⟩

/-- An MTILE of one row: INIT and LAST. -/
def tileOp : MTileOp := ⟨desc1 0 1 4 10 0, 0, desc1 0x1000 1 4 10 0, 0, 0, false, true, true⟩

def mcmd (op : MOp) : MCmd := ⟨1, 0, 0, 0, 0, op⟩

/-- Core 0's matrix engine as given. -/
def mat0 (m : Mat) : State := with0 { Core.reset with seq := seqOn, mat := m }

theorem witness_MatrixCommandsBegin :
    let queued (op : MOp) : State := mat0 { Mat.reset with rows := 32, sub := subOne, queue := [mcmd op] }
    let bare : State := mat0 { Mat.reset with rows := 32, queue := [mcmd (.mtile tileOp)] }
    (queued (.mmode false)).matReady 0 (mcmd (.mmode false)) = true ∧ (mcmd (.mmode false)).n = seqOn.mec + 1 ∧
    (queued (.mmode true)).matReady 0 (mcmd (.mmode true)) = true ∧ true ≠ Mat.reset.quad ∧
    (queued (.mwl (desc1 0 32 4 10 0))).matReady 0 (mcmd (.mwl (desc1 0 32 4 10 0))) = true ∧
    mwlCode false (desc1 0 32 4 10 0) = none ∧ mwlCode false (desc1 0 32 4 10 3) = some 2 ∧
    (queued (.mwl (desc1 0 32 4 10 3))).matReady 0 (mcmd (.mwl (desc1 0 32 4 10 3))) = true ∧
    (queued (.mtile tileOp)).matReady 0 (mcmd (.mtile tileOp)) = true ∧ mtileCode (some tile1) tileOp = none ∧
    (Mat.subAt { Mat.reset with sub := subOne } 0).cur = some false ∧
    bare.matReady 0 (mcmd (.mtile tileOp)) = true ∧ mtileCode (Mat.reset.subAt 0).current tileOp = some 3 := by
  dsimp only
  refine ⟨?_, ?_, ?_, ?_, ?_, ?_, ?_, ?_, ?_, ?_, ?_, ?_, ?_⟩ <;> decide +kernel

/-- An MTILE whose one row is streamed and not drained. -/
def exec1 : MExec := ⟨mcmd (.mtile tileOp), false, tile1, false, 1, [⟨0x1000, 5, false, []⟩], 0, 0, none, false⟩

theorem witness_MatrixDrainsWriteOneGranule :
    let c (l : List MExec) (p : List (Bool × Nat × Nat)) : Core :=
      { Core.reset with seq := seqOn, mat := { Mat.reset with rows := 32, exec := l, protect := p } }
    let fresh : MExec := { exec1 with row := 0, wbuf := [] }
    let full (k : MExec) : Core := { c [k] [] with checks := [⟨7, .matrix, 0, false, false, 1, 0, 0, 0, replaySize, [], [], [], [], 5, true⟩] }
    let later : MExec := { exec1 with cmd := { exec1.cmd with n := 2, ord := 1 } }
    let read : MCmd := { later.cmd with op := .mtile { tileOp with dact := desc1 0x1000 1 4 10 0 } }
    let reader : MExec := { later with row := 0, wbuf := [], frz := some (.earlier 1), cmd := read }
    (c [exec1] []).mat.findExec 1 = some exec1 ∧ exec1.cmd.n = 1 ∧ exec1.cmd.op = .mtile tileOp ∧ exec1.frz = none ∧
    (c [exec1] []).mat.frozenAt 0 = false ∧ (c [exec1] []).mat.on = true ∧ (c [exec1] []).j3 = false ∧
    exec1.complete tileOp = some 0x40 ∧ (c [exec1] []).drainProtected exec1 0x40 = false ∧
    (c [exec1] []).mat.behind exec1 0x40 = false ∧ (c [exec1] [(false, 0x40, 0)]).drainProtected exec1 0x40 = true ∧
    (c [exec1, later] []).mat.behind later 0x40 = true ∧
    (c [exec1, reader] []).mat.frozenAt 0 = true ∧ (c [exec1, reader] []).awaited 0 exec1 = some 0x40 ∧
    MExec.complete { exec1 with wbuf := [] } tileOp = none ∧ tileOp.rows ≤ exec1.row ∧
    (c [fresh, reader] []).awaited 0 fresh = none ∧ fresh.complete tileOp = none ∧ fresh.row < tileOp.rows ∧
    (with0 (c [fresh] [])).rowFreeze 0 fresh tileOp 0 = none ∧ (with0 (full fresh)).rowFreeze 0 fresh { tileOp with init := false } 0 = some .replay := by
  dsimp only
  refine ⟨?_, ?_, ?_, ?_, ?_, ?_, ?_, ?_, ?_, ?_, ?_, ?_, ?_, ?_, ?_, ?_, ?_, ?_, ?_, ?_, ?_⟩ <;> decide +kernel

/-- The sum of INT32 products clamps, and a column's sum is that of R43: 3 * 5 + 2. -/
theorem test_sum_of_a_row :
    (partialSum true [(Num.ofInt 2147483647, 0), (Num.ofInt 1, 0)] (Num.ofInt 0)).val = Num.ofInt 2147483647 ∧
    accCode false (partialSum false [mulNum (Num.ofInt 3) (Num.ofInt 5)] (Num.ofInt 2)).val = 0x41880000 := by
  decide +kernel

theorem witness_MatrixCommandsCompleteAndResume :
    let m : Mat := { Mat.reset with rows := 32, sub := subOne }
    let x := { exec1 with wbuf := [] }
    let load := mcmd (.mwl (desc1 0 1 4 10 0))
    let y := { exec1 with frz := some (.held 0x40) }
    Mat.findExec { m with exec := [x] } 1 = some x ∧ tileOp.rows ≤ x.row ∧ m.done = [] ∧ (1 : Word32) = seqOn.mec + 1 ∧ m.on = true ∧ m.modeLeft = 0 ∧
    m.findExec 1 = none ∧
    ({ m with loading := [(load, false)] } : Mat).loading.find? (fun y => y.1.n = 1) = some (load, false) ∧
    (m.subAt load.q).tile false = some tile1 ∧ tile1.bad = false ∧
    Mat.frozenAt { m with loading := [(load, false)] } load.q = false ∧
    m.loading.find? (fun y => y.1.n = 1) = none ∧ (mcmd (.mmode true)).n = 1 ∧
    Mat.findExec { m with exec := [y] } 1 = some y ∧ (mat0 { m with exec := [y] }).freezeOver 0 y tileOp (.held 0x40) = true := by
  dsimp only
  refine ⟨?_, ?_, ?_, ?_, ?_, ?_, ?_, ?_, ?_, ?_, ?_, ?_, ?_, ?_, ?_⟩ <;> decide +kernel

theorem witness_ActivityRampsOfTheArray :
    let m : Mat := { Mat.reset with queue := [mcmd (.mmode true)] }
    let s (hold : Nat) : State := { mat0 m with
      pwr := { Pwr.reset with dies := Pwr.reset.dies.set 0 { DiePwr.reset with hold := hold } } }
    m.hasWork = true ∧ m.rows < 32 ∧ m.allFrozen = false ∧ m.atIdle = true ∧ (s (Config.arrayPrice 600 + 1)).creditFor 0 = true ∧
    (s 0).creditFor 0 = false ∧
    Mat.reset.hasWork = false ∧
    Mat.allFrozen { m with exec := [{ exec1 with frz := some .replay }], rows := 1, frozenCyc := 64 } = true := by
  dsimp only
  refine ⟨?_, ?_, ?_, ?_, ?_, ?_, ?_, ?_⟩
  rotate_left 4
  · show (decide (0 < Config.arrayPrice 600 + 1) && decide (0 + 0 + Config.arrayPrice 600 ≤ Config.arrayPrice 600 + 1)) = true
    simp
  all_goals decide +kernel

def vcmd (op : VOp) (d : Desc) : VCmd := ⟨1, 0, 0, op, vecWord op, d, 0, 0⟩

theorem witness_VectorCommandsBeginAndComplete :
    let s (v : Vec) := with0 { Core.reset with seq := seqOn, vec := v }
    let d := desc1 0 64 4 10 0
    Vec.reset.hazard (vcmd .vadd 0) = false ∧ vecCode (vcmd .vadd 0) = none ∧ vecCode (vcmd .vld d) = none ∧
    vecCode (vcmd .vld (desc1 0 63 4 10 0)) = some 1 ∧ Vec.reset.hazard (vcmd .vld 0) = false ∧
    (s { Vec.reset with queue := [vcmd .vadd 0] }).vecCredit 0 = true ∧ (vcmd .vadd 0).n = seqOn.vec + 1 ∧
    (let t := s { Vec.reset with run := [vcmd .vld d] }
     let u := t.touchDesc 0 d (vecIxs (vcmd .vld d))
     ((vecIxs (vcmd .vld d)).map (readElem (u.dview (u.reader 0 (some .vector) 0 true) 0 d) d)).any (·.bad) = false) ∧
    (vcmd .vadd 0).op ≠ .vld ∧ (vcmd .vadd 0).op ≠ .vst ∧
    (s { Vec.reset with run := [vcmd .vst d] }).vstHeld 0 (vcmd .vst d) = false ∧
    ((s { Vec.reset with run := [vcmd .vadd 0] }).core 0).checkQueueFull = false ∧ vGroupOk .vsma (vecWord .vsma) = true ∧
    vGroupOk .vsmmrg { vecWord .vsmmrg with fd := 28, fa := 24 } = true := by
  dsimp only
  refine ⟨?_, ?_, ?_, ?_, ?_, ?_, ?_, ?_, ?_, ?_, ?_, ?_, ?_, ?_⟩ <;> decide +kernel

/-- INT32 lanes wrap at either end of their range, a shift counts modulo 32, and SAR keeps the sign. -/
theorem test_lanes_wrap :
    let k (op : VOp) : VCmd := { vcmd op 0 with w := { vecWord op with imm := 0x00C00000 } }
    laneResult (k .vadd) 0 0 0xFFFFFFFF 1 0 = some 0 ∧ laneResult (k .vsub) 0 0 0 1 0 = some 0xFFFFFFFF ∧
    laneResult (k .vneg) 0 0 0x80000000 0 0 = some 0x80000000 ∧ laneResult (k .vshl) 0 0 1 33 0 = some 2 ∧
    laneResult (k .vsar) 0 0 0x80000000 31 0 = some 0xFFFFFFFF := by
  decide +kernel

/-- Ferry commands: a copy, one of unequal shapes, and a gather by index 200 from a table of 16. -/
def fcopy : FCmd := ⟨1, 0, 0, .fcopy, 3, desc1 0 16 4 10 0, desc1 0x1000 16 4 10 0, 0, 0⟩
def fodd : FCmd := { fcopy with ddst := desc1 0x1000 15 4 10 0 }
def fgath : FCmd := { fcopy with op := .fgath, ddst := desc1 0x1000 1 4 10 0, didx := desc1 0x2000 1 4 12 0 }

/-- A command on its channel. -/
def onChan (k : FCmd) (p : FPhase) : FExec := ⟨k, none, p, [], [], [], [], 0, false⟩

def ferry0 (f : Fer) : State :=
  with0 { Core.reset with seq := seqOn, fer := f, lsp := { Store.empty with cells := [(0x2000, 200)] } }

theorem witness_FerryCommandsBeginCompleteAndFault :
    let f (k : FCmd) (p : FPhase) : Fer := { Fer.reset with chans := [(3, onChan k p)] }
    let s := ferry0 (f fcopy .ready)
    let x := onChan fcopy .ready
    let p := s.ferPlan 0 x
    let reads := s.ferTouched 0 fcopy p
    let v := reads.foldl (fun t y => t.touch y.1 y.2) s
    let out := v.ferOutput 0 x p
    let stored := v.ferStored 0 fcopy out.1
    let i := ferry0 (f fgath .ready)
    let y := onChan fgath .ready
    let u := i.idxTouch 0 y
    ((ferry0 { Fer.reset with queue := [fcopy] }).ferHeld 0 fcopy = false ∧
      ferCode fcopy = none ∧ s.isRemote fcopy.dsrc = false ∧ isHost fcopy.dsrc = false ∧ ferCode fodd = some 1) ∧
    ((f fcopy .acking).chan 3 = some (onChan fcopy .acking) ∧ fcopy.n = seqOn.fec + 1) ∧
    (p.fail = none ∧ s.ferRefused 0 fcopy p stored = false ∧ s.ferWaits 0 (s.ownDest 0 fcopy.ddst) reads = false ∧
      s.ferProtected stored = false ∧ dmemLines (reads ++ stored) = [] ∧ s.isRemote fcopy.ddst = false ∧ isHost fcopy.ddst = false ∧
      out.1.any (fun b => b.any (·.poison)) = false) ∧
    ((u.ferPlan 0 y).fail = some (0, 200, false) ∧ u.ferRefused 0 fgath (u.ferPlan 0 y) [] = false ∧
      u.ferWaits 0 (u.ownDest 0 fgath.ddst) (u.ferTouched 0 fgath (u.ferPlan 0 y)) = false) := by
  dsimp only
  refine ⟨⟨?_, ?_, ?_, ?_, ?_⟩, ⟨?_, ?_⟩, ⟨?_, ?_, ?_, ?_, ?_, ?_, ?_, ?_⟩, ?_, ?_, ?_⟩ <;> decide +kernel

/-! ### The dispatcher -/

/-- The module runs, a host has selected the interface version over PCIe. -/
def awake : State :=
  { State.reset with
    released := true
    hrw := { Hrw.reset with alive := true, locked := true, version := 1, mode := 2 }
    sec := { Sec.reset with state := .running }
    pwr := { Pwr.reset with stage := .operating, inControl := true }
    pins := { Pins.reset with perstLow := false } }

/-- Bytes of fields (offset, size, value) from an address. -/
def fields (base : Nat) (l : List (Nat × Nat × Nat)) (m : List Host.Cell) : List Host.Cell :=
  l.foldl (fun m x => putBytes m (base + x.1) (leBytes x.2.1 x.2.2)) m

def cmdBytes (l : List (Nat × Nat × Nat)) : List Byte := bytesAt (fields 0 l []) 0 64

/-- A command of queue 63 with these fields; its ticket waits are met. -/
def qcmd (l : List (Nat × Nat × Nat)) : QCmd := ⟨0, cmdBytes l, [0]⟩

def blkAt : Nat := 0x50000000

/-- A command with opcode `op` and its block at `blkAt`. -/
def blkCmd (op : Nat) : QCmd := qcmd [(0, 1, op), (8, 8, blkAt)]

/-- Queue 63 holds this command, and DMEM these bytes. -/
def turnOf (c : QCmd) (m : List Host.Cell) : State :=
  { awake with
    sch := { Sch.reset with queues :=
      [(63, { Queue.reset 63 with enabled := true, accepted := 1, read := 1, cmds := [c] })] }
    dmem := { Store.empty with cells := m } }

theorem turn {s : State} {q : QueueId} {c : QCmd} {rest : List QCmd} {op : Nat}
    (h : s.launching = true ∧ s.chosen = some q.toNat ∧ (s.queue q.toNat).cmds = c :: rest ∧ c.opcode = op ∧ c.invalid = none ∧
      (c.hasBlock = true → s.linesHeld (granulesOf c.blkAddr 1024) = false ∧ blockBad s.hrw.apSize op (s.block c) = none) ∧
      ((∀ o ∈ s.sch.ops, o.id < s.sch.nextOp) ∧ ∀ x ∈ s.sch.xsigs, x.op < s.sch.nextOp) ∧
      s.ticketLedger = true ∧ s.opLedger = true ∧ s.recordLedger = true) : Turn s q c rest op :=
  have ⟨h1, h2, h3, h4, h5, h6, h7, h8, h9, h10⟩ := h
  ⟨h1, h2, h3, h4, h5, h6, h7, ⟨h8, h9, h10⟩⟩

/-- Counts at the ends of their ranges: 1, 2^31 - 1; a queue with room and one that is disabled. -/
theorem witness_DoorbellsMoveTheCounts :
    let x : Queue := { Queue.reset 63 with enabled := true, accepted := 1, read := 1, written := 1 }
    let d (v : Word32) (n : Nat) := (v - BitVec.ofNat 32 n).toNat
    awake.schedOn = true ∧ awake.hostUp = true ∧ awake.hrw.locked = true ∧ awake.sch.paused = false ∧ awake.sch.ledger = false ∧
    d 1 x.accepted = 0 ∧ d 0x80000001 x.accepted = 2 ^ 31 ∧ d 0x80000000 (Queue.reset 63).consumed = 2 ^ 31 ∧
    d 2 x.accepted = 1 ∧ x.accepted + 1 - x.written ≤ min x.depth (2 ^ x.cfg.log2) ∧
    d 65 x.accepted = 64 ∧ x.accepted + 64 - x.written ≤ min x.depth (2 ^ x.cfg.log2) ∧
    d 0x80000000 x.accepted = 2 ^ 31 - 1 ∧ ¬ (x.accepted + (2 ^ 31 - 1) - x.written ≤ min x.depth (2 ^ x.cfg.log2)) ∧
    (Queue.reset 63).enabled = false ∧ d 0x7FFFFFFF x.consumed = 2 ^ 31 - 1 ∧
    State.schedOn { awake with sch := { Sch.reset with paused := true } } = true := by
  dsimp only
  refine ⟨?_, ?_, ?_, ?_, ?_, ?_, ?_, ?_, ?_, ?_, ?_, ?_, ?_, ?_, ?_, ?_, ?_⟩ <;> decide +kernel

theorem witness_CommandReadTakesTheNextCommand :
    let s (mode : BitVec 2) : State := { awake with
      hrw := { awake.hrw with mode := mode }
      sch := { Sch.reset with queues := [(63, { Queue.reset 63 with enabled := true, accepted := 64, read := 63 })] } }
    (s 2).canRead 63 = true ∧ (s 2).linesHeld [(0x40000000 + 63 * 64) / 64] = false ∧ (s 2).hrw.mode ≠ 1 ∧
    ((s 2).queue 63).dead = [] ∧ (s 2).sch.ledger = false ∧ (s 1).canRead 63 = true ∧ (s 1).hrw.snoops = [] := by
  dsimp only
  refine ⟨?_, ?_, ?_, ?_, ?_, ?_, ?_⟩ <;> decide +kernel

/-- A torus of two devices, this one at coordinate 0, in lock. -/
def pair (s : State) : State :=
  { s with
    tt := { TT.reset with state := .locked, runs := true }
    lnk := { s.lnk with irec := some ⟨1, 2, 1, 1, false, 1, [], []⟩ } }

/-! A block whose common part is zero passes its checks; its fields are not evaluated one by one. -/

theorem replicate_field (n o k : Nat) : leNat (((List.replicate n (0 : Byte)).drop o).take k) = 0 := by
  rw [List.drop_replicate, List.take_replicate]
  generalize min k (n - o) = j
  induction j with
  | zero => rfl
  | succ j ih => rw [List.replicate_succ, leNat, ih]; rfl

theorem common_field {b : List Byte} {n : Nat} (h : b.drop 0x240 = List.replicate n 0) {o : Nat} (k : Nat) (ho : 0x240 ≤ o) :
    fieldAt b o k = 0 := by
  obtain ⟨j, rfl⟩ := Nat.exists_eq_add_of_le ho
  rw [fieldAt, ← List.drop_drop, h]
  exact replicate_field n j k

theorem common_zero {b : List Byte} {n : Nat} (h : b.drop 0x240 = List.replicate n 0) {lo : Nat} (hi : Nat) (ho : 0x240 ≤ lo) :
    zeroBytes b lo hi = true := by
  obtain ⟨j, rfl⟩ := Nat.exists_eq_add_of_le ho
  rw [zeroBytes, ← List.drop_drop, h, List.drop_replicate, List.take_replicate]
  simp

theorem common_ok {b : List Byte} {n : Nat} (ap : Nat) (h : b.drop 0x240 = List.replicate n 0) :
    ∀ x ∈ commonChecks ap b, x.1 = true := by
  have f (o k : Nat) (ho : 0x240 ≤ o) : fieldAt b o k = 0 := common_field h k ho
  have z (lo hi : Nat) (ho : 0x240 ≤ lo) : zeroBytes b lo hi = true := common_zero h hi ho
  intro x hx
  simp only [commonChecks, nWait, nSig, nReg, f 0x244 1 (by decide), f 0x245 1 (by decide), f 0x246 1 (by decide),
    Nat.not_lt_zero, if_false, List.mem_append, List.mem_flatMap, List.mem_map, List.mem_cons, List.not_mem_nil, or_false] at hx
  rcases hx with (((hx | hx) | hx) | hx) | hx
  · rcases hx with rfl | rfl | rfl | rfl <;> first | exact z _ _ (by decide) | decide
  · obtain ⟨k, -, y, hy, rfl⟩ := hx
    rcases hy with rfl | rfl | rfl <;> exact z _ _ (by omega)
  · obtain ⟨k, -, y, hy, rfl⟩ := hx
    rcases hy with rfl | rfl | rfl | rfl | rfl | rfl <;> exact z _ _ (by omega)
  · obtain ⟨k, -, y, hy, rfl⟩ := hx
    rcases hy with rfl | rfl | rfl | rfl | rfl <;> exact z _ _ (by omega)
  · subst hx; exact z _ _ (by decide)

theorem firstBad_ok {l : List (Bool × Nat)} (h : ∀ x ∈ l, x.1 = true) : firstBad l = none := by
  unfold firstBad
  induction l with
  | nil => rfl
  | cons x t ih =>
    rw [List.foldl_cons, if_pos (h x (List.mem_cons_self ..))]
    exact ih (fun y hy => h y (List.mem_cons_of_mem _ hy))

theorem block_ok {b : List Byte} {n : Nat} (ap : Nat) (l : List (Bool × Nat)) (h : b.drop 0x240 = List.replicate n 0)
    (hl : l.all (·.1) = true) : firstBad (l ++ commonChecks ap b) = none :=
  firstBad_ok (fun x hx => (List.mem_append.1 hx).elim (List.all_eq_true.1 hl x) (common_ok ap h x))

/-- Queue 1, at the highest priority and first in turn, is chosen when its command is ready. -/
theorem chosen_one {s : State} (ht : s.sch.turn.toList.getD 3 0 = 0) (hp : (s.queue 1).prio.toNat = 3)
    (h : s.headReady 1 = true) : s.chosen = some 1 := by
  obtain ⟨r, hr⟩ : ∃ r, roundRobin 0 = 1 :: r := ⟨_, rfl⟩
  simp only [State.chosen, List.findSome?_cons, ht, hr]
  rw [List.find?_cons_of_pos (by simp [hp, h])]

/-- Queue 1, with the highest priority, holds this command, and DMEM these bytes. -/
def first (c : QCmd) (m : List Host.Cell) : State :=
  { awake with
    sch := { Sch.reset with queues :=
      [(1, { Queue.reset 1 with enabled := true, prio := 3, accepted := 1, read := 1, cmds := [c] })] }
    dmem := { Store.empty with cells := m } }

def launchCells : List Host.Cell :=
  [(0x50000001, 16), (0x50000003, 80), (0x50000008, 8), (0x5000000C, 64), (0x50000011, 32), (0x50000013, 80),
   (0x50000018, 192), (0x50000019, 255), (0x5000001A, 127), (0x50000020, 7), (0x50000040, 3)]

def copyCells : List Host.Cell :=
  [(0x50000001, 16), (0x50000003, 80), (0x50000005, 4), (0x5000001E, 16), (0x5000003B, 154), (0x5000003C, 1),
   (0x50000041, 32), (0x50000043, 80), (0x50000045, 4), (0x5000005E, 16), (0x5000007B, 154), (0x5000007C, 1)]

def collCells : List Host.Cell :=
  [(0x50000000, 9), (0x50000004, 1), (0x50000008, 10), (0x50000009, 10), (0x50000021, 16), (0x50000023, 80),
   (0x50000029, 32), (0x5000002B, 80), (0x50000031, 48), (0x50000033, 80), (0x50000038, 1), (0x5000003C, 2),
   (0x50000041, 4), (0x50000043, 80), (0x5000004B, 2), (0x5000004C, 1), (0x5000004D, 1), (0x50000051, 2),
   (0x50000052, 1), (0x50000053, 1), (0x50000400, 1), (0x5000040A, 1), (0x50000410, 1),
   (0x50000420, 2), (0x50000428, 1), (0x5000042A, 1), (0x50000430, 1)]

def blockOf (m : List Host.Cell) : List Byte := bytesAt m 0x50000000 1024

/-- A command with such a block takes its turn when what its opcode asks for holds. -/
theorem turn_first (s : State) (op : Nat) (m : List Host.Cell) (hop : op = 1 ∨ op = 2 ∨ op = 3)
    (hs : s.launching = true ∧ s.queue 1 = { Queue.reset 1 with enabled := true, prio := 3, accepted := 1, read := 1, cmds := [blkCmd op] } ∧
      s.sch.turn.toList.getD 3 0 = 0 ∧ s.sch.ops = [] ∧ s.sch.xsigs = [] ∧ s.linesHeld (granulesOf blkAt 1024) = false ∧
      s.ticketLedger = true ∧ s.recordLedger = true)
    (ho : s.old = []) (hm : s.dmem.cells = m) (hb : blockBad s.hrw.apSize op (blockOf m) = none)
    (hr : s.headReady 1 = true) : Turn s 1 (blkCmd op) [] op := by
  have hc : (blkCmd op).opcode = op ∧ (blkCmd op).invalid = none ∧ (blkCmd op).blkAddr = blkAt := by
    rcases hop with rfl | rfl | rfl <;> decide +kernel
  refine turn ⟨hs.1, chosen_one hs.2.2.1 (by rw [hs.2.1]; rfl) hr, ?_, hc.1, hc.2.1, fun _ => ⟨?_, ?_⟩, ⟨?_, ?_⟩, hs.2.2.2.2.2.2.1, ?_, hs.2.2.2.2.2.2.2⟩
  · show (s.queue 1).cmds = _; rw [hs.2.1]
  · rw [hc.2.2]; exact hs.2.2.2.2.2.1
  · rw [State.block, dispBytes_of_none_old ho, hc.2.2, hm]; exact hb
  · rw [hs.2.2.2.1]; simp
  · rw [hs.2.2.2.2.1]; simp
  · rw [State.opLedger, hs.2.2.2.1]; rfl

theorem head_ready (s : State) (op : Nat) (m : List Host.Cell) (hop : op = 1 ∨ op = 2 ∨ op = 3)
    (hq : s.queue 1 = { Queue.reset 1 with enabled := true, prio := 3, accepted := 1, read := 1, cmds := [blkCmd op] })
    (hh : s.linesHeld (granulesOf blkAt 1024) = false)
    (ho : s.old = []) (hm : s.dmem.cells = m) (hb : blockBad s.hrw.apSize op (blockOf m) = none) (hw : waitsOf (blockOf m) = [])
    (hl : op = 1 → (s.launchSet (blockOf m)).all s.coreFree = true)
    (hc : op = 3 → (s.eng (engineNum (s.collEngine (fieldAt (blockOf m) 6 1)))).run.isNone = true ∧
      s.engHeld (s.collEngine (fieldAt (blockOf m) 6 1)) = false)
    (hy : op = 2 → s.copyReady (blockOf m) = true) : s.headReady 1 = true := by
  have hb' : s.block (blkCmd op) = blockOf m := by
    rw [State.block, dispBytes_of_none_old ho, hm]
    rcases hop with rfl | rfl | rfl <;> exact congrArg (bytesAt m · 1024) (by decide +kernel)
  have hi : (blkCmd op).invalid = none ∧ (blkCmd op).ordered = false ∧ (blkCmd op).opcode = op ∧ (blkCmd op).hasBlock = true := by
    rcases hop with rfl | rfl | rfl <;> decide +kernel
  have hx : s.waitsMet (blkCmd op) = true := by
    rw [State.waitsMet, hi.2.2.1, if_neg (by omega), hb', hw]; rfl
  have hk : s.linesHeld (blkCmd op).blkLines = false := by
    have : (blkCmd op).blkLines = granulesOf blkAt 1024 := by rcases hop with rfl | rfl | rfl <;> decide +kernel
    rw [this]; exact hh
  unfold State.headReady
  rw [hq]
  simp only [hi.1, hi.2.1, hi.2.2.1, hi.2.2.2, hb', hb, hx, hk]
  rcases hop with rfl | rfl | rfl
  · simp [Queue.reset, hl rfl]
  · rw [hy rfl]; rfl
  · have := hc rfl
    have h1 : (s.col[s.collEngine (fieldAt (blockOf m) 6 1) % 2]'(Nat.mod_lt _ (by decide))).run.isNone = true := this.1
    simp only [h1, this.2]
    rfl

theorem launch_tail : (blockOf launchCells).drop 0x240 = List.replicate 448 0 := by decide +kernel
theorem copy_tail : (blockOf copyCells).drop 0x240 = List.replicate 448 0 := by decide +kernel
theorem coll_tail : (blockOf collCells).drop 0x240 = List.replicate 448 0 := by decide +kernel
theorem launch_cores : coreSet (blockOf launchCells) = [0, 1] := by decide +kernel

theorem no_waits {b : List Byte} {n : Nat} (h : b.drop 0x240 = List.replicate n 0) : waitsOf b = [] := by
  simp [waitsOf, nWait, common_field h]

theorem block_first (c : QCmd) (m : List Host.Cell) (h : c.blkAddr = blkAt) : (first c m).block c = blockOf m := by
  rw [State.block, dispBytes_of_none_old rfl, h]; rfl

theorem witness_LaunchStartsTheKernel :
    let s := first (blkCmd 1) launchCells
    let b := s.block (blkCmd 1)
    Turn s 1 (blkCmd 1) [] 1 ∧ s.fencedLaunch b = false ∧ s.launchSet b = [0, 1] ∧
    s.linesHeld (granulesOf (fieldAt b 0 8) (fieldAt b 8 4) ++ granulesOf (fieldAt b 0x10 8) (fieldAt b 0xC 4)) = false := by
  have hb : (first (blkCmd 1) launchCells).block (blkCmd 1) = blockOf launchCells := block_first _ _ (by decide +kernel)
  have hl : (first (blkCmd 1) launchCells).launchSet (blockOf launchCells) = [0, 1] := by
    rw [State.launchSet, launch_cores]; rfl
  have bad : blockBad 0 1 (blockOf launchCells) = none := block_ok 0 _ launch_tail (by decide +kernel)
  have hw := no_waits launch_tail
  refine ⟨turn_first _ 1 launchCells (.inl rfl) (by decide +kernel) rfl rfl bad
    (head_ready _ 1 launchCells (.inl rfl) rfl (by decide +kernel) rfl rfl bad hw (fun _ => ?_) (fun h => absurd h (by decide)) (fun h => absurd h (by decide))), ?_, ?_, ?_⟩
  · rw [hl]; decide +kernel
  · rw [hb, State.fencedLaunch, hl, launch_cores]; decide +kernel
  · rw [hb, hl]
  · rw [hb]; decide +kernel

/-- An operation of queue 63. -/
def op0 (kind : OpKind) (waiting : List Nat) : Op :=
  ⟨0, 63, 0, cmdBytes [(0, 1, 1)], kind, [], none, 0, 0, 0, 5, none, waiting, waiting, false, 0, 0, 0, none, 0, [], [], 0, 0, false, 0, 0, 0⟩

/-- Link a of the port +X is UP, coordinate 1 lies behind it, every class has credits. -/
def netted : State :=
  { awake with lnk := { Lnk.reset with
      routeX := 4
      ports := (Vector.replicate 6 PortSt.reset).set 0
        { PortSt.reset with la := { Link.reset with state := .up, held := [9, 9, 9, 9, 9] } } } }

/-- Queue 63 holds this command behind one that lacks its record. -/
def behind (c : QCmd) : State :=
  { awake with sch := { Sch.reset with
      ops := [op0 .launch [0]]
      nextOp := 1
      queues := [(63, { Queue.reset 63 with enabled := true, accepted := 2, read := 2, cmds := [c] })] } }

theorem witness_OtherCommandsTakeTheirTurns :
    let copy := first (blkCmd 2) copyCells
    let k := copyCmdOf (copy.block (blkCmd 2)) 3
    let coll := pair { first (blkCmd 3) collCells with lnk := netted.lnk }
    let cb := coll.block (blkCmd 3)
    let sig := qcmd [(0, 1, 5), (8, 2, 0xFFFF), (12, 4, 0xFFFFFFFF)]
    let wait := qcmd [(0, 1, 4), (8, 2, 1), (12, 4, 1)]
    let fence := qcmd [(0, 1, 7)]
    let mark := qcmd [(0, 1, 6)]
    (Turn copy 1 (blkCmd 2) [] 2 ∧ copy.canCopy 0 k = true ∧ copy.hrw.apPend = none ∧ ferCode k = none ∧
      copy.isRemote (descAt (copy.block (blkCmd 2)) 0) = false ∧ isHost (descAt (copy.block (blkCmd 2)) 0) = false) ∧
    (Turn coll 1 (blkCmd 3) [] 3 ∧ coll.collBad cb = none ∧ coll.collPos cb = some 0 ∧ coll.linesHeld (coll.schedLines cb) = false ∧
      (coll.entries cb).map (fun y => fieldAt y 8 1) = [0, 1] ∧
      ∀ y ∈ coll.entries cb, coll.route (coll.memberAt cb (fieldAt y 10 2)) = .out .xp) ∧
    (Turn (turnOf sig []) 63 sig [] 5 ∧ fieldAt sig.bytes 10 2 = 0 ∧ sig.bytes.length = 64 ∧ awake.hrw.mode ≠ 1 ∧
      (Queue.reset 63).cfg.cplHost = false ∧ awake.linesHeld [0x1000000] = false) ∧
    Turn (turnOf fence []) 63 fence [] 7 ∧ (Turn (turnOf wait []) 63 wait [] 4 ∧ wait.bytes.length = 64) ∧
    (Turn (turnOf mark []) 63 mark [] 6 ∧ mark.bytes.length = 64 ∧ (turnOf mark []).allEarlierDone 63 0 = true) ∧
    Turn (behind { mark with seq := 1 }) 63 { mark with seq := 1 } [] 6 ∧ (behind mark).allEarlierDone 63 1 = false := by
  have cb : (first (blkCmd 2) copyCells).block (blkCmd 2) = blockOf copyCells := block_first _ _ (by decide +kernel)
  have lb : (pair { first (blkCmd 3) collCells with lnk := netted.lnk }).block (blkCmd 3) = blockOf collCells := by
    rw [State.block, dispBytes_of_none_old rfl, show (blkCmd 3).blkAddr = blkAt by decide +kernel]; rfl
  have cd : descAt (blockOf copyCells) 0 = desc1 0x50001000 16 4 10 3 := by decide +kernel
  have ce : descAt (blockOf copyCells) 0x40 = desc1 0x50002000 16 4 10 3 := by decide +kernel
  have ck : copyCmdOf (blockOf copyCells) 3 = ⟨0, 0, 0, .fcopy, 3, desc1 0x50001000 16 4 10 3, desc1 0x50002000 16 4 10 3, 0, 0⟩ := by
    rw [copyCmdOf, cd, ce]; decide +kernel
  have v1 : copyDescBad 0 .source (desc1 0x50001000 16 4 10 3) = none := by decide +kernel
  have v2 : copyDescBad 0 (.dest false) (desc1 0x50002000 16 4 10 3) = none := by decide +kernel
  have cbad : blockBad 0 2 (blockOf copyCells) = none := by
    rw [blockBad, cd, ce, v1, v2]; exact block_ok 0 _ copy_tail (by decide +kernel)
  have lbad : blockBad 0 3 (blockOf collCells) = none := block_ok 0 [] coll_tail rfl
  have cw := no_waits copy_tail
  have lw := no_waits coll_tail
  refine ⟨⟨turn_first _ 2 copyCells (.inr (.inl rfl)) (by decide +kernel) rfl rfl cbad (head_ready _ 2 copyCells (.inr (.inl rfl))
      rfl (by decide +kernel) rfl rfl cbad cw (fun h => absurd h (by decide)) (fun h => absurd h (by decide)) (fun _ => ?_)), ?_, rfl, ?_, ?_, ?_⟩,
    ⟨turn_first _ 3 collCells (.inr (.inr rfl)) (by decide +kernel) rfl rfl lbad (head_ready _ 3 collCells (.inr (.inr rfl))
      rfl (by decide +kernel) rfl rfl lbad lw (fun h => absurd h (by decide)) (fun _ => by decide +kernel) (fun h => absurd h (by decide))), ?_, ?_, ?_, ?_, ?_⟩,
    ⟨turn ?_, ?_, ?_, ?_, ?_, ?_⟩, turn ?_, ⟨turn ?_, ?_⟩, ⟨turn ?_, ?_, ?_⟩, turn ?_, ?_⟩
  · have one : State.canCopy (first (blkCmd 2) copyCells) 0 (copyCmdOf (blockOf copyCells) 3) = true := by
      rw [ck]; decide +kernel
    have held : State.copyApHeld (first (blkCmd 2) copyCells) (blockOf copyCells) = false := rfl
    simp only [State.copyReady, held, Bool.not_false, Bool.true_and, List.any_eq_true]
    exact ⟨0, List.mem_range.2 (by decide), 3, List.mem_range.2 (by decide), one⟩
  · rw [cb, ck]; decide +kernel
  · rw [cb, ck]; decide +kernel
  · rw [cb, cd]; decide +kernel
  · rw [cb, cd]; decide +kernel
  · rw [lb]; decide +kernel
  · rw [lb]; decide +kernel
  · rw [lb]; decide +kernel
  · rw [lb]; decide +kernel
  · rw [lb]; decide +kernel
  all_goals decide +kernel

def xsig : XSig := ⟨5, 0, 1, 3, 1, 100⟩

theorem witness_TimeoutsWatchdogsAndWithdrawals :
    let c := { qcmd [(0, 1, 4), (8, 2, 1), (12, 4, 1), (16, 4, 2)] with sat := [] }
    let s : State := { turnOf c [] with wall := 2000, hrw := { awake.hrw with mode := 1 } }
    let run : State := { awake with sch := { Sch.reset with ops := [op0 .launch [0]], nextOp := 1 }, tt := { TT.reset with now := 5000 } }
    let net (l : List XSig) (now : Nat) : State :=
      { netted with sch := { Sch.reset with xsigs := l }, tt := { TT.reset with now := now } }
    (s.launching = true ∧ (s.queue 63).cmds = [c] ∧ (s.queue 63).enabled = true ∧ (s.queue 63).halted = false ∧
      (s.queue 63).cfg.cplHost = false ∧ c.bytes.length = 64 ∧ State.launching { s with hrw := { s.hrw with mode := 2 } } = true ∧ c.opcode = 4 ∧ c.invalid = none ∧ s.waitsMet c = false ∧
      0 < fieldAt c.bytes 16 4 ∧ (s.queue 63).firstAt + fieldAt c.bytes 16 4 * 1000 ≤ s.wall ∧
      s.linesHeld [(0x40000000 + (s.queue 63).cplSlot c.seq) / 64] = false) ∧
    (run.schedOn = true ∧ run.opOf 0 = some (op0 .launch [0]) ∧ (op0 .launch [0]).status = none ∧
      (op0 .launch [0]).tLaunch + (op0 .launch [0]).wdog * 1000 ≤ run.tt.now ∧
      ∀ e : Fin 2, ((run.eng e).run.map (·.op)) ≠ some 0) ∧
    ((net [xsig] 0).sch.xsigs.find? (fun y => y.m.toNat = 5) = some xsig ∧ (net [xsig] 0).route xsig.dst = .out .xp) ∧
    (∀ p ∈ [Port.xp, .xn, .yp, .yn, .zp, .zn], awake.route xsig.dst ≠ .out p) ∧
    ((net [xsig] 2000100).opOf xsig.op = none ∧
      xsig.expiry + 2 * (net [xsig] 2000100).lnk.txnUs * 1000 ≤ (net [xsig] 2000100).tt.now) := by
  dsimp only
  refine ⟨⟨?_, ?_, ?_, ?_, ?_, ?_, ?_, ?_, ?_, ?_, ?_, ?_, ?_⟩, ⟨?_, ?_, ?_, ?_, ?_⟩, ⟨?_, ?_⟩, ?_, ?_, ?_⟩ <;> decide +kernel

/-- An operation block with a signal for a ticket here that is always given, one for another device, and an output
region in DMEM. -/
def opBlock : List Byte :=
  bytesAt (fields 0 [(0x245, 1, 2), (0x246, 1, 1), (0x288, 2, 3), (0x28C, 1, 0), (0x290, 4, 7),
    (0x298, 2, 4), (0x29A, 2, 0x8001), (0x29C, 1, 1), (0x2A0, 4, 1), (0x308, 5, 0x50001000), (0x30D, 1, 0x13), (0x310, 5, 64)] []) 0 1024

/-- One with a signal for another device alone. -/
def farBlock : List Byte :=
  bytesAt (fields 0 [(0x245, 1, 1), (0x288, 2, 4), (0x28A, 2, 0x8001), (0x28C, 1, 1), (0x290, 4, 1)] []) 0 1024

theorem witness_OperationsEndWithARecord :
    let o (st : OpStatus) (blk : List Byte) : Op := { op0 .launch [] with status := some st, blk := blk, deferred := [(3, 1)] }
    let s (o : Op) : State := { awake with sch := { Sch.reset with ops := [o], nextOp := 1 } }
    let first (o : Op) : Op := { o with sigDone := 0 }
    (∀ st blk, (s (o st blk)).opOf 0 = some (o st blk) ∧ (∀ y ∈ (s (o st blk)).sch.ops, y.id = 0 → y = o st blk) ∧
      (o st blk).waiting = [] ∧ (o st blk).settled = false ∧ (o st blk).unread = false ∧ first (o st blk) = o st blk ∧
      (s (o st blk)).linesHeld [0x1000000] = false) ∧
    awake.sec.state ≠ .fatal ∧ awake.hrw.mode ≠ 1 ∧ (Queue.reset 63).cfg.cplHost = false ∧ (op0 .launch []).bytes.length = 64 ∧
    (s (o .failed opBlock)).linesHeld ((s (o .failed opBlock)).poisonLines (o .failed opBlock)) = false ∧
    ((signalsOf opBlock).filter (fun g => g.always || decide (OpStatus.failed = .done))).all (fun g => !g.remote) = true ∧
    ((s (o .failed opBlock)).regions (o .failed opBlock)).any (·.out) = true ∧
    signalsOf farBlock = [⟨4, true, 1, false, 1⟩] ∧ (1 : Coord) ≠ awake.own := by
  dsimp only
  have hl : awake.linesHeld [0x1000000] = false := by decide +kernel
  refine ⟨fun st blk => ⟨rfl, fun y hy _ => ?_, rfl, rfl, rfl, rfl, hl⟩, ?_, ?_, ?_, ?_, ?_, ?_, ?_, ?_, ?_⟩
  · simpa using hy
  all_goals decide +kernel

theorem reaches {s : State} {off v rsv : Nat} (h : s.hrwOn = true ∧ s.hrw.locked = true ∧
    (s.sec.state ≠ .recovery ∨ recoveryReg off = true) ∧ v &&& rsv = 0) : Reaches s off v rsv :=
  ⟨h.1, h.2.1, h.2.2.1, h.2.2.2⟩

theorem witness_CancellationsAndQueueControl :
    let ops (l : List Op) (q : Queue) : State := { awake with sch := { Sch.reset with ops := l, nextOp := 1, queues := [(63, q)] } }
    let run := ops [op0 .launch [0]] (Queue.reset 63)
    let unread := ops [] { Queue.reset 63 with accepted := 1 }
    let on := ops [] { Queue.reset 63 with enabled := true, accepted := 1 }
    let c := qcmd [(0, 1, 6)]
    let read := turnOf c []
    let fixed := ops [{ op0 .launch [] with status := some .done }] (Queue.reset 63)
    let held := ops [] { Queue.reset 63 with pend := some (Queue.reset 0).cfg }
    Reaches awake 0x10010 (63 : Word64).toNat 0xFFFFFEC0 ∧ (63 : Word64).toNat % 64 = 63 ∧
    (run.sch.ops.find? (fun y => y.q = 63 && y.seq % 2 ^ 32 = 0) = some (op0 .launch [0]) ∧ (run.queue 63).cmds = [] ∧
      run.opOf 0 = some (op0 .launch [0]) ∧ ∀ e : Fin 2, ((run.eng e).run.map (·.op)) ≠ some 0) ∧
    (unread.queue 63).unread.find? (fun k => k % 2 ^ 32 = 0) = some 0 ∧
    ((read.queue 63).cmds.find? (fun y => y.seq % 2 ^ 32 = 0) = some c ∧ c.invalid = none ∧ c.hasBlock = false ∧ c.opcode ≠ 5 ∧
      c.bytes.length = 64 ∧ read.sec.state ≠ .fatal ∧ read.hrw.mode ≠ 1 ∧ (read.queue 63).cfg.cplHost = false ∧
      read.linesHeld [(0x40000000 + (read.queue 63).cplSlot 0) / 64] = false ∧ Reaches read 0x10010 63 0xFFFFFEC0) ∧
    Reaches awake 0x10010 (0x13F : Word64).toNat 0xFFFFFEC0 ∧ (0x13F : Word64).getLsbD 8 = true ∧ (awake.queue 63).unread = [] ∧
    ((awake.queue 63).cmds = [] ∧ run.sch.ops.filter (fun o => o.q = 63 && o.status.isNone) = [op0 .launch [0]] ∧
      (fixed.sch.ops.filter (fun o => o.q = 63 && o.status.isNone) = [] ∧ ∃ o ∈ fixed.sch.ops, o.q = 63)) ∧
    Reaches awake (0x11010 + 0x40 * 63) (0x137FF : Word32).toNat 0xFFFCC800 ∧ (0x137FF : Word32).getLsbD 16 = true ∧
    (awake.queue 63).enabled = false ∧ (awake.queue 63).accepted = (awake.queue 63).written ∧ (held.queue 63).pend.isSome = true ∧
    (unread.queue 63).written < (unread.queue 63).accepted ∧ (unread.queue 63).enabled = false ∧
    Reaches on (0x11010 + 0x40 * 63) (0x20000 : Word32).toNat 0xFFFCC800 ∧ (0x20000 : Word32).getLsbD 16 = false ∧
    (on.queue 63).enabled = true ∧ (on.queue 63).written < (on.queue 63).accepted := by
  dsimp only
  refine ⟨reaches ?_, ?_, ⟨?_, ?_, ?_, ?_⟩, ?_, ⟨?_, ?_, ?_, ?_, ?_, ?_, ?_, ?_, ?_, reaches ?_⟩, reaches ?_, ?_, ?_, ⟨?_, ?_, ?_, ?_⟩,
    reaches ?_, ?_, ?_, ?_, ?_, ?_, ?_, reaches ?_, ?_, ?_, ?_⟩ <;>
    decide +kernel

theorem witness_LedgerReportsAreChecked :
    let total (s : State) (n : Nat) := n + (s.pwr.dies.toList.map (·.hold)).sum
    (∀ c, c < 5 → (awake.link .xp .a).granted.getD c 0 = ([0, 0, 0, 0, 0] : List Nat).getD c 0 + (awake.link .xp .a).buffer.getD c 0 +
      (awake.link .xp .a).ret.getD c 0 + (awake.link .xp .a).park.getD c 0) ∧
    (awake.link .xp .a).granted.getD 4 0 ≠ ([0, 0, 0, 0, 1] : List Nat).getD 4 0 ∧ 0 = (awake.die 7).hold ∧ 1 ≠ (awake.die 7).hold ∧
    total awake 4600 = 4600 ∧ total awake 4599 ≠ 4600 ∧ ∀ q, (awake.queue q).cmds = [] :=
  ⟨by decide +kernel, by decide +kernel, by decide +kernel, by decide +kernel, by decide +kernel, by decide +kernel,
    fun _ => rfl⟩

/-! ### Verdicts, fences and patrol -/

def chk : Check := ⟨7, .matrix, 0, false, false, 1, 0, 0, 0, 0, [], [], [], [], 5, true⟩

/-- A running collective of this device and its neighbour. -/
def coll0 : Coll where
  op := 0
  collId := 9
  tree := false
  log2 := 10
  inFmt := 10
  outFmt := 10
  outRnd := 0
  outOvf := 0
  tag := 0
  seed := 0
  start := 1
  src := 0x50001000
  work := 0x50002000
  dst := 0x50003000
  b := 2
  n := 2
  pos := 0
  members := [0, 1]
  steps := []
  blocks := []
  sent := []
  announced := [1]
  left := []
  rx := []
  checks := []
  output := none
  failed := false

/-- Engine 0 runs this collective. -/
def colling (s : State) (c : Coll) : State := { s with col := s.col.set 0 { ColEng.reset with run := some c } }

theorem witness_VerdictsReleaseOrFail :
    let at' (cyc : Nat) : State :=
      { with0 { Core.reset with seq := seqOn, checks := [chk], marks := [(0x40, [7])] } with
        pwr := { Pwr.reset with dies := Pwr.reset.dies.set 0 { DiePwr.reset with cycles := cyc } } }
    let y : CollChk := ⟨7, 0, 0, 0, 16, ([], [])⟩
    let w := wd 0 1 0 0
    let held : Core := { Core.reset with
      seq := { seqOn with cond := .held .dld w }, checks := [chk]
      marks := [(Core.accAddr { Core.reset with seq := { seqOn with cond := .held .dld w } } w / 64, [7])] }
    ((at' 5).core 0).findCheck 7 = some chk ∧ chk.ready = true ∧ ((at' 5).die (dieOf 0)).cycles ≤ chk.due ∧
    chk.due < ((at' 6).die (dieOf 0)).cycles ∧ held.findCheck 7 = some chk ∧ 7 ∈ held.marksOf (held.accAddr w / 64) ∧
    ((colling State.reset { coll0 with checks := [y] }).eng 0).run = some { coll0 with checks := [y] } ∧
    [y].find? (fun z => z.id = 7) = some y ∧ State.reset.wall ≤ y.due := by
  dsimp only
  refine ⟨?_, ?_, ?_, ?_, ?_, ?_, ?_, ?_, ?_⟩ <;> decide +kernel

theorem witness_ArbitrationFollowsItsTable :
    let a (r : Option (Bool × Bool)) : Arb := ⟨.core 0, 7, .quadrant 0 0, some 1, r⟩
    let s (r : Option (Bool × Bool)) : State := { awake with int := { Integ.reset with arbs := [a r] } }
    let alone : Arb := { a (some (true, true)) with witness := none }
    let n : Arb := ⟨.coll 0, 7, .adder 0 2, none, some (false, true)⟩
    let engine (fenced : BitVec 8) : State := { awake with int := { Integ.reset with arbs := [n], adders := fenced } }
    (s none).arbOf (.core 0) = some (a none) ∧ (s none).coreAtRest 0 = true ∧
    (s (some (true, true))).arbOf (.core 0) = some (a (some (true, true))) ∧ (s (some (true, true))).coreAtRest 1 = true ∧
    State.arbOf { awake with int := { Integ.reset with arbs := [alone] } } (.core 0) = some alone ∧
    (engine 0).arbOf (.coll 0) = some n ∧ (engine 0).int.adders.getLsbD (adderCode 1 2) = false ∧
    (engine 0xFF).arbOf (.coll 0) = some n ∧ (engine 0xFF).int.adders.getLsbD (adderCode 1 2) = true := by
  dsimp only
  refine ⟨?_, ?_, ?_, ?_, ?_, ?_, ?_, ?_, ?_⟩ <;> decide +kernel

theorem witness_CoresStopAndReport :
    let c (k : SeqCond) : Core := { Core.reset with seq := { seqOn with cond := k }, op := some 0, marks := [(0x40, [7])] }
    let s (k : SeqCond) : State := { with0 (c k) with sch := { Sch.reset with ops := [op0 .launch [0]], nextOp := 1 } }
    (s .ending).opOf 0 = some (op0 .launch [0]) ∧ ((s .ending).core 0).seq.allDrained = true ∧
    ((s .stopping).core 0).enginesStopped = true ∧ (c .ending).checks = [] ∧ (c .ending).marksOf 0x40 ≠ [] ∧
    SeqCond.running ≠ .idle ∧ SeqCond.running ≠ .stopping := by
  dsimp only
  refine ⟨?_, ?_, ?_, ?_, ?_, ?_, ?_⟩ <;> decide +kernel

theorem witness_ClearanceAndPatrol :
    let s : State := { awake with int := { Integ.reset with suspects := [0], clearing := [(0, 1)], patrols := [⟨2, 3, true, 0, false, 0⟩] } }
    s.pilotsOn = true ∧ s.int.suspects.contains 0 = true ∧ s.int.clearing.find? (fun x => x.1 = 0) = some (0, 1) ∧
    s.coreAtRest 0 = true ∧ s.coreAtRest 1 = true ∧ s.launching = true ∧ s.canPatrol 0xFFE = true ∧ s.canPatrol 0xFFF = true ∧
    0xFFE / 512 = 0xFFF / 512 ∧ s.anySlack = false ∧ s.pwr.emerg = false ∧ s.int.margin = true ∧
    (s.rollPatrol.patrolOf 0xFFE).ran < (s.rollPatrol.patrolOf 0xFFE).debt + s.int.ppm.toNat * 100000 ∧
    s.tt.now / 100000000000 - s.int.patrolPer = 0 ∧ 250000000000 / 100000000000 - s.int.patrolPer = 2 ∧
    s.delayedOnce 0xFFE = false ∧ s.delayedOnce 0xFFF = false ∧
    s.int.patrols.find? (fun x => x.lower = 2) = some ⟨2, 3, true, 0, false, 0⟩ := by
  decide +kernel

/-! ### Tide time and collectives -/

/-- Coordinate 0 of a torus whose master runs under BOARD. -/
def master (t : TT) : State :=
  { awake with tt := t, lnk := { Lnk.reset with strapsOk := true, irec := some ⟨1, 1, 1, 1, true, 1, [], []⟩ }, wall := 2000000000 }

theorem witness_TideTimeIsKept :
    let msg : TimeMsg := ⟨.a, 0, true, 0, 1000, 160, ⟨10000, 2000, 0⟩⟩
    let far (w : Option Nat) : State :=
      { netted with tt := { TT.reset with runs := true, state := .locked, parent := some .xp, lastExch := w }, wall := 62500 }
    (State.reset.tt.since + 10000000 ≤ 10000000) ∧
    ((master TT.reset).boardMaster = true ∧ bestOffer (master TT.reset) = none ∧
      (master TT.reset).tt.since + 2000000000 ≤ (master TT.reset).wall ∧ (master TT.reset).tt.lastSync = none) ∧
    ((master { TT.reset with state := .locked, runs := true, now := 1500000001 }).boardMaster = true ∧
      (secondOffset 1500000001).natAbs > 2 ∧ (secondOffset 1000000002).natAbs ≤ 2 ∧ (secondOffset 999999998).natAbs ≤ 2 ∧
      (secondOffset 1000000003).natAbs > 2) ∧
    (((far none).port .xp).up = true ∧ (far none).tt.parent = some .xp ∧ (far none).tt.lastExch.any (fun w => 62500 < w + 62500) = false ∧
      (far (some 0)).tt.lastExch.any (fun w => 62500 < w + 62500) = false ∧
      (far (some 1)).tt.lastExch.any (fun w => 62500 < w + 62500) = true) ∧
    ((netted.port .xp).up = true ∧ netted.isMaster = false ∧ netted.tt.state = .acquire ∧ netted.tt.runs = false ∧
      (far (some 0)).tt.state = .locked ∧ (far (some 0)).isMaster = false ∧ (far (some 0)).tt.offers = [] ∧
      ((far (some 0)).port .xp).up = true ∧ State.noneOffers (master TT.reset) = true ∧
      netted.tt.offers = [] ∧ msg.offers = true ∧ msg.num = (netted.port .xp).rxNum.getD 0 0 ∧ (netted.port .xp).early = []) := by
  decide +kernel

/-- Step 0 sends block 0 to the neighbour over port 0 in sailing 2; step 1 receives block 1 from it. -/
def sendStep : Step := ⟨1, [], false, 0, 1, 0, 1, 0⟩
def recvStep : Step := ⟨1, [], true, 0, 1, 1, 1, 0⟩

def rxBlk : RxBlk := ⟨1, 1, [1], false, leBytes 256 1, none⟩

theorem onTime {s : State} (h : ∀ p ∈ [Port.xp, .xn, .yp, .yn, .zp, .zn], (s.port p).txq = []) : OnTime s := by
  intro p b hb
  rw [h p (by cases p <;> simp)] at hb
  cases hb

theorem witness_CollectivesSailAddAndFinish :
    let c := { coll0 with steps := [sendStep, recvStep] }
    let at' (now : Nat) (c : Coll) : State := colling { netted with tt := { TT.reset with state := .locked, runs := true, now := now } } c
    let s := at' 2080 c
    let z := { coll0 with blocks := [(0, ⟨[0, 1], true, [], true⟩), (1, ⟨[0, 1], true, [], false⟩)], output := some [] }
    let f := { coll0 with blocks := [(0, ⟨[0, 1], true, [], false⟩), (1, ⟨[0, 1], true, [], false⟩)] }
    (s.coll 0 = some c ∧ 2 * 2 ^ c.log2 + 32 ≤ s.tt.now ∧ s.tt.now < 2 * 2 ^ c.log2 + 34 ∧ (0, 2) ∉ c.left ∧
      OnTime s ∧
      c.due 0 2 = [(0, sendStep, 0)] ∧ s.goesFirst 0 .xp 2048 = true ∧ (s.port .xp).up = true ∧ c.ready 0 sendStep 0 = true ∧
      s.linesHeld (granulesOf (c.blkSpan 0).1 (c.blkSpan 0).2) = false ∧
      ((c.due 0 2).map (fun x => c.wire x.2.2)).sum ≤ (2 ^ c.log2 - 64) * s.sailRate .xp 2048 3071 - 0) ∧
    (c.steps[1]? = some recvStep ∧ c.exhausted 1003072 1 recvStep = true ∧ c.steps[0]? = some sendStep ∧
      c.exhausted 3072 0 sendStep = true) ∧
    (let r := { c with rx := [rxBlk] }
     r.nextRx 1 = some rxBlk ∧ r.pairing (r.blk 1).cover rxBlk.cover = some true ∧
      (at' 0 r).linesHeld (granulesOf (r.blkSpan 1).1 (r.blkSpan 1).2) = false ∧
      (at' 0 r).linesHeld (granulesOf (r.work + 256) 256) = false ∧ (at' 0 r).collDroops 0 = false ∧
      (at' 0 r).windowReady (granulesOf (r.work + 256) 256) = true) ∧
    (f.checks = [] ∧ f.output = none ∧ (at' 0 f).blocksWait f.collId = false ∧
      f.shard.all (fun x => !(at' 0 f).linesHeld (granulesOf (f.blkSpan x).1 (f.blkSpan x).2)) = true ∧
      (at' 0 z).coll 0 = some z ∧ z.stepsDone = true ∧ z.poisoned = true ∧ (at' 0 z).blocksWait z.collId = false ∧
      (at' 0 z).linesHeld (granulesOf z.dst (z.outSize * z.shard.length)) = false ∧
      (at' 0 z).windowReady (granulesOf z.dst (z.outSize * z.shard.length)) = true ∧
      z.shard.all (fun x => !(at' 0 z).linesHeld (granulesOf (z.blkSpan x).1 (z.blkSpan x).2)) = true ∧ f.stepsDone = true ∧ f.shard = [0] ∧ f.shard.all f.covers = true ∧ f.poisoned = false ∧
      (at' 0 f).linesHeld (granulesOf f.dst (f.outSize * f.shard.length)) = false ∧
      (at' 0 f).windowReady (granulesOf f.dst (f.outSize * f.shard.length)) = true) := by
  dsimp only
  refine ⟨⟨?_, ?_, ?_, ?_, onTime ?_, ?_, ?_, ?_, ?_, ?_, ?_⟩, ⟨?_, ?_, ?_, ?_⟩, ⟨?_, ?_, ?_, ?_, ?_, ?_⟩, ?_, ?_, ?_, ?_, ?_, ?_, ?_, ?_, ?_, ?_, ?_, ?_, ?_, ?_, ?_, ?_, ?_⟩ <;> decide +kernel

/-! ### The network -/

theorem comes {s : State} {p : Port} {kind : Byte} {x : Txn} (h : (s.port p).up = true ∧
    x.num = (s.port p).rxNum.getD (kindClass kind) 0 ∧ s.route x.dst = .here ∧ (s.port p).early = []) : Comes s p kind x :=
  ⟨h.1, h.2.1, h.2.2.1, fun e he => absurd he (by simp [h.2.2.2])⟩

/-- A transaction from coordinate 1 to this device. -/
def txn (psub : Bool) (count : Half) (tag : Word32) (addr aux : Word64) (data : List Byte) : Txn :=
  ⟨false, psub, 1, 0, count, tag, addr, aux, .a, 0, [], data⟩

theorem witness_RemoteAccessesAreAnswered :
    let w := txn false 1 5 0x8FFFFFFFC0 0 (leBytes 64 1)
    let low := txn false 1 5 0x3FFFFFC0 0 (leBytes 64 1)
    let lsp := txn true 1 5 0x7FFFFFFC0 0 []
    let gap := txn true 2 5 0x7FFFC0 0 []
    let behind := netted.setPort .xp { netted.port .xp with waiting := [(1, w)] }
    let held := netted.setPort .xp { netted.port .xp with waiting := [(2, gap)] }
    let later := netted.setPort .xp { netted.port .xp with rxNum := [2, 2, 2, 2, 2] }
    Comes netted .xp 1 w ∧ (netted.port .xp).waiting = [] ∧ netted.remoteWaits 1 w = false ∧ netted.remoteRefuses w w.data.length = false ∧
    netted.windowReady (dmemLines (remoteGrans w w.data.length)) = true ∧ netted.route w.src = .out .xp ∧
    Comes netted .xp 1 low ∧ netted.remoteWaits 1 low = false ∧ netted.remoteRefuses low low.data.length = true ∧
    Comes netted .xp 2 lsp ∧ netted.remoteWaits 2 lsp = false ∧ netted.remoteRefuses lsp 64 = false ∧
    Comes netted .xp 2 gap ∧ netted.remoteWaits 2 gap = false ∧ netted.remoteRefuses gap 128 = true ∧
    (behind.port .xp).waiting ≠ [] ∧ Comes behind .xp 1 w ∧ (held.port .xp).up = true ∧ Comes held .xp 2 lsp ∧
    { w with num := 1 }.num > (netted.port .xp).rxNum.getD (kindClass 1) 0 ∧ (netted.port .xp).early = [] ∧
    { w with num := 1 }.num < (later.port .xp).rxNum.getD (kindClass 1) 0 ∧ (later.port .xp).up = true := by
  dsimp only
  refine ⟨comes ?_, ?_, ?_, ?_, ?_, ?_, comes ?_, ?_, ?_, comes ?_, ?_, ?_, comes ?_, ?_, ?_, ?_, comes ?_, ?_, comes ?_, ?_, ?_, ?_, ?_⟩ <;>
    decide +kernel

/-- Transaction 5 of the copy on channel 3 of core 0 is unanswered. -/
def rtxn : RTxn := ⟨5, 0, 3, 0x50000000, 0⟩

def awaiting (p : FPhase) : State :=
  { netted with
    cores := [(0, { Core.reset with seq := seqOn, fer := { Fer.reset with chans := [(3, { onChan fcopy p with tags := [5] })] } })]
    lnk := { netted.lnk with txns := [rtxn] }
    wall := 1000000 }

theorem witness_AnswersReachTheWaitingCommand :
    let s := awaiting .reading
    let k := { onChan fcopy .reading with tags := [5] }
    let x := txn false 1 5 0x50000000 0 (leBytes 64 1)
    let late := txn false 1 6 0 0 []
    (late.num = (s.port .xp).rxNum.getD 3 0 ∧ (s.port .xp).up = true ∧ s.route late.dst = .here ∧ s.txnOf late.tag = none) ∧
    (s.txnOf 5 = some rtxn ∧ (s.core 0).fer.chan 3 = some k ∧ k.tags.contains 5 = true ∧ k.cmd.ch = 3 ∧ k.copyOf = none) ∧
    Comes s .xp 3 x ∧ Comes s .xp 4 x ∧ Comes s .xp 5 x ∧ Comes s .xp 6 x ∧ rtxn.addr = x.addr.toNat ∧
    Comes (awaiting (.failing 7)) .xp 3 x ∧ s.engineOf (txnColl x) = none ∧ s.sch.xsigs = [] ∧
    rtxn.sent + s.lnk.txnUs * 1000 ≤ s.wall ∧ ((awaiting .acking).core 0).fer.chan 3 = some { onChan fcopy .acking with tags := [5] } := by
  dsimp only
  refine ⟨⟨?_, ?_, ?_, ?_⟩, ⟨?_, ?_, ?_, ?_, ?_⟩, comes ?_, comes ?_, comes ?_, comes ?_, ?_, comes ?_, ?_, ?_, ?_, ?_⟩ <;> decide +kernel

theorem witness_TicketMessagesApplyOnce :
    let x := txn false 0 5 0xFFFFFFFF00000003 10 []
    let at' (now : Nat) (l : List (Coord × Word32 × Nat)) : State :=
      { netted with tt := { TT.reset with now := now }, sch := { Sch.reset with appliedMsgs := l, xsigs := [{ xsig with op := 3 }] } }
    Comes (at' 9 []) .xp 7 x ∧ (at' 9 []).schedOn = true ∧ (at' 9 []).sch.appliedMsgs = [] ∧ (at' 9 []).tt.now < x.aux.toNat ∧
    Comes (at' 10 []) .xp 7 x ∧ x.aux.toNat ≤ (at' 10 []).tt.now ∧
    (∃ e ∈ (at' 9 [(1, 5, 10)]).sch.appliedMsgs, e.1 = x.src ∧ e.2.1 = x.tag) ∧
    Comes (at' 0 []) .xp 8 x ∧ { x with aux := 2 }.aux = 2 ∧
    (at' 0 []).sch.xsigs.find? (fun z => z.m = x.tag && z.dst = x.src) = some { xsig with op := 3 } ∧ (at' 0 []).opOf 3 = none := by
  dsimp only
  refine ⟨comes ?_, ?_, ?_, ?_, comes ?_, ?_, ?_, comes ?_, ?_, ?_, ?_⟩ <;> decide +kernel

theorem witness_CollectiveMessagesReachTheirCollective :
    let x := txn false 1 0 0x100000009 0 (leBytes 256 1)
    let c := { coll0 with steps := [sendStep, recvStep] }
    let s := colling netted c
    OnTime s ∧ OnTime netted ∧ (s.engineOf (txnColl x) = some 0 ∧ s.coll 0 = some c ∧ Comes s .xp 9 x ∧ c.stepFor x.src (txnBlock x) = some 1) ∧
    (Comes s .xp 10 x ∧ c.members.findIdx? (· = x.src) = some 1) ∧ Comes s .xp 11 x ∧
    (netted.engineOf (txnColl x) = none ∧ Comes netted .xp 9 x ∧ Comes netted .xp 10 x ∧ Comes netted .xp 11 x) := by
  dsimp only
  refine ⟨onTime ?_, onTime ?_, ⟨?_, ?_, comes ?_, ?_⟩, ⟨comes ?_, ?_⟩, comes ?_, ?_, comes ?_, comes ?_, comes ?_⟩ <;> decide +kernel

/-! ### Links -/

/-- Port +X's link a as given. -/
def linked (k : Link) (t : TT) : State :=
  { awake with
    tt := t, wall := 1000000000
    lnk := { Lnk.reset with
      irec := some ⟨1, 2, 1, 1, false, 1, [], []⟩
      ports := (Vector.replicate 6 PortSt.reset).set 0 { PortSt.reset with la := k } } }

/-- Frame 0 without transactions, the first bytes of its link message so that the CRC of what follows, all zeros, is easy. -/
def frame0 : FrameIn :=
  ⟨List.replicate 8 0, controlBytes 0 0 false [] [0xDF, 0x35, 0x3E, 0x5C] ++ (List.replicate 4 0xFF ++ List.replicate 1216 0)⟩

theorem crc_zeros (n : Nat) : (List.replicate n (0 : Byte)).foldl crcByte 0 = 0 := by
  induction n with
  | zero => rfl
  | succ n ih => rw [List.replicate_succ, List.foldl_cons, show crcByte 0 0 = 0 by decide]; exact ih

theorem frame0_good : frameFecOk frame0 = true ∧ frameCrcOk frame0 = true ∧ frameSeq frame0 = 0 := by
  refine ⟨by decide, ?_, by decide +kernel⟩
  have h : (controlBytes 0 0 false [] [0xDF, 0x35, 0x3E, 0x5C]).foldl crcByte 0xFFFFFFFF = 0 := by decide +kernel
  have c : frame0.data.take 60 ++ List.replicate 4 0 ++ frame0.data.drop 64 =
      controlBytes 0 0 false [] [0xDF, 0x35, 0x3E, 0x5C] ++ (List.replicate 4 0 ++ List.replicate 1216 0) := by
    rw [List.append_assoc]; rfl
  have f : fieldAt frame0.data 60 4 = 0xFFFFFFFF := by decide +kernel
  rw [frameCrcOk, c, f, crc32, List.foldl_append, List.foldl_append, h, crc_zeros, crc_zeros]
  decide

/-- A frame with the next number and one without; the third failure of a lane within the hour; one second after LANE;
100 ms of training; a partner that agrees, and one that faces the wrong port. -/
theorem witness_LinksFailAndTrain :
    let up : Link := { Link.reset with state := .up, laneDowns := [1, 2] }
    let bad : FrameIn := { frame0 with errors := [0, 33] }
    let worn : Link := { up with recent := [(1000000000, false, [0, 0, 0, 2126])] }
    let noted (k : Link) : Option Nat :=
      let u := ((linked k TT.reset).countFrame .xp .a bad).noteErrors .xp .a bad
      (u.link .xp .a).badLane u.freeCtr
    let tr : Link := { Link.reset with state := .training, trainFails := 2 }
    let new : Link := { tr with trainAt := 900000000 }
    let x (port : Port) : Partner := ⟨1, 1, 1, port, ⟨10000, 2000, 0⟩, [16, 64, 1024, 496, 448], 0, 0, [0, 0, 0, 0, 0]⟩
    (up.inUse = true ∧ frameSeq frame0 = up.rxSeq + 1 ∧ frameFecOk bad = false ∧
      noted up = none ∧ noted worn = some 3) ∧
    ((linked up TT.reset).link .xp .a).inUse = true ∧
    (2 ≤ (up.laneDowns.filter (fun t => 1000000000 < t + hourNs)).length ∧
      ¬ 2 ≤ (Link.reset.laneDowns.filter (fun t => 1000000000 < t + hourNs)).length) ∧
    (({ Link.reset with reason := rLANE } : Link).state = .down ∧ Link.reset.downAt + 1000000000 ≤ (linked up TT.reset).wall) ∧
    (tr.trainAt + 100000000 ≤ (linked tr TT.reset).wall ∧ 2 ≤ tr.trainFails) ∧
    (tr.trainAt + 100000000 < (linked tr TT.reset).wall ∧ (linked new TT.reset).wall ≤ new.trainAt + 100000000 ∧
      (linked new TT.reset).trainRefusal .xp .a (x .xn) = none ∧ (linked new TT.reset).trainRefusal .xp .a (x .xp) = some rCABLING ∧
      (linked tr TT.reset).pins.linkRef = true) ∧
    (({ Link.reset with reason := rRECORD_ID } : Link).state = .down ∧
      ¬ (tr.state = .down ∧ 5 ≤ tr.reason.toNat ∧ tr.reason.toNat ≤ 7)) := by
  dsimp only
  refine ⟨⟨?_, ?_, ?_, ?_, ?_⟩, ?_, ⟨?_, ?_⟩, ⟨?_, ?_⟩, ⟨?_, ?_⟩, ⟨?_, ?_, ?_, ?_, ?_⟩, ?_, ?_⟩ <;> decide +kernel

theorem witness_LinkControlAndSlackWater :
    let up : Link := { Link.reset with state := .up }
    let s (now : Nat) : State := linked up { TT.reset with runs := true, now := now, offers := [(0, ⟨true, true, 0, ⟨10000, 2000, 0⟩⟩)] }
    let ready : State := { s 0 with lnk := { (s 0).lnk with strapsOk := true } }
    let shut : State := ready.setPort .xp { (s 0).port .xp with disA := true, disB := true }
    let both (now : Nat) : State := (s now).setPort .xp { (s now).port .xp with lb := up }
    Reaches (s 0) 0x31000 (0x10 : Word32).toNat 0xFFFFFFCC ∧ (0x10 : Word32).getLsbD 4 = true ∧ (0x10 : Word32).getLsbD 0 = false ∧
    ((s 0).port .xp).disB = false ∧ up.portHeld = false ∧ up.reason ≠ rDISABLED ∧
    (s 0).lnk.strapsOk = false ∧ ready.lnk.strapsOk = true ∧ Reaches ready 0x31000 (0x30 : Word32).toNat 0xFFFFFFCC ∧
    Reaches ready 0x31000 (3 : Word32).toNat 0xFFFFFFCC ∧ Reaches shut 0x31000 (0 : Word32).toNat 0xFFFFFFCC ∧
    ((shut.port .xp).disA = true ∧ (shut.port .xp).disB = true ∧ (ready.port .xp).disA = false ∧ (ready.port .xp).disB = false) ∧
    Reaches (s 0) 0x31500 (1 : Word32).toNat 0xFFFFFFCC ∧ (1 : Word32).getLsbD 0 = true ∧
    Reaches (s 0) 0x31500 (0 : Word32).toNat 0xFFFFFFCC ∧
    (s 0).inSlack .xp .a = true ∧ ((s 0).link .xp .b).state ≠ .up ∧ (both 0).inSlack .xp .a = true ∧
    ((both 0).link .xp .b).state = .up ∧ (s 2001).inSlack .xp .a = false ∧
    (s 312500).inRetrain 0 = true ∧ (s 0).inRetrain 11 = false := by
  dsimp only
  refine ⟨reaches ?_, ?_, ?_, ?_, ?_, ?_, ?_, ?_, reaches ?_, reaches ?_, reaches ?_, ?_, reaches ?_, ?_, reaches ?_, ?_, ?_, ?_, ?_, ?_, ?_, ?_⟩ <;>
    decide +kernel

/-! ### The host -/

/-- The module in CXL mode with both decoders committed. -/
def cxl : State :=
  { awake with hrw := { awake.hrw with mode := 1, dec0 := ⟨true, false, 0x10000000, 0⟩, dec1 := ⟨true, false, 0x10000000, 0⟩ } }

/-- The logbook accepts records. -/
def logging (l : LogSt) : State := { awake with log := { l with accepting := true } }

/-- An installation record of two devices. -/
def recordCells : List Host.Cell :=
  fields 0x50000000 [(0, 4, 0x52495846), (4, 2, 1), (8, 8, 1), (0x10, 1, 2), (0x11, 1, 1), (0x12, 1, 1)] []

theorem witness_RegisterWritesReachTheirRegister :
    let rec1 : State := { awake with
      dmem := { Store.empty with cells := recordCells }
      lnk := { Lnk.reset with irecAddr := 0x50000000, irec := some ⟨1, 2, 1, 1, false, 1, [], []⟩ } }
    Reaches awake 0x80000 ((1 : Word64).toNat % 2 ^ 32) 0xFFFFFFFE ∧
    Reaches awake 0x80008 ((0x12710 : Word64).toNat % 2 ^ 32) 0xFFFE0000 ∧ (0x12710 : Word64).toNat % 65536 = 10000 ∧
    Reaches awake 0x80008 ((0x12711 : Word64).toNat % 2 ^ 32) 0xFFFE0000 ∧ (0x12711 : Word64).toNat % 65536 = 10001 ∧
    Reaches awake 0x300 ((0xFFF : Word64).toNat % 2 ^ 32) 0xFFFFF000 ∧
    Reaches awake 0x20020 ((0xFFFFFF : Word64).toNat % 2 ^ 32) 0xFF000000 ∧
    ({ awake.hrw with locked := false } : Hrw).alive = true ∧ (0x1000 : Nat) &&& 0xFFFFF000 ≠ 0 ∧
    inCoreWindow 0xFFC = false ∧ inLogWindow 0xFFC = false ∧ regInfo 0xFFC = none ∧
    (1 : Word32).toNat &&& 0xFFFFFE00 = 0 ∧ (1 : Word32).toNat % 256 = 1 ∧
    Reaches awake 0x320 (2299 : Word32).toNat 0xFFFFF000 ∧ awake.hrw.dec1.committed = false ∧
    Reaches awake 0x60004 (4600 : Word32).toNat 0xFFFEE000 ∧ Reaches awake 0x60004 (399 : Word32).toNat 0xFFFEE000 ∧
    Reaches awake (0x70040 + 4 * 7) (2700 : Word32).toNat 0xFFFFF000 ∧ 2700 % 25 = 0 ∧
    Reaches awake 0x90060 (0xB007 : Word32).toNat 0xFFFF0000 ∧ Reaches awake 0x90060 (0xB006 : Word32).toNat 0xFFFF0000 ∧
    Reaches (logging LogSt.reset) 0x100030 (0xFFFFFFFF : Word32).toNat 0 ∧ (logging LogSt.reset).log.accepting = true ∧
    Reaches awake 0x30020 (1 : Word32).toNat 0xFFFFFFFE ∧ awake.lnk.irecAddr.toNat < 0x40000000 ∧
    Reaches rec1 0x30020 (1 : Word32).toNat 0xFFFFFFFE ∧ rec1.lnk.irecAddr.toNat % 64 = 0 ∧
    recordFields (bytesAt rec1.dmem.cells rec1.lnk.irecAddr.toNat recordMax) = true ∧
    rec1.linesHeld (granulesOf 0x50000000 recordMax) = false ∧ recordFields (bytesAt awake.dmem.cells 0x50000000 recordMax) = false ∧
    (rec1.setStack (stackOf 0x50000000) { Stack.reset with retrain := true }).linesHeld (granulesOf 0x50000000 recordMax) = true := by
  dsimp only
  refine ⟨reaches ?_, reaches ?_, ?_, reaches ?_, ?_, reaches ?_, reaches ?_, ?_, ?_, ?_, ?_, ?_, ?_, ?_, reaches ?_, ?_,
    reaches ?_, reaches ?_, reaches ?_, ?_, reaches ?_, reaches ?_, reaches ?_, ?_, reaches ?_, ?_, reaches ?_, ?_, ?_, ?_, ?_, ?_⟩ <;>
    decide +kernel

/-- The queue of the logbook may be full. -/
theorem witness_LogMarkWaits :
    let l : LogSt := { LogSt.reset with queue := List.replicate 4096 (0, ⟨0x0060, 0xFF, 1, 0, []⟩, []) }
    Reaches (logging l) 0x100030 (0 : Word32).toNat 0 ∧ (logging l).log.accepting = true ∧ 4096 ≤ (logging l).log.queue.length := by
  dsimp only
  exact ⟨reaches (by decide +kernel), rfl, (List.length_replicate (n := 4096)).ge⟩

/-- No group; a pending one; one out of range; groups that pass; and each group at its safe point. -/
theorem witness_GangwayGroupsCommitAndApply :
    let w (g : Word32) := Reaches awake 0x20 g.toNat 0xFFFFFF00
    let pend : State := { awake with tt := { TT.reset with pend := some ⟨10000, 2000, 0⟩ } }
    let turned : State := { awake with tt := { TT.reset with pend := some ⟨10000, 2000, 0⟩, runs := true, now := 20000001, pendAt := 19999999 } }
    let bad : State := { awake with tt := { TT.reset with shadow := ⟨0xFFFFFF, 0, 0⟩ } }
    let ports : State := awake.setPort .zn { awake.port .zn with pend := some [1, 1, 1, 1, 1] }
    let queue : State := { awake with sch := { Sch.reset with queues := [(63, { Queue.reset 63 with pend := some ⟨7, 0, false, 0⟩ })] } }
    let ap : State := { awake with hrw := { awake.hrw with apPend := some (0, 0x1000) }, cores := [(0, { Core.reset with seq := seqOn })] }
    (w 0x11 ∧ isGroup 0x11 = false ∧ isGroup 0x36 = false ∧ isGroup 0x3F = false ∧ isGroup 0x81 = false) ∧
    (w 0x10 ∧ isGroup 0x10 = true ∧ pend.groupPending 0x10 = true ∧ bad.groupPending 0x10 = false ∧
      (bad.groupBad 0x10).isSome = true ∧ awake.groupPending 0x10 = false ∧ awake.groupBad 0x10 = none) ∧
    (w 0x35 ∧ awake.groupPending 0x35 = false ∧ awake.groupBad 0x35 = none ∧ w 0x7F ∧ awake.groupPending 0x7F = false ∧
      awake.groupBad 0x7F = none) ∧
    pend.periodTurned = true ∧ turned.periodTurned = true ∧ awake.lnk.txns = [] ∧ (awake.eng 1).run = none ∧
    (ports.port .zn).pend = some [1, 1, 1, 1, 1] ∧ ((queue.queue 63).pend = some ⟨7, 0, false, 0⟩ ∧ (queue.queue 63).enabled = false) ∧
    (∀ x ∈ ap.cores, x.2.fer.namesHost = false ∧ (∀ i, x.2.seq.cond ≠ .apertureHeld i) ∧ ap.core x.1 = x.2) := by
  dsimp only
  refine ⟨⟨reaches ?_, ?_, ?_, ?_, ?_⟩, ⟨reaches ?_, ?_, ?_, ?_, ?_, ?_, ?_⟩, ⟨reaches ?_, ?_, ?_, reaches ?_, ?_, ?_⟩, ?_, ?_, ?_,
    ?_, ?_, ⟨?_, ?_⟩, ?_⟩
  rotate_right
  · simp only [List.mem_singleton, forall_eq]
    exact ⟨by decide +kernel, fun i h => by simp [seqOn] at h, by decide +kernel⟩
  all_goals decide +kernel

/-- An op of a HOST_FENCE. -/
def fenceOp : Op := { op0 .hostFence [0] with bytes := cmdBytes [(0, 1, 7)] }

theorem witness_HostReachesMemory :
    let snoop (w : Snoop) : State := { cxl with hrw := { cxl.hrw with snoops := [(0x1000000, w)] } }
    let r : Snoop := .record 3 63 0 false (leBytes 64 1)
    let ferry (x : FExec) : State :=
      { awake with cores := [(0, { Core.reset with seq := seqOn, fer := { Fer.reset with chans := [(3, x)] } })] }
    let reading : FExec := { onChan fcopy .reading with pend := [0] }
    let closed : State := cxl.setStack 4 { Stack.reset with retrain := true }
    let fence : State := { cxl with sch := { Sch.reset with ops := [fenceOp], nextOp := 1 } }
    (cxl.hostUp = true ∧ awake.hostUp = true ∧ fence.hostUp = true ∧ (snoop r).sec.state ≠ .fatal) ∧
    (cxl.hdmServes 0x1FFFFFC0 = true ∧ cxl.hdmServes 0x20000000 = false ∧ cxl.linesHeld [dpaAddr 0x1FFFFFC0 / 64] = false ∧
      cxl.hrw.waiting = [] ∧ closed.hdmServes 0 = true ∧ closed.linesHeld [dpaAddr 0 / 64] = true ∧
      (leBytes 64 1).length = 64) ∧
    (awake.hrw.mode = 2 ∧ awake.hrw.waiting = [] ∧ 0xFFFFFFF + 1 ≤ 0x10000000 ∧ awake.linesHeld (granulesOf (0x40000000 + 0xFFFFFFF) 1) = false) ∧
    (cxl.decoderOk false 0 0x10000000 1 = true ∧ cxl.decoderOk true 0x10000000 0x8FB0000000 1 = true ∧
      cxl.decoderOk true 0x10000000 0 1 = false) ∧
    ((snoop .inv).hrw.snoops.find? (fun y => y.1 = 0x1000000) = some (0x1000000, .inv) ∧ (snoop .inv).linesHeld [0x1000000] = false ∧
      (snoop r).hrw.snoops.find? (fun y => y.1 = 0x1000000) = some (0x1000000, r)) ∧
    (((ferry reading).core 0).fer.chan 3 = some reading ∧ reading.copyOf = none ∧
      ((ferry (onChan fcopy .flushing)).core 0).fer.chan 3 = some (onChan fcopy .flushing) ∧ fcopy.n = seqOn.fec + 1) ∧
    ((onChan fcopy .flushing).psn = false ∧ ((ferry (onChan fcopy .flushing)).core 0).fer.done = [] ∧ fenceOp.unread = false ∧
      fenceOp.bytes.length = 64 ∧ (∀ y ∈ fence.sch.ops, y.id = 0 → y = fenceOp) ∧ fenceOp.deferred = [] ∧ fence.sch.xsigs = []) ∧
    (fence.sch.ops.find? (fun y => y.q = 63 && y.kind = .hostFence && !y.waiting.isEmpty) = some fenceOp ∧
      fence.opOf 0 = some fenceOp ∧ fenceOp.status = none ∧ fenceOp.settled = false ∧ fenceOp.blk = [] ∧
      (fence.queue 63).cfg.cplHost = false ∧ fence.linesHeld [(0x40000000 + (fence.queue 63).cplSlot 0) / 64] = false) := by
  dsimp only
  refine ⟨⟨?_, ?_, ?_, ?_⟩, ⟨?_, ?_, ?_, ?_, ?_, ?_, ?_⟩, ⟨?_, ?_, ?_, ?_⟩, ⟨?_, ?_, ?_⟩, ⟨?_, ?_, ?_⟩, ⟨?_, ?_, ?_, ?_⟩,
    ⟨?_, ?_, ?_, ?_, ?_, ?_, ?_⟩, ?_, ?_, ?_, ?_, ?_, ?_, ?_⟩ <;>
    decide +kernel

theorem witness_HostRequestsAreAnswered :
    let fenced : State := { awake with int := { Integ.reset with fenced := [0] } }
    awake.hrwOn = true ∧ awake.hostUp = true ∧ (awake.coreReg 0 0x100).isSome = true ∧ (awake.coreReg 0 0x3FF8).isSome = false ∧ 0x101 % 4 ≠ 0 ∧
    awake.hrw.locked = true ∧ awake.sec.state = .running ∧ awake.hrw.coreSel.toNat ∉ awake.int.fenced ∧
    0x100 % 4 = 0 ∧ csrWide (0x100 / 8 * 8) = false ∧ fenced.hrw.coreSel.toNat ∈ fenced.int.fenced ∧
    fenced.hrw.errValid = false ∧ awake.hasIdentity = false ∧
    ({ awake with sec := { awake.sec with scanLock := true } } : State).hasIdentity = true ∧ (leBytes 32 7).length = 32 ∧
    (some Doe.cert).isSome = true ∧ cxl.hrw.mode = 1 := by
  decide +kernel

theorem witness_HostResetsAndMemoryUpkeep :
    let s : State := { awake with pins := { Pins.reset with perstLow := false } }
    s.pins.perstLow = false ∧ s.pins.inReset = false ∧ s.pwr.stage = .operating ∧ s.hrw.snoops = [] ∧
    s.linesHeld [lineOfStack 11 (5 % stackLines)] = false ∧ s.pins.cxlRef = true ∧ s.hostUp = true ∧ State.reset.pins.perstLow = true ∧
    (let on : State := { s with hrw := { s.hrw with cfg := { s.hrw.cfg with msixOn := true }, msixPend := [2047] } }
     2047 ∈ on.hrw.msixPend) := by
  decide +kernel

/-! ### The logbook -/

def infoRec : LogRec := ⟨0x0041, 0xFF, 0, 0, []⟩
def errorRec : LogRec := ⟨0x0041, 0xFF, 2, 0, []⟩

theorem witness_LogbookKeepsRecords :
    let q (n : Nat) : List (Nat × LogRec × List Byte) := List.replicate n (1, infoRec, [])
    let one : LogSt := { LogSt.reset with queue := [(0xFFFFFFFF, errorRec, List.replicate 60 0)], drops := [(0x41, 1)] }
    (logging LogSt.reset).log.accepting = true ∧ 3072 < (q 3073).length ∧ infoRec.sev = 0 ∧ errorRec.sev ≠ 0 ∧
    (q 3072).length ≤ 3072 ∧ (q 4095).length < 4096 ∧ 4096 ≤ (q 4096).length ∧
    one.queue = (0xFFFFFFFF, errorRec, List.replicate 60 0) :: [] ∧ (List.replicate 60 (0 : Byte)).length = 60 ∧
    2 ≤ errorRec.sev.toNat ∧ infoRec.sev.toNat < 2 ∧ (errorRec.type, errorRec.die, errorRec.unit) ∉ one.firsts ∧
    one.firsts.length < 15360 ∧ 15360 ≤ (List.replicate 15360 ((0, 0, 1) : Half × Byte × Half)).length ∧
    (errorRec.type, errorRec.die, errorRec.unit) ∉ List.replicate 15360 ((0, 0, 1) : Half × Byte × Half) ∧ one.drops ≠ [] ∧
    2000000001 % 1000000000 < 2 ∧ LogSt.reset.ckpt ≠ some (2000000001 / 1000000000) ∧ (some 2 : Option Nat) = some (2000000001 / 1000000000) ∧
    one.waiting = [] ∧ ([] : List (Nat × LogRec × List Byte)).length < 4096 ∧ awake.tt.state = .acquire ∧ awake.pwr.stage = .operating := by
  dsimp only
  simp only [List.length_replicate]
  refine ⟨?_, ?_, ?_, ?_, ?_, ?_, ?_, ?_, ?_, ?_, ?_, ?_, ?_, ?_, ?_, ?_, ?_, ?_, ?_, ?_, ?_, ?_, ?_⟩
  rotate_left 14
  · intro h; exact absurd (List.eq_of_mem_replicate h) (by decide)
  all_goals decide +kernel

theorem witness_I3cTargetAnswers :
    let s := logging { LogSt.reset with i3cStatic := some 0x57 }
    s.log.i3cStatic.isSome = true ∧ s.pwr.stage = .operating ∧ ([2, 0] : List Byte) ≠ [2, 1] ∧
    (([2, 0, 0, 0, 0] : List Byte).length = 5 → 1 < (([2, 0, 0, 0, 0] : List Byte).getD 0 0).toNat) ∧ s.log.i3cDyn = none ∧
    layoutKnown 0x400000 = true := by
  decide +kernel

/-! ### Power, clocks and monitors -/

/-- The module with these lockkeeper's values. -/
def powered (p : Pwr) : State := { awake with pwr := { p with stage := .operating, inControl := true }, wall := 2000000000 }

theorem witness_InputsAndEmergencies :
    let p (mv ca : Nat) : Pwr := { Pwr.reset with mv := mv, ca := ca }
    65000 < 65001 ∧ Pwr.reset.stage ≠ .operating ∧ (powered (p 41999 0)).pwr.mv < 42000 ∧
    heldFor (some 1999998000) 2000 2000000000 = true ∧ heldFor (some 1999998001) 2000 2000000000 = false ∧
    58000 < (powered (p 58001 0)).pwr.mv ∧ (powered (p 58001 0)).log.queue.length < 4096 ∧
    (some 1000000000).all (fun t => t + 1000000000 ≤ (powered Pwr.reset).wall) = true ∧
    (some 1000000001).all (fun t => t + 1000000000 ≤ (powered Pwr.reset).wall) = false ∧
    (powered Pwr.reset).pwr.inControl = true ∧ Pwr.reset.inControl = false ∧
    46500 ≤ (powered { p 46500 0 with uv := true }).pwr.mv ∧ (powered { p 54000 9499 with ilim := true }).pwr.ca < 9500 ∧
    (powered { Pwr.reset with therm := true, coolAt := some 1990000000 }).pwr.coolAt = some 1990000000 ∧
    1990000000 + 10000000 ≤ (powered Pwr.reset).wall ∧
    (powered { Pwr.reset with emerg := true }).pwr.anyCause = false ∧ Pwr.reset.clearAt + 1000000 ≤ (powered Pwr.reset).wall := by
  decide +kernel

theorem witness_MonitorsActOnTheClocks :
    let s := powered Pwr.reset
    let hot (v : Int) (d : DieId) : Int := (maxInt (freshVals (sampleAll (-640) 2400 s.wall (s.monitorsOf d.val (sensorsOf d))
      (List.replicate (sensorsOf d) v)) s.wall 1000000)).getD 0
    let can (v : Int) : List Monitor := sampleAll 0 200 s.wall (List.replicate 256 ⟨[], 0⟩) (List.replicate 256 v)
    let held : State := { powered Pwr.reset with pwr := { s.pwr with
      dies := Pwr.reset.dies.set 7 { DiePwr.reset with canaryHold := some 1000000000, droopHold := some 0 } } }
    s.pwr.stage = .operating ∧ s.pwr.inControl = true ∧ s.pwr.emerg = false ∧ 1840 ≤ hot 1840 9 ∧ hot 1839 0 < 1840 ∧
    1680 ≤ hot 1680 0 ∧ 115 ≤ (Stack.reading { Stack.reset with mon := Stack.reset.mon.take_ 115 0 } 0).getD 0 ∧
    (Stack.reading { Stack.reset with mon := Stack.reset.mon.take_ 114 0 } 0).getD 0 < 115 ∧
    (List.replicate 15 (0 : Int)).length < processOf 0 ∧ processOf 0 ≤ (List.replicate 16 (0 : Int)).length ∧
    (lowCanary s.wall (List.replicate 256 ⟨[], 0⟩) (can 4)).isSome = true ∧
    lowCanary s.wall (List.replicate 256 ⟨[], 0⟩) (can 5) = none ∧
    lowCanary s.wall [] [] = none ∧ (lowCanary s.wall [] (can 4)).isSome = true ∧
    (powered { Pwr.reset with temps := Pwr.reset.temps.set 9 1680 }).pwr.temps[9] = 1680 ∧ s.pwr.therm = false ∧
    (held.die 7).canaryHold = some 1000000000 ∧ 1000000000 + 1000000000 ≤ held.wall ∧ (held.die 7).droopHold = some 0 ∧
    0 ≤ (held.die 7).cycles ∧ s.schedOn = true ∧ s.int.margin = true ∧ s.dieIdle 7 = true ∧ (s.die 7).pilotDown = false ∧
    (s.die 7).vmin = none := by
  decide +kernel

theorem witness_CreditsAndClockSteps :
    let die (x : DiePwr) : Pwr := { Pwr.reset with dies := Pwr.reset.dies.set 0 x }
    let ask := powered { die { DiePwr.reset with hold := 16 } with requests := [(0, 16)] }
    let wait := powered { Pwr.reset with requests := [(0, 4608)] }
    let dead : State := { ask with pwr := { ask.pwr with
      requests := [(1, 16), (0, 16)], dies := ask.pwr.dies.set 1 { DiePwr.reset with bad := true } } }
    let worn : DiePwr := { DiePwr.reset with wearSpent := true, ceased := some 2000000000 }
    let lots := powered { Pwr.reset with samples := List.replicate 10 4700000 }
    ((powered (die { DiePwr.reset with mhz := 625, maxMhz := 600 })).die 0).maxMhz <
      ((powered (die { DiePwr.reset with mhz := 625, maxMhz := 600 })).die 0).mhz ∧
    ((powered Pwr.reset).die 0).mhz ≤ ((powered Pwr.reset).die 0).maxMhz ∧ (powered Pwr.reset).pwr.mustLower = false ∧
    lots.pwr.mustLower = true ∧ (powered Pwr.reset).pwr.emerg = false ∧ 16 % 16 = 0 ∧
    ask.pwr.requests = (0, 16) :: [] ∧ ask.grantable 0 16 = true ∧ wait.grantable 0 4608 = false ∧ dead.barred (1, 16) = true ∧
    dead.barred (0, 16) = false ∧ dead.grantable 0 16 = true ∧ (powered Pwr.reset).pwr.requests.all dead.barred = true ∧
    worn.wasActive 2000000000 = true ∧
    3000000 < avgOf 1000 (List.replicate 1000 3000001) ∧ avgOf 1000 (List.replicate 1000 3000000) ≤ 3000000 := by
  dsimp only
  refine ⟨?_, ?_, ?_, ?_, ?_, ?_, ?_, ?_, ?_, ?_, ?_, ?_, ?_, ?_, ?_, ?_⟩ <;> decide +kernel

/-! ### Boot and firmware -/

def bootIn : BootInputs := ⟨true, [], true, false, true, true, 0⟩

theorem witness_BootAndResetRun :
    let off : State := { State.reset with pwr := { Pwr.reset with mv := 46000, since := ⟨none, none, none, some 0⟩ }, wall := 20000000 }
    let on (p : Pins) : State := { awake with pins := p }
    let failing : State := { off with pwr := { off.pwr with stage := .operating, failing := true } }
    GoodBoot off bootIn ∧ failing.pwr.failing = true ∧ heldFor failing.pwr.since.good 20000000 failing.wall = true ∧ off.pwr.stage = .off ∧ heldFor off.pwr.since.good 20000000 off.wall = true ∧
    heldFor off.pwr.since.good 20000000 19999999 = false ∧ off.sec.recovery = false ∧
    ({ bootIn with secretsZero := false } : BootInputs).secretsZero = false ∧
    ((off.sec.otp.failed [(.io .cxl, 1)]).any (fun x => isIo x.1) = true ∧ off.sec.otp.failed [(.io .cxl, 0)] = []) ∧
    ({ bootIn with hbmTrained := false } : BootInputs).hbmTrained = false ∧
    (on { Pins.reset with inReset := true }).pins.inReset = true ∧ (on Pins.reset).pins.inReset = false ∧ awake.pins.perstLow = false ∧ awake.pins.inReset = false ∧
    ({ Sec.reset with resetReq := some 0 } : Sec).resetReq.isSome = true ∧
    (on { Pins.reset with perstLow := false, perstSeen := true }).pins.perstSeen = true ∧
    (on { Pins.reset with perstLow := false, perstSeen := true }).pwr.failing = false ∧ off.log.journal = none ∧
    ([] : List StrapPins).length < 2 ∧ (List.replicate 2 (⟨0, 0, 0, true⟩ : StrapPins)).length = 2 ∧
    strapOnes ⟨0, 0, 0, true⟩ % 2 = 1 ∧ (linked { Link.reset with state := .up } TT.reset).lnk.ports[0].la.inUse = true := by
  dsimp only
  refine ⟨⟨rfl, by simp [bootIn, Otp.failed], rfl⟩, ?_, ?_, ?_, ?_, ?_, ?_, ?_, ⟨?_, ?_⟩, ?_, ?_, ?_, ?_, ?_, ?_, ?_, ?_, ?_, ?_, ?_, ?_, ?_⟩ <;>
    decide +kernel

theorem witness_FirmwareFaultsStagesAndActivates :
    let s (c : Sec) : State := { awake with sec := { c with state := .running }, wall := 70000000000 }
    let just : State := s { Sec.reset with switched := some 69500000000 }
    let second : State := (s Sec.reset).setDie 0 { DiePwr.reset with fwFaultAt := some 0 }
    let staged : Sec := { Sec.reset with flash := writeCtl [] false true }
    (s Sec.reset).justSwitched (.pilot 0) = false ∧ (s Sec.reset).secondFault 0 = false ∧ second.secondFault 0 = true ∧
    second.justSwitched (.pilot 0) = false ∧ just.justSwitched .dispatcher = true ∧ just.justSwitched (.pilot 3) = true ∧ just.sec.rolled = false ∧
    (Processor.dispatcher ≠ .pilot 0) ∧ ({ just.sec with rolled := true } : Sec).rolled = true ∧
    (({ Sec.reset with state := .halted } : Sec).state = .halted) ∧ (({ Sec.reset with state := .fatal } : Sec).state = .fatal) ∧
    (({ s Sec.reset with sec := Sec.reset } : State).setDie 7 { DiePwr.reset with pilotDown := true } |>.die 7).pilotDown = true ∧
    (State.reset.die 7).pilotDown = false ∧
    Reaches (s Sec.reset) 0x9004C (1 : Word32).toNat 0xFFFFFFFE ∧ (1 : Word32).getLsbD 0 = true ∧ Sec.reset.resetPend = false ∧
    Sec.reset.staging = none ∧ (s Sec.reset).linesHeld (granulesOf 0x40000000 64) = false ∧
    ((s Sec.reset).setStack (stackOf 0x40000000) { Stack.reset with retrain := true }).linesHeld (granulesOf 0x40000000 64) = true ∧
    ({ Sec.reset with staging := some (0x40000000, 64), startHeld := true } : Sec).startHeld = true ∧ Sec.reset.startHeld = false ∧ stageAddrOk 0x40000000 0x4000000 = true ∧ stageAddrOk 0x40000000 0x4000001 = false ∧
    stageAddrOk 0 0 = false ∧ ({ Sec.reset with staging := some (0x40000000, 64) } : Sec).staging = some (0x40000000, 64) ∧
    Reaches (s Sec.reset) 0x90058 (1 : Word32).toNat 0xFFFFFFFE ∧ (s Sec.reset).staged = false ∧ (s staged).staged = true ∧
    (s staged).pwr.emerg = false ∧
    (s { Sec.reset with act := .deferred 0 (some 69000000000) }).sec.act = .deferred 0 (some 69000000000) ∧
    69000000000 + 1000000000 ≤ (s Sec.reset).wall ∧ 0 + 60000000000 ≤ (s Sec.reset).wall ∧ (s Sec.reset).quiet = true ∧
    Reaches (s Sec.reset) 0x90034 (1 : Word32).toNat 0xFFFFFFFE ∧ (s Sec.reset).svnRefused = false ∧
    (s { Sec.reset with resetPend := true }).svnRefused = true ∧ (s Sec.reset).hrw.errValid = false := by
  dsimp only
  refine ⟨?_, ?_, ?_, ?_, ?_, ?_, ?_, ?_, ?_, ?_, ?_, ?_, ?_, reaches ?_, ?_, ?_, ?_, ?_, ?_, ?_, ?_, ?_, ?_, ?_, ?_, reaches ?_, ?_, ?_, ?_, ?_, ?_, ?_, ?_, reaches ?_,
    ?_, ?_, ?_⟩ <;> decide +kernel

/-! ### The whole machine -/

/-- ADD and MTILE guarded by p3, which reads 0. -/
theorem witness_AFalseGuardLeavesANoOp :
    let w : Word0 := ⟨false, false, 3, 0, 1, 2, 3, 0⟩
    let w2 : Word0 := ⟨true, false, 3, 0, 0, 0, 0, 0⟩
    (Instr.add 0 w).parts = some (0, 0, 0, w, 0) ∧ (seqOn.guard w = false) ∧ wordBytes w = 8 ∧
    (Instr.mtile 0 w2 0).parts = some (0, 4, 1, w2, 0) ∧ seqOn.guard w2 = false ∧ 0xFFE8 + wordBytes w2 < 0x10000 ∧
    ((at0 seqOn).core 0).seq.cond = .running ∧ ((at0 seqOn).core 0).cancel = false ∧
    legalWords (at0 seqOn) 0 0 0 w 0 = true ∧ legalWords (at0 seqOn) 0 0 0 { w with dbl := true } 0 = false ∧
    legalWords (at0 seqOn) 0 4 1 w2 0 = true ∧ legalWords (at0 seqOn) 0 4 1 { w2 with dbl := false } 0 = false ∧
    (Instr.waitM 0 { w with fd := 0, fa := 0, fb := 0 }).parts = some (0, 7, 0, { w with fd := 0, fa := 0, fb := 0 }, 0) := by
  dsimp only
  refine ⟨?_, ?_, ?_, ?_, ?_, ?_, ?_, ?_, ?_, ?_, ?_, ?_, ?_⟩ <;> decide +kernel

theorem witness_WordsAndInstructionsAgree :
    (Instr.addi 0xFFF (wd 31 31 0 0xFFFFFFFF)).parts = some (0xFFF, 0, 0x20, wd 31 31 0 0xFFFFFFFF, 0) ∧
    decodeWords 0 0x9040000000000000 0 = some (.endKernel 0 (wd 0 0 0 0)) := by
  decide +kernel

/-- Two steps that answer a next state: a tick, and an idle row. -/
theorem witness_WhatNoCommandUndoes :
    State.reset.memWf = true ∧ step State.reset = .next State.reset.tick ∧ ∃ t, step { State.reset with pending := [.shedAssert] } = .next t :=
  ⟨by decide +kernel, rfl, ⟨_, rfl⟩⟩

/-! ## Ill-formed commands are refused -/

theorem test_wf_line : (Instr.hostMemRead 32).wf = false ∧ (Instr.hostMemRead 0x8FC0000000).wf = false := by decide +kernel

theorem test_wf_line_data : (Instr.hostMemWrite 0 ⟨[0], false⟩).wf = false := by decide +kernel

theorem test_wf_window :
    (Instr.bar4Access 0xFFFFFFF none 2).wf = false ∧ (Instr.bar4Access 0 (some ⟨[1], false⟩) 2).wf = false := by decide +kernel

theorem test_wf_completion : (Instr.hostCompletion (.ferry 0 0) (.data [] false)).wf = false := by decide +kernel

theorem test_wf_register :
    (Instr.registerWrite (.bar0 0) 24 0).wf = false ∧ (Instr.registerWrite (.bar0 0x1000000) 32 0).wf = false ∧
    (Instr.registerWrite (.bar2 0x10000) 32 0).wf = false := by decide +kernel

theorem test_wf_core_window : (Instr.coreWindowRead (.bar0 0x1000000) .b32).wf = false := by decide +kernel

theorem test_wf_scrub :
    (Instr.scratchpadScrub (.lsp 0) (2 ^ 20)).wf = false ∧ (Instr.scratchpadScrub (.quay 0) (2 ^ 23)).wf = false ∧
    (Instr.hbmPatrolScrub 0 805306368).wf = false := by decide +kernel

theorem test_wf_snoop : (Instr.bisnpResponse 9663676416).wf = false := by decide +kernel

theorem test_wf_samples :
    (Instr.strapSample 0 ⟨0, 0, 0, true⟩).wf = false ∧ (Instr.boardSlotSample 4 0).wf = false ∧
    (Instr.tempSample 8 (List.replicate 17 0)).wf = false ∧ (Instr.canarySample 0 (List.replicate 257 0)).wf = false ∧
    (Instr.vminMeasurement 0 (List.replicate 13 ⟨false, 1⟩)).wf = false := by decide +kernel

theorem test_wf_credits :
    (Instr.frameReceived .xp .a ⟨[], []⟩).wf = false ∧
    (Instr.ledgerReport (.link .xp .a [1])).wf = false ∧ (Instr.creditRequest 0 8).wf = false := by decide +kernel

theorem test_wf_transaction :
    (Instr.remoteWrite .xp ⟨false, false, 0, 0, 0, 0, 0, 0, .a, 0, [], List.replicate 1088 0⟩).wf = false ∧
    (Instr.remoteRead .xp ⟨false, false, 0, 0, 17, 0, 0, 0, .a, 0, [], []⟩).wf = false := by decide +kernel

theorem test_wf_group : (Instr.gangwayApply 0x11).wf = false ∧ (Instr.gangwayApply 0x81).wf = false := by decide +kernel

theorem test_wf_patrol :
    (Instr.patrolLaunch 511 512 false).wf = false ∧ (Instr.patrolLaunch 5 5 false).wf = false := by decide +kernel

theorem test_wf_report : (Instr.getReport [] 0).wf = false := by decide +kernel

theorem test_wf_record : (Instr.logRecord ⟨0, 0, 0, 0, List.replicate 33 0⟩).wf = false := by decide +kernel

theorem test_wf_i3c :
    (Instr.i3cSetPointer [2, 0, 0, 0, 0]).wf = false ∧ (Instr.i3cClearAlert [2, 2]).wf = false ∧
    (Instr.i3cRead 4097).wf = false ∧ (Instr.i3cInvalidWrite [2, 1]).wf = false := by decide +kernel

/-! ## Words -/

/-- No row of the table gives bits. -/
theorem test_decodeTableWord : decodeTableWord 64 0x3100_1C00_0000_0020 = none := rfl

/-- DADDBI d7, 32 (03, the example after R71). -/
theorem test_word_daddbi : decodeWords 0 0x3100_1C00_0000_0020 0 = some (.daddbi 0 (wd 7 0 0 32)) := by decide +kernel

/-- MTILE with DACT d7, DPS d5, DOUT d6, INIT 1 (03, the example after R89). -/
theorem test_word_mtile :
    decodeWords 0 0x4060_0000_0000_0000 0x394C_0100_0000_0000 =
      some (.mtile 0 ⟨true, false, 0, 0, 0, 0, 0, 0⟩ 0x394C_0100_0000_0000) := by decide +kernel

/-- A word of each other class, its fields written out in the order of Table 3-3. -/
theorem test_words_of_each_class :
    decodeWords 0 (0b0000#4 ++ 0x28#6 ++ 0b0#1 ++ 0b0#1 ++ 0#3 ++ 0#2 ++ 1#5 ++ 2#5 ++ 0#5 ++ 63#32) 0 =
      some (.shli 0 (wd 1 2 0 63)) ∧
    decodeWords 0 (0b0001#4 ++ 0x04#6 ++ 0b0#1 ++ 0b0#1 ++ 0#3 ++ 0#2 ++ 9#5 ++ 0#5 ++ 0#5 ++ 0xFFFFFFF8#32) 0 =
      some (.loop 0 (wd 9 0 0 0xFFFFFFF8)) ∧
    decodeWords 0 (0b0010#4 ++ 0x0C#6 ++ 0b0#1 ++ 0b1#1 ++ 3#3 ++ 0#2 ++ 0#5 ++ 1#5 ++ 2#5 ++ 8#32) 0 =
      some (.sta 0 ⟨false, true, 3, 0, 0, 1, 2, 8⟩) ∧
    decodeWords 0 (0b0101#4 ++ 0x1C#6 ++ 0b0#1 ++ 0b0#1 ++ 0#3 ++ 0#2 ++ 31#5 ++ 30#5 ++ 29#5 ++ 0x00A00000#32) 0 =
      some (.vshuf 0 (wd 31 30 29 0x00A00000)) ∧
    decodeWords 0 (0b0110#4 ++ 0x05#6 ++ 0b1#1 ++ 0b0#1 ++ 0#3 ++ 0#2 ++ 0#5 ++ 0#5 ++ 0#5 ++ 0#32) 77 =
      some (.fqbc 0 ⟨true, false, 0, 0, 0, 0, 0, 0⟩ 77) ∧
    decodeWords 0 (0b0111#4 ++ 0x09#6 ++ 0b0#1 ++ 0b0#1 ++ 0#3 ++ 0#2 ++ 4#5 ++ 0#5 ++ 0#5 ++ 1#32) 0 =
      some (.rdcnt 0 (wd 4 0 0 1)) ∧
    decodeWords 0 (0b1000#4 ++ 0x02#6 ++ 0b0#1 ++ 0b0#1 ++ 0#3 ++ 0#2 ++ 4#5 ++ 5#5 ++ 0#5 ++ 0#32) 0 =
      some (.tread 0 (wd 4 5 0 0)) ∧
    decodeWords 0 (0b1001#4 ++ 0x06#6 ++ 0b0#1 ++ 0b0#1 ++ 0#3 ++ 0#2 ++ 0#5 ++ 5#5 ++ 0#5 ++ 0x100#32) 0 =
      some (.wrcsr 0 (wd 0 5 0 0x100)) := by decide +kernel

/-- Reserved operations and classes have no row. -/
theorem test_reserved_words :
    decodeWords 0 (0b0000#4 ++ 0x0F#6 ++ 0#54) 0 = none ∧ decodeWords 0 (0b0111#4 ++ 0x03#6 ++ 0#54) 0 = none ∧
    decodeWords 0 (0b1010#4 ++ 0x00#6 ++ 0#54) 0 = none := by decide +kernel

/-! ## The worked examples of the spec -/

/-- The core of die 5, column 3, row 17 is core 2,673 (00, after R12). -/
theorem test_dieOf : dieOf 0xA71 = 5 := by decide +kernel

/-- 2^20, −2^20 and 2^-20 onto +0 (02, after R43). -/
theorem test_chunk_sum :
    (chunkAdd [(.fin false 1 20, 0), (.fin true 1 20, 0), (.fin false 1 (-20), 0)] .zero).val = .zero ∧
    (chunkAdd [(.fin false 1 20, 0), (.fin true 1 20, 0), (.fin false 1 (-20), 0)] .zero).flags = fINX := by decide +kernel

/-- 2.6 into Fjx4 under SR (02, after R50). -/
theorem test_stochastic :
    (convert (decodeNum 0xA 0x40266666) 0 1 0 0x5A3C10).code = 4 ∧
    (convert (decodeNum 0xA 0x40266666) 0 1 0 0xB00000).code = 5 := by decide +kernel

/-- A block of 1,000 and 3.3 into Fjx8a (02, after R53). -/
theorem test_block_scale :
    let r := convertBlock 3 0 0 (fun _ => 0) [decodeNum 0xA 0x447A0000, decodeNum 0xA 0x40533333]
    r.1 = 0x81 ∧ r.2.map (·.code) = [0x78, 0x35] := by decide +kernel

/-- Descriptor bytes of ws (06, after R179). -/
theorem test_descriptor_fields :
    let d : Desc := BitVec.ofNat 512 (2 ^ (8 * 1) * 0x30 + 2 ^ (8 * 5) + 2 ^ (8 * 10) * 0x20 + 2 ^ (8 * 30) * 0x20 +
      2 ^ (8 * 34) * 0x80 + 2 ^ (8 * 59) * 0x23)
    dBase d = 0x3000 ∧ dStride d 0 = 1 ∧ dStride d 1 = 32 ∧ dExt d 0 = 32 ∧ dExt d 1 = 128 ∧ dFmt d = 3 ∧ dRank d = 2 ∧
    dSpace d = 0 := by decide +kernel

/-- RANK 3, code 3 (06, after R186). -/
theorem test_permutation : decodePerm 3 3 = [1, 2, 0, 3, 4] := by decide +kernel

/-- The index elements −1 and 12 of Table 6-7 under FAULT, CLAMP, ZERO and WRAP. -/
theorem test_index_policies :
    resolve (-1) 10 0 = .failed ∧ resolve (-1) 10 1 = .clamped 0 ∧ resolve 12 10 1 = .clamped 9 ∧
    resolve (-1) 10 2 = .zeroed ∧ resolve 12 10 2 = .zeroed ∧ resolve (-1) 10 3 = .row 9 ∧ resolve 12 10 3 = .failed ∧
    resolve 5 10 0 = .row 5 := by decide +kernel

/-- 1.0 + 2^24 rounds to even in binary32, and adding 1.0 again changes nothing (06, after R209). -/
theorem test_adder :
    (laneAdd 0xA 0 0x3F800000 0x4B800000).code = 0x4B800000 ∧ (laneAdd 0xA 0 0x4B800000 0x3F800000).code = 0x4B800000 := by
  decide +kernel

/-- Two VSMA updates (Table 5-8): M, T, C, F and the probabilities of the live lanes. -/
theorem test_vsma :
    let r1 := vsmaRow ⟨0xFF800000, 0, 0, 0x3F800000⟩
      [(0x40400000, true), (0x3F800000, true), (0x40000000, true), (0x40400000, true)]
    let r2 := vsmaRow r1.1 [(0x40A00000, true), (0x40800000, true), (0x3F800000, true), (0x40C00000, false)]
    r1.1 = ⟨0x40400000, 0x40300000, 0, 0⟩ ∧ r1.2.1.take 4 = [0x3F800000, 0x3E800000, 0x3F000000, 0x3F800000] ∧
    r2.1 = ⟨0x40A00000, 0x40100000, 0, 0x3E800000⟩ ∧ r2.2.1.take 4 = [0x3F800000, 0x3F000000, 0x3D800000, 0] := by
  decide +kernel

/-- DMEM 0x40_0000_1A40 (11, after R357). -/
theorem test_stack_address :
    stackOf 0x4000001A40 = 5 ∧ stackLocal 0x4000001A40 = 0x555555A40 ∧ pseudoChannel 0x4000001A40 = 21 := by
  decide +kernel

/-- The straps of the module at (5, 30, 3): eight ones, so the parity pin makes the count odd (16, after R519). -/
theorem test_straps : strapOnes ⟨5, 30, 3, true⟩ = 9 ∧ strapOnes ⟨5, 30, 3, false⟩ = 8 := by decide +kernel

/-! ## Single commands -/

/-- Register s3 of core 0 after a command. -/
def s3After (r : Res) : Option Word64 :=
  match r with
  | .next t => some ((t.core 0).seq.getS 3)
  | _ => none

/-- A running core 0 with s1 and s2. -/
def twoRegs (x y : Word64) : State := at0 { seqOn with s := (seqOn.s.set 1 x).set 2 y }

theorem test_add_wraps : s3After (exec (.add 0 (wd 3 1 2 0)) (twoRegs 0xFFFFFFFFFFFFFFFF 2)) = some 1 := by decide +kernel

theorem test_sub_borrows : s3After (exec (.sub 0 (wd 3 1 2 0)) (twoRegs 0 1)) = some 0xFFFFFFFFFFFFFFFF := by decide +kernel

theorem test_mulhs_negative :
    s3After (exec (.mulhs 0 (wd 3 1 2 0)) (twoRegs 0xFFFFFFFFFFFFFFFF 1)) = some 0xFFFFFFFFFFFFFFFF := by decide +kernel

theorem test_mulhu_all_ones :
    s3After (exec (.mulhu 0 (wd 3 1 2 0)) (twoRegs 0xFFFFFFFFFFFFFFFF 0xFFFFFFFFFFFFFFFF)) = some 0xFFFFFFFFFFFFFFFE := by
  decide +kernel

/-- Shifts take the low six bits of the count (R79). -/
theorem test_sar_by_65 : s3After (exec (.sar 0 (wd 3 1 2 0)) (twoRegs 0x8000000000000000 65)) = some 0xC000000000000000 := by
  decide +kernel

theorem test_max_signed : s3After (exec (.max 0 (wd 3 1 2 0)) (twoRegs 0xFFFFFFFFFFFFFFFF 1)) = some 1 := by decide +kernel

theorem test_maxu_unsigned : s3After (exec (.maxu 0 (wd 3 1 2 0)) (twoRegs 0xFFFFFFFFFFFFFFFF 1)) = some 0xFFFFFFFFFFFFFFFF := by
  decide +kernel

/-- The sign-extended immediate of an I form. -/
theorem test_addi_negative : s3After (exec (.addi 0 (wd 3 1 0 0xFFFFFFFF)) (twoRegs 0 0)) = some 0xFFFFFFFFFFFFFFFF := by
  decide +kernel

/-- s0 reads as zero and keeps it. -/
theorem test_s0_discards :
    (match exec (.addi 0 (wd 0 1 0 7)) (twoRegs 5 0) with
      | .next t => some ((t.core 0).seq.getS 0)
      | _ => none) = some 0 := by decide +kernel

/-- Above 62 V the input counts towards the overvoltage lockout (R447), above 65 V too. -/
theorem test_absolute_voltage :
    (match exec (.vinSample 65001 0) State.reset with
      | .next t => some t.pwr.since.high
      | _ => none) = some (some 0) := by decide +kernel

end Sys2Proof.Tests
end

/-!
PROOFS. Rules of the state's operations that several claims need: storing a core, a sequencer's write, where a
stalled instruction goes on.
-/
section
namespace Sys2Proof.Machine

/-! ## Storing a core -/

theorem smDel_smIns_self {α : Type} (k : Nat) (v : α) (m : List (Nat × α)) : smDel k (smIns k v m) = smDel k m := by
  induction m with
  | nil => simp [smIns, smDel]
  | cons x t ih =>
    simp only [smIns]
    split
    · simp [smDel]
    · simp only [smDel, ih]

theorem smDel_smDel_self {α : Type} (k : Nat) (m : List (Nat × α)) : smDel k (smDel k m) = smDel k m := by
  simp [smDel_eq_filter]

theorem smPut_smPut_self {α : Type} [DecidableEq α] (d v x : α) (m : List (Nat × α)) (k : Nat) :
    smPut d (smPut d m k v) k x = smPut d m k x := by
  have h : smDel k (smPut d m k v) = smDel k m := by
    unfold smPut
    split
    · exact smDel_smDel_self k m
    · rw [smDel_smIns_self, smDel_smDel_self]
  rw [smPut, h, smPut]

/-- The later of two stores of one core stands. -/
@[simp] theorem setCore_setCore (s : State) (g : Nat) (c d : Core) : (s.setCore g c).setCore g d = s.setCore g d := by
  simp [State.setCore, smPut_smPut_self]

theorem coreOnly_setCore (s : State) (g : Gcn) (c : Core) : CoreOnly s (s.setCore g.toNat c) g :=
  ⟨rfl, fun _ h => core_setCore_ne s c h⟩

theorem seqOnly_setCore (s : State) (g : Gcn) (c : Core) (h : c = { s.core g.toNat with seq := c.seq }) :
    SeqOnly s (s.setCore g.toNat c) g :=
  ⟨coreOnly_setCore s g c, by simpa using h⟩

/-- A core stored with the scratchpad that it had leaves every place as it was. -/
theorem store_setCore (s : State) (g : Nat) (c : Core) (h : c.lsp = (s.core g).lsp) (l : Loc) :
    (s.setCore g c).store l = s.store l := by
  cases l with
  | lsp k =>
    simp only [State.store, core_setCore_eq]
    split
    · next e => rw [h, e]
    · rfl
  | quay d => rfl
  | dmem => rfl

theorem sameBytes_setCore (s : State) (g : Nat) (c : Core) (h : c.lsp = (s.core g).lsp) : SameBytes s (s.setCore g c) :=
  fun k b => by rw [State.readByte, store_setCore s g c h, State.readByte]

/-! ## Finishing an instruction -/

/-- An instruction that completes in the whole state, with a core stored last, completes in that core. -/
theorem finish_all_setCore (s t : State) (g len : Nat) (c : Core) :
    s.finish g len (.all (t.setCore g c)) = t.finish g len (.core c) := by
  simp [State.finish]

/-- Core g runs again, at the instruction it stalled in. -/
def State.resumed (s : State) (g : Nat) : State := s.setCore g ((s.core g).withCond .running)

@[simp] theorem core_resumed (s : State) (g : Nat) : (s.resumed g).core g = (s.core g).withCond .running :=
  core_setCore s g _

@[simp] theorem store_resumed (s : State) (g : Nat) (l : Loc) : (s.resumed g).store l = s.store l :=
  store_setCore s g ((s.core g).withCond .running) rfl l

theorem readByte_resumed (s : State) (g : Nat) (l : Loc) (b : Nat) : (s.resumed g).readByte l b = s.readByte l b := by
  rw [State.readByte, store_resumed, State.readByte]

theorem marksOf_resumed (s : State) (g : Nat) (l : Loc) (n : Nat) : (s.resumed g).marksOf l n = s.marksOf l n := by
  cases l with
  | lsp h =>
    by_cases e : h = g
    · subst e
      simp only [State.marksOf, core_resumed]
      rfl
    · simp only [State.marksOf, State.resumed, core_setCore_ne _ _ e]
  | quay d => rfl
  | dmem => rfl

theorem storeHeld_resumed (s : State) (g n : Nat) : (s.resumed g).storeHeld g n = s.storeHeld g n := by
  simp only [State.storeHeld, marksOf_resumed, State.protectedAt, core_resumed]
  rfl

/-- A stalled scalar access is carried out once the core runs again (R85). -/
theorem exec_containedAccessRelease {s : State} {g : Gcn} {a : ScalarAccess} {w : Word0}
    (h : (s.core g.toNat).seq.cond = .held a w) :
    exec (.containedAccessRelease g) s =
      .next ((s.resumed g.toNat).finish g.toNat 8 ((s.resumed g.toNat).scalarAccess g.toNat a w)) := by
  show execContainedAccessRelease g s = _
  simp only [execContainedAccessRelease, h]
  rfl

/-! ## What waiting leaves unchanged -/

/-- The end of a wait orders writes, and changes no core (R235). -/
theorem waitEnds_cores (s : State) (g : Nat) (k : SeqCond) : (s.waitEnds g k).cores = s.cores := by
  cases k <;> rfl

theorem core_waitEnds (s : State) (g : Nat) (k : SeqCond) (h : Nat) : (s.waitEnds g k).core h = s.core h := by
  rw [State.core, waitEnds_cores, State.core]

/-! ## Little-endian bytes -/

@[simp] theorem length_leBytes (n v : Nat) : (leBytes n v).length = n := by
  induction n generalizing v with
  | zero => rfl
  | succ n ih => simp [leBytes, ih]

theorem getElem_leBytes (n v i : Nat) (h : i < (leBytes n v).length) :
    (leBytes n v)[i] = BitVec.ofNat 8 (v / 256 ^ i) := by
  induction n generalizing v i with
  | zero => simp [leBytes] at h
  | succ n ih =>
    cases i with
    | zero => simp [leBytes]
    | succ i =>
      simp only [leBytes, List.getElem_cons_succ, ih]
      rw [Nat.div_div_eq_div_mul, Nat.pow_succ, Nat.mul_comm 256]

theorem mem_addressed {a : Nat} {l : List Byte} {y : Nat × Byte} (h : y ∈ addressed a l) : a ≤ y.1 ∧ y.1 < a + l.length := by
  induction l generalizing a with
  | nil => simp [addressed] at h
  | cons b t ih =>
    simp only [addressed, List.mem_cons] at h
    rcases h with rfl | h
    · simp
    · have := ih h
      simp only [List.length_cons]
      omega

/-! ## One ordered write -/

theorem setGran_core (s : State) (l : Loc) (n : Nat) (live : List (Nat × Byte)) (p : Bool) (m : List Nat) (g : Nat) :
    ∃ x y, (s.setGran l n live p m).core g = { s.core g with lsp := x, marks := y } := by
  have put (st : Store) : ∃ x y, (s.setStore l st).core g = { s.core g with lsp := x, marks := y } := by
    obtain ⟨x, hx⟩ := core_setStore s l st g
    exact ⟨x, (s.core g).marks, hx⟩
  unfold State.setGran
  cases l with
  | lsp h =>
    dsimp only
    rw [core_setCore_eq]
    split
    · next e =>
      subst e
      obtain ⟨x, y, hx⟩ := put _
      rw [hx]
      exact ⟨_, _, rfl⟩
    · exact put _
  | quay d => exact put _
  | dmem => exact put _

theorem core_noted (t s : State) (op : Option Nat) (w : Writer) (after : Option Nat) (l : Loc) (n : Nat) (p : GranPut)
    (r : List OldGran) (g : Nat) : (t.noted s op w after l n p r).core g = t.core g := by
  rw [noted_eq]
  rfl

/-- An ordered write leaves a core as it was but for its scratchpad and the checks its granules await. -/
theorem orderGran_core (s : State) (op : Option Nat) (w : Writer) (after : Option Nat) (l : Loc) (n : Nat)
    (b : List (Nat × Byte)) (p : Bool) (m : List Nat) (g : Nat) :
    ∃ x y, (s.orderGran op w after l n b p m).core g = { s.core g with lsp := x, marks := y } := by
  unfold State.orderGran
  dsimp only
  rw [core_noted]
  split
  · exact writeGran_core s l n b p m g
  · obtain ⟨x, hx⟩ := (onlyFound_preWrite s l n b).core g
    obtain ⟨y, z, hy⟩ := setGran_core (s.preWrite l n b) l n _ _ _ g
    exact ⟨y, z, by rw [hy, hx]⟩

/-! ## The sequencer's write (R86, R226) -/

/-- No command in execution is the sequencer's: none of its writes is free to come before an earlier one. -/
theorem later_sequencer (s : State) (g : Nat) (l : Loc) (n : Nat) : s.later none (.sequencer g) l n = [] := by
  have h (o : OldGran) : o.unordered none (.sequencer g) s.wall = false := by simp [OldGran.unordered]
  have : (s.writesOf l n).reverse.zipIdx.takeWhile (fun _ => false) = [] := by
    cases (s.writesOf l n).reverse.zipIdx <;> rfl
  simp [State.later, lastOnes, h, this]

/-- The sequencer's write stores its bytes, and no other. -/
theorem seqWrite_readByte (s : State) (g a : Nat) (v : List Byte) (h : ∀ i, i < v.length → (a + i) / 64 = a / 64)
    (l : Loc) (b : Nat) :
    (s.seqWrite g a v).readByte l b =
      if l = .lsp g then byteAt (putBytes (s.store (.lsp g)).cells a v) b else s.readByte l b := by
  have hb : ∀ y ∈ addressed a v, y.1 / 64 = a / 64 := fun y hy => by
    have := mem_addressed hy
    have := h (y.1 - a) (by omega)
    rwa [show a + (y.1 - a) = y.1 by omega] at this
  have hl : (addressed a v).filter (fun y => s.lands none (.sequencer g) (.lsp g, y.1)) = addressed a v :=
    List.filter_eq_self.2 (fun y _ => by simp [State.lands, later_sequencer])
  simp only [State.readByte, State.seqWrite]
  rw [orderGran_cells _ _ _ _ _ _ _ _ _ _ hb, hl, putCells_addressed]
  split <;> rfl

/-- The value of n bytes, written by the sequencer within a granule, is stored. -/
theorem stored_seqWrite (s : State) (g a n v : Nat) (h : ∀ i, i < n → (a + i) / 64 = a / 64) :
    Stored s (s.seqWrite g a (leBytes n v)) (.lsp g) a n v := by
  have hw := seqWrite_readByte s g a (leBytes n v) (by simpa using h)
  refine ⟨fun b => ?_, fun k b hk => by rw [hw, if_neg hk]⟩
  rw [hw, if_pos rfl]
  split
  · next hb =>
    have hi : b - a < (leBytes n v).length := by simp; omega
    have := byteAt_putBytes_in (s.store (.lsp g)).cells a (b - a) (leBytes n v) hi
    rwa [show a + (b - a) = b by omega, getElem_leBytes] at this
  · next hb => exact byteAt_putBytes_out _ _ _ _ (by simp; omega)

end Sys2Proof.Machine
end

/-!
PROOFS. What ends a stall (R62, R74, R85, R94, R235).
-/
section
namespace Sys2Proof.Machine

/-! ## Waits and full queues -/

/-- A wait whose condition has come about ends, and the core goes on after it (R94, R235). -/
theorem waitRelease_completes {s : State} {g : Gcn}
    (hover : (s.core g.toNat).seq.waitOver (s.core g.toNat).seq.cond = true)
    (hroom : (s.core g.toNat).seq.pc.toNat + 8 < 0x10000) :
    let q := (s.core g.toNat).seq
    Completes (.waitRelease g) s (fun t => SeqOnly (s.waitEnds g.toNat q.cond) t g ∧
      (t.core g.toNat).seq = { q with cond := .running, pc := q.pc + 8, ord := q.ord + 1 }) := by
  intro q
  let c := ((s.core g.toNat).withCond .running).advance 8
  have hc : c = { s.core g.toNat with seq := { q with cond := .running, pc := q.pc + 8, ord := q.ord + 1 } } :=
    advance_room _ 8 hroom
  refine ⟨(s.waitEnds g.toNat q.cond).setCore g.toNat c, ?_, seqOnly_setCore _ g c ?_, ?_⟩
  · show execWaitRelease g s = _
    simp only [execWaitRelease, hover, if_true]
    rfl
  · rw [core_waitEnds, hc]
  · rw [core_setCore, hc]

/-- Descriptors are validated by the slots alone. -/
theorem firstInvalid_congr {q q' : Seq} (h : q'.d = q.d) (ap : Nat) (l : List (BitVec 5 × Role × Bool)) :
    firstInvalid ap q' l = firstInvalid ap q l := by
  induction l with
  | nil => rfl
  | cons x t ih => simp only [firstInvalid, Seq.getD, h, ih]

@[simp] theorem enqueue_pc (c : Core) (i : EngineIssue) : (c.enqueue i).seq.pc = c.seq.pc := by cases i <;> rfl
@[simp] theorem enqueue_ord (c : Core) (i : EngineIssue) : (c.enqueue i).seq.ord = c.seq.ord := by cases i <;> rfl

/-- A valid command with an entry free in its queue, and no aperture change pending, is queued (R74, R76). -/
theorem engineIssue_free {s : State} {g : Nat} {i : EngineIssue} (hap : s.hrw.apPend = none)
    (hv : firstInvalid s.hrw.apSize (s.core g).seq i.roles = none) (hq : (s.core g).queueLen i.eng < queueDepth i.eng) :
    s.engineIssue g i = .core ((s.core g).enqueue i) := by
  have ha : s.apHeld g i = false := by simp [State.apHeld, hap]
  simp [State.engineIssue, ha, hv, Nat.not_le.2 hq]

/-- A command stalled on a full queue is issued again once the core runs (R74). -/
theorem exec_queueFullRelease {s : State} {g : Gcn} {i : EngineIssue} (h : (s.core g.toNat).seq.cond = .queueFull i) :
    exec (.queueFullRelease g) s = .next ((s.resumed g.toNat).finish g.toNat (wordBytes i.word)
      ((s.resumed g.toNat).engineIssue g.toNat i)) := by
  show execQueueFullRelease g s = _
  simp only [execQueueFullRelease, h]
  rfl

/-- A command stalled on a full queue is queued once an entry is free (R74). -/
theorem queueFullRelease_completes {s : State} {g : Gcn} {i : EngineIssue}
    (hcond : (s.core g.toNat).seq.cond = .queueFull i)
    (hroom : (s.core g.toNat).seq.pc.toNat + wordBytes i.word < 0x10000) (hap : s.hrw.apPend = none)
    (hv : firstInvalid s.hrw.apSize (s.core g.toNat).seq i.roles = none)
    (hq : (s.core g.toNat).queueLen i.eng < queueDepth i.eng) :
    Completes (.queueFullRelease g) s (fun t => CoreOnly s t g ∧
      t.core g.toNat =
        let d := Core.enqueue ((s.core g.toNat).withCond .running) i
        { d with seq := { d.seq with
          ord := (s.core g.toNat).seq.ord + 1
          pc := (s.core g.toNat).seq.pc + BitVec.ofNat 16 (wordBytes i.word) } }) := by
  have hi : (s.resumed g.toNat).engineIssue g.toNat i = .core (((s.core g.toNat).withCond .running).enqueue i) := by
    have hq' : ((s.core g.toNat).withCond .running).queueLen i.eng = (s.core g.toNat).queueLen i.eng := by
      cases i.eng <;> rfl
    have hv' := firstInvalid_congr (q := (s.core g.toNat).seq) (q' := ((s.core g.toNat).withCond .running).seq) rfl
      s.hrw.apSize i.roles
    rw [engineIssue_free (s := s.resumed g.toNat) hap, core_resumed]
    · rw [core_resumed]
      exact hv'.trans hv
    · rw [core_resumed, hq']
      exact hq
  let c := (((s.core g.toNat).withCond .running).enqueue i).advance (wordBytes i.word)
  have hc := advance_room (((s.core g.toNat).withCond .running).enqueue i) (wordBytes i.word)
    (by rw [enqueue_pc]; exact hroom)
  refine ⟨s.setCore g.toNat c, ?_, coreOnly_setCore s g c, ?_⟩
  · rw [exec_queueFullRelease hcond, hi, State.finish, State.resumed, setCore_setCore]
  · rw [core_setCore, show c = _ from hc]
    simp only [enqueue_pc, enqueue_ord]
    rfl

/-! ## Scalar accesses (R85) -/

theorem accFault_none {a n size : Nat} (ha : a % n = 0) (hs : a + n ≤ size) : accFault a n size = none := by
  simp [accFault, ha, Nat.not_lt.2 hs]

/-- An aligned access of 1, 2, 4, 8 or 64 bytes lies in one granule. -/
theorem aligned_in_granule {a n : Nat} (hn : n ∣ 64) (ha : a % n = 0) (i : Nat) (hi : i < n) : (a + i) / 64 = a / 64 := by
  obtain ⟨k, hk⟩ := hn
  obtain ⟨b, rfl⟩ := Nat.dvd_of_mod_eq_zero ha
  rw [hk, ← Nat.div_div_eq_div_mul, ← Nat.div_div_eq_div_mul, Nat.mul_div_cancel_left b (by omega),
    Nat.mul_add_div (by omega), Nat.div_eq_of_lt hi, Nat.add_zero]

/-- From s to t a stalled write of n bytes has been carried out on core g, which runs on after it. -/
def ReleasedWrite (s t : State) (g : Gcn) (a n v : Nat) : Prop :=
  let q := (s.core g.toNat).seq
  Stored s t (.lsp g.toNat) a n v ∧
    (t.core g.toNat).seq = { q with cond := .running, pc := q.pc + 8, ord := q.ord + 1 }

/-- A stalled write that the containment no longer holds is carried out. -/
theorem release_write {s : State} {g : Gcn} {acc : ScalarAccess} {w : Word0} {a n v : Nat}
    (hcond : (s.core g.toNat).seq.cond = .held acc w) (hroom : (s.core g.toNat).seq.pc.toNat + 8 < 0x10000)
    (hn : n ∣ 64) (ha : a % n = 0)
    (hacc : (s.resumed g.toNat).scalarAccess g.toNat acc w =
      .all ((s.resumed g.toNat).seqWrite g.toNat a (leBytes n v))) :
    Completes (.containedAccessRelease g) s (fun t => ReleasedWrite s t g a n v) := by
  let u := (s.resumed g.toNat).seqWrite g.toNat a (leBytes n v)
  obtain ⟨x, y, hu⟩ : ∃ x y, u.core g.toNat = { (s.resumed g.toNat).core g.toNat with lsp := x, marks := y } :=
    orderGran_core ..
  rw [core_resumed] at hu
  have hadv := advance_room (u.core g.toNat) 8 (by rw [hu]; exact hroom)
  have hsame : SameBytes u (u.setCore g.toNat ((u.core g.toNat).advance 8)) := sameBytes_setCore _ _ _ (by rw [hadv])
  obtain ⟨hin, hout⟩ := stored_seqWrite (s.resumed g.toNat) g.toNat a n v (aligned_in_granule hn ha)
  refine ⟨u.setCore g.toNat ((u.core g.toNat).advance 8), ?_, ⟨fun b => ?_, fun k b hk => ?_⟩, ?_⟩
  · rw [exec_containedAccessRelease hcond, hacc]
    rfl
  · rw [hsame, hin, readByte_resumed]
  · rw [hsame, hout k b hk, readByte_resumed]
  · rw [core_setCore, hadv, hu]
    rfl

/-- A store that nothing holds is carried out. -/
theorem scalarAccess_store {s : State} {g n : Nat} {fromAddr : Bool} {w : Word0}
    (hf : accFault ((s.core g).accAddr w) n lspSize = none) (hh : s.storeHeld g ((s.core g).accAddr w / 64) = false) :
    s.scalarAccess g (.store n fromAddr) w = .all (s.seqWrite g ((s.core g).accAddr w)
      (leBytes n (if fromAddr then ((s.core g).seq.getA w.fb).toNat else ((s.core g).seq.getS w.fb).toNat))) := by
  simp [State.scalarAccess, hf, hh]

theorem scalarAccess_dst {s : State} {g : Nat} {w : Word0}
    (hf : accFault ((s.core g).accAddr w) 64 lspSize = none) (hh : s.storeHeld g ((s.core g).accAddr w / 64) = false) :
    s.scalarAccess g .dst w = .all (s.seqWrite g ((s.core g).accAddr w) (leBytes 64 ((s.core g).seq.getD w.fb).toNat)) := by
  simp [State.scalarAccess, hf, hh]

/-- A read of a verified granule that comes without poison goes on with its value (R84, R85). -/
theorem seqRead_clear {s : State} {g : Nat} {l : Loc} {a n : Nat} {acc : ScalarAccess} {w : Word0}
    {k : State → Nat → SeqRes} (hm : s.marksOf l (a / 64) = []) :
    let u := s.touch l (a / 64)
    let r := u.reader g none (u.core g).seq.ord false
    u.seenBad r 0 l (a / 64) = false → s.seqRead g l a n acc w k = k u (u.seenLE r l a n) := by
  intro u r hb
  simp only [State.seqRead, hm, ne_eq, not_true_eq_false, if_false]
  rw [if_neg (by rw [hb]; decide)]

/-- A stalled read whose granule is verified and not poisoned writes its register, with the value as the read gets it. -/
theorem release_read {s : State} {g : Gcn} {acc : ScalarAccess} {w : Word0} {l : Loc} {a n : Nat}
    {f : Nat → Seq → Seq} {x : Nat → RegWrite}
    (hcond : (s.core g.toNat).seq.cond = .held acc w) (hroom : (s.core g.toNat).seq.pc.toNat + 8 < 0x10000)
    (hacc : (s.resumed g.toNat).scalarAccess g.toNat acc w = (s.resumed g.toNat).seqRead g.toNat l a n acc w
      (fun t v => .all (t.setCore g.toNat ((t.core g.toNat).upd (f v)))))
    (hx : ∀ v q, (x v).From q (f v q))
    (hf : ∀ v q, f v q = { q with s := (f v q).s, a := (f v q).a, p := (f v q).p, d := (f v q).d })
    (hm : s.marksOf l (a / 64) = []) :
    let u := (s.resumed g.toNat).touch l (a / 64)
    let r := u.reader g.toNat none (s.core g.toNat).seq.ord false
    u.seenBad r 0 l (a / 64) = false →
      Completes (.containedAccessRelease g) s
        (fun t => Retires u t g ((s.core g.toNat).seq.pc + 8) (x (u.seenLE r l a n))) := by
  intro u r hb
  obtain ⟨y, hu⟩ : ∃ y, u.core g.toNat = { (s.resumed g.toNat).core g.toNat with lsp := y } := (onlyFound_touch _ _ _).core _
  rw [core_resumed] at hu
  have hq : (u.core g.toNat).seq = { (s.core g.toNat).seq with cond := .running } := by rw [hu]; rfl
  have hr : u.reader g.toNat none (u.core g.toNat).seq.ord false = r := by rw [hq]
  have hread := seqRead_clear (g := g.toNat) (n := n) (acc := acc) (w := w)
    (k := fun t v => .all (t.setCore g.toNat ((t.core g.toNat).upd (f v))))
    ((marksOf_resumed s g.toNat l (a / 64)).trans hm)
    (by show u.seenBad (u.reader g.toNat none (u.core g.toNat).seq.ord false) 0 l (a / 64) = false; rw [hr]; exact hb)
  refine ⟨u.finish g.toNat 8 (.core ((u.core g.toNat).upd (f (u.seenLE r l a n)))), ?_, ?_⟩
  · rw [exec_containedAccessRelease hcond, hacc, hread]
    show Host.Outcome.next _ = _
    rw [finish_all_setCore]
    show _ = Host.Outcome.next (u.finish g.toNat 8 (.core ((u.core g.toNat).upd (f (u.seenLE r l a n)))))
    rw [← hr]
  · have h := retires_upd (s := u) (g := g) (u.core g.toNat) rfl (f (u.seenLE r l a n)) 8 (x (u.seenLE r l a n))
      (by rw [hq]; exact hroom) (hx _ _) (hf _ _)
    rwa [hq] at h

/-! ## HIST_CLEAR -/

/-- With no drain being counted the matrix engine's bins are cleared at once (R62). -/
theorem histClear_matrix {s : State} {g : Gcn} (h : (s.core g.toNat).mat.counting = false) :
    exec (.histClear g .matrix) s = .next (s.setCore g.toNat
      { s.core g.toNat with mat := { (s.core g.toNat).mat with hist := (s.core g.toNat).mat.hist.clear } }) := by
  show execHistClear g .matrix s = _
  simp only [execHistClear, h, Hist.requestClear]
  rfl

theorem histClear_vector {s : State} {g : Gcn} (h : (s.core g.toNat).vec.counting = false) :
    exec (.histClear g .vector) s = .next (s.setCore g.toNat
      { s.core g.toNat with vec := { (s.core g.toNat).vec with hist := (s.core g.toNat).vec.hist.clear } }) := by
  show execHistClear g .vector s = _
  simp only [execHistClear, h, Hist.requestClear]
  rfl

/-! ## The claim -/

/-- Settles O16: each release is the instruction's own effect on the core once it runs again. -/
theorem stalledInstructionsGoOn : Obligations.StalledInstructionsGoOn := by
  unfold Obligations.StalledInstructionsGoOn
  intro s g c q addr loads
  refine ⟨waitRelease_completes, fun i => queueFullRelease_completes, ?store, ?dst, ?load, ?dld, fun h => ?_, fun h => ?_⟩
  case store =>
    intro n fromAddr w hcond hroom hn ha hs hh
    have hd : n ∣ 64 := by
      simp only [List.mem_cons, List.not_mem_nil, or_false] at hn
      obtain rfl | rfl | rfl | rfl := hn <;> decide
    refine release_write hcond hroom hd ha ((scalarAccess_store ?_ ?_).trans ?_)
    · rw [core_resumed]; exact accFault_none ha hs
    · rw [core_resumed, storeHeld_resumed]; exact hh
    · rw [core_resumed]; rfl
  case dst =>
    intro w hcond hroom ha hs hh
    refine release_write hcond hroom ⟨1, rfl⟩ ha ((scalarAccess_dst ?_ ?_).trans ?_)
    · rw [core_resumed]; exact accFault_none ha hs
    · rw [core_resumed, storeHeld_resumed]; exact hh
    · rw [core_resumed]; rfl
  case load =>
    intro n sg quay toA w hcond _ hroom ha hs hm hb
    have hf : accFault (((s.resumed g.toNat).core g.toNat).accAddr w) n (if quay then quaySize else lspSize) = none := by
      rw [core_resumed]; exact accFault_none ha hs
    refine release_read (n := n) (x := fun v => if toA then .a w.fd (BitVec.ofNat 40 v) else .s w.fd (extend n sg v))
      (f := fun v q => if toA then q.setA w.fd (BitVec.ofNat 40 v) else q.setS w.fd (extend n sg v))
      hcond hroom ?_ ?_ ?_ hm hb
    · simp only [State.scalarAccess, hf]
      rw [core_resumed]
      rfl
    · cases toA
      · exact fun v q => From_setS q w.fd _
      · exact fun v q => From_setA q w.fd _
    · cases toA
      · exact fun v q => setS_files q w.fd _
      · exact fun v q => rfl
  case dld =>
    intro w hcond hroom ha hs hm hb
    have hf : accFault (((s.resumed g.toNat).core g.toNat).accAddr w) 64 lspSize = none := by
      rw [core_resumed]; exact accFault_none ha hs
    refine release_read (n := 64) (x := fun v => .d w.fd (BitVec.ofNat 512 v))
      (f := fun v q => q.setD w.fd (BitVec.ofNat 512 v)) hcond hroom ?_
      (fun v q => From_setD q w.fd _) (fun v q => rfl) hm hb
    simp only [State.scalarAccess, hf]
    rw [core_resumed]
    rfl
  · exact ⟨_, histClear_matrix h, coreOnly_setCore s g _, core_setCore ..⟩
  · exact ⟨_, histClear_vector h, coreOnly_setCore s g _, core_setCore ..⟩

end Sys2Proof.Machine
end

/-!
PROOFS. The results of one row of an MTILE: what each column's sum comes to, and the bytes that the row leaves in the
command's buffer (R43, R44, R46, R47, R125).
-/
section
namespace Sys2Proof.Machine

/-! ## The value of one column -/

theorem foldl_add_eq_sum {α : Type} (f : α → Int) (l : List α) (p : Int) :
    l.foldl (fun a x => a + f x) p = p + (l.map f).sum := by
  induction l generalizing p with
  | nil => simp
  | cons x t ih => simp only [List.foldl_cons, ih, List.map_cons, List.sum_cons, Int.add_assoc]

/-- The INT32 partial sum is the exact sum, clamped (R44). -/
theorem partialSum_int {prods : List (Num × BitVec 5)} {p : Num} (hp : p.scaled.2 = 0)
    (hprods : ∀ x ∈ prods, x.1.scaled.2 = 0) :
    (partialSum true prods p).val =
      Num.ofInt (max (-2147483648) (min 2147483647 (p.scaled.1 + (prods.map (fun x => x.1.scaled.1)).sum))) := by
  have hmap : (prods.map Prod.fst).map (fun x => x.scaled.1 * 2 ^ x.scaled.2.toNat) = prods.map (fun x => x.1.scaled.1) := by
    rw [List.map_map]
    exact List.map_congr_left (fun x hx => by simp [hprods x hx])
  have hclamp : ∀ t : Int, (if t < -2147483648 then (-2147483648, true)
      else if 2147483647 < t then (2147483647, true) else (t, false) : Int × Bool).1 =
        max (-2147483648) (min 2147483647 t) := by
    intro t
    split_ifs <;> simp only <;> omega
  simp only [partialSum, if_true, chunkAddInt, hp, foldl_add_eq_sum, hmap, hclamp]
  simp

theorem mapIdx_eq_map_range {α β : Type} (f : Nat → α → β) (d : α) (l : List α) :
    l.mapIdx f = (List.range l.length).map (fun k => f k (l.getD k d)) := by
  refine List.ext_getElem (by simp) (fun i h _ => ?_)
  simp only [List.length_mapIdx] at h
  simp [h]

/-- The value that row m's access to an operand finds at column i. -/
def State.rowNum (s : State) (g : Nat) (x : MExec) (t : MTileOp) (m : Nat) (o : RowOperand) (i : Nat) : Num :=
  (readElem (s.rowView g x t m o) (t.desc o) [i, m, 0, 0, 0]).num (dFmt (t.desc o))

/-- Column i's sum over row m: the row's activations by the column's weights, added to the input partial sum. -/
def State.rowAcc (s : State) (g : Nat) (x : MExec) (t : MTileOp) (m i : Nat) : Num :=
  (partialSum (intAcc x.tile t.dact)
    (((List.range (lExt t.dact 0)).map (s.rowNum g x t m .act)).mapIdx (fun k a => mulNum a (x.tile.weight t.tr k i).1))
    (if t.init then .zero else s.rowNum g x t m .sum i)).val

/-- Column i's result of row m: its sum, with the epilogue on the last chunk (R46). -/
def State.rowRes (s : State) (g : Nat) (x : MExec) (t : MTileOp) (m i : Nat) : Num :=
  if t.last = true ∧ t.epi ≠ 0 then (epilogue t.epi (s.rowAcc g x t m i) (s.rowNum g x t m .epi i)).val
  else s.rowAcc g x t m i

/-- What the engine computes for a column is that result. -/
theorem rowElem_val (s : State) (g : Nat) (x : MExec) (t : MTileOp) (m i : Nat) :
    (rowElem (s.rowView g x t m) t x.tile ((rowIx t.dact m).map (readElem (s.rowView g x t m .act) t.dact)) m i).1.val =
      s.rowRes g x t m i := by
  have hacts : ((rowIx t.dact m).map (readElem (s.rowView g x t m .act) t.dact)).mapIdx
        (fun k e => mulNum (e.num (dFmt t.dact)) (x.tile.weight t.tr k i).1) =
      ((List.range (lExt t.dact 0)).map (s.rowNum g x t m .act)).mapIdx (fun k a => mulNum a (x.tile.weight t.tr k i).1) := by
    refine List.ext_getElem (by simp [rowIx]) (fun k _ _ => ?_)
    simp [rowIx, State.rowNum, MTileOp.desc]
  simp only [rowElem, hacts]
  unfold State.rowRes
  by_cases h : t.last = true ∧ t.epi ≠ 0
  · simp only [h, and_self, ne_eq, not_false_eq_true, decide_true, Bool.and_self, if_true]
    rfl
  · have h' : (t.last && decide (t.epi ≠ 0)) = false := by simpa using h
    simp only [h', h, if_false]
    rfl

/-! ## The bytes of a conversion -/

theorem rowBytesOf_append (a b : List PendByte) : rowBytesOf (a ++ b) = rowBytesOf a ++ rowBytesOf b := List.map_append

/-- An element to write, without what its bytes do not show: its poison and marks. -/
def Placed.bare (p : Placed) : Placed := { p with bad := false, marks := [] }

def WElem.bare (x : WElem) : WElem := { x with bad := false, marks := [] }

theorem packedByte_bare (d : Desc) (ws : List WElem) (a : Nat) (w : WElem) :
    (packedByte d (ws.map WElem.bare) a w.bare).byte = (packedByte d ws a w).byte := by
  simp only [packedByte, List.filter_map, List.foldl_map]
  rfl

/-- The bytes of element writes come from their indices and codes. -/
theorem rowBytesOf_bytesOfWrites_bare (d : Desc) (ws : List WElem) :
    rowBytesOf (bytesOfWrites d (ws.map WElem.bare)) = rowBytesOf (bytesOfWrites d ws) := by
  simp only [rowBytesOf, bytesOfWrites, List.map_flatMap, List.flatMap_map]
  congr 1
  funext w
  split
  · simp only [List.map_map]
    exact List.map_congr_left (fun a _ => Prod.ext rfl (packedByte_bare d ws a w))
  · simp only [List.map_map]
    rfl

theorem byBlock_bare (l : List Placed) : byBlock (l.map Placed.bare) = (byBlock l).map (List.map Placed.bare) := by
  induction l with
  | nil => rfl
  | cons x t ih =>
    simp only [List.map_cons, byBlock, ih]
    cases byBlock t with
    | nil => rfl
    | cons b r =>
      cases b with
      | nil => rfl
      | cons y b =>
        simp only [List.map_cons]
        rw [apply_ite (List.map (List.map Placed.bare))]
        rfl

theorem foldl_add_els (l : List Written) (a : Written) : (l.foldl Written.add a).els = a.els ++ l.flatMap (·.els) := by
  induction l generalizing a with
  | nil => simp
  | cons x t ih => simp [ih, Written.add]

theorem foldl_add_scale (l : List Written) (a : Written) :
    (l.foldl Written.add a).scale = a.scale ++ l.flatMap (·.scale) := by
  induction l generalizing a with
  | nil => simp
  | cons x t ih => simp [ih, Written.add]

/-- The scale byte and the codes of a block. -/
def blockCodes (seed : Word64) (d : Desc) (b : List Placed) : Byte × List Conv :=
  convertBlock (dFmt d) (dRnd d) (dOvf d)
    (fun i => match b[i]? with | some x => destRand seed d x.ix | none => 0) (b.map (·.val))

theorem blockCodes_bare (seed : Word64) (d : Desc) (b : List Placed) :
    blockCodes seed d (b.map Placed.bare) = blockCodes seed d b := by
  unfold blockCodes
  congr 1
  · funext i
    rw [List.getElem?_map]
    cases b[i]? <;> rfl
  · rw [List.map_map]
    rfl

theorem convertScaled_els (seed : Word64) (d : Desc) (b : List Placed) :
    (convertScaled seed d b).els.map WElem.bare =
      List.zipWith (fun x c => ⟨x.ix, c.code, false, []⟩) b (blockCodes seed d b).2 := by
  rw [show (convertScaled seed d b).els = List.zipWith _ b (blockCodes seed d b).2 from rfl, List.map_zipWith]
  rfl

theorem convertScaled_els_bare (seed : Word64) (d : Desc) (b : List Placed) :
    (convertScaled seed d (b.map Placed.bare)).els.map WElem.bare = (convertScaled seed d b).els.map WElem.bare := by
  rw [convertScaled_els, convertScaled_els, blockCodes_bare, List.zipWith_map_left]
  rfl

theorem convertScaled_scale (seed : Word64) (d : Desc) (b : List Placed) :
    rowBytesOf (convertScaled seed d b).scale =
      (b.head?.map (fun x => (scaleAddr d x.ix, (blockCodes seed d b).1))).toList := by
  cases b <;> rfl

theorem convertScaled_scale_bare (seed : Word64) (d : Desc) (b : List Placed) :
    rowBytesOf (convertScaled seed d (b.map Placed.bare)).scale = rowBytesOf (convertScaled seed d b).scale := by
  rw [convertScaled_scale, convertScaled_scale, blockCodes_bare, List.head?_map, Option.map_map]
  rfl

theorem convertPlaced_els_bare (seed : Word64) (d : Desc) (l : List Placed) :
    (convertPlaced seed d (l.map Placed.bare)).els.map WElem.bare = (convertPlaced seed d l).els.map WElem.bare := by
  unfold convertPlaced
  split
  · simp only [foldl_add_els, List.map_append, List.map_flatMap, byBlock_bare, List.flatMap_map, convertScaled_els_bare]
  · simp only [foldl_add_els, List.map_append, List.map_flatMap, List.flatMap_map]
    rfl

theorem convertPlaced_scale_bare (seed : Word64) (d : Desc) (l : List Placed) :
    rowBytesOf (convertPlaced seed d (l.map Placed.bare)).scale = rowBytesOf (convertPlaced seed d l).scale := by
  have hscaled (b : List Placed) := convertScaled_scale_bare seed d b
  simp only [rowBytesOf] at hscaled ⊢
  unfold convertPlaced
  split
  · simp only [foldl_add_scale, List.map_append, List.map_flatMap, byBlock_bare, List.flatMap_map, hscaled]
  · simp only [foldl_add_scale, List.map_append, List.map_flatMap, List.flatMap_map]
    rfl

/-- The bytes that a conversion stores come from its elements' indices and values. -/
theorem rowBytesOf_convertPlaced_bare (seed : Word64) (d : Desc) (l : List Placed) :
    rowBytesOf ((convertPlaced seed d (l.map Placed.bare)).bytes d) = rowBytesOf ((convertPlaced seed d l).bytes d) := by
  simp only [Written.bytes, rowBytesOf_append, convertPlaced_scale_bare]
  rw [← rowBytesOf_bytesOfWrites_bare, convertPlaced_els_bare, rowBytesOf_bytesOfWrites_bare]

/-! ## The bytes of a row -/

/-- What row m's results leave in the buffer, of the columns' results `res`. -/
def rowBytesFor (x : MExec) (t : MTileOp) (m : Nat) (res : Nat → Num) : List PendByte :=
  let cols := List.range (x.tile.nt t.tr)
  if t.last then (convertPlaced x.cmd.seed t.dout (cols.map (fun i => ⟨[i, m, 0, 0, 0], res i, false, []⟩))).bytes t.dout
  else bytesOfWrites t.dps (cols.map (fun i => ⟨[i, m, 0, 0, 0], accCode (intAcc x.tile t.dact) (res i), false, []⟩))

theorem rowBytesOf_rowOut (s : State) (g : Nat) (x : MExec) (t : MTileOp) (m : Nat) (own : List Nat) :
    rowBytesOf (rowOut s g x t m own).bytes = rowBytesOf (rowBytesFor x t m (s.rowRes g x t m)) := by
  let placed : List Placed := ((List.range (x.tile.nt t.tr)).map (rowElem (s.rowView g x t m) t x.tile
    ((rowIx t.dact m).map (readElem (s.rowView g x t m .act) t.dact)) m)).mapIdx
      (fun n r => ⟨[n, m, 0, 0, 0], r.1.val, r.2.1, setUnion own r.2.2⟩)
  have hbare : placed.map Placed.bare =
      (List.range (x.tile.nt t.tr)).map (fun i => ⟨[i, m, 0, 0, 0], s.rowRes g x t m i, false, []⟩) := by
    refine List.ext_getElem (by simp [placed]) (fun k _ _ => ?_)
    simp [placed, Placed.bare, rowElem_val]
  unfold rowBytesFor
  by_cases hl : t.last = true
  · have h : (rowOut s g x t m own).bytes = (convertPlaced x.cmd.seed t.dout placed).bytes t.dout := by
      simp only [rowOut, MTileOp.out, hl, if_true]
      rfl
    rw [h, if_pos hl, ← hbare, rowBytesOf_convertPlaced_bare]
  · have h : (rowOut s g x t m own).bytes = bytesOfWrites t.dps
        (placed.map (fun p => ⟨p.ix, accCode (intAcc x.tile t.dact) p.val, p.bad, p.marks⟩)) ++ [] := by
      simp only [rowOut, MTileOp.out, hl, Bool.false_eq_true, if_false]
      rfl
    have hcodes : (placed.map (fun p => (⟨p.ix, accCode (intAcc x.tile t.dact) p.val, p.bad, p.marks⟩ : WElem))).map
          WElem.bare =
        (placed.map Placed.bare).map (fun p => ⟨p.ix, accCode (intAcc x.tile t.dact) p.val, false, []⟩) := by
      simp only [List.map_map]
      rfl
    rw [h, if_neg hl, List.append_nil, ← rowBytesOf_bytesOfWrites_bare, hcodes, hbare, List.map_map]
    rfl

end Sys2Proof.Machine
end

/-!
PROOFS. Rules of the matrix engine's state: commands in execution, streaming one row, draining one granule, and what a
drain of an MTILE comes to (R120, R126, R133, R134, R141).
-/
section
namespace Sys2Proof.Machine

/-! ## Commands in execution -/

@[simp] theorem core_setMat (s : State) (g : Nat) (m : Mat) : (s.setMat g m).core g = { s.core g with mat := m } :=
  core_setCore s g _

/-- The command found by a number has it. -/
theorem cmd_n_of_findExec {m : Mat} {n : Word32} {x : MExec} (h : m.findExec n = some x) : x.cmd.n = n := by
  simpa using List.find?_some h

/-- A command found by its number is found as it was last put. -/
theorem findExec_setExec {m : Mat} {n : Word32} {x y : MExec} (h : m.findExec n = some x) (hy : y.cmd = x.cmd) :
    (m.setExec y).findExec n = some y := by
  replace hy : y.cmd.n = n := by rw [hy, cmd_n_of_findExec h]
  unfold Mat.findExec at h
  simp only [Mat.findExec, Mat.setExec]
  generalize m.exec = l at h
  induction l with
  | nil => simp at h
  | cons z t ih =>
    by_cases hz : z.cmd.n = n
    · simp [hz, hy]
    · have hzy : z.cmd.n ≠ y.cmd.n := hy ▸ hz
      rw [List.find?_cons_of_neg (by simpa using hz)] at h
      simpa [hz, hzy] using ih h

/-- A part that is not frozen stays so with a command put that is not. -/
theorem frozenAt_setExec {m : Mat} {q : Lane4} {y : MExec} (h : m.frozenAt q = false) (hy : y.frz = none) :
    (m.setExec y).frozenAt q = false := by
  simp only [Mat.frozenAt, Mat.part, Mat.setExec, List.any_eq_false, List.mem_filter, List.mem_map, and_imp,
    forall_exists_index] at h ⊢
  rintro z x hx rfl hz
  by_cases e : x.cmd.n = y.cmd.n
  · simp [e, hy]
  · simp only [e, if_false] at hz ⊢
    exact h x hx hz

/-! ## Streaming a row -/

theorem onlyFound_touchDesc (s : State) (g : Nat) (d : Desc) (ixs : List (List Nat)) : OnlyFound s (s.touchDesc g d ixs) :=
  onlyFound_foldl _ (fun t _ => onlyFound_touch t _ _) _ s

/-- Row m's accesses have found the errors of what they read. -/
def State.rowTouched (s : State) (g : Nat) (x : MExec) (t : MTileOp) (m : Nat) : State :=
  let s1 := s.touchDesc g t.dact (rowIx t.dact m)
  let s2 := if t.init then s1 else s1.touchDesc g t.dps (rowIxN (x.tile.nt t.tr) m)
  if t.epi = 0 then s2 else s2.touchDesc g t.depi (rowIxN (x.tile.nt t.tr) m)

theorem onlyFound_rowTouched (s : State) (g : Nat) (x : MExec) (t : MTileOp) (m : Nat) :
    OnlyFound s (s.rowTouched g x t m) := by
  have hite {c : Prop} [Decidable c] {u v : State} (hu : OnlyFound s u) (hv : OnlyFound s v) :
      OnlyFound s (if c then u else v) := by
    split <;> assumption
  have h1 := onlyFound_touchDesc s g t.dact (rowIx t.dact m)
  have h2 := hite (c := t.init) h1 (h1.trans (onlyFound_touchDesc _ g t.dps (rowIxN (x.tile.nt t.tr) m)))
  exact hite h2 (h2.trans (onlyFound_touchDesc _ g t.depi (rowIxN (x.tile.nt t.tr) m)))

/-- Logging a row changes the drain log and what it counts. -/
theorem logRow_only (m : Mat) (x : MExec) (row : Nat) (r : RowOut) :
    ∃ dlog satSeen firstSat, m.logRow x row r = { m with dlog := dlog, satSeen := satSeen, firstSat := firstSat } := by
  unfold Mat.logRow
  dsimp only
  split
  · exact ⟨_, _, _, rfl⟩
  · exact ⟨_, _, _, rfl⟩

/-- The check tile whose rows mark what they write; in J3 repeat mode there is none (R421). -/
def Core.ownCheck (c : Core) (x : MExec) : List Nat := if c.j3 then [] else [x.chk + x.row / arrDim x.quad]

/-- A command with its next row streamed: the row's bytes join those that it has to write (R125). -/
theorem streamRow_snd (s : State) (g : Nat) (x : MExec) (t : MTileOp) :
    let u := s.rowTouched g x t x.row
    let r := rowOut u g x t x.row ((u.core g).ownCheck x)
    (s.streamRow g x t false).2 = { x with row := x.row + 1, wbuf := x.wbuf ++ r.bytes, psn := x.psn || r.bad } := rfl

/-- Streaming a row stores the core once, with the row logged, the command put and the row noted in its check. -/
theorem streamRow_fst (s : State) (g : Nat) (x : MExec) (t : MTileOp) :
    let c := (s.rowTouched g x t x.row).core g
    let r := rowOut (s.rowTouched g x t x.row) g x t x.row (c.ownCheck x)
    ∃ flags hist protect now sums reads,
      (s.streamRow g x t false).1 = (s.rowTouched g x t x.row).setCore g
        (({ c with mat := { (c.mat.logRow x x.row r).setExec (s.streamRow g x t false).2 with
          flags := flags, hist := hist, protect := protect } }).noteRow x t x.row now sums reads) :=
  ⟨_, _, _, _, _, _, rfl⟩

/-- Of its core streaming a row puts the command, and changes besides only the checks, what they protect, what the
scratchpad has found, flags, histogram and drain log. -/
theorem streamRow_core (s : State) (g : Nat) (x : MExec) (t : MTileOp) :
    ∃ lsp checks flags hist protect dlog satSeen firstSat,
      (s.streamRow g x t false).1.core g =
        { s.core g with
          lsp := lsp, checks := checks
          mat := { (s.core g).mat.setExec (s.streamRow g x t false).2 with
            flags := flags, hist := hist, protect := protect, dlog := dlog, satSeen := satSeen, firstSat := firstSat } } := by
  obtain ⟨lsp, hlsp⟩ := (onlyFound_rowTouched s g x t x.row).core g
  obtain ⟨flags, hist, protect, now, sums, reads, h⟩ := streamRow_fst s g x t
  rw [h, core_setCore]
  generalize rowOut _ g x t x.row _ = r
  obtain ⟨dlog, satSeen, firstSat, hlog⟩ := logRow_only ((s.rowTouched g x t x.row).core g).mat x x.row r
  rw [hlog, hlsp]
  exact ⟨_, _, _, _, _, _, _, _, rfl⟩

/-- Streaming a row changes no byte. -/
theorem sameBytes_streamRow (s : State) (g : Nat) (x : MExec) (t : MTileOp) : SameBytes s (s.streamRow g x t false).1 := by
  obtain ⟨flags, hist, protect, now, sums, reads, h⟩ := streamRow_fst s g x t
  intro k b
  rw [h]
  refine (sameBytes_setCore _ g _ ?_ k b).trans ?_
  · rfl
  · rw [State.readByte, (onlyFound_rowTouched s g x t x.row).cells, State.readByte]

/-! ## Draining a granule -/

@[simp] theorem store_setMat (s : State) (g : Nat) (m : Mat) (l : Loc) : (s.setMat g m).store l = s.store l :=
  store_setCore s g { s.core g with mat := m } rfl l

theorem sameBytes_setMat (s : State) (g : Nat) (m : Mat) : SameBytes s (s.setMat g m) :=
  fun k b => by rw [State.readByte, store_setMat, State.readByte]

/-- A command frozen changes that command alone. -/
theorem setMat_frozen {s : State} {g : Gcn} {n : Word32} {x : MExec} {f : Freeze}
    (h : (s.core g.toNat).mat.findExec n = some x) :
    let t := s.setMat g.toNat ((s.core g.toNat).mat.setExec { x with frz := some f })
    CoreOnly s t g ∧ SameBytes s t ∧ (t.core g.toNat).mat.findExec n = some { x with frz := some f } := by
  refine ⟨coreOnly_setCore s g _, sameBytes_setMat s g.toNat _, ?_⟩
  rw [core_setMat]
  exact findExec_setExec h rfl

/-- The state once a complete granule of command x, held by nothing, is written (R120). -/
def State.granWritten (s : State) (g : Nat) (x : MExec) (gran : Nat) : State :=
  let u := s.writePendGran (s.core g).op (.engine g .matrix x.cmd.n) (.lsp g) gran (x.pendIn gran)
  u.setMat g ((u.core g).mat.setExec { x with wbuf := x.wbuf.filter (fun b => b.addr / 64 ≠ gran) })

/-- A protected granule freezes the command that drains it (R133, R141). -/
theorem drainGran_protected {s : State} {g : Nat} {x : MExec} {gran : Nat} (h : (s.core g).drainProtected x gran = true) :
    s.drainGran g x gran = s.setMat g ((s.core g).mat.setExec { x with frz := some (.held gran) }) := by
  rw [State.drainGran, if_pos h]

/-- Behind an earlier command's write a granule waits its turn (R126). -/
theorem drainGran_behind {s : State} {g : Nat} {x : MExec} {gran : Nat} (hp : (s.core g).drainProtected x gran = false)
    (hb : (s.core g).mat.behind x gran = true) : s.drainGran g x gran = s := by
  simp [State.drainGran, hp, hb]

theorem drainGran_writes {s : State} {g : Nat} {x : MExec} {gran : Nat} (hp : (s.core g).drainProtected x gran = false)
    (hb : (s.core g).mat.behind x gran = false) : s.drainGran g x gran = s.granWritten g x gran := by
  simp only [State.drainGran, hp, hb, Bool.false_eq_true, if_false]
  rfl

/-- The command has the granule's bytes no longer to write. -/
theorem granWritten_findExec {s : State} {g : Nat} {n : Word32} {x : MExec} (h : (s.core g).mat.findExec n = some x)
    (gran : Nat) : ((s.granWritten g x gran).core g).mat.findExec n =
      some { x with wbuf := x.wbuf.filter (fun b => b.addr / 64 ≠ gran) } := by
  obtain ⟨lsp, marks, hc⟩ := orderGran_core s (s.core g).op (.engine g .matrix x.cmd.n) none (.lsp g) gran
    ((x.pendIn gran).map (fun b => (b.addr, b.byte))) ((x.pendIn gran).any (·.poison))
    ((x.pendIn gran).foldl (fun m b => setUnion m b.marks) []) g
  rw [State.granWritten, core_setMat, State.writePendGran, hc]
  exact findExec_setExec h rfl

/-- The write stores the granule's pending bytes that no other party's write covers, and no other (R226). -/
theorem granWritten_cells (s : State) (g : Nat) (x : MExec) (gran : Nat) (k : Loc) :
    ((s.granWritten g x gran).store k).cells =
      if k = .lsp g then putCells (s.store (.lsp g)).cells (rowBytesOf (s.drainBytes g x gran)) else (s.store k).cells := by
  have hb : ∀ y ∈ (x.pendIn gran).map (fun b => (b.addr, b.byte)), y.1 / 64 = gran := by
    simp only [MExec.pendIn, List.mem_map, List.mem_filter, decide_eq_true_eq]
    rintro y ⟨z, ⟨_, hz⟩, rfl⟩
    exact hz
  rw [State.granWritten, store_setMat, State.writePendGran, orderGran_cells _ _ _ _ _ _ _ _ _ _ hb,
    List.filter_map]
  rfl

/-- The write leaves every byte outside its granule as it was. -/
theorem granWritten_readByte {s : State} {g : Nat} {x : MExec} {gran : Nat} {k : Loc} {b : Nat}
    (h : k = .lsp g → b / 64 ≠ gran) : (s.granWritten g x gran).readByte k b = s.readByte k b := by
  rw [State.readByte, granWritten_cells]
  split
  · next hk =>
    subst hk
    refine byteAt_putCells_out _ _ _ (fun y hy e => h rfl ?_)
    simp only [rowBytesOf, State.drainBytes, MExec.pendIn, List.mem_map, List.mem_filter, decide_eq_true_eq] at hy
    obtain ⟨z, ⟨⟨_, hz⟩, _⟩, rfl⟩ := hy
    rw [← e]
    exact hz
  · rfl

/-! ## MATRIX_DRAIN_WRITE -/

section
variable {s : State} {g : Nat} {x : MExec} {t : MTileOp} (k : Nat)

/-- A complete granule is drained before a row is streamed. -/
theorem drainLoop_drains {gran : Nat} (hc : x.complete t = some gran) : drainLoop g t (k + 1) s x = s.drainGran g x gran := by
  simp only [drainLoop, hc]

theorem drainLoop_streamed (hc : x.complete t = none) (hr : t.rows ≤ x.row) : drainLoop g t (k + 1) s x = s := by
  simp only [drainLoop, hc, hr, if_true]

/-- A row that must freeze freezes its command (R126, R133, R142). -/
theorem drainLoop_freezes {f : Freeze} (hc : x.complete t = none) (hr : x.row < t.rows)
    (hf : s.rowFreeze g x t x.row = some f) :
    drainLoop g t (k + 1) s x = s.setMat g ((s.core g).mat.setExec { x with frz := some f }) := by
  simp only [drainLoop, hc, Nat.not_le.2 hr, if_false, hf]

theorem drainLoop_streams (hc : x.complete t = none) (hr : x.row < t.rows) (hf : s.rowFreeze g x t x.row = none) :
    drainLoop g t (k + 1) s x = drainLoop g t k (s.streamRow g x t false).1 (s.streamRow g x t false).2 := by
  simp only [drainLoop, hc, Nat.not_le.2 hr, if_false, hf]

end

/-- A row streamed is one row less: fuel for every row still to stream is enough. -/
theorem drainLoop_succ (g : Nat) (t : MTileOp) (k : Nat) (s : State) (x : MExec) (h : t.rows - x.row < k) :
    drainLoop g t (k + 1) s x = drainLoop g t k s x := by
  induction k generalizing s x with
  | zero => omega
  | succ k ih =>
    cases hc : x.complete t with
    | some gran => rw [drainLoop_drains _ hc, drainLoop_drains _ hc]
    | none =>
      rcases Nat.lt_or_ge x.row t.rows with hr | hr
      · cases hf : s.rowFreeze g x t x.row with
        | some f => rw [drainLoop_freezes _ hc hr hf, drainLoop_freezes _ hc hr hf]
        | none =>
          rw [drainLoop_streams _ hc hr hf, drainLoop_streams _ hc hr hf]
          exact ih _ _ (by rw [streamRow_snd]; dsimp only; omega)
      · rw [drainLoop_streamed _ hc hr, drainLoop_streamed _ hc hr]

section
variable {s : State} {g : Nat} {n : Word32} {x : MExec} {t : MTileOp}
  (hx : (s.core g).mat.findExec n = some x) (ht : x.cmd.op = .mtile t)
include hx ht

/-- A frozen command drains nothing. -/
theorem matDrain_frozen (j : Repetition) (hf : x.frz.isSome = true) : s.matDrain g n j = s := by
  simp [State.matDrain, hx, ht, hf]

/-- A frozen array drains only what the frozen command waits for (R126, R134). -/
theorem matDrain_frozenAt (j : Repetition) (hf : x.frz = none) (ha : (s.core g).mat.frozenAt x.cmd.q = true) :
    s.matDrain g n j = match (s.core g).awaited g x with | some k => s.drainGran g x k | none => s := by
  simp only [State.matDrain, hx, ht, hf, ha]
  rfl

variable (hf : x.frz = none) (ha : (s.core g).mat.frozenAt x.cmd.q = false) (hon : (s.core g).mat.on = true)
include hf ha hon

/-- A complete granule is drained before anything else. -/
theorem matDrain_complete (j : Repetition) {gran : Nat} (hc : x.complete t = some gran) :
    s.matDrain g n j = s.drainGran g x gran := by
  simp only [State.matDrain, hx, ht, hf, ha, hon]
  cases (s.core g).j3
  · simpa using drainLoop_drains t.rows hc
  · simp [State.drainJ3, hc]

/-- With no granule complete and no row to stream there is nothing to drain. -/
theorem matDrain_streamed (j : Repetition) (hc : x.complete t = none) (hr : t.rows ≤ x.row) : s.matDrain g n j = s := by
  simp only [State.matDrain, hx, ht, hf, ha, hon]
  cases (s.core g).j3
  · simpa using drainLoop_streamed t.rows hc hr
  · simp [State.drainJ3, hc, hr]

/-- Outside J3 repeat mode rows are streamed until a granule is complete. -/
theorem matDrain_loop (j : Repetition) (hj : (s.core g).j3 = false) :
    s.matDrain g n j = drainLoop g t (t.rows + 1) s x := by
  simp [State.matDrain, hx, ht, hf, ha, hon, hj]

end

section
variable {s : State} {g : Nat} {n : Word32} {x : MExec} {t : MTileOp}

theorem streamRow_findExec (hx : (s.core g).mat.findExec n = some x) :
    ((s.streamRow g x t false).1.core g).mat.findExec n = some (s.streamRow g x t false).2 := by
  obtain ⟨lsp, checks, flags, hist, protect, dlog, satSeen, firstSat, h⟩ := streamRow_core s g x t
  rw [h]
  exact findExec_setExec hx rfl

/-- Where a row can be streamed, draining is draining from the state with that row streamed. -/
theorem matDrain_streams (hx : (s.core g).mat.findExec n = some x) (ht : x.cmd.op = .mtile t) (hf : x.frz = none)
    (ha : (s.core g).mat.frozenAt x.cmd.q = false) (hon : (s.core g).mat.on = true) (j : Repetition)
    (hj : (s.core g).j3 = false) (hc : x.complete t = none) (hr : x.row < t.rows)
    (hrow : s.rowFreeze g x t x.row = none) : s.matDrain g n j = (s.streamRow g x t false).1.matDrain g n j := by
  obtain ⟨lsp, checks, flags, hist, protect, dlog, satSeen, firstSat, h⟩ := streamRow_core s g x t
  have ha' : ((s.streamRow g x t false).1.core g).mat.frozenAt (s.streamRow g x t false).2.cmd.q = false := by
    rw [h]
    exact frozenAt_setExec ha hf
  rw [matDrain_loop hx ht hf ha hon j hj, drainLoop_streams t.rows hc hr hrow,
    matDrain_loop (streamRow_findExec hx) ht hf ha' (by rw [h]; exact hon) j (by rw [h]; exact hj),
    drainLoop_succ _ _ _ _ _ (by rw [streamRow_snd]; dsimp only; omega)]

end

/-! ## The claim -/

/-- The streamed row's bytes, of its columns' results, join what the command has to write (R47, R125). -/
theorem streamRow_bytes (s : State) (g : Nat) (x : MExec) (t : MTileOp) :
    rowBytesOf (s.streamRow g x t false).2.wbuf = rowBytesOf x.wbuf ++
      rowBytesOf (rowBytesFor x t x.row ((s.rowTouched g x t x.row).rowRes g x t x.row)) := by
  rw [streamRow_snd, rowBytesOf_append, rowBytesOf_rowOut]

/-- A column's INT32 sum is the exact sum of its products and the input partial sum, clamped (R44). -/
theorem rowAcc_int {s : State} {g : Nat} {x : MExec} {t : MTileOp} {m i : Nat} (hint : intAcc x.tile t.dact = true)
    {acts : List Num} (hacts : acts = (List.range (lExt t.dact 0)).map (s.rowNum g x t m .act))
    {p : Num} (hp : p = if t.init then .zero else s.rowNum g x t m .sum i) (hps : p.scaled.2 = 0)
    (hprods : ∀ k, k < acts.length → ((mulNum (acts.getD k .zero) (x.tile.weight t.tr k i).1).1).scaled.2 = 0) :
    s.rowAcc g x t m i = Num.ofInt (max (-2147483648) (min 2147483647 (p.scaled.1 +
      ((List.range acts.length).map (fun k =>
        ((mulNum (acts.getD k .zero) (x.tile.weight t.tr k i).1).1).scaled.1)).sum))) := by
  rw [State.rowAcc, hint, ← hacts, ← hp, mapIdx_eq_map_range _ .zero, partialSum_int hps, List.map_map]
  · rfl
  · simpa using hprods

/-- What the claim says of a granule to drain: it freezes its command, waits its turn, or is written. -/
theorem drains_granule {s : State} {g : Gcn} {n : Word32} {j : Repetition} {x : MExec} {gran : Nat}
    (hx : (s.core g.toNat).mat.findExec n = some x) (h : s.matDrain g.toNat n j = s.drainGran g.toNat x gran) :
    ((s.core g.toNat).drainProtected x gran = true → Completes (.matrixDrainWrite g n j) s (fun t =>
      CoreOnly s t g ∧ SameBytes s t ∧ (t.core g.toNat).mat.findExec n = some { x with frz := some (.held gran) })) ∧
    ((s.core g.toNat).drainProtected x gran = false → (s.core g.toNat).mat.behind x gran = true →
      Idles (.matrixDrainWrite g n j) s) ∧
    ((s.core g.toNat).drainProtected x gran = false → (s.core g.toNat).mat.behind x gran = false →
      Completes (.matrixDrainWrite g n j) s (fun t =>
        (t.core g.toNat).mat.findExec n = some { x with wbuf := x.wbuf.filter (fun b => b.addr / 64 ≠ gran) } ∧
        (t.store (.lsp g.toNat)).cells =
          putCells (s.store (.lsp g.toNat)).cells (rowBytesOf (s.drainBytes g.toNat x gran)) ∧
        (∀ b, b / 64 ≠ gran → t.readByte (.lsp g.toNat) b = s.readByte (.lsp g.toNat) b) ∧
        ∀ k b, k ≠ .lsp g.toNat → t.readByte k b = s.readByte k b)) := by
  have hexec : exec (.matrixDrainWrite g n j) s = .next (s.drainGran g.toNat x gran) :=
    congrArg Host.Outcome.next h
  refine ⟨fun hp => ⟨_, hexec, ?_⟩, fun hp hb => ?_, fun hp hb => ⟨_, hexec, ?_⟩⟩
  · rw [drainGran_protected hp]
    exact setMat_frozen hx
  · rw [Idles, hexec, drainGran_behind hp hb]
  · rw [drainGran_writes hp hb]
    refine ⟨granWritten_findExec hx gran, ?_, fun b hb => granWritten_readByte (fun _ => hb),
      fun k b hk => granWritten_readByte (fun e => absurd e hk)⟩
    rw [granWritten_cells, if_pos rfl]

/-- Settles O18: a drain is the drain of one granule, or that of the state with the next row streamed. -/
theorem matrixDrainsWriteOneGranule : Obligations.MatrixDrainsWriteOneGranule := by
  unfold Obligations.MatrixDrainsWriteOneGranule
  intro s g n j x op c m row w drained freezes drains hx _ hop
  have hexec (t : State) : exec (.matrixDrainWrite g n j) t = .next (t.matDrain g.toNat n j) := rfl
  refine ⟨fun hf => ?frozen, fun hf ha => ⟨fun gran hg => ?awaited, fun hg => ?held⟩,
    fun hf ha hon => ⟨fun gran hc => ?complete, fun hc hr => ?streamed,
      fun hc hr hj => ⟨fun f hrow => ?freeze, fun hrow => ?row⟩⟩⟩
  case frozen => rw [Idles, hexec, matDrain_frozen hx hop j hf]
  case awaited =>
    refine drains_granule hx ((matDrain_frozenAt hx hop j hf ha).trans ?_)
    rw [show (s.core g.toNat).awaited g.toNat x = some gran from hg]
  case held =>
    rw [Idles, hexec, matDrain_frozenAt hx hop j hf ha, show (s.core g.toNat).awaited g.toNat x = none from hg]
  case complete => exact drains_granule hx (matDrain_complete hx hop hf ha hon j hc)
  case streamed => rw [Idles, hexec, matDrain_streamed hx hop hf ha hon j hc hr]
  case freeze =>
    refine ⟨_, ?_, setMat_frozen hx⟩
    rw [hexec, matDrain_loop hx hop hf ha hon j hj, drainLoop_freezes _ hc hr hrow]
  case row =>
    intro r u0 u1 u elem int acts p acc res cols
    refine ⟨congrArg Host.Outcome.next (matDrain_streams hx hop hf ha hon j hj hc hr hrow), streamRow_findExec hx,
      rfl, rfl, rfl, sameBytes_streamRow s g.toNat x op, fun hint i _ hp hprods => ?_, streamRow_bytes s g.toNat x op⟩
    exact rowAcc_int (s := u) (g := g.toNat) (t := op) (m := row) hint rfl rfl hp hprods

end Sys2Proof.Machine
end

/-!
PROOFS. The sequencer's own instructions: what one that computes, branches or faults comes to, and the scalar
arithmetic, comparisons and branches (R65, R70, R71, R79 to R81, Tables 3-6 and 3-7).
-/
section
namespace Sys2Proof.Machine

/-! ## Results of an issue -/

/-- A fault at issue stops the core with its record, and changes nothing else (R106, R108). -/
theorem raises_finish (s : State) (g : Gcn) (len cause detail : Nat) :
    Raises s (s.finish g.toNat len (.fault cause detail)) g cause detail :=
  ⟨coreOnly_setCore s g _, core_setCore ..⟩

/-- A single-word instruction that executes is issued with its effect, wherever it stands. -/
theorem issue_single {s : State} {g : Gcn} {f : Form} {w : Word0} (h : Issues s g f w) (hf : f.dbl = false)
    (eff : SeqRes) : s.issue g.toNat w true true eff = s.finish g.toNat 8 eff := by
  have hw : wordBytes w = 8 := by rw [wordBytes_of_ok h.legal, hf]; rfl
  have hd : w.dbl = false := by
    by_contra hd
    simp [wordBytes, hd] at hw
  simp [State.issue, h.running, h.kept, h.guard, hd, hw]

/-- So is one whose effect is on its own core. -/
theorem issue1_single {s : State} {g : Gcn} {f : Form} {w : Word0} (h : Issues s g f w) (hf : f.dbl = false)
    (eff : Core → SeqRes) : s.issue1 g.toNat f w true eff = s.finish g.toNat 8 (eff (s.core g.toNat)) := by
  rw [State.issue1, h.legal]
  exact issue_single h hf _

/-- An instruction whose effect is a fault faults. -/
theorem faults_issue1 {s : State} {g : Gcn} {f : Form} {w : Word0} {c : Instr} {eff : Core → SeqRes} {cause detail : Nat}
    (h : Issues s g f w) (hf : f.dbl = false) (hc : exec c s = .next (s.issue1 g.toNat f w true eff))
    (he : eff (s.core g.toNat) = .fault cause detail) : Faults c s g cause detail :=
  ⟨_, hc, by rw [issue1_single h hf, he]; exact raises_finish ..⟩

/-- An instruction that branches with registers written goes to its target. -/
theorem retires_jump {s : State} {g : Gcn} (f : Seq → Seq) (len pc : Nat) (x : RegWrite)
    (hx : x.From (s.core g.toNat).seq (f (s.core g.toNat).seq))
    (hf : ∀ q, f q = { q with s := (f q).s, a := (f q).a, p := (f q).p, d := (f q).d }) :
    Retires s (s.finish g.toNat len (.jump ((s.core g.toNat).upd f) pc)) g (BitVec.ofNat 16 pc) x := by
  refine ⟨seqOnly_setCore s g _ rfl, ?_, ?_⟩
  · rw [State.finish, core_setCore]
    cases x <;> exact hx
  · rw [State.finish, core_setCore]
    simp only [Core.upd]
    rw [hf]

/-! ## Computing a register -/

theorem yields_of_retires {c : Instr} {s : State} {g : Gcn} {x : RegWrite} {t : State} (hc : exec c s = .next t)
    (h : Retires s t g ((s.core g.toNat).seq.pc + 8) x) : Yields c s g x := ⟨t, hc, h⟩

section
variable {s : State} {g : Gcn} {w : Word0} {c : Instr}

/-- An instruction that computes a scalar register. -/
theorem yields_setS {f : Form} (h : Ready s g f w) (hd : f.dbl = false) (v : Seq → Word64)
    (hc : exec c s = .next (s.issue1 g.toNat f w true (fun c => .core (c.upd (fun q => q.setS w.fd (v q)))))) :
    Yields c s g (.s w.fd (v (s.core g.toNat).seq)) :=
  ⟨_, hc, retires_issue1 h hd (fun _ q => q.setS w.fd (v q)) _ (From_setS ..) (fun _ q => setS_files q w.fd _)⟩

/-- An instruction that computes an address register. -/
theorem yields_setA {f : Form} (h : Ready s g f w) (hd : f.dbl = false) (v : Seq → Addr)
    (hc : exec c s = .next (s.issue1 g.toNat f w true (fun c => .core (c.upd (fun q => q.setA w.fd (v q)))))) :
    Yields c s g (.a w.fd (v (s.core g.toNat).seq)) :=
  ⟨_, hc, retires_issue1 h hd (fun _ q => q.setA w.fd (v q)) _ (From_setA ..) (fun _ _ => rfl)⟩

/-- An instruction that computes a predicate. -/
theorem yields_setP {f : Form} (h : Ready s g f w) (hd : f.dbl = false) (v : Seq → Bool)
    (hc : exec c s = .next (s.issue1 g.toNat f w true (fun c => .core (c.upd (fun q => q.setP w.fd (v q)))))) :
    Yields c s g (.p w.fd (v (s.core g.toNat).seq)) :=
  ⟨_, hc, retires_issue1 h hd (fun _ q => q.setP w.fd (v q)) _ (From_setP ..) (fun _ q => setP_files q w.fd _)⟩

/-- An operation of two registers (Table 3-6). -/
theorem yields_alu (h : Ready s g ⟨false, .s, .s, .s⟩ w) (op : Word64 → Word64 → Word64)
    (hc : exec c s = .next (s.alu g.toNat w op)) :
    Yields c s g (.s w.fd (op ((s.core g.toNat).seq.getS w.fa) ((s.core g.toNat).seq.getS w.fb))) :=
  yields_setS h rfl (fun q => op (q.getS w.fa) (q.getS w.fb)) hc

/-- An operation with the sign-extended immediate (R79). -/
theorem yields_aluI (h : Ready s g ⟨false, .s, .s, .none⟩ w) (op : Word64 → Word64 → Word64)
    (hc : exec c s = .next (s.aluI g.toNat w op)) :
    Yields c s g (.s w.fd (op ((s.core g.toNat).seq.getS w.fa) (w.imm.signExtend 64))) :=
  yields_setS h rfl (fun q => op (q.getS w.fa) (simm w)) hc

theorem yields_cmp (h : Ready s g ⟨false, .p, .s, .s⟩ w) (op : Word64 → Word64 → Bool)
    (hc : exec c s = .next (s.cmp g.toNat w op)) :
    Yields c s g (.p w.fd (op ((s.core g.toNat).seq.getS w.fa) ((s.core g.toNat).seq.getS w.fb))) :=
  yields_setP h rfl (fun q => op (q.getS w.fa) (q.getS w.fb)) hc

theorem yields_cmpI (h : Ready s g ⟨false, .p, .s, .none⟩ w) (op : Word64 → Word64 → Bool)
    (hc : exec c s = .next (s.cmpI g.toNat w op)) :
    Yields c s g (.p w.fd (op ((s.core g.toNat).seq.getS w.fa) (w.imm.signExtend 64))) :=
  yields_setP h rfl (fun q => op (q.getS w.fa) (simm w)) hc

theorem yields_palu (h : Ready s g ⟨false, .p, .p, .p⟩ w) (op : Bool → Bool → Bool)
    (hc : exec c s = .next (s.palu g.toNat w op)) :
    Yields c s g (.p w.fd (op ((s.core g.toNat).seq.getP w.fa) ((s.core g.toNat).seq.getP w.fb))) :=
  yields_setP h rfl (fun q => op (q.getP w.fa) (q.getP w.fb)) hc

end

/-! ## The operations of Table 3-6 as relations of integers -/

theorem opMin_eq (x y : Word64) : opMin x y = if x.toInt ≤ y.toInt then x else y := by
  rcases Int.lt_trichotomy x.toInt y.toInt with h | h | h
  · rw [opMin, BitVec.slt_iff_toInt_lt.2 h, if_pos rfl, if_pos (Int.le_of_lt h)]
  · rw [opMin, BitVec.toInt_inj.1 h, ite_self, ite_self]
  · rw [opMin, if_neg (by rw [BitVec.slt_iff_toInt_lt]; omega), if_neg (by omega)]

theorem opMax_eq (x y : Word64) : opMax x y = if x.toInt ≤ y.toInt then y else x := by
  rcases Int.lt_trichotomy x.toInt y.toInt with h | h | h
  · rw [opMax, BitVec.slt_iff_toInt_lt.2 h, if_pos rfl, if_pos (Int.le_of_lt h)]
  · rw [opMax, BitVec.toInt_inj.1 h, ite_self, ite_self]
  · rw [opMax, if_neg (by rw [BitVec.slt_iff_toInt_lt]; omega), if_neg (by omega)]

theorem opMinu_eq (x y : Word64) : opMinu x y = if x.toNat ≤ y.toNat then x else y := by
  rcases Nat.lt_trichotomy x.toNat y.toNat with h | h | h
  · simp [opMinu, BitVec.ult, h, Nat.le_of_lt h]
  · rw [opMinu, BitVec.eq_of_toNat_eq h, ite_self, ite_self]
  · simp [opMinu, BitVec.ult, Nat.not_lt.2 (Nat.le_of_lt h), Nat.not_le.2 h]

theorem opMaxu_eq (x y : Word64) : opMaxu x y = if x.toNat ≤ y.toNat then y else x := by
  rcases Nat.lt_trichotomy x.toNat y.toNat with h | h | h
  · simp [opMaxu, BitVec.ult, h, Nat.le_of_lt h]
  · rw [opMaxu, BitVec.eq_of_toNat_eq h, ite_self, ite_self]
  · simp [opMaxu, BitVec.ult, Nat.not_lt.2 (Nat.le_of_lt h), Nat.not_le.2 h]

theorem opLt_eq (x y : Word64) : opLt x y = decide (x.toInt < y.toInt) := rfl

theorem opLtu_eq (x y : Word64) : opLtu x y = decide (x.toNat < y.toNat) := rfl

theorem opLe_eq (x y : Word64) : opLe x y = decide (x.toInt ≤ y.toInt) := by
  simp [opLe, BitVec.slt, ← decide_not]

theorem opLeu_eq (x y : Word64) : opLeu x y = decide (x.toNat ≤ y.toNat) := by
  simp [opLeu, BitVec.ult, ← decide_not]

/-! ## The claims -/

/-- Settles O55. -/
theorem zeroAndTrueRegistersStay : Obligations.ZeroAndTrueRegistersStay :=
  fun _ _ _ => ⟨if_pos rfl, if_pos rfl, if_pos rfl, getP_zero _⟩

/-- Settles O2: each of the fifteen is the shared operation of two registers. -/
theorem scalarArithmeticOfTwoRegisters : Obligations.ScalarArithmeticOfTwoRegisters := by
  unfold Obligations.ScalarArithmeticOfTwoRegisters
  intro s g w h x y
  rw [← opMin_eq, ← opMax_eq, ← opMinu_eq, ← opMaxu_eq]
  exact ⟨yields_alu h (· + ·) rfl, yields_alu h (· - ·) rfl, yields_alu h (· * ·) rfl, yields_alu h opMulhu rfl,
    yields_alu h opMulhs rfl, yields_alu h (· &&& ·) rfl, yields_alu h (· ||| ·) rfl, yields_alu h (· ^^^ ·) rfl,
    yields_alu h opShl rfl, yields_alu h opShr rfl, yields_alu h opSar rfl, yields_alu h opMin rfl,
    yields_alu h opMax rfl, yields_alu h opMinu rfl, yields_alu h opMaxu rfl⟩

/-- Settles O3: each of the fifteen is the shared operation with the immediate. -/
theorem scalarArithmeticWithImmediate : Obligations.ScalarArithmeticWithImmediate := by
  unfold Obligations.ScalarArithmeticWithImmediate
  intro s g w h x y
  rw [← opMin_eq, ← opMax_eq, ← opMinu_eq, ← opMaxu_eq]
  exact ⟨yields_aluI h (· + ·) rfl, yields_aluI h (· - ·) rfl, yields_aluI h (· * ·) rfl, yields_aluI h opMulhu rfl,
    yields_aluI h opMulhs rfl, yields_aluI h (· &&& ·) rfl, yields_aluI h (· ||| ·) rfl, yields_aluI h (· ^^^ ·) rfl,
    yields_aluI h opShl rfl, yields_aluI h opShr rfl, yields_aluI h opSar rfl, yields_aluI h opMin rfl,
    yields_aluI h opMax rfl, yields_aluI h opMinu rfl, yields_aluI h opMaxu rfl⟩

/-- Settles O5: each comparison is the shared one, with its relation. -/
theorem comparisonsWriteOnePredicate : Obligations.ComparisonsWriteOnePredicate := by
  unfold Obligations.ComparisonsWriteOnePredicate
  intro s g w x
  simp only [← opLe_eq, ← opLeu_eq]
  exact ⟨fun h => ⟨yields_cmp h opEq rfl, yields_cmp h opNe rfl, yields_cmp h opLt rfl, yields_cmp h opLtu rfl,
      yields_cmp h opLe rfl, yields_cmp h opLeu rfl⟩,
    fun h => ⟨yields_cmpI h opEq rfl, yields_cmpI h opNe rfl, yields_cmpI h opLt rfl, yields_cmpI h opLtu rfl,
      yields_cmpI h opLe rfl, yields_cmpI h opLeu rfl⟩⟩

/-- The immediate extended to 64 bits and cut to 40 is the immediate extended to 40. -/
theorem setWidth_simm (w : Word0) : (simm w).setWidth 40 = w.imm.signExtend 40 := by
  refine BitVec.eq_of_getLsbD_eq (fun i hi => ?_)
  simp only [simm, BitVec.getLsbD_setWidth, BitVec.getLsbD_signExtend]
  simp [hi, Nat.lt_trans hi (by decide : 40 < 64)]

/-- Settles O4. -/
theorem movesAndPredicateLogic : Obligations.MovesAndPredicateLogic := by
  unfold Obligations.MovesAndPredicateLogic
  intro s g w q
  rw [← setWidth_simm]
  exact ⟨fun h => yields_setS h rfl (fun q => w.imm ++ (q.getS w.fd).setWidth 32) rfl,
    fun h => yields_setA h rfl (fun q => q.getA w.fa + (q.getS w.fb).setWidth 40) rfl,
    fun h => yields_setA h rfl (fun q => q.getA w.fa + (simm w).setWidth 40) rfl,
    fun h => yields_setA h rfl (fun q => (q.getS w.fa).setWidth 40) rfl,
    fun h => yields_setS h rfl (fun q => (q.getA w.fa).setWidth 64) rfl,
    fun h => ⟨yields_palu h (fun x y => x && y) rfl, yields_palu h (fun x y => x || y) rfl,
      yields_palu h (fun x y => x != y) rfl⟩,
    fun h => yields_setP h rfl (fun q => !q.getP w.fa) rfl⟩

/-! ## Branches (R80) -/

theorem relTarget_near {pc : Half} {imm : Word32} {t : Int} (ht : t = (pc.toNat : Int) + imm.toInt) (h0 : 0 ≤ t)
    (h1 : t < 0x10000) (h2 : t % 8 = 0) : relTarget pc imm = some t.toNat := by
  subst ht
  exact if_pos ⟨h0, h1, h2⟩

theorem relTarget_far {pc : Half} {imm : Word32}
    (h : ¬ (0 ≤ (pc.toNat : Int) + imm.toInt ∧ (pc.toNat : Int) + imm.toInt < 0x10000 ∧
      ((pc.toNat : Int) + imm.toInt) % 8 = 0)) : relTarget pc imm = none := if_neg h

theorem ofNat_toNat_target {t : Int} (h : 0 ≤ t) : BitVec.ofNat 16 t.toNat = BitVec.ofInt 16 t := by
  rw [← BitVec.ofInt_natCast, Int.toNat_of_nonneg h]

theorem regTarget_aligned {v : Word64} (h : v.toNat % 8 = 0) : regTarget v = some (v.toNat % 65536) :=
  if_pos (by omega)

theorem regTarget_misaligned {v : Word64} (h : v.toNat % 8 ≠ 0) : regTarget v = none :=
  if_neg (by omega)

section
variable {s : State} {g : Gcn} {w : Word0} {c : Instr} {fm : Form} {eff : Core → SeqRes}
  (h : Issues s g fm w) (hd : fm.dbl = false) (hc : exec c s = .next (s.issue1 g.toNat fm w true eff))
include h hd hc

/-- An instruction that branches to a target goes there. -/
theorem goes_branchTo (f : Seq → Seq) {pc : Nat} {x : RegWrite}
    (he : eff (s.core g.toNat) = branchTo ((s.core g.toNat).upd f) (some pc))
    (hx : x.From (s.core g.toNat).seq (f (s.core g.toNat).seq))
    (hf : ∀ q, f q = { q with s := (f q).s, a := (f q).a, p := (f q).p, d := (f q).d }) :
    Goes c s g (BitVec.ofNat 16 pc) x :=
  ⟨_, hc, by rw [issue1_single h hd, he]; exact retires_jump f 8 pc x hx hf⟩

/-- One that writes no register besides. -/
theorem goes_branchTo_only {pc : Nat} (he : eff (s.core g.toNat) = branchTo (s.core g.toNat) (some pc)) :
    Goes c s g (BitVec.ofNat 16 pc) .none :=
  goes_branchTo h hd hc id he ⟨rfl, rfl, rfl, rfl⟩ (fun _ => rfl)

/-- With no target it raises IMEM_RANGE. -/
theorem faults_branchTo {d : Core} (he : eff (s.core g.toNat) = branchTo d none) : Faults c s g cIMEM_RANGE 0 :=
  faults_issue1 h hd hc he

end

/-- A branch to a register's low 16 bits, where they are a target, and the fault where they are none. -/
theorem register_branch {s : State} {g : Gcn} {w : Word0} {c : Instr} {fm : Form} (h : Issues s g fm w)
    (hd : fm.dbl = false) (v : Core → Word64)
    (hc : exec c s = .next (s.issue1 g.toNat fm w true (fun c => branchTo c (regTarget (v c))))) :
    ((v (s.core g.toNat)).toNat % 8 = 0 → Goes c s g ((v (s.core g.toNat)).setWidth 16) .none) ∧
      ((v (s.core g.toNat)).toNat % 8 ≠ 0 → Faults c s g cIMEM_RANGE 0) := by
  constructor
  · intro ha
    have hgo := goes_branchTo_only h hd hc (congrArg (branchTo _) (regTarget_aligned ha))
    have ht : BitVec.ofNat 16 ((v (s.core g.toNat)).toNat % 65536) = (v (s.core g.toNat)).setWidth 16 :=
      BitVec.eq_of_toNat_eq (by simp)
    rwa [ht] at hgo
  · exact fun ha => faults_branchTo h hd hc (congrArg (branchTo _) (regTarget_misaligned ha))

/-! ### LOOP -/

/-- Whether a LOOP branches: the register that it counts in is not 0 after it (log entry 20). -/
theorem getS_loop_eq_zero (q : Seq) (r : BitVec 5) :
    (q.setS r (q.getS r - 1)).getS r = 0 ↔ r = 0 ∨ q.getS r = 1 := by
  rw [getS_setS]
  by_cases hr : r = 0
  · simp [hr, Seq.getS]
  · rw [if_pos ⟨rfl, hr⟩]
    simp only [hr, false_or]
    constructor
    · intro h
      bv_omega
    · rintro h
      rw [h]
      rfl

section
variable {s : State} {g : Gcn} {w : Word0} (h : Issues s g ⟨false, .s, .none, .none⟩ w)
include h

theorem loop_branches (hr : w.fd ≠ 0) (h1 : (s.core g.toNat).seq.getS w.fd ≠ 1) {pc : Nat}
    (ht : relTarget (s.core g.toNat).seq.pc w.imm = some pc) :
    Goes (.loop g w) s g (BitVec.ofNat 16 pc) (.s w.fd ((s.core g.toNat).seq.getS w.fd - 1)) := by
  refine goes_branchTo h rfl (c := .loop g w) rfl (fun q => q.setS w.fd (q.getS w.fd - 1)) ?_ (From_setS ..)
    (fun q => setS_files q w.fd _)
  have hne := mt (getS_loop_eq_zero (s.core g.toNat).seq w.fd).1 (not_or.2 ⟨hr, h1⟩)
  exact (if_neg hne).trans (congrArg (branchTo _) ht)

theorem loop_far (hr : w.fd ≠ 0) (h1 : (s.core g.toNat).seq.getS w.fd ≠ 1)
    (ht : relTarget (s.core g.toNat).seq.pc w.imm = none) : Faults (.loop g w) s g cIMEM_RANGE 0 := by
  have hne := mt (getS_loop_eq_zero (s.core g.toNat).seq w.fd).1 (not_or.2 ⟨hr, h1⟩)
  exact faults_branchTo h rfl (c := .loop g w) rfl ((if_neg hne).trans (congrArg (branchTo _) ht))

theorem loop_falls_through (hr : w.fd = 0 ∨ (s.core g.toNat).seq.getS w.fd = 1)
    (hroom : (s.core g.toNat).seq.pc.toNat + 8 < 0x10000) :
    Goes (.loop g w) s g ((s.core g.toNat).seq.pc + 8) (.s w.fd ((s.core g.toNat).seq.getS w.fd - 1)) := by
  refine ⟨_, rfl, ?_⟩
  have hz := (getS_loop_eq_zero (s.core g.toNat).seq w.fd).2 hr
  rw [issue1_single h rfl]
  dsimp only
  rw [if_pos (show ((s.core g.toNat).upd (fun q => q.setS w.fd (q.getS w.fd - 1))).seq.getS w.fd = 0 from hz)]
  exact retires_upd _ rfl (fun q => q.setS w.fd (q.getS w.fd - 1)) 8 _ hroom (From_setS ..) (setS_files _ w.fd _)

end

/-- Settles O6. -/
theorem branchesGoToTheirTargets : Obligations.BranchesGoToTheirTargets := by
  unfold Obligations.BranchesGoToTheirTargets
  intro s g w q rel far
  refine ⟨fun h => ⟨fun h0 h1 h2 => ?near, fun hf => ?far, ?_⟩, fun h => register_branch h rfl (fun c => c.seq.getS w.fa) rfl,
    fun h => ⟨fun hr hv h0 h1 h2 => ?loop, fun hr hv hf => loop_far h hr hv (relTarget_far hf), loop_falls_through h⟩⟩
  case near =>
    have ht := relTarget_near (rfl : rel = _) h0 h1 h2
    rw [← ofNat_toNat_target h0]
    exact ⟨goes_branchTo_only h rfl (c := .br g w) rfl (congrArg (branchTo _) ht),
      goes_branchTo h rfl (c := .call g w) rfl (fun q => q.setS 31 (q.pc.setWidth 64 + 8)) (congrArg (branchTo _) ht)
        (From_setS ..) (fun q => setS_files q 31 _)⟩
  case far =>
    exact ⟨faults_branchTo h rfl (c := .br g w) rfl (congrArg (branchTo _) (relTarget_far hf)),
      faults_branchTo h rfl (c := .call g w) rfl (congrArg (branchTo _) (relTarget_far hf))⟩
  case loop =>
    rw [← ofNat_toNat_target h0]
    exact loop_branches h hr hv (relTarget_near rfl h0 h1 h2)
  · exact register_branch h rfl (fun c => c.seq.getS 31) rfl

end Sys2Proof.Machine
end

/-!
PROOFS. Scalar loads and stores, DLD and DST: the faults of a misplaced access, what a load reads and writes, and what a
store changes (R82 to R88, R226, R230, R237).
-/
section
namespace Sys2Proof.Machine

/-! ## Issue of a scalar access -/

theorem accForm_dbl (acc : ScalarAccess) : (accForm acc).dbl = false := by cases acc <;> rfl

section
variable {s : State} {g : Gcn} {w : Word0} {acc : ScalarAccess}

/-- A scalar access that executes goes on with its effect. -/
theorem access_single (h : Issues s g (accForm acc) w) :
    s.access g.toNat w acc = s.finish g.toNat 8 (s.scalarAccess g.toNat acc w) := by
  rw [State.access, h.legal]
  exact issue_single h (accForm_dbl acc) _

/-- The bytes that an access reads or writes. -/
def ScalarAccess.bytes : ScalarAccess → Nat
  | .load n _ _ _ => n
  | .store n _ => n
  | .dld => 64
  | .dst => 64

/-- The size of the place that an access is to. -/
def ScalarAccess.size : ScalarAccess → Nat
  | .load _ _ quay _ => if quay then quaySize else lspSize
  | _ => lspSize

/-- A misplaced access faults before it reads or writes (R83, R88). -/
theorem scalarAccess_fault {k f : Nat} (h : accFault ((s.core k).accAddr w) acc.bytes acc.size = some f) :
    s.scalarAccess k acc w = .fault f 0 := by
  cases acc <;> simp only [ScalarAccess.bytes, ScalarAccess.size] at h <;> simp only [State.scalarAccess, h]

theorem accFault_align {a n size : Nat} (h : a % n ≠ 0) : accFault a n size = some cALIGN := if_pos h

theorem accFault_range {a n size : Nat} (h : a % n = 0) (hs : size < a + n) : accFault a n size = some cSPACE_RANGE := by
  simp [accFault, h, hs]

theorem faults_access {c : Instr} {f : Nat} (h : Issues s g (accForm acc) w) (hc : exec c s = .next (s.access g.toNat w acc))
    (hf : accFault ((s.core g.toNat).accAddr w) acc.bytes acc.size = some f) : Faults c s g f 0 :=
  ⟨_, hc, by rw [access_single h, scalarAccess_fault hf]; exact raises_finish ..⟩

/-- A misaligned access raises ALIGN, an aligned one beyond its place SPACE_RANGE. -/
theorem misplaced_faults {c : Instr} (h : Issues s g (accForm acc) w) (hc : exec c s = .next (s.access g.toNat w acc)) :
    ((s.core g.toNat).accAddr w % acc.bytes ≠ 0 → Faults c s g cALIGN 0) ∧
      ((s.core g.toNat).accAddr w % acc.bytes = 0 → acc.size < (s.core g.toNat).accAddr w + acc.bytes →
        Faults c s g cSPACE_RANGE 0) :=
  ⟨fun ha => faults_access h hc (accFault_align ha), fun ha hs => faults_access h hc (accFault_range ha hs)⟩

end

/-- Settles O9: each access is the shared one of its size and place. -/
theorem misplacedScalarAccessesFault : Obligations.MisplacedScalarAccessesFault := by
  unfold Obligations.MisplacedScalarAccessesFault
  intro s g w a bad
  refine ⟨fun h => ?scalar, fun h => ?address, fun h => ?descriptor, fun h => ?stores, fun h => ?sta, fun h => ?dst⟩
  case scalar =>
    have load (n : Nat) (sg quay : Bool) {c : Instr} (hc : exec c s = .next (s.access g.toNat w (.load n sg quay false))) :
        bad c n (if quay then quaySize else lspSize) := misplaced_faults h hc
    exact ⟨load 1 false false rfl, load 1 true false rfl, load 2 false false rfl, load 2 true false rfl,
      load 4 false false rfl, load 4 true false rfl, load 8 false false rfl, load 1 false true rfl, load 1 true true rfl,
      load 2 false true rfl, load 2 true true rfl, load 4 false true rfl, load 4 true true rfl, load 8 false true rfl⟩
  case address =>
    exact ⟨misplaced_faults (acc := .load 8 false false true) h rfl, misplaced_faults (acc := .load 8 false true true) h rfl⟩
  case descriptor => exact misplaced_faults (acc := .dld) h rfl
  case stores =>
    have store (n : Nat) {c : Instr} (hc : exec c s = .next (s.access g.toNat w (.store n false))) : bad c n lspSize :=
      misplaced_faults (acc := .store n false) h hc
    exact ⟨store 1 rfl, store 2 rfl, store 4 rfl, store 8 rfl⟩
  case sta => exact misplaced_faults (acc := .store 8 true) h rfl
  case dst => exact misplaced_faults (acc := .dst) h rfl

/-! ## What a load reads (R82, R84, R237) -/

theorem bytesAt_eq_map_range (m : List Host.Cell) (a n : Nat) : bytesAt m a n = (List.range n).map (fun i => byteAt m (a + i)) := by
  induction n generalizing a with
  | zero => rfl
  | succ n ih =>
    rw [bytesAt, ih, List.range_succ_eq_map, List.map_cons, List.map_map]
    refine congrArg (_ :: ·) (List.map_congr_left (fun i _ => ?_))
    rw [Function.comp_apply, Nat.add_assoc, Nat.add_comm 1]

/-- With no older value to return, a read gets a granule's byte as it stands. -/
theorem seenByte_of_no_copies {s : State} {r : Reader} {l : Loc} {n a : Nat} (h : s.copies r l n = []) (ha : a / 64 = n)
    (k : Nat) : s.seenByte r k l a = s.readByte l a := by
  have hp : s.pick r k l n = none := by rw [State.pick, h]
  rw [State.seenByte, ha, hp]

/-- With no older value of its granule to return, an access reads its place's bytes; finding errors changes none. -/
theorem seenLE_of_no_copies {s : State} {r : Reader} {l : Loc} {a n : Nat} (hn : n ∣ 64) (ha : a % n = 0)
    (h : (s.touch l (a / 64)).copies r l (a / 64) = []) : (s.touch l (a / 64)).seenLE r l a n = s.readLE l a n := by
  rw [State.seenLE, State.readLE, bytesAt_eq_map_range]
  refine congrArg leNat (List.map_congr_left (fun i hi => ?_))
  rw [seenByte_of_no_copies h (aligned_in_granule hn ha i (List.mem_range.1 hi)), State.readByte,
    (onlyFound_touch s l _).cells]

theorem toInt_ofNat_eq_toSigned (v k : Nat) (hk : 0 < k) : (BitVec.ofNat k v).toInt = toSigned v k := by
  obtain ⟨k, rfl⟩ := Nat.exists_eq_succ_of_ne_zero hk.ne'
  rw [BitVec.toInt_eq_toNat_cond, BitVec.toNat_ofNat, toSigned, Nat.succ_eq_add_one, Nat.add_sub_cancel, Nat.pow_succ]
  have hiff : 2 * (v % (2 ^ k * 2)) < 2 ^ k * 2 ↔ v % (2 ^ k * 2) < 2 ^ k := by omega
  simp only [hiff]

/-- A signed load extends the sign of the value that it reads. -/
theorem extend_signed (n v : Nat) (hn : 0 < n) : extend n true v = (BitVec.ofNat (8 * n) v).signExtend 64 := by
  rw [BitVec.signExtend, toInt_ofNat_eq_toSigned v _ (by omega)]
  rfl

section
variable {s : State} {g : Gcn} {w : Word0} {acc : ScalarAccess} {c : Instr} {l : Loc} {n size : Nat}

/-- A load, aligned, within its place, from a verified granule that does not come poisoned, writes its register with the
value as the read gets it, and nothing else but what the read finds (R84, R85, R230). -/
theorem load_completes {f : Nat → Seq → Seq} {x : Nat → RegWrite} (h : Ready s g (accForm acc) w)
    (hc : exec c s = .next (s.access g.toNat w acc))
    (hacc : accFault ((s.core g.toNat).accAddr w) n size = none → s.scalarAccess g.toNat acc w =
      s.seqRead g.toNat l ((s.core g.toNat).accAddr w) n acc w
        (fun t v => .all (t.setCore g.toNat ((t.core g.toNat).upd (f v)))))
    (hx : ∀ v q, (x v).From q (f v q))
    (hf : ∀ v q, f v q = { q with s := (f v q).s, a := (f v q).a, p := (f v q).p, d := (f v q).d }) (hn : n ∣ 64) :
    let a := (s.core g.toNat).accAddr w
    let u := s.touch l (a / 64)
    let r := u.reader g.toNat none (s.core g.toNat).seq.ord false
    (a % n = 0 ∧ a + n ≤ size ∧ s.marksOf l (a / 64) = [] ∧ u.seenBad r 0 l (a / 64) = false) →
      Completes c s (fun t => Retires u t g ((s.core g.toNat).seq.pc + 8) (x (u.seenLE r l a n))) ∧
      (u.copies r l (a / 64) = [] → u.seenLE r l a n = s.readLE l a n) := by
  rintro a u r ⟨ha, hs, hm, hb⟩
  obtain ⟨y, hu⟩ : ∃ y, u.core g.toNat = { s.core g.toNat with lsp := y } := (onlyFound_touch _ _ _).core _
  have hq : (u.core g.toNat).seq = (s.core g.toNat).seq := by rw [hu]
  have hr : u.reader g.toNat none (u.core g.toNat).seq.ord false = r := by rw [hq]
  have hroom : (s.core g.toNat).seq.pc.toNat + 8 < 0x10000 := by
    have := h.room
    rwa [wordBytes_of_ok h.legal, accForm_dbl] at this
  have hread := seqRead_clear (g := g.toNat) (n := n) (acc := acc) (w := w)
    (k := fun t v => .all (t.setCore g.toNat ((t.core g.toNat).upd (f v)))) hm
    (by show u.seenBad (u.reader g.toNat none (u.core g.toNat).seq.ord false) 0 l (a / 64) = false; rw [hr]; exact hb)
  refine ⟨⟨u.finish g.toNat 8 (.core ((u.core g.toNat).upd (f (u.seenLE r l a n)))), ?_, ?_⟩,
    seenLE_of_no_copies hn ha⟩
  · rw [hc, access_single h.toIssues, hacc (accFault_none ha hs), hread, finish_all_setCore]
    show _ = Host.Outcome.next (u.finish g.toNat 8 (.core ((u.core g.toNat).upd (f (u.seenLE r l a n)))))
    rw [← hr]
  · have h := retires_upd (s := u) (g := g) (u.core g.toNat) rfl (f (u.seenLE r l a n)) 8 (x (u.seenLE r l a n))
      (by rw [hq]; exact hroom) (hx _ _) (hf _ _)
    rwa [hq] at h

end

/-- Settles O7: each load is the shared one of its size, place and register. -/
theorem scalarLoads : Obligations.ScalarLoads := by
  unfold Obligations.ScalarLoads
  intro s g w a u r v fits loads
  refine ⟨fun h => ?scalar, fun h => ?address, fun h => ?descriptor⟩
  case scalar =>
    have load (n : Nat) (sg quay : Bool) (hn : n ∣ 64) {c : Instr}
        (hc : exec c s = .next (s.access g.toNat w (.load n sg quay false))) :
        loads c n (if quay then quaySize else lspSize) (loadLoc g.toNat quay)
          (.s w.fd (extend n sg (v (loadLoc g.toNat quay) n))) :=
      load_completes (acc := .load n sg quay false) (x := fun v => .s w.fd (extend n sg v)) h hc (fun hf => by simp only [State.scalarAccess, hf]; rfl)
        (fun v q => From_setS q w.fd _) (fun v q => setS_files q w.fd _) hn
    have signed (n : Nat) (quay : Bool) (hn : n ∣ 64) {c : Instr}
        (hc : exec c s = .next (s.access g.toNat w (.load n true quay false))) :
        loads c n (if quay then quaySize else lspSize) (loadLoc g.toNat quay)
          (.s w.fd ((BitVec.ofNat (8 * n) (v (loadLoc g.toNat quay) n)).signExtend 64)) := by
      rw [← extend_signed _ _ (Nat.pos_of_dvd_of_pos hn (by decide))]
      exact load n true quay hn hc
    have h1 : 1 ∣ 64 := by decide
    have h2 : 2 ∣ 64 := by decide
    have h4 : 4 ∣ 64 := by decide
    have h8 : 8 ∣ 64 := by decide
    exact ⟨⟨load 1 false false h1 rfl, signed 1 false h1 rfl, load 2 false false h2 rfl, signed 2 false h2 rfl,
        load 4 false false h4 rfl, signed 4 false h4 rfl, load 8 false false h8 rfl⟩,
      load 1 false true h1 rfl, signed 1 true h1 rfl, load 2 false true h2 rfl, signed 2 true h2 rfl,
      load 4 false true h4 rfl, signed 4 true h4 rfl, load 8 false true h8 rfl⟩
  case address =>
    have load (quay : Bool) {c : Instr} (hc : exec c s = .next (s.access g.toNat w (.load 8 false quay true))) :
        loads c 8 (if quay then quaySize else lspSize) (loadLoc g.toNat quay)
          (.a w.fd (BitVec.ofNat 40 (v (loadLoc g.toNat quay) 8))) :=
      load_completes (acc := .load 8 false quay true) (x := fun v => .a w.fd (BitVec.ofNat 40 v)) h hc (fun hf => by simp only [State.scalarAccess, hf]; rfl)
        (fun v q => From_setA q w.fd _) (fun _ _ => rfl) (by decide)
    exact ⟨load false rfl, load true rfl⟩
  case descriptor =>
    exact load_completes (acc := .dld) (x := fun v => .d w.fd (BitVec.ofNat 512 v)) h rfl
      (fun hf => by simp only [State.scalarAccess, show accFault _ 64 lspSize = none from hf])
      (fun v q => From_setD q w.fd _) (fun _ _ => rfl) (by decide)

/-! ## What a store changes (R82, R86, R226) -/

theorem foldl_core {α : Type} {h : Nat} (f : State → α → State) (hf : ∀ t x, (f t x).core h = t.core h) (l : List α) (s : State) :
    (l.foldl f s).core h = s.core h := by
  induction l generalizing s with
  | nil => rfl
  | cons x t ih => exact (ih (f s x)).trans (hf s x)

section
variable {g h : Nat} (e : h ≠ g)
include e

theorem setStore_lsp_core_ne (s : State) (st : Store) : (s.setStore (.lsp g) st).core h = s.core h :=
  core_setCore_ne s _ e

theorem touchWord_core_ne (s : State) (w : Nat) : (s.touchWord (.lsp g) w).core h = s.core h := by
  unfold State.touchWord
  dsimp only
  split
  · rfl
  · rw [core_healthInc, setStore_lsp_core_ne e]
  · rw [core_logRec, core_healthInc, setStore_lsp_core_ne e]

theorem preWrite_core_ne (s : State) (n : Nat) (b : List (Nat × Byte)) : (s.preWrite (.lsp g) n b).core h = s.core h := by
  unfold State.preWrite
  split
  · rfl
  · refine foldl_core _ (fun t i => ?_) _ s
    split
    · exact touchWord_core_ne e t _
    · rfl

theorem writeGran_core_ne (s : State) (n : Nat) (b : List (Nat × Byte)) (p : Bool) (m : List Nat) :
    (s.writeGran (.lsp g) n b p m).core h = s.core h :=
  (core_setCore_ne _ _ e).trans (preWrite_core_ne e s n b)

theorem setGran_core_ne (s : State) (n : Nat) (live : List (Nat × Byte)) (p : Bool) (m : List Nat) :
    (s.setGran (.lsp g) n live p m).core h = s.core h :=
  (core_setCore_ne _ _ e).trans (setStore_lsp_core_ne e s _)

/-- A write of a scratchpad's granule changes no other core. -/
theorem orderGran_core_ne (s : State) (op : Option Nat) (w : Writer) (after : Option Nat) (n : Nat)
    (b : List (Nat × Byte)) (p : Bool) (m : List Nat) :
    (s.orderGran op w after (.lsp g) n b p m).core h = s.core h := by
  unfold State.orderGran
  dsimp only
  rw [core_noted]
  split
  · exact writeGran_core_ne e s n b p m
  · exact (setGran_core_ne e _ n _ _ _).trans (preWrite_core_ne e s n b)

end

/-- From s to t a scalar write of n bytes has been carried out on core g, which goes on after it; no other core has
changed. -/
def WritesScalar (s t : State) (g : Gcn) (a n v : Nat) : Prop :=
  let q := (s.core g.toNat).seq
  Stored s t (.lsp g.toNat) a n v ∧ (t.core g.toNat).seq = { q with pc := q.pc + 8, ord := q.ord + 1 } ∧
    ∀ h, h ≠ g.toNat → t.core h = s.core h

/-- A store whose effect is the sequencer's write, aligned, changes the bytes that it names and goes on. -/
theorem store_completes {s : State} {g : Gcn} {w : Word0} {acc : ScalarAccess} {c : Instr} {a n v : Nat}
    (h : Ready s g (accForm acc) w) (hc : exec c s = .next (s.access g.toNat w acc)) (hn : n ∣ 64) (ha : a % n = 0)
    (hacc : s.scalarAccess g.toNat acc w = .all (s.seqWrite g.toNat a (leBytes n v))) :
    Completes c s (fun t => WritesScalar s t g a n v) := by
  let u := s.seqWrite g.toNat a (leBytes n v)
  obtain ⟨x, y, hu⟩ : ∃ x y, u.core g.toNat = { s.core g.toNat with lsp := x, marks := y } := orderGran_core ..
  have hroom : (s.core g.toNat).seq.pc.toNat + 8 < 0x10000 := by
    have := h.room
    rwa [wordBytes_of_ok h.legal, accForm_dbl] at this
  have hadv := advance_room (u.core g.toNat) 8 (by rw [hu]; exact hroom)
  have hsame : SameBytes u (u.setCore g.toNat ((u.core g.toNat).advance 8)) := sameBytes_setCore _ _ _ (by rw [hadv])
  obtain ⟨hin, hout⟩ := stored_seqWrite s g.toNat a n v (aligned_in_granule hn ha)
  refine ⟨u.setCore g.toNat ((u.core g.toNat).advance 8), ?_, ⟨fun b => ?_, fun k b hk => ?_⟩, ?_, fun k hk => ?_⟩
  · rw [hc, access_single h.toIssues, hacc]
    rfl
  · rw [hsame, hin]
  · rw [hsame, hout k b hk]
  · rw [core_setCore, hadv, hu]
    rfl
  · rw [core_setCore_ne _ _ hk]
    exact orderGran_core_ne hk ..

/-- Settles O8: each store is the shared one of its size and source. -/
theorem scalarStores : Obligations.ScalarStores := by
  unfold Obligations.ScalarStores
  intro s g w q a stores
  refine ⟨fun h => ?scalar, fun h => ?address, fun h => ?descriptor⟩
  case scalar =>
    have store (n : Nat) (hn : n ∣ 64) {c : Instr} (hc : exec c s = .next (s.access g.toNat w (.store n false))) :
        stores c n (q.getS w.fb).toNat := fun ha hs hh =>
      store_completes (acc := .store n false) h hc hn ha (scalarAccess_store (accFault_none ha hs) hh)
    exact ⟨store 1 (by decide) rfl, store 2 (by decide) rfl, store 4 (by decide) rfl, store 8 (by decide) rfl⟩
  case address =>
    exact fun ha hs hh => store_completes (acc := .store 8 true) h rfl (by decide) ha
      (scalarAccess_store (accFault_none ha hs) hh)
  case descriptor =>
    exact fun ha hs hh => store_completes (acc := .dst) h rfl (by decide) ha (scalarAccess_dst (accFault_none ha hs) hh)

end Sys2Proof.Machine
end

/-!
PROOFS. Engine commands entering their queues, tickets and the system instructions (R62, R74 to R76, R89 to R93, R98 to
R105, R107).
-/
section
namespace Sys2Proof.Machine

/-! ## Fields of word 1 -/

theorem ofNat_w1f (w1 : Word64) (lo n : Nat) : BitVec.ofNat n (w1f w1 lo n) = w1.extractLsb' lo n := by
  refine BitVec.eq_of_toNat_eq ?_
  simp [w1f, bitsOf, BitVec.extractLsb'_toNat, Nat.shiftRight_eq_div_pow]

theorem w1f_one_eq (w1 : Word64) (lo : Nat) : decide (w1f w1 lo 1 = 1) = w1.getLsbD lo := by
  simp [w1f, bitsOf, BitVec.getLsbD, Nat.testBit_eq_decide_div_mod_eq]

/-! ## A command enters its queue -/

/-- A command that can be issued is queued, and the sequencer goes on after it. -/
theorem issueEngine_queues {s : State} {g : Gcn} {i : EngineIssue} {len : Nat} (h : CanIssue s g i len) :
    s.issueEngine g.toNat true i = s.setCore g.toNat
      (let d := (s.core g.toNat).enqueue i
       { d with seq := { d.seq with
          pc := (s.core g.toNat).seq.pc + BitVec.ofNat 16 len, ord := (s.core g.toNat).seq.ord + 1 } }) := by
  have hd : i.word.dbl = true → (s.core g.toNat).seq.pc ≠ 0xFFF8#16 := by
    intro hw e
    have hr := h.room
    rw [← h.length, e] at hr
    simp [wordBytes, hw] at hr
  have hadv := advance_room ((s.core g.toNat).enqueue i) len (by rw [enqueue_pc]; exact h.room)
  rw [enqueue_pc, enqueue_ord] at hadv
  rw [State.issueEngine, engineIssue_free h.steady h.valid h.free]
  simp only [State.issue, h.running, h.kept, h.guard, h.word1, h.length]
  by_cases hw : i.word.dbl = true
  · simp [State.finish, hadv, hd hw]
  · simp [State.finish, hadv, hw]

/-- The vector queue's new entry (R75, R92). -/
theorem enqueue_vec (c : Core) (op : VOp) (w : Word0) (w1 : Word64) : c.enqueue (.vec op w w1) =
    { c with
      seq := { c.seq with vIssued := c.seq.vIssued + 1 }
      vec := { c.vec with queue := c.vec.queue ++
        [⟨c.seq.vIssued + 1, c.seq.ord, c.seq.pc, op, w, if w.dbl then c.seq.getD (w1.extractLsb' 59 5) else 0,
          if w.dbl then c.seq.getS (w1.extractLsb' 54 5) else 0, c.seq.seed⟩] } } := by
  simp only [← ofNat_w1f]
  rfl

/-- The ferry queue's new entry (R75, R93). -/
theorem enqueue_fer (c : Core) (op : FOp) (w : Word0) (w1 : Word64) : c.enqueue (.fer op w w1) =
    { c with
      seq := { c.seq with fIssued := c.seq.fIssued + 1 }
      fer := { c.fer with queue := c.fer.queue ++
        [⟨c.seq.fIssued + 1, c.seq.ord, c.seq.pc, op, w1.extractLsb' 47 2, c.seq.getD (w1.extractLsb' 59 5),
          c.seq.getD (w1.extractLsb' 54 5), c.seq.getD (w1.extractLsb' 49 5), c.seq.seed⟩] } } := by
  simp only [← ofNat_w1f]
  rfl

/-- A core with a matrix command added to its queue, and the mode that the next one finds (R75, R90). -/
def Core.enqueueMat (c : Core) (op : MOp) (qs : Lane4) (quad : Bool) : Core :=
  { c with
    seq := { c.seq with mIssued := c.seq.mIssued + 1, quad := quad }
    mat := { c.mat with queue := c.mat.queue ++ [⟨c.seq.mIssued + 1, c.seq.ord, c.seq.pc, qs, c.seq.seed, op⟩] } }

theorem enqueue_mwl (c : Core) (w : Word0) (w1 : Word64) : c.enqueue (.mat .mwl w w1) =
    c.enqueueMat (.mwl (c.seq.getD (w1.extractLsb' 59 5))) (w1.extractLsb' 57 2) c.seq.quad := by
  simp only [← ofNat_w1f]
  rfl

theorem enqueue_mtile (c : Core) (w : Word0) (w1 : Word64) : c.enqueue (.mat .mtile w w1) =
    c.enqueueMat
      (.mtile { dact := c.seq.getD (w1.extractLsb' 59 5), dps := c.seq.getD (w1.extractLsb' 54 5)
                dout := c.seq.getD (w1.extractLsb' 49 5), depi := c.seq.getD (w1.extractLsb' 44 5)
                epi := w1.extractLsb' 42 2, tr := w1.getLsbD 41, init := w1.getLsbD 40, last := w1.getLsbD 39 })
      (w1.extractLsb' 37 2) c.seq.quad := by
  simp only [← ofNat_w1f, ← w1f_one_eq]
  rfl

theorem enqueue_mmode (c : Core) (w : Word0) (w1 : Word64) : c.enqueue (.mat .mmode w w1) =
    c.enqueueMat (.mmode (w.imm.getLsbD 0)) 0 (w.imm.getLsbD 0) := rfl

theorem completes_queued {s : State} {g : Gcn} {i : EngineIssue} {len : Nat} {c : Instr} {ok : Bool}
    (h : CanIssue s g i len) (hok : ok = true) (hc : exec c s = .next (s.issueEngine g.toNat ok i)) :
    Completes c s (fun t => CoreOnly s t g ∧ t.core g.toNat =
      let d := (s.core g.toNat).enqueue i
      { d with seq := { d.seq with
          pc := (s.core g.toNat).seq.pc + BitVec.ofNat 16 len, ord := (s.core g.toNat).seq.ord + 1 } }) :=
  ⟨_, hc.trans (by rw [hok, issueEngine_queues h]), coreOnly_setCore s g _, core_setCore ..⟩

/-! ## Vector instructions -/

/-- Each vector instruction is issued to the vector queue, with word 1 in its double forms. -/
theorem exec_vecInstr (g : Gcn) (w : Word0) (w1 : Word64) (op : VOp) (s : State) :
    exec (vecInstr g w w1 op) s =
      .next (s.issueEngine g.toNat (vecOk op w) (.vec op w (if (vRow op).1.dbl then w1 else 0))) := by
  cases op <;> rfl

/-- A legal word has the DBL of its operation's row. -/
theorem dbl_of_vecOk {op : VOp} {w : Word0} (h : vecOk op w = true) : (vRow op).1.dbl = w.dbl := by
  simp only [vecOk, Form.ok, Bool.and_eq_true, decide_eq_true_eq] at h
  exact h.1.1.1.1.1.1.1.1.1.symm

/-- Settles O11. -/
theorem vectorInstructionsEnterTheirQueue : Obligations.VectorInstructionsEnterTheirQueue := by
  unfold Obligations.VectorInstructionsEnterTheirQueue
  intro s g w w1 op c q y hok h
  have hexec := exec_vecInstr g w w1 op s
  rw [dbl_of_vecOk hok] at hexec
  have hcore : c.enqueue (.vec op w y) =
      { c with
        seq := { q with vIssued := q.vIssued + 1 }
        vec := { c.vec with queue := c.vec.queue ++
          [⟨q.vIssued + 1, q.ord, q.pc, op, w, if w.dbl then q.getD (w1.extractLsb' 59 5) else 0,
            if w.dbl then q.getS (w1.extractLsb' 54 5) else 0, q.seed⟩] } } := by
    rw [enqueue_vec]
    by_cases hd : w.dbl = true
    · simp only [y, hd, if_true]
      rfl
    · simp only [hd]
      rfl
  have hlen : BitVec.ofNat 16 (if w.dbl then 16 else 8) = if w.dbl then 16 else 8 := by split <;> rfl
  obtain ⟨t, ht, honly, hcr⟩ := completes_queued h hok hexec
  refine ⟨t, ht, honly, hcr.trans ?_⟩
  rw [show (s.core g.toNat).enqueue (.vec op w y) = _ from hcore, hlen]

/-! ## Ferry and matrix instructions -/

theorem exec_ferInstr (g : Gcn) (w : Word0) (w1 : Word64) (op : FOp) (s : State) :
    exec (ferInstr g w w1 op) s = .next (s.issueEngine g.toNat (ferOk w) (.fer op w w1)) := by
  cases op <;> rfl

/-- A matrix command that can be issued is queued, and the sequencer goes on after it. -/
theorem completes_queuedMat {s : State} {g : Gcn} {i : EngineIssue} {len : Nat} {c : Instr} {op : MOp} {qs : Lane4}
    {quad ok : Bool} (h : CanIssue s g i len) (hok : ok = true) (hc : exec c s = .next (s.issueEngine g.toNat ok i))
    (hi : (s.core g.toNat).enqueue i = (s.core g.toNat).enqueueMat op qs quad) :
    Completes c s (fun t => CoreOnly s t g ∧ t.core g.toNat =
      let d := (s.core g.toNat).enqueueMat op qs quad
      { d with seq := { d.seq with
          pc := (s.core g.toNat).seq.pc + BitVec.ofNat 16 len, ord := (s.core g.toNat).seq.ord + 1 } }) := by
  rw [← hi]
  exact completes_queued h hok hc

/-- Settles O12. -/
theorem ferryAndMatrixInstructionsEnterTheirQueues : Obligations.FerryAndMatrixInstructionsEnterTheirQueues := by
  unfold Obligations.FerryAndMatrixInstructionsEnterTheirQueues
  intro s g w w1 c q slot mat
  refine ⟨fun op hok h => ?fer, fun hok h => ?mwl, fun hok h => ?mtile, fun hok h => ?mmode⟩
  case fer =>
    obtain ⟨t, ht, honly, hcr⟩ := completes_queued h hok (exec_ferInstr g w w1 op s)
    rw [enqueue_fer] at hcr
    exact ⟨t, ht, honly, hcr⟩
  case mwl => exact completes_queuedMat h hok rfl (enqueue_mwl c w w1)
  case mtile => exact completes_queuedMat h hok rfl (enqueue_mtile c w w1)
  case mmode => exact completes_queuedMat h hok rfl (enqueue_mmode c w 0)

/-! ## An effect on the core -/

section
variable {s : State} {g : Gcn} {f : Form} {w : Word0} {c : Instr} {eff : Core → SeqRes} (h : Ready s g f w)
  (hf : f.dbl = false) (hc : exec c s = .next (s.issue1 g.toNat f w true eff))
include h hf hc

/-- An instruction whose effect is on its own core goes on after it. -/
theorem core_completes {d : Core} (he : eff (s.core g.toNat) = .core d) (hpc : d.seq.pc = (s.core g.toNat).seq.pc)
    (hord : d.seq.ord = (s.core g.toNat).seq.ord) :
    Completes c s (fun t => CoreOnly s t g ∧ t.core g.toNat =
      { d with seq := { d.seq with pc := (s.core g.toNat).seq.pc + 8, ord := (s.core g.toNat).seq.ord + 1 } }) := by
  have hroom : d.seq.pc.toNat + 8 < 0x10000 := by
    have := h.room
    rwa [wordBytes_of_ok h.legal, hf, ← hpc] at this
  have hadv := advance_room d 8 hroom
  rw [hpc, hord] at hadv
  refine ⟨_, hc, ?_⟩
  rw [issue1_single h.toIssues hf, he, State.finish, hadv]
  exact ⟨coreOnly_setCore s g _, core_setCore ..⟩

/-- An instruction with no effect changes nothing but the program counter. -/
theorem yields_nothing (he : eff (s.core g.toNat) = .core (s.core g.toNat)) : Yields c s g .none := by
  obtain ⟨t, ht, honly, hcore⟩ := core_completes h hf hc he rfl rfl
  refine ⟨t, ht, ⟨honly, ?_⟩, ?_, ?_⟩
  · rw [hcore]
  · rw [hcore]
    exact ⟨rfl, rfl, rfl, rfl⟩
  · rw [hcore]

/-- An instruction that stalls changes nothing but what the sequencer waits for. -/
theorem stall_completes {k : SeqCond} (he : eff (s.core g.toNat) = .stall (s.core g.toNat) k) :
    Completes c s (fun t => SeqOnly s t g ∧ (t.core g.toNat).seq = { (s.core g.toNat).seq with cond := k }) := by
  refine ⟨_, hc, ?_⟩
  rw [issue1_single h.toIssues hf, he]
  refine ⟨seqOnly_setCore s g _ rfl, ?_⟩
  rw [State.finish, core_setCore]
  rfl

end

/-! ## Tickets (R98 to R101) -/

theorem defFind_defPut (j k : Half) (v : Word32) (l : List (Half × Word32)) :
    defFind j (defPut k v l) = if j = k then some v else defFind j l := by
  induction l with
  | nil => simp [defPut, defFind, eq_comm]
  | cons x t ih =>
    obtain ⟨u, y⟩ := x
    by_cases huk : u = k
    · subst huk
      by_cases hj : j = u <;> simp [defPut, defFind, hj, eq_comm]
    · by_cases huj : u = j
      · subst huj
        simp [defPut, defFind, huk]
      · simp [defPut, defFind, huk, huj, ih]

/-- The sum recorded for a ticket. -/
def Seq.sumOf (q : Seq) (t : Half) : Nat := ((defFind t q.deferred).getD 0).toNat

/-- A seventeenth ticket, or a sum above 0xFFFF_FFFF (R100). -/
def Seq.overfull (q : Seq) (t : Half) (v : Word32) : Prop :=
  (defFind t q.deferred = none ∧ 16 ≤ q.deferred.length) ∨ 2 ^ 32 ≤ q.sumOf t + v.toNat

theorem recordIncrement_zero (c : Core) (t : Half) : recordIncrement c t 0 = .core c := by
  simp [recordIncrement]

theorem recordIncrement_overfull {c : Core} {t : Half} {v : Word32} (hv : v ≠ 0) (h : c.seq.overfull t v) :
    recordIncrement c t v = .fault cTICKET_LIMIT (t.toNat % 2 ^ 14) := by
  rw [recordIncrement, if_neg hv, if_pos (by simpa [Seq.overfull, Seq.sumOf] using h)]

theorem recordIncrement_records {c : Core} {t : Half} {v : Word32} (hv : v ≠ 0) (h : ¬ c.seq.overfull t v) :
    recordIncrement c t v =
      .core (c.upd (fun q => { q with deferred := defPut t ((defFind t c.seq.deferred).getD 0 + v) c.seq.deferred })) := by
  rw [recordIncrement, if_neg hv, if_neg (by simpa [Seq.overfull, Seq.sumOf] using h)]

/-- The increment recorded is added to its ticket's sum. -/
theorem sumOf_defPut {q q' : Seq} {t : Half} {v : Word32} (h : ¬ q.overfull t v)
    (hq : q'.deferred = defPut t ((defFind t q.deferred).getD 0 + v) q.deferred) (j : Half) :
    q'.sumOf j = if j = t then q.sumOf j + v.toNat else q.sumOf j := by
  have hlt : q.sumOf t + v.toNat < 2 ^ 32 := by
    by_contra hge
    exact h (.inr (Nat.le_of_not_lt hge))
  rw [Seq.sumOf, hq, defFind_defPut]
  split
  · next e =>
    subst e
    rw [Option.getD_some, BitVec.toNat_add]
    exact Nat.mod_eq_of_lt hlt
  · rfl

/-- What an instruction that records an increment comes to. -/
theorem increment_completes {s : State} {g : Gcn} {f : Form} {w : Word0} {c : Instr} {eff : Core → SeqRes} {k : Half}
    {v : Word32} (h : Ready s g f w) (hf : f.dbl = false) (hc : exec c s = .next (s.issue1 g.toNat f w true eff))
    (he : eff (s.core g.toNat) = recordIncrement (s.core g.toNat) k v) :
    let q := (s.core g.toNat).seq
    (v = 0 → Yields c s g .none) ∧
    (v ≠ 0 → q.overfull k v → Faults c s g cTICKET_LIMIT (k.toNat % 2 ^ 14)) ∧
    (v ≠ 0 → ¬ q.overfull k v → Completes c s (fun t => SeqOnly s t g ∧
      (t.core g.toNat).seq = { q with pc := q.pc + 8, ord := q.ord + 1, deferred := (t.core g.toNat).seq.deferred } ∧
      ∀ j, (t.core g.toNat).seq.sumOf j = if j = k then q.sumOf j + v.toNat else q.sumOf j)) := by
  refine ⟨fun hv => ?_, fun hv hfull => ?_, fun hv hfull => ?_⟩
  · exact yields_nothing h hf hc (he.trans (by rw [hv]; exact recordIncrement_zero ..))
  · exact faults_issue1 h.toIssues hf hc (he.trans (recordIncrement_overfull hv hfull))
  · obtain ⟨t, ht, honly, hcore⟩ := core_completes h hf hc (he.trans (recordIncrement_records hv hfull)) rfl rfl
    refine ⟨t, ht, ⟨honly, ?_⟩, ?_, sumOf_defPut hfull ?_⟩
    · rw [hcore]
      rfl
    · rw [hcore]
      rfl
    · rw [hcore]
      rfl

/-- Settles O14. -/
theorem ticketInstructions : Obligations.TicketInstructions := by
  unfold Obligations.TicketInstructions
  intro s g w q sum adds
  refine ⟨fun h => ?tadd, fun h => ?taddi, fun h => ?tread⟩
  case tadd => exact increment_completes (c := .tadd g w) h rfl rfl rfl
  case taddi =>
    refine increment_completes (c := .taddi g w) h rfl rfl ?_
    rw [← BitVec.setWidth_eq_extractLsb' (by decide)]
  case tread =>
    exact yields_setS h rfl (fun q => (s.ticket ((q.getS w.fa).toNat % 65536)).setWidth 64) rfl

/-! ## WRCSR (R57, R60, R62, R105) -/

/-- The effect of a WRCSR on its core. -/
def wrcsrEffect (w : Word0) (c : Core) : SeqRes :=
  let n := w.imm.toNat % 65536
  let v := csrVal n (c.seq.getS w.fa)
  if csrRefused n v then .fault cCSR_RANGE (n % 2 ^ 14) else .core (c.csrPut n v)

theorem exec_wrcsr {s : State} {g : Gcn} {w : Word0} (hreg : (s.coreReg g.toNat (w.imm.toNat % 65536)).isSome = true) :
    exec (.wrcsr g w) s = .next (s.issue1 g.toNat ⟨false, .none, .s, .none⟩ w true (wrcsrEffect w)) := by
  rw [← hreg]
  rfl

section
variable {s : State} {g : Gcn} {w : Word0} {n : Nat} (h : Ready s g ⟨false, .none, .s, .none⟩ w)
  (hn : w.imm.toNat % 65536 = n) (hreg : (s.coreReg g.toNat n).isSome = true)
include h hn hreg

/-- A WRCSR that passes its checks writes its register and goes on. -/
theorem wrcsr_completes {v : Nat} {d : Core} (hv : csrVal n ((s.core g.toNat).seq.getS w.fa) = v)
    (hok : csrRefused n v = false) (hd : (s.core g.toNat).csrPut n v = d)
    (hpc : d.seq.pc = (s.core g.toNat).seq.pc) (hord : d.seq.ord = (s.core g.toNat).seq.ord) :
    Completes (.wrcsr g w) s (fun t => CoreOnly s t g ∧ t.core g.toNat =
      { d with seq := { d.seq with pc := (s.core g.toNat).seq.pc + 8, ord := (s.core g.toNat).seq.ord + 1 } }) := by
  refine core_completes h rfl (exec_wrcsr (by rw [hn]; exact hreg)) ?_ hpc hord
  rw [wrcsrEffect, hn, hv, hok, hd]
  rfl

/-- A WRCSR that sets a reserved bit, or a BASE out of range, raises CSR_RANGE. -/
theorem wrcsr_refused (hno : csrRefused n (csrVal n ((s.core g.toNat).seq.getS w.fa)) = true) :
    Faults (.wrcsr g w) s g cCSR_RANGE (n % 2 ^ 14) := by
  refine faults_issue1 h.toIssues rfl (exec_wrcsr (by rw [hn]; exact hreg)) ?_
  rw [wrcsrEffect, hn, hno]
  rfl

end

/-- A write of a register that no write changes leaves the core as it was. -/
theorem csrPut_other (c : Core) {n : Nat} (v : Nat) (h : n ∉ [0x0108, 0x1100, 0x2100, 0x3100, 0x1104, 0x2104]) :
    c.csrPut n v = c := by
  simp only [List.mem_cons, List.not_mem_nil, or_false, not_or] at h
  obtain ⟨h1, h2, h3, h4, h5, h6⟩ := h
  unfold Core.csrPut
  split
  iterate 6 · contradiction
  rfl

/-- BASE of an accepted value of HIST_CTRL is in range (R60). -/
theorem baseOk_of_accepted {n v : Nat} (hn : n = 0x1104 ∨ n = 0x2104) (h : csrRefused n v = false) : baseOk v = true := by
  simp only [csrRefused, Bool.or_eq_false_iff, Bool.and_eq_false_iff] at h
  rcases h.2 with h | h
  · rcases hn with rfl | rfl <;> simp at h
  · simpa using h

/-- The low bits of a value written to a 32-bit register. -/
theorem ofNat_mod_low (v : Word64) {k : Nat} (hk : k ≤ 32) : BitVec.ofNat k (v.toNat % 2 ^ 32) = v.setWidth k := by
  refine BitVec.eq_of_toNat_eq ?_
  rw [BitVec.toNat_ofNat, BitVec.toNat_setWidth]
  exact Nat.mod_mod_of_dvd _ (Nat.pow_dvd_pow 2 hk)

/-- What a write of HIST_CTRL does to the histogram: BASE, and with CLR at 1 the clear (R60, R62). -/
theorem writeCtrl_accepted (x : Hist) (counting : Bool) (v : Word64) (hb : baseOk (v.toNat % 2 ^ 32) = true) :
    x.writeCtrl counting (BitVec.ofNat 32 (v.toNat % 2 ^ 32)) =
      let y : Hist := { x with base := v.setWidth 10 }
      if v.getLsbD 16 then
        (if counting then { y with clrWait := true } else { y with bins := [], satd := false, clrWait := false })
      else y := by
  have hbits : (BitVec.ofNat 32 (v.toNat % 2 ^ 32)).toNat = v.toNat % 2 ^ 32 := by simp
  have hfield : toSigned (bitsOf (v.toNat % 2 ^ 32) 0 10) 10 = toSigned (v.toNat % 2 ^ 32) 10 := by
    simp [toSigned, bitsOf]
  have hclr : (BitVec.ofNat 32 (v.toNat % 2 ^ 32)).getLsbD 16 = v.getLsbD 16 := by
    rw [ofNat_mod_low v (Nat.le_refl 32), BitVec.getLsbD_setWidth]
    simp
  have hrange : -160 ≤ toSigned (v.toNat % 2 ^ 32) 10 ∧ toSigned (v.toNat % 2 ^ 32) 10 ≤ 100 := of_decide_eq_true hb
  simp only [Hist.writeCtrl, hbits, hfield, ofNat_mod_low v (show 10 ≤ 32 by decide), hclr]
  rw [if_pos hrange]
  rfl

/-- A 32-bit register takes the low 32 bits of the value (log entry 133). -/
theorem csrVal_narrow {n : Nat} (v : Word64) (h : csrWide n = false) : csrVal n v = v.toNat % 2 ^ 32 := by
  simp [csrVal, h]

/-- A write of an engine's FLAGS with no reserved bit is accepted. -/
theorem flags_accepted : (∀ v < 16, csrRefused 0x1100 v = false) ∧ (∀ v < 32, csrRefused 0x2100 v = false) ∧
    ∀ v < 16, csrRefused 0x3100 v = false := by decide

/-- Settles O15. -/
theorem systemInstructions : Obligations.SystemInstructions := by
  unfold Obligations.SystemInstructions
  intro s g w c q n v next ctrl
  refine ⟨fun h => ⟨?nop, ?fault, ?ending⟩, fun h => ⟨?time, fun r hr => ?csr⟩,
    fun h => ⟨?seed, fun hn => ?csrSeed, fun hn hv => ?matFlags, fun hn hv => ?vecFlags, fun hn hv => ?ferFlags,
      fun hn hv => ?matHist, fun hn hv => ?vecHist, fun hr hn hok => ?other, fun hr hno => wrcsr_refused h rfl hr hno⟩⟩
  case nop => exact yields_nothing h rfl (c := .nop g w) rfl rfl
  case fault => exact faults_issue1 h.toIssues rfl (c := .faultSw g w) rfl rfl
  case ending => exact stall_completes h rfl (c := .endKernel g w) rfl rfl
  case time => exact yields_setS h rfl (fun _ => BitVec.ofNat 64 s.tt.now) rfl
  case csr =>
    refine yields_setS h rfl (fun _ => BitVec.ofNat 64 r) ?_
    show Host.Outcome.next (s.issue1 g.toNat _ w (s.coreReg g.toNat n).isSome (fun c => .core (c.upd (fun q =>
      q.setS w.fd (BitVec.ofNat 64 ((s.coreReg g.toNat n).getD 0)))))) = _
    rw [hr]
    rfl
  case seed => exact core_completes h rfl (c := .setseed g w) rfl rfl rfl rfl
  case csrSeed =>
    refine wrcsr_completes h hn rfl (v := v.toNat) rfl (by simp [csrRefused, csrReserved]) ?_ rfl rfl
    rw [Core.csrPut, BitVec.ofNat_toNat, BitVec.setWidth_eq]
  case matFlags =>
    obtain ⟨hmat, _, _⟩ := flags_accepted
    refine wrcsr_completes h hn rfl (csrVal_narrow v rfl) (hmat _ hv) ?_ rfl rfl
    rw [Core.csrPut, clearBits, ofNat_mod_low v (by decide)]
  case vecFlags =>
    obtain ⟨_, hvec, _⟩ := flags_accepted
    refine wrcsr_completes h hn rfl (csrVal_narrow v rfl) (hvec _ hv) ?_ rfl rfl
    rw [Core.csrPut, clearBits, ofNat_mod_low v (by decide)]
  case ferFlags =>
    obtain ⟨_, _, hfer⟩ := flags_accepted
    refine wrcsr_completes h hn rfl (csrVal_narrow v rfl) (hfer _ hv) ?_ rfl rfl
    rw [Core.csrPut, clearBits, ofNat_mod_low v (by decide)]
  case matHist =>
    rw [hn] at hv
    refine wrcsr_completes h hn rfl (csrVal_narrow v rfl) hv ?_ rfl rfl
    rw [Core.csrPut, writeCtrl_accepted _ _ v (baseOk_of_accepted (.inl rfl) hv)]
  case vecHist =>
    rw [hn] at hv
    refine wrcsr_completes h hn rfl (csrVal_narrow v rfl) hv ?_ rfl rfl
    rw [Core.csrPut, writeCtrl_accepted _ _ v (baseOk_of_accepted (.inr rfl) hv)]
  case other =>
    exact wrcsr_completes h rfl hr rfl hok (csrPut_other c _ hn) rfl rfl

end Sys2Proof.Machine
end

/-!
PROOFS. The encoding of the sequencer's instructions: the fields of a word 0 are read back from it, a word 0 is made
of the fields read from it, and each class's table of operations reads back the instruction whose operation it holds
(O58).
-/
section
namespace Sys2Proof

/-! ## Word 0 (Table 3-3) -/

theorem toNat_append_eq_add {m n : Nat} (x : BitVec m) (y : BitVec n) :
    (x ++ y).toNat = x.toNat * 2 ^ n + y.toNat := by
  rw [BitVec.toNat_append, ← Nat.shiftLeft_add_eq_or_of_lt y.isLt, Nat.shiftLeft_eq]

theorem toNat_extractLsb'_eq_div {n : Nat} (x : BitVec n) (i k : Nat) :
    (x.extractLsb' i k).toNat = x.toNat / 2 ^ i % 2 ^ k := by
  rw [BitVec.extractLsb'_toNat, Nat.shiftRight_eq_div_pow]

theorem getLsbD_eq_of_toNat {n : Nat} (x : BitVec n) (i : Nat) (b : Bool) (h : x.toNat / 2 ^ i % 2 = b.toNat) :
    x.getLsbD i = b := by
  rw [BitVec.getLsbD, Nat.testBit_eq_decide_div_mod_eq, h]
  cases b <;> rfl

theorem toNat_getLsbD {n : Nat} (x : BitVec n) (i : Nat) : (x.getLsbD i).toNat = x.toNat / 2 ^ i % 2 := by
  rw [BitVec.getLsbD, Nat.toNat_testBit]

/-- Word 0 as a number, which the positions of its fields give. -/
theorem toNat_encode (cls : BitVec 4) (op : BitVec 6) (w : Word0) :
    (w.encode cls op).toNat = cls.toNat * 2 ^ 60 + op.toNat * 2 ^ 54 + w.dbl.toNat * 2 ^ 53 + w.pn.toNat * 2 ^ 52 +
      w.pg.toNat * 2 ^ 49 + w.rsv.toNat * 2 ^ 47 + w.fd.toNat * 2 ^ 42 + w.fa.toNat * 2 ^ 37 +
      w.fb.toNat * 2 ^ 32 + BitVec.toNat w.imm := by
  simp only [Word0.encode, toNat_append_eq_add, BitVec.toNat_ofBool]
  omega

@[simp] theorem wordCls_encode (cls : BitVec 4) (op : BitVec 6) (w : Word0) : wordCls (w.encode cls op) = cls := by
  apply BitVec.eq_of_toNat_eq
  rw [wordCls, toNat_extractLsb'_eq_div, toNat_encode]
  have := w.dbl.toNat_le; have := w.pn.toNat_le
  omega

@[simp] theorem wordOp_encode (cls : BitVec 4) (op : BitVec 6) (w : Word0) : wordOp (w.encode cls op) = op := by
  apply BitVec.eq_of_toNat_eq
  rw [wordOp, toNat_extractLsb'_eq_div, toNat_encode]
  have := w.dbl.toNat_le; have := w.pn.toNat_le
  omega

@[simp] theorem wordFields_encode (cls : BitVec 4) (op : BitVec 6) (w : Word0) :
    wordFields (w.encode cls op) = w := by
  obtain ⟨dbl, pn, pg, rsv, fd, fa, fb, imm⟩ := w
  have hd := dbl.toNat_le; have hp := pn.toNat_le
  simp only [wordFields, Word0.mk.injEq, ← BitVec.toNat_inj, toNat_extractLsb'_eq_div, toNat_encode]
  refine ⟨getLsbD_eq_of_toNat _ _ _ ?_, getLsbD_eq_of_toNat _ _ _ ?_, ?_, ?_, ?_, ?_, ?_, ?_⟩
  · simp only [toNat_encode]; omega
  · simp only [toNat_encode]; omega
  all_goals omega

theorem div_eq_digit_add (n a b : Nat) : n / 2 ^ a = n / 2 ^ (a + b) * 2 ^ b + n / 2 ^ a % 2 ^ b := by
  rw [pow_add, ← Nat.div_div_eq_div_mul, Nat.div_add_mod']

theorem encode_wordFields (x : Word64) : (wordFields x).encode (wordCls x) (wordOp x) = x := by
  apply BitVec.eq_of_toNat_eq
  simp only [toNat_encode, wordFields, wordCls, wordOp, toNat_extractLsb'_eq_div, toNat_getLsbD]
  have hcls : x.toNat / 2 ^ 60 % 2 ^ 4 = x.toNat / 2 ^ 60 := Nat.mod_eq_of_lt (by omega)
  have h0 := div_eq_digit_add x.toNat 0 32
  have h32 := div_eq_digit_add x.toNat 32 5
  have h37 := div_eq_digit_add x.toNat 37 5
  have h42 := div_eq_digit_add x.toNat 42 5
  have h47 := div_eq_digit_add x.toNat 47 2
  have h49 := div_eq_digit_add x.toNat 49 3
  have h52 := div_eq_digit_add x.toNat 52 1
  have h53 := div_eq_digit_add x.toNat 53 1
  have h54 := div_eq_digit_add x.toNat 54 6
  simp only [Nat.reduceAdd, pow_zero, pow_one, Nat.div_one] at h0 h32 h37 h42 h47 h49 h52 h53 h54 ⊢
  linarith only [hcls, h0, h32, h37, h42, h47, h49, h52, h53, h54]

/-! ## The tables of operations -/

theorem decodeRow_of_parts (i : Instr) : Laws.RowRoundTrip.Statement i := by
  intro g cls op w y h
  cases i
  all_goals cases h
  all_goals rfl

/-- An instruction is the one that core, class, operation, fields and word 1 name, its word 1 being y or none. -/
def Instr.Spells (i : Instr) (g : Gcn) (cls : BitVec 4) (op : BitVec 6) (w : Word0) (y : Word64) : Prop :=
  i.parts = some (g, cls, op, w, y) ∨ i.parts = some (g, cls, op, w, 0)

section
variable {i : Instr} {g : Gcn} {cls : BitVec 4} {op : BitVec 6} {w : Word0} {y : Word64}

theorem spells_single {n : Nat} (hop : op.toNat = n) (h : i.parts = some (g, cls, BitVec.ofNat 6 n, w, 0)) :
    i.Spells g cls op w y := by
  subst hop
  exact .inr (by simpa using h)

theorem spells_double {n : Nat} (hop : op.toNat = n) (h : i.parts = some (g, cls, BitVec.ofNat 6 n, w, y)) :
    i.Spells g cls op w y := by
  subst hop
  exact .inl (by simpa using h)

theorem spells_of_decodeArith (h : decodeArith g op.toNat w = some i) : i.Spells g 0 op w y := by
  unfold decodeArith at h
  split at h <;> cases h
  all_goals exact spells_single ‹_› rfl

theorem spells_of_decodeBranch (h : decodeBranch g op.toNat w = some i) : i.Spells g 1 op w y := by
  unfold decodeBranch at h
  split at h <;> cases h
  all_goals exact spells_single ‹_› rfl

theorem spells_of_decodeMem (h : decodeMem g op.toNat w = some i) : i.Spells g 2 op w y := by
  unfold decodeMem at h
  split at h <;> cases h
  all_goals exact spells_single ‹_› rfl

theorem spells_of_decodeDesc (h : decodeDesc g op.toNat w = some i) : i.Spells g 3 op w y := by
  unfold decodeDesc at h
  split at h <;> cases h
  all_goals exact spells_single ‹_› rfl

theorem spells_of_decodeWait (h : decodeWait g op.toNat w = some i) : i.Spells g 7 op w y := by
  unfold decodeWait at h
  split at h <;> cases h
  all_goals exact spells_single ‹_› rfl

theorem spells_of_decodeTicket (h : decodeTicket g op.toNat w = some i) : i.Spells g 8 op w y := by
  unfold decodeTicket at h
  split at h <;> cases h
  all_goals exact spells_single ‹_› rfl

theorem spells_of_decodeSystem (h : decodeSystem g op.toNat w = some i) : i.Spells g 9 op w y := by
  unfold decodeSystem at h
  split at h <;> cases h
  all_goals exact spells_single ‹_› rfl

theorem spells_of_decodeMatrix (h : decodeMatrix g op.toNat w y = some i) : i.Spells g 4 op w y := by
  unfold decodeMatrix at h
  split at h <;> cases h
  case h_3 => exact spells_single ‹_› rfl
  all_goals exact spells_double ‹_› rfl

theorem spells_of_decodeFerry (h : decodeFerry g op.toNat w y = some i) : i.Spells g 6 op w y := by
  unfold decodeFerry at h
  split at h <;> cases h
  all_goals exact spells_double ‹_› rfl

/-- VLD, VST, VRAND and VDROP have a word 1 (Table 5-2). -/
theorem spells_of_decodeVector (h : decodeVector g op.toNat w y = some i) : i.Spells g 5 op w y := by
  unfold decodeVector at h
  split at h <;> cases h
  case h_1 | h_2 | h_40 | h_41 => exact spells_double ‹_› rfl
  all_goals exact spells_single ‹_› rfl

/-- The tables of operations by class (Table 3-5). -/
theorem spells_of_decodeRow (h : decodeRow g cls op w y = some i) : i.Spells g cls op w y := by
  have hcls {n : Nat} (hn : cls.toNat = n) : cls = BitVec.ofNat 4 n := by simp [← hn]
  unfold decodeRow at h
  split at h
  next hn => exact hcls hn ▸ spells_of_decodeArith h
  next hn => exact hcls hn ▸ spells_of_decodeBranch h
  next hn => exact hcls hn ▸ spells_of_decodeMem h
  next hn => exact hcls hn ▸ spells_of_decodeDesc h
  next hn => exact hcls hn ▸ spells_of_decodeMatrix h
  next hn => exact hcls hn ▸ spells_of_decodeVector h
  next hn => exact hcls hn ▸ spells_of_decodeFerry h
  next hn => exact hcls hn ▸ spells_of_decodeWait h
  next hn => exact hcls hn ▸ spells_of_decodeTicket h
  next hn => exact hcls hn ▸ spells_of_decodeSystem h
  next => cases h

theorem words_of_parts (h : i.parts = some (g, cls, op, w, y)) : i.words = some (w.encode cls op, y) := by
  rw [Instr.words, h]
  rfl
end

/-- Settles O58: the fields of word 0 are read back from it and make it up, and a row of an operation table is that
of the instruction it names. -/
theorem wordsAndInstructionsAgree : Obligations.WordsAndInstructionsAgree := by
  unfold Obligations.WordsAndInstructionsAgree
  constructor
  · intro i g cls op w w1 h
    simpa [decodeWords] using decodeRow_of_parts i g cls op w w1 h
  · intro g x y i h
    have hx := encode_wordFields x
    rcases spells_of_decodeRow h with hp | hp
    · exact .inl (hx ▸ words_of_parts hp)
    · exact .inr (hx ▸ words_of_parts hp)

end Sys2Proof
end

/-!
PROOFS. An instruction as it is issued: each asks whether its words are legal, against its table's row, before its
guard (O56).
-/
section
namespace Sys2Proof.Machine

/-- Executing i on s issues it on core g with word 0 w, legal as said. -/
def Issued (i : Instr) (s : State) (g : Gcn) (w : Word0) (legal : Bool) : Prop :=
  ∃ ok ok1 eff, exec i s = .next (s.issue g.toNat w ok ok1 eff) ∧ (ok && ok1) = legal

section
variable {i : Instr} {s : State} {g : Gcn} {cls : BitVec 4} {op : BitVec 6} {w : Word0} {w1 : Word64}

theorem issued_issue1 {f : Form} {ok : Bool} {eff : Core → SeqRes}
    (h : exec i s = .next (s.issue1 g.toNat f w ok eff)) : Issued i s g w (f.ok w && ok) :=
  ⟨_, _, _, h, Bool.and_true _⟩

/-! ## The classes -/

theorem issued_arith (hp : i.parts = some (g, 0, op, w, w1)) : Issued i s g w (legalWords s g 0 op.toNat w w1) := by
  have h : decodeArith g op.toNat w = some i := decodeRow_of_parts i _ _ _ _ _ hp
  unfold decodeArith at h
  split at h <;> cases h <;> cases hp
  all_goals exact issued_issue1 rfl

theorem issued_branch (hp : i.parts = some (g, 1, op, w, w1)) : Issued i s g w (legalWords s g 1 op.toNat w w1) := by
  have h : decodeBranch g op.toNat w = some i := decodeRow_of_parts i _ _ _ _ _ hp
  unfold decodeBranch at h
  split at h <;> cases h <;> cases hp
  all_goals exact issued_issue1 rfl

theorem issued_mem (hp : i.parts = some (g, 2, op, w, w1)) : Issued i s g w (legalWords s g 2 op.toNat w w1) := by
  have h : decodeMem g op.toNat w = some i := decodeRow_of_parts i _ _ _ _ _ hp
  unfold decodeMem at h
  split at h <;> cases h <;> cases hp
  all_goals exact ⟨_, _, _, rfl, rfl⟩

theorem issued_desc (hp : i.parts = some (g, 3, op, w, w1)) : Issued i s g w (legalWords s g 3 op.toNat w w1) := by
  have h : decodeDesc g op.toNat w = some i := decodeRow_of_parts i _ _ _ _ _ hp
  unfold decodeDesc at h
  split at h <;> cases h <;> cases hp
  case h_1 | h_2 => exact ⟨_, _, _, rfl, rfl⟩
  all_goals exact issued_issue1 rfl

theorem issued_matrix (hp : i.parts = some (g, 4, op, w, w1)) : Issued i s g w (legalWords s g 4 op.toNat w w1) := by
  have h : decodeMatrix g op.toNat w w1 = some i := decodeRow_of_parts i _ _ _ _ _ hp
  unfold decodeMatrix at h
  split at h <;> cases h <;> cases hp
  case h_3 => exact ⟨_, _, _, rfl, Bool.and_true _⟩
  all_goals exact ⟨_, _, _, rfl, rfl⟩

theorem issued_vector (hp : i.parts = some (g, 5, op, w, w1)) : Issued i s g w (legalWords s g 5 op.toNat w w1) := by
  have h : decodeVector g op.toNat w w1 = some i := decodeRow_of_parts i _ _ _ _ _ hp
  unfold decodeVector at h
  split at h <;> cases h <;> cases hp
  all_goals exact ⟨_, _, _, rfl, rfl⟩

theorem issued_ferry (hp : i.parts = some (g, 6, op, w, w1)) : Issued i s g w (legalWords s g 6 op.toNat w w1) := by
  have h : decodeFerry g op.toNat w w1 = some i := decodeRow_of_parts i _ _ _ _ _ hp
  unfold decodeFerry at h
  split at h <;> cases h <;> cases hp
  all_goals exact ⟨_, _, _, rfl, rfl⟩

theorem issued_wait (hp : i.parts = some (g, 7, op, w, w1)) : Issued i s g w (legalWords s g 7 op.toNat w w1) := by
  have h : decodeWait g op.toNat w = some i := decodeRow_of_parts i _ _ _ _ _ hp
  unfold decodeWait at h
  split at h <;> cases h <;> cases hp
  all_goals exact issued_issue1 rfl

theorem issued_ticket (hp : i.parts = some (g, 8, op, w, w1)) : Issued i s g w (legalWords s g 8 op.toNat w w1) := by
  have h : decodeTicket g op.toNat w = some i := decodeRow_of_parts i _ _ _ _ _ hp
  unfold decodeTicket at h
  split at h <;> cases h <;> cases hp
  all_goals exact issued_issue1 rfl

theorem issued_system (hp : i.parts = some (g, 9, op, w, w1)) : Issued i s g w (legalWords s g 9 op.toNat w w1) := by
  have h : decodeSystem g op.toNat w = some i := decodeRow_of_parts i _ _ _ _ _ hp
  unfold decodeSystem at h
  split at h <;> cases h <;> cases hp
  all_goals exact issued_issue1 rfl

/-- Every instruction is issued with its words' legality (R71). -/
theorem issued_of_parts (hp : i.parts = some (g, cls, op, w, w1)) :
    Issued i s g w (legalWords s g cls.toNat op.toNat w w1) := by
  have h := decodeRow_of_parts i _ _ _ _ _ hp
  have hcls {n : Nat} (hn : cls.toNat = n) : cls = BitVec.ofNat 4 n := by simp [← hn]
  unfold decodeRow at h
  split at h
  next hn => cases hcls hn; exact issued_arith hp
  next hn => cases hcls hn; exact issued_branch hp
  next hn => cases hcls hn; exact issued_mem hp
  next hn => cases hcls hn; exact issued_desc hp
  next hn => cases hcls hn; exact issued_matrix hp
  next hn => cases hcls hn; exact issued_vector hp
  next hn => cases hcls hn; exact issued_ferry hp
  next hn => cases hcls hn; exact issued_wait hp
  next hn => cases hcls hn; exact issued_ticket hp
  next hn => cases hcls hn; exact issued_system hp
  next => cases h

/-! ## What is issued with a false guard -/

section
variable {ok ok1 : Bool} {eff : SeqRes} (hroom : (s.core g.toNat).seq.pc.toNat + wordBytes w < 0x10000)
include hroom

/-- A double form that does not reach beyond the instruction memory does not stand at its last word. -/
theorem dbl_not_at_end : (w.dbl && (s.core g.toNat).seq.pc = 0xFFF8) = false := by
  cases hd : w.dbl with
  | false => rfl
  | true =>
    have hpc : (s.core g.toNat).seq.pc ≠ 0xFFF8 := by
      intro hpc
      simp [wordBytes, hd, hpc] at hroom
    simpa using hpc

variable (hrun : (s.core g.toNat).seq.cond = .running) (hkept : (s.core g.toNat).cancel = false)
include hrun hkept

theorem issue_illegal (h : (ok && ok1) = false) :
    s.issue g.toNat w ok ok1 eff = s.finish g.toNat 0 (.fault cILLEGAL 0) := by
  have hend := dbl_not_at_end hroom
  cases ok with
  | false => simp [State.issue, hrun, hkept]
  | true => simp_all [State.issue]

theorem issue_guarded (h : (ok && ok1) = true) (hguard : (s.core g.toNat).seq.guard w = false) :
    s.issue g.toNat w ok ok1 eff = s.finish g.toNat (wordBytes w) (.core (s.core g.toNat)) := by
  have hend := dbl_not_at_end hroom
  simp_all [State.issue]
end
end

/-- Settles O56: an instruction is issued with its words' legality, which is asked before its guard. -/
theorem aFalseGuardLeavesANoOp : Obligations.AFalseGuardLeavesANoOp := by
  unfold Obligations.AFalseGuardLeavesANoOp
  intro i g cls op w w1 s hp hrun hkept hguard hroom
  obtain ⟨ok, ok1, eff, hexec, hlegal⟩ := issued_of_parts (s := s) hp
  constructor
  · intro h
    refine ⟨_, hexec, ?_⟩
    rw [issue_guarded hroom hrun hkept (hlegal.trans h) hguard]
    exact retires_upd _ rfl id _ .none hroom ⟨rfl, rfl, rfl, rfl⟩ rfl
  · intro h
    refine ⟨_, hexec, ?_⟩
    rw [issue_illegal hroom hrun hkept (hlegal.trans h)]
    exact raises_finish ..

end Sys2Proof.Machine
end

/-!
PROOFS. Completing and resuming commands of the matrix engine (O19): what a core that stops leaves marked, what is
counted, and what a completion leaves of the array.
-/
section
namespace Sys2Proof.Machine

/-! ## Marks settled once the engines have stopped (R405) -/

theorem coreOnly_trans {s t u : State} {g : Gcn} (h : CoreOnly s t g) (k : CoreOnly t u g) : CoreOnly s u g := by
  obtain ⟨hst, hne⟩ := h
  obtain ⟨htu, kne⟩ := k
  refine ⟨?_, fun j hj => (kne j hj).trans (hne j hj)⟩
  rw [htu, hst]

theorem sameBytes_trans {s t u : State} (h : SameBytes s t) (k : SameBytes t u) : SameBytes s u :=
  fun l b => (k l b).trans (h l b)

theorem sameBytes_refl (s : State) : SameBytes s s := fun _ _ => rfl

/-- A core stored with the bytes that its scratchpad had leaves every byte as it was. -/
theorem sameBytes_setCore_cells (s : State) (g : Nat) (c : Core) (h : c.lsp.cells = (s.core g).lsp.cells) :
    SameBytes s (s.setCore g c) := by
  intro l b
  cases l with
  | lsp k =>
    simp only [State.readByte, State.store, core_setCore_eq]
    split
    case isTrue hk => rw [h, hk]
    case isFalse => rfl
  | quay d => rfl
  | dmem => rfl

theorem settleMarks_cases (s : State) (g : Nat) :
    s.settleMarks g = s ∨ s.settleMarks g = s.setCore g (s.core g).poisonMarked := by
  unfold State.settleMarks
  split
  · exact .inr rfl
  · exact .inl rfl

theorem coreOnly_refl (s : State) (g : Gcn) : CoreOnly s s g := ⟨rfl, fun _ _ => rfl⟩

theorem coreOnly_settleMarks (s : State) (g : Gcn) : CoreOnly s (s.settleMarks g.toNat) g := by
  rcases settleMarks_cases s g.toNat with h | h <;> rw [h]
  · exact coreOnly_refl s g
  · exact coreOnly_setCore s g _

theorem sameBytes_settleMarks (s : State) (g : Nat) : SameBytes s (s.settleMarks g) := by
  rcases settleMarks_cases s g with h | h <;> rw [h]
  · exact sameBytes_refl s
  · exact sameBytes_setCore_cells s g _ rfl

@[simp] theorem seq_settleMarks (s : State) (g : Nat) : ((s.settleMarks g).core g).seq = (s.core g).seq := by
  rcases settleMarks_cases s g with h | h <;> rw [h]
  rw [core_setCore]
  rfl

@[simp] theorem mat_settleMarks (s : State) (g : Nat) : ((s.settleMarks g).core g).mat = (s.core g).mat := by
  rcases settleMarks_cases s g with h | h <;> rw [h]
  rw [core_setCore]
  rfl

@[simp] theorem vec_settleMarks (s : State) (g : Nat) : ((s.settleMarks g).core g).vec = (s.core g).vec := by
  rcases settleMarks_cases s g with h | h <;> rw [h]
  rw [core_setCore]
  rfl

/-! ## Completion counts (R77) -/

/-- The next command in order completes with nothing above it done: the count is its number. -/
theorem prefixCount_next (n : Word32) : prefixCount n [n + 1] 1 = (n + 1, []) := by
  simp [prefixCount]

theorem matDone_next {c : Core} {n : Word32} (hdone : c.mat.done = []) (hn : n = c.seq.mec + 1) :
    c.matDone n = { c with seq := { c.seq with mec := n } } := by
  have hr : prefixCount c.seq.mec (n :: c.mat.done) (c.mat.done.length + 1) = (n, []) := by
    rw [hdone, hn]
    exact prefixCount_next _
  have hmat : { c.mat with done := [] } = c.mat := by rw [← hdone]
  simp only [Core.matDone, hr, hmat]

/-! ## The array's commands -/

/-- A settled entry has its verdict; all else of the core is as it was. -/
theorem settleEntry_eq (c : Core) (i : Nat) :
    ∃ e, e.done = (c.mat.entry i).done ∧ (c.settleEntry i = c ∨ c.settleEntry i = { c with mat := c.mat.setEntry i e }) := by
  refine ⟨{ c.mat.entry i with verdict := 1 }, rfl, ?_⟩
  unfold Core.settleEntry
  dsimp only
  split
  · exact .inr rfl
  · exact .inl rfl

@[simp] theorem entry_setEntry (m : Mat) (i : Nat) (e : Dlog) : (m.setEntry i e).entry i = e :=
  smGet_smPut_self ..

/-- What a completed tile leaves of its core, before a fault it raises. -/
structure TileDone (c d : Core) (x : MExec) : Prop where
  mec  : d.seq.mec = x.cmd.n
  exec : d.mat.exec = c.mat.exec.filter (fun y => y.cmd.n ≠ x.cmd.n)
  done : (d.mat.entry x.dlog).done = true
  lsp  : d.lsp = c.lsp

theorem tileDone_settleEntry {c d : Core} {x : MExec} (h : TileDone c d x) : TileDone c (d.settleEntry x.dlog) x := by
  obtain ⟨e, hdone, he | he⟩ := settleEntry_eq d x.dlog <;> rw [he]
  · exact h
  · exact ⟨h.mec, h.exec, by simpa [hdone] using h.done, h.lsp⟩

theorem tileDone_raise {c d : Core} {x : MExec} (h : TileDone c d x) (f : FaultRec) : TileDone c (d.raise f) x :=
  ⟨h.mec, h.exec, h.done, h.lsp⟩

theorem completeTile_eq {s : State} {g : Nat} {x : MExec} (hdone : (s.core g).mat.done = [])
    (hn : x.cmd.n = (s.core g).seq.mec + 1) :
    ∃ d, s.completeTile g x = s.setCore g d ∧ TileDone (s.core g) d x := by
  unfold State.completeTile
  dsimp only
  rw [matDone_next (by exact hdone) (by exact hn)]
  generalize hd : Core.settleEntry _ _ = d
  have h : TileDone (s.core g) d x := by
    rw [← hd]
    refine tileDone_settleEntry ⟨rfl, rfl, ?_, rfl⟩
    exact congrArg Dlog.done (entry_setEntry (s.core g).mat x.dlog _)
  split
  · exact ⟨_, by rw [State.raise, core_setCore, setCore_setCore], tileDone_raise h _⟩
  · exact ⟨d, rfl, h⟩

/-- What is found by its number is not, once it is taken out. -/
theorem findExec_filter_ne (m : Mat) (n : Word32) (l : List MExec) (h : m.exec = l.filter (fun y => y.cmd.n ≠ n)) :
    m.findExec n = none := by
  rw [Mat.findExec, h]
  simp

@[simp] theorem subAt_setSub (m : Mat) (q : Lane4) (x : SubArr) : (m.setSub q x).subAt q = x := by
  simp [Mat.subAt, Mat.setSub]

section
variable {s : State} {g : Gcn} {n : Word32}

/-- A completion that stores its core, with the scratchpad it had, changes that core alone and no byte. -/
theorem completion_frame {d : Core} (hexec : s.matComplete g.toNat n = s.setCore g.toNat d)
    (hlsp : d.lsp = (s.core g.toNat).lsp) {P : Core → Prop}
    (hP : ∀ e : Core, e.seq = d.seq → e.mat = d.mat → P e) :
    Completes (.matrixCommandComplete g n) s
      (fun t => CoreOnly s t g ∧ P (t.core g.toNat) ∧ SameBytes s t) := by
  refine ⟨(s.setCore g.toNat d).settleMarks g.toNat, ?_, ?_, hP _ ?_ ?_, ?_⟩
  · rw [← hexec]
    rfl
  · exact coreOnly_trans (coreOnly_setCore s g d) (coreOnly_settleMarks _ g)
  · simp
  · simp
  · exact sameBytes_trans (sameBytes_setCore s _ d hlsp) (sameBytes_settleMarks _ _)

theorem matComplete_tile {x : MExec} {op : MTileOp} (hx : (s.core g.toNat).mat.findExec n = some x)
    (hop : x.cmd.op = .mtile op) (hrow : op.rows ≤ x.row) (hbuf : x.wbuf = []) :
    s.matComplete g.toNat n = s.completeTile g.toNat x := by
  simp [State.matComplete, hx, hop, hrow, hbuf]

theorem matComplete_load {k : MCmd} {b : Bool} (hx : (s.core g.toNat).mat.findExec n = none)
    (hl : (s.core g.toNat).mat.loading.find? (fun y => y.1.n = n) = some (k, b))
    (hfrz : (s.core g.toNat).mat.frozenAt k.q = false) (hon : (s.core g.toNat).mat.on = true) :
    s.matComplete g.toNat n = s.completeLoad g.toNat k b := by
  simp [State.matComplete, hx, hl, hfrz, hon]

theorem matComplete_mode {k : MCmd} (hx : (s.core g.toNat).mat.findExec n = none)
    (hl : (s.core g.toNat).mat.loading.find? (fun y => y.1.n = n) = none)
    (hk : (s.core g.toNat).mat.modeChg = some k) (hleft : (s.core g.toNat).mat.modeLeft = 0) (hn : k.n = n) :
    s.matComplete g.toNat n = s.completeMode g.toNat k := by
  simp [State.matComplete, hx, hl, hk, hleft, hn]

/-- A tile without poison becomes current, and its load raises nothing. -/
theorem completeLoad_eq {k : MCmd} {b : Bool} {w : Tile} (hdone : (s.core g.toNat).mat.done = [])
    (hn : k.n = (s.core g.toNat).seq.mec + 1) (ht : ((s.core g.toNat).mat.subAt k.q).tile b = some w)
    (hbad : w.bad = false) :
    ∃ d, s.completeLoad g.toNat k b = s.setCore g.toNat d ∧ d.lsp = (s.core g.toNat).lsp ∧ d.seq.mec = k.n ∧
      (d.mat.subAt k.q).current = some w := by
  unfold State.completeLoad
  dsimp only
  rw [matDone_next (by exact hdone) (by exact hn), ht]
  simp only [hbad, Bool.false_eq_true, if_false]
  refine ⟨_, rfl, rfl, rfl, ?_⟩
  have hsub : (((s.core g.toNat).mat.setSub k.q { (s.core g.toNat).mat.subAt k.q with cur := some b }).subAt k.q).current
      = some w := by
    rw [subAt_setSub]
    exact ht
  exact hsub

theorem completeMode_eq {k : MCmd} {quad : Bool} (hop : k.op = .mmode quad) (hdone : (s.core g.toNat).mat.done = [])
    (hn : k.n = (s.core g.toNat).seq.mec + 1) :
    ∃ d, s.completeMode g.toNat k = s.setCore g.toNat d ∧ d.lsp = (s.core g.toNat).lsp ∧ d.seq.mec = k.n ∧
      d.mat = { (s.core g.toNat).mat with
        quad := quad, sub := Vector.replicate 4 SubArr.empty, modeChg := none } := by
  unfold State.completeMode
  dsimp only
  rw [matDone_next (by exact hdone) (by exact hn), hop]
  exact ⟨_, rfl, rfl, rfl, rfl⟩

/-- A freeze whose cause has cleared is taken off its command. -/
theorem matResume_eq {x : MExec} {op : MTileOp} {f : Freeze} (hx : (s.core g.toNat).mat.findExec n = some x)
    (hop : x.cmd.op = .mtile op) (hf : x.frz = some f) (hover : s.freezeOver g.toNat x op f = true) :
    s.matResume g.toNat n = s.setMat g.toNat ((s.core g.toNat).mat.setExec { x with frz := none }) := by
  simp [State.matResume, hx, hop, hf, hover]
end

/-- Settles O19. -/
theorem matrixCommandsCompleteAndResume : Obligations.MatrixCommandsCompleteAndResume := by
  unfold Obligations.MatrixCommandsCompleteAndResume
  intro s g n c m
  refine ⟨?tile, ?load, ?mode, ?resume⟩
  case tile =>
    intro x op hx hxn hop hrow hbuf hdone hn
    obtain ⟨d, heq, hd⟩ := completeTile_eq (s := s) (g := g.toNat) (x := x) hdone (hxn.trans hn)
    obtain ⟨t, ht, honly, ⟨hmec, hfind, hentry⟩, hbytes⟩ :=
      completion_frame (P := fun e => e.seq.mec = n ∧ e.mat.findExec n = none ∧ (e.mat.entry x.dlog).done = true)
        ((matComplete_tile hx hop hrow hbuf).trans heq) hd.lsp (by
          intro e hseq hmat
          rw [hseq, hmat]
          exact ⟨hd.mec.trans hxn, findExec_filter_ne _ n _ (hxn ▸ hd.exec), hd.done⟩)
    exact ⟨t, ht, honly, hmec, hfind, hentry, hbytes⟩
  case load =>
    intro k b w hx hl ht hbad hfrz hon hdone hn hkn
    obtain ⟨d, heq, hlsp, hmec, hcur⟩ := completeLoad_eq (s := s) (g := g) hdone (hkn.trans hn) ht hbad
    obtain ⟨t, ht, honly, ⟨hmec, hcur⟩, hbytes⟩ :=
      completion_frame (P := fun e => e.seq.mec = n ∧ (e.mat.subAt k.q).current = some w)
        ((matComplete_load hx hl hfrz hon).trans heq) hlsp (by
          intro e hseq hmat
          rw [hseq, hmat]
          exact ⟨hmec.trans hkn, hcur⟩)
    exact ⟨t, ht, honly, hmec, hcur, hbytes⟩
  case mode =>
    intro k quad hx hl hk hleft hkn hop hdone hn
    obtain ⟨d, heq, hlsp, hmec, hmat⟩ := completeMode_eq (s := s) (g := g) hop hdone (hkn.trans hn)
    obtain ⟨t, ht, honly, ⟨hmec, hm⟩, hbytes⟩ :=
      completion_frame (P := fun e => e.seq.mec = n ∧ e.mat = d.mat)
        ((matComplete_mode hx hl hk hleft hkn).trans heq) hlsp (by
          intro e hseq hmat
          rw [hseq]
          exact ⟨hmec.trans hkn, hmat⟩)
    exact ⟨t, ht, honly, hmec, hm.trans hmat⟩
  case resume =>
    intro x op f hx hxn hop hf hover
    refine ⟨_, congrArg Host.Outcome.next (matResume_eq hx hop hf hover), coreOnly_setCore s g _, ?_⟩
    rw [core_setMat]
    exact findExec_setExec hx rfl

end Sys2Proof.Machine
end

/-!
PROOFS. A core that is cancelled, and a core's report to its operation (O33).
-/
section
namespace Sys2Proof.Machine

/-! ## Sets of granules -/

theorem mem_setAdd_iff {x y : Nat} {l : List Nat} : x ∈ setAdd y l ↔ x = y ∨ x ∈ l := by
  induction l with
  | nil => simp [setAdd]
  | cons z t ih =>
    simp only [setAdd]
    split_ifs with hlt heq
    · simp
    · simp [heq]
    · simp only [List.mem_cons, ih]
      tauto

theorem mem_setUnion {x : Nat} {a b : List Nat} : x ∈ setUnion a b ↔ x ∈ a ∨ x ∈ b := by
  unfold setUnion
  induction a generalizing b with
  | nil => simp
  | cons y t ih =>
    rw [List.foldl_cons, ih, mem_setAdd_iff, List.mem_cons]
    tauto

theorem mem_keys_of_smGet_ne {α : Type} {d : α} {m : List (Nat × α)} {k : Nat} (h : smGet d m k ≠ d) :
    k ∈ m.map Prod.fst := by
  induction m with
  | nil => exact absurd rfl h
  | cons x t ih =>
    obtain ⟨i, v⟩ := x
    rw [List.map_cons, List.mem_cons]
    by_cases hi : i = k
    · exact .inl hi.symm
    · rw [smGet, if_neg hi] at h
      exact .inr (ih h)

/-- A granule marked unverified is poisoned once the marks are (R405). -/
theorem poison_poisonMarked {c : Core} {n : Nat} (h : c.marksOf n ≠ []) : n ∈ c.poisonMarked.lsp.poison :=
  mem_setUnion.2 (.inl (mem_keys_of_smGet_ne h))

/-! ## Operations -/

/-- A change of an operation that keeps its number is found in its place. -/
theorem opOf_updOp {s : State} {id : Nat} {o : Op} {f : Op → Op} (hf : ∀ x : Op, (f x).id = x.id)
    (h : s.opOf id = some o) : (s.updOp id f).opOf id = some (f o) := by
  unfold State.opOf at h
  simp only [State.opOf, State.updOp, State.mapOps]
  generalize s.sch.ops = l at h
  induction l with
  | nil => simp at h
  | cons x t ih =>
    by_cases hx : x.id = id
    · simp_all
    · simp_all

@[simp] theorem id_fix (o : Op) (st : OpStatus) (cause info : Nat) : (o.fix st cause info).id = o.id := by
  unfold Op.fix
  split <;> rfl

/-- What fixing a status leaves of the cores' reports. -/
theorem fix_keeps (o : Op) (st : OpStatus) (cause info : Nat) :
    (o.fix st cause info).id = o.id ∧ (o.fix st cause info).waiting = o.waiting ∧ (o.fix st cause info).reports = o.reports := by
  unfold Op.fix
  split <;> exact ⟨rfl, rfl, rfl⟩

theorem fixFault_keeps (o : Op) (word now : Nat) :
    (o.fixFault word now).id = o.id ∧ (o.fixFault word now).waiting = o.waiting ∧ (o.fixFault word now).reports = o.reports := by
  unfold Op.fixFault
  split
  · exact ⟨rfl, rfl, rfl⟩
  · exact fix_keeps ..

/-- A core's report is added, and the core no longer awaited (R107, R108). -/
theorem report_keeps (o : Op) (g : Nat) (c : Core) (now : Nat) :
    (o.report g c now).id = o.id ∧ (o.report g c now).waiting = setDel g o.waiting ∧
      (o.report g c now).reports = o.reports ++ [c.toReport g] := by
  unfold Op.report
  dsimp only
  split_ifs <;> simp [fix_keeps, fixFault_keeps]

/-! ## Cancelled cores -/

/-- From s to t cores may have been marked as cancelled, and nothing else has changed. -/
def CancelsOnly (s t : State) : Prop :=
  t = { s with cores := t.cores } ∧ ∀ h, ∃ b, t.core h = { s.core h with cancel := b }

theorem cancelsOnly_cancelCores (s : State) (o : Op) : CancelsOnly s (s.cancelCores o) := by
  unfold State.cancelCores
  refine List.foldlRecOn (motive := CancelsOnly s) o.waiting _ ⟨rfl, fun h => ⟨(s.core h).cancel, rfl⟩⟩ ?_
  rintro t ⟨ht, hcore⟩ g -
  split
  · refine ⟨by rw [ht]; rfl, fun h => ?_⟩
    rw [core_setCore_eq]
    split
    case isTrue hg =>
      obtain ⟨b, hb⟩ := hcore g
      exact ⟨true, by rw [hb, hg]⟩
    case isFalse => exact hcore h
  · exact ⟨ht, hcore⟩

section
variable {s t : State} (h : CancelsOnly s t)
include h

theorem store_cancelsOnly (l : Loc) : t.store l = s.store l := by
  obtain ⟨ht, hcore⟩ := h
  cases l with
  | lsp k =>
    obtain ⟨b, hb⟩ := hcore k
    simp only [State.store, hb]
  | quay d => rw [ht]; rfl
  | dmem => rw [ht]; rfl

theorem sameBytes_cancelsOnly : SameBytes s t := fun l b => by
  rw [State.readByte, store_cancelsOnly h, State.readByte]

theorem opOf_cancelsOnly (id : Nat) : t.opOf id = s.opOf id := by
  rw [h.1]
  rfl
end

/-! ## A core's report -/

/-- The core once it has reported (R107, R405). -/
def Core.reported (c : Core) : Core :=
  { c.poisonMarked with seq := { c.seq with cond := .idle }, op := none, cancel := false }

/-- The state once core g has reported to operation id. -/
def State.reportTaken (s : State) (g id : Nat) : State :=
  (s.setCore g (s.core g).reported).updOp id (fun o => o.report g (s.core g) s.mclk)

theorem canReport_of {c : Core} (h : (c.seq.cond = .ending ∧ c.seq.allDrained = true ∧ c.checks = []) ∨
    (c.seq.cond = .stopping ∧ c.enginesStopped = true ∧ c.checks = [])) : c.canReport = true := by
  rcases h with ⟨hc, hd, hk⟩ | ⟨hc, hd, hk⟩ <;> simp [Core.canReport, hc, hd, hk]

/-- Other cores may be cancelled with it (R271). -/
theorem coreReport_eq {s : State} {g id : Nat} (hop : (s.core g).op = some id) (hcan : (s.core g).canReport = true) :
    CancelsOnly (s.reportTaken g id) (s.coreReport g) := by
  have hrefl : CancelsOnly (s.reportTaken g id) (s.reportTaken g id) := ⟨rfl, fun h => ⟨_, rfl⟩⟩
  simp only [State.coreReport, hop, hcan, Bool.not_true, Bool.false_eq_true, if_false]
  change CancelsOnly _ (match (s.reportTaken g id).opOf id with
    | some o => if (s.core g).seq.fault.isSome then (s.reportTaken g id).cancelCores o else s.reportTaken g id
    | none => s.reportTaken g id)
  split
  · split
    · exact cancelsOnly_cancelCores _ _
    · exact hrefl
  · exact hrefl

theorem stopCancelled_eq {s : State} {g : Nat} (hc : (s.core g).cancel = true) (hi : (s.core g).seq.cond ≠ .idle)
    (hs : (s.core g).seq.cond ≠ .stopping) : s.stopCancelled g = s.setCore g (s.core g).stop := by
  simp only [State.stopCancelled, hc]

/-- Settles O33. -/
theorem coresStopAndReport : Obligations.CoresStopAndReport := by
  unfold Obligations.CoresStopAndReport
  intro s g c
  refine ⟨?cancel, ?report⟩
  case cancel =>
    intro hc hi hs
    refine ⟨_, congrArg Host.Outcome.next (stopCancelled_eq hc hi hs), coreOnly_setCore s g _, ?_⟩
    rw [core_setCore]
    rfl
  case report =>
    intro id o hop ho hready
    have h := coreReport_eq (s := s) hop (canReport_of hready)
    obtain ⟨b, hcore⟩ := h.2 g.toNat
    have hg : (s.reportTaken g.toNat id).core g.toNat = c.reported := core_setCore s _ _
    have hopOf : (s.setCore g.toNat c.reported).opOf id = some o := ho
    refine ⟨_, rfl, ?_, ?_, ?_, ?_, ?_, ?_⟩
    · rw [hcore, hg]; rfl
    · rw [hcore, hg]; rfl
    · rw [hcore, hg]; rfl
    · obtain ⟨-, hwait, hrep⟩ := report_keeps o g.toNat c s.mclk
      rw [opOf_cancelsOnly h, State.reportTaken, opOf_updOp (fun x => (report_keeps x _ _ _).1) hopOf, Option.map_some]
      exact congrArg some (Prod.ext hwait hrep)
    · exact sameBytes_trans (t := s.reportTaken g.toNat id) (sameBytes_setCore_cells s g.toNat c.reported rfl)
        (sameBytes_cancelsOnly h)
    · intro n hn
      rw [State.poisoned, store_cancelsOnly h, State.store, hg, List.contains_iff_mem]
      exact poison_poisonMarked hn

end Sys2Proof.Machine
end

/-!
PROOFS. What the dispatcher's reads, records and poison marks leave of the state (O28): reading lines of device memory
finds their errors, and what is noted beside changes no byte, no ticket and no operation.
-/
section
namespace Sys2Proof.Machine

/-! ## Reading lines of device memory (R361) -/

/-- From s to t lines of device memory have been read: what was found is noted and logged, and no poison is lost. -/
structure Finds (s t : State) : Prop where
  cores   : t.cores = s.cores
  quays   : t.quays = s.quays
  cells   : t.dmem.cells = s.dmem.cells
  poison  : ∀ n ∈ s.dmem.poison, n ∈ t.dmem.poison
  sch     : t.sch = s.sch
  lnk     : t.lnk = s.lnk
  tt      : t.tt = s.tt
  pwr     : t.pwr = s.pwr
  mode    : t.hrw.mode = s.hrw.mode
  retrain : ∀ n, (t.stack n).retrain = (s.stack n).retrain

theorem Finds.refl (s : State) : Finds s s :=
  ⟨rfl, rfl, rfl, fun _ h => h, rfl, rfl, rfl, rfl, rfl, fun _ => rfl⟩

theorem Finds.trans {s t u : State} (h : Finds s t) (k : Finds t u) : Finds s u :=
  ⟨k.cores.trans h.cores, k.quays.trans h.quays, k.cells.trans h.cells, fun n hn => k.poison n (h.poison n hn),
    k.sch.trans h.sch, k.lnk.trans h.lnk, k.tt.trans h.tt, k.pwr.trans h.pwr, k.mode.trans h.mode,
    fun n => (k.retrain n).trans (h.retrain n)⟩

theorem finds_foldl {α : Type} (f : State → α → State) (h : ∀ t x, Finds t (f t x)) (l : List α) (s : State) :
    Finds s (l.foldl f s) := by
  induction l generalizing s with
  | nil => exact Finds.refl s
  | cons x t ih => exact (h s x).trans (ih (f s x))

theorem finds_logRec (s : State) (r : LogRec) : Finds s (s.logRec r) := by
  rw [logRec_only]
  exact ⟨rfl, rfl, rfl, fun _ h => h, rfl, rfl, rfl, rfl, rfl, fun _ => rfl⟩

theorem finds_healthInc (s : State) (o w : Nat) : Finds s (s.healthInc o w) :=
  ⟨rfl, rfl, rfl, fun _ h => h, rfl, rfl, rfl, rfl, rfl, fun _ => rfl⟩

theorem finds_setStack (s : State) (n : Fin 12) (x : Stack) (h : x.retrain = (s.stack n).retrain) :
    Finds s (s.setStack n x) := by
  refine ⟨rfl, rfl, rfl, fun _ h => h, rfl, rfl, rfl, rfl, rfl, fun k => ?_⟩
  simp only [State.stack, State.setStack, Fin.getElem_fin, Vector.getElem_set]
  split
  case isTrue hk => rw [h, Fin.ext hk]; rfl
  case isFalse => rfl

theorem finds_onDieEcc (s : State) (n : Nat) : Finds s (s.onDieEcc n) := by
  unfold State.onDieEcc
  split
  · exact ⟨rfl, rfl, rfl, fun _ h => h, rfl, rfl, rfl, rfl, rfl, fun _ => rfl⟩
  · exact Finds.refl s

theorem finds_listPage (s : State) (p : Nat) (y : PageReason) : Finds s (s.listPage p y) := by
  unfold State.listPage
  dsimp only
  split_ifs
  · exact Finds.refl s
  · refine Finds.trans ?_ (finds_logRec _ _)
    exact ⟨rfl, rfl, rfl, fun _ h => h, rfl, rfl, rfl, rfl, rfl, fun _ => rfl⟩
  · exact finds_logRec s _

/-- A line's errors are taken off, its poison mark perhaps put on it. -/
theorem finds_dmem (s : State) (d : Store) (hc : d.cells = s.dmem.cells) (hp : ∀ n ∈ s.dmem.poison, n ∈ d.poison) :
    Finds s { s with dmem := d } :=
  ⟨rfl, rfl, hc, hp, rfl, rfl, rfl, rfl, rfl, fun _ => rfl⟩

theorem finds_lineUe (s : State) (n : Nat) : Finds s (s.lineUe n) := by
  unfold State.lineUe
  extract_lets a k st s1 d h s2 r w s3
  have h1 : Finds s s1 := finds_setStack s k { st with ue := st.ue + 1 } rfl
  have h2 : Finds s1 s2 := ⟨rfl, rfl, rfl, fun _ h => mem_setAdd_iff.2 (.inr h), rfl, rfl, rfl, rfl, rfl, fun _ => rfl⟩
  have h3 : Finds s2 s3 := Finds.trans (t := { s2 with hrw := { s2.hrw with events := s2.hrw.events ++ [r] } })
    ⟨rfl, rfl, rfl, fun _ h => h, rfl, rfl, rfl, rfl, rfl, fun _ => rfl⟩ (finds_logRec _ r)
  exact ((h1.trans h2).trans h3).trans ((finds_healthInc s3 _ _).trans (finds_listPage _ _ _))

theorem finds_lineCe (s : State) (n : Nat) : Finds s (s.lineCe n) := by
  unfold State.lineCe
  extract_lets a k st row day hits s1 d s2 s3
  have h1 : Finds s s1 := finds_setStack s k { st with ce := st.ce + 1, rowHits := hits } rfl
  have h2 : Finds s s2 := h1.trans (finds_dmem s1 _ rfl (fun _ h => h))
  have h3 : Finds s s3 := h2.trans (finds_healthInc s2 _ _)
  split
  · exact h3.trans (finds_listPage _ _ _)
  · exact h3

theorem finds_touchLine (s : State) (n : Nat) : Finds s (s.touchLine n) := by
  unfold State.touchLine
  split
  · exact finds_onDieEcc s n
  · exact (finds_onDieEcc s n).trans (finds_lineCe _ n)
  · exact (finds_onDieEcc s n).trans (finds_lineUe _ n)

theorem finds_touchBlock (s : State) (c : QCmd) : Finds s (s.touchBlock c) :=
  finds_foldl _ finds_touchLine _ s

/-! ## What every step towards an operation's end keeps -/

/-- From s to t no byte differs, no poison mark is lost, and of the queues only what they hold unlaunched may differ. -/
structure Kept (s t : State) : Prop where
  cells   : ∀ l, (t.store l).cells = (s.store l).cells
  poison  : ∀ l n, s.poisoned l n = true → t.poisoned l n = true
  queue   : ∀ n, ∃ cmds, t.queue n = { s.queue n with cmds := cmds }
  xsigs   : t.sch.xsigs = s.sch.xsigs
  nextMsg : t.sch.nextMsg = s.sch.nextMsg
  xsigMs  : t.sch.xsigMs = s.sch.xsigMs
  lnk     : t.lnk = s.lnk
  tt      : t.tt = s.tt
  mode    : t.hrw.mode = s.hrw.mode
  held    : ∀ l, t.linesHeld l = s.linesHeld l

/-- Besides, the operations and the tickets are as they were. -/
structure Quiet (s t : State) : Prop extends Kept s t where
  ops     : t.sch.ops = s.sch.ops
  tickets : t.sch.tickets = s.sch.tickets

theorem Kept.refl (s : State) : Kept s s :=
  ⟨fun _ => rfl, fun _ _ h => h, fun _ => ⟨_, rfl⟩, rfl, rfl, rfl, rfl, rfl, rfl, fun _ => rfl⟩

theorem Kept.trans {s t u : State} (h : Kept s t) (k : Kept t u) : Kept s u where
  cells l := (k.cells l).trans (h.cells l)
  poison l n hp := k.poison l n (h.poison l n hp)
  queue n := by
    obtain ⟨a, ha⟩ := h.queue n
    obtain ⟨b, hb⟩ := k.queue n
    exact ⟨b, by rw [hb, ha]⟩
  xsigs := k.xsigs.trans h.xsigs
  nextMsg := k.nextMsg.trans h.nextMsg
  xsigMs := k.xsigMs.trans h.xsigMs
  lnk := k.lnk.trans h.lnk
  tt := k.tt.trans h.tt
  mode := k.mode.trans h.mode
  held l := (k.held l).trans (h.held l)

theorem Quiet.refl (s : State) : Quiet s s := ⟨Kept.refl s, rfl, rfl⟩

theorem Quiet.trans {s t u : State} (h : Quiet s t) (k : Quiet t u) : Quiet s u :=
  ⟨h.toKept.trans k.toKept, k.ops.trans h.ops, k.tickets.trans h.tickets⟩

theorem quiet_foldl {α : Type} (f : State → α → State) (h : ∀ t x, Quiet t (f t x)) (l : List α) (s : State) :
    Quiet s (l.foldl f s) := by
  induction l generalizing s with
  | nil => exact Quiet.refl s
  | cons x t ih => exact (h s x).trans (ih (f s x))

theorem store_of_eq {s t : State} (hc : t.cores = s.cores) (hq : t.quays = s.quays) (l : Loc) (hd : l ≠ .dmem) :
    t.store l = s.store l := by
  cases l with
  | lsp g => simp [State.store, State.core, hc]
  | quay d => simp [State.store, hq]
  | dmem => exact absurd rfl hd

theorem linesHeld_of_eq {s t : State} (hp : t.pwr = s.pwr) (hr : ∀ n, (t.stack n).retrain = (s.stack n).retrain)
    (l : List Nat) : t.linesHeld l = s.linesHeld l := by
  simp only [State.linesHeld, hp, hr]

theorem quiet_of_finds {s t : State} (h : Finds s t) : Quiet s t where
  cells l := by
    by_cases hd : l = .dmem
    · rw [hd]; exact h.cells
    · rw [store_of_eq h.cores h.quays l hd]
  poison l n hp := by
    by_cases hd : l = .dmem
    · subst hd
      simp only [State.poisoned, State.store, List.contains_iff_mem] at hp ⊢
      exact h.poison n hp
    · rwa [State.poisoned, store_of_eq h.cores h.quays l hd]
  queue n := ⟨(s.queue n).cmds, by simp only [State.queue, h.sch]⟩
  xsigs := by rw [h.sch]
  nextMsg := by rw [h.sch]
  xsigMs := by rw [h.sch]
  lnk := h.lnk
  tt := h.tt
  mode := h.mode
  held := linesHeld_of_eq h.pwr h.retrain
  ops := by rw [h.sch]
  tickets := by rw [h.sch]

/-- A change of the dispatcher's state alone keeps all else. -/
theorem kept_sch (s : State) (x : Sch) (hq : ∀ n, ∃ cmds, smGet (Queue.reset n) x.queues n = { s.queue n with cmds := cmds })
    (hx : x.xsigs = s.sch.xsigs) (hm : x.nextMsg = s.sch.nextMsg)
    (hms : x.xsigMs = s.sch.xsigMs) : Kept s { s with sch := x } :=
  ⟨fun l => by cases l <;> rfl, fun l n h => by cases l <;> exact h, hq, hx, hm, hms, rfl, rfl, rfl, fun _ => rfl⟩

theorem smGet_map_snd {α : Type} (f : Nat × α → Nat × α) (hf : ∀ x, (f x).1 = x.1) (d : α) (m : List (Nat × α)) (k : Nat)
    (P : α → α → Prop) (hd : P d d) (hP : ∀ x, P x.2 (f x).2) : P (smGet d m k) (smGet d (m.map f) k) := by
  induction m with
  | nil => exact hd
  | cons x t ih =>
    have h1 := hf x
    have h2 := hP x
    obtain ⟨i, v⟩ := x
    rw [List.map_cons]
    generalize f (i, v) = y at h1 h2 ⊢
    obtain ⟨j, w⟩ := y
    obtain rfl : j = i := h1
    simp only [smGet]
    split
    · exact h2
    · exact ih

/-- The dispatcher looks at the waits of the queues' first commands (R264): it reads their blocks. -/
theorem quiet_latch (s : State) : Quiet s s.latch := by
  unfold State.latch
  have h := quiet_of_finds (finds_foldl State.touchBlock finds_touchBlock s.heads s)
  refine h.trans ⟨kept_sch _ _ (fun n => ?_) rfl rfl rfl, rfl, rfl⟩
  refine smGet_map_snd _ ?_ _ _ n (fun x y : Queue => ∃ cmds, y = { x with cmds := cmds }) ⟨_, rfl⟩ ?_
  · rintro ⟨i, x⟩
    dsimp only
    split
    · rfl
    · split <;> rfl
  · rintro ⟨i, x⟩
    dsimp only
    split
    · exact ⟨_, rfl⟩
    · split <;> exact ⟨_, rfl⟩

theorem kept_addTicket (s : State) (k : Nat) (v : Word32) : Kept s (s.addTicket k v) :=
  kept_sch s _ (fun _ => ⟨_, rfl⟩) rfl rfl rfl

theorem kept_updOp (s : State) (id : Nat) (f : Op → Op) : Kept s (s.updOp id f) :=
  kept_sch s _ (fun _ => ⟨_, rfl⟩) rfl rfl rfl

theorem quiet_logRec (s : State) (r : LogRec) : Quiet s (s.logRec r) := quiet_of_finds (finds_logRec s r)

/-! ## Increments of tickets (R99, R263) -/

theorem kept_increment (s : State) (k : Nat) (v : Word32) : Kept s (s.increment k v) :=
  ((quiet_latch s).toKept.trans (kept_addTicket _ k v)).trans (quiet_latch _).toKept

theorem ops_increment (s : State) (k : Nat) (v : Word32) : (s.increment k v).sch.ops = s.sch.ops :=
  (quiet_latch _).ops.trans (quiet_latch s).ops

theorem ticket_quiet {s t : State} (h : Quiet s t) (k : Nat) : t.ticket k = s.ticket k := by
  rw [State.ticket, h.tickets, State.ticket]

theorem ticket_increment (s : State) (k j : Nat) (v : Word32) :
    (s.increment k v).ticket j = s.ticket j + if k = j then v else 0 := by
  unfold State.increment
  rw [ticket_quiet (quiet_latch _)]
  by_cases h : k = j
  · subst h
    rw [if_pos rfl, State.ticket, State.addTicket, smGet_smPut_self, ticket_quiet (quiet_latch s)]
  · rw [if_neg h, State.ticket, State.addTicket, smGet_smPut_ne _ _ _ (Ne.symm h), add_zero]
    exact ticket_quiet (quiet_latch s) j

/-- The sum of what a list adds to ticket k. -/
def sumFor {α : Type} (key : α → Nat) (val : α → Word32) (l : List α) (k : Nat) : Word32 :=
  ((l.filter (fun x => key x = k)).map val).foldl (· + ·) 0

theorem foldl_add_start (l : List Word32) (a : Word32) : l.foldl (· + ·) a = a + l.foldl (· + ·) 0 := by
  induction l generalizing a with
  | nil => simp
  | cons x t ih => rw [List.foldl_cons, List.foldl_cons, ih, ih (0 + x), zero_add, add_assoc]

theorem sumFor_cons {α : Type} (key : α → Nat) (val : α → Word32) (x : α) (l : List α) (k : Nat) :
    sumFor key val (x :: l) k = (if key x = k then val x else 0) + sumFor key val l k := by
  unfold sumFor
  by_cases h : key x = k
  · simp only [h, List.filter_cons, decide_true, if_true, List.map_cons, List.foldl_cons]
    rw [foldl_add_start, zero_add]
  · simp [h]

end Sys2Proof.Machine
end

/-!
PROOFS. What the links' pump changes, poison marks, signals and the completion record: the steps of the end of an
operation (O28).
-/
section
namespace Sys2Proof.Machine

/-! ## Sending on the links (R326 to R333) -/

/-- From s to t the links have sent: no memory differs, and nothing of the dispatcher. -/
structure NetOnly (s t : State) : Prop where
  cores : t.cores = s.cores
  quays : t.quays = s.quays
  dmem  : t.dmem = s.dmem
  sch   : t.sch = s.sch

theorem NetOnly.refl (s : State) : NetOnly s s := ⟨rfl, rfl, rfl, rfl⟩

theorem NetOnly.trans {s t u : State} (h : NetOnly s t) (k : NetOnly t u) : NetOnly s u :=
  ⟨k.cores.trans h.cores, k.quays.trans h.quays, k.dmem.trans h.dmem, k.sch.trans h.sch⟩

theorem netOnly_foldl {α : Type} (f : State → α → State) (h : ∀ t x, NetOnly t (f t x)) (l : List α) (s : State) :
    NetOnly s (l.foldl f s) := by
  induction l generalizing s with
  | nil => exact NetOnly.refl s
  | cons x t ih => exact (h s x).trans (ih (f s x))

theorem netOnly_setPort (s : State) (p : Port) (x : PortSt) : NetOnly s (s.setPort p x) := ⟨rfl, rfl, rfl, rfl⟩

theorem netOnly_setLink (s : State) (p : Port) (l : LinkId) (x : Link) : NetOnly s (s.setLink p l x) := by
  cases l <;> exact netOnly_setPort s p _

theorem netOnly_frameOut (s : State) (p : Port) (l : LinkId) (ts : List OutTxn) : NetOnly s (s.frameOut p l ts) :=
  (netOnly_setLink s p l _).trans ⟨rfl, rfl, rfl, rfl⟩

theorem netOnly_creditBack (s : State) (p : Port) (l : LinkId) (c n : Nat) : NetOnly s (s.creditBack p l c n) := by
  unfold State.creditBack
  dsimp only
  split <;> exact netOnly_setLink s p l _

theorem netOnly_leaveBuffer (s : State) (t : OutTxn) : NetOnly s (s.leaveBuffer t) := by
  unfold State.leaveBuffer
  split
  · exact NetOnly.refl s
  · exact (netOnly_setLink s _ _ _).trans (netOnly_creditBack _ _ _ _ _)

theorem netOnly_loadFrame (p : Port) (l : LinkId) (k room : Nat) (s : State) (ts : List OutTxn) :
    NetOnly s (State.loadFrame p l k room s ts).1 := by
  induction k generalizing room s ts with
  | zero => exact NetOnly.refl s
  | succ k ih =>
    unfold State.loadFrame
    split
    · exact NetOnly.refl s
    · dsimp only
      split
      · exact ((netOnly_setPort s p _).trans (netOnly_setLink _ p l _)).trans (ih _ _ _)
      · exact NetOnly.refl s

theorem netOnly_pumpLink (p : Port) (l : LinkId) (k : Nat) (s : State) : NetOnly s (State.pumpLink p l k s) := by
  induction k generalizing s with
  | zero => exact NetOnly.refl s
  | succ k ih =>
    unfold State.pumpLink
    split
    · exact NetOnly.refl s
    · split
      · dsimp only
        split
        · exact (((netOnly_setPort s p _).trans (netOnly_setLink _ p l _)).trans (netOnly_frameOut _ p l _)).trans (ih _)
        · exact NetOnly.refl s
      · have h := netOnly_loadFrame p l frameFlits frameFlits s []
        split
        · exact NetOnly.refl s
        · next _ heq =>
          rw [heq] at h
          exact ((h.trans (netOnly_frameOut _ p l _)).trans (netOnly_foldl _ netOnly_leaveBuffer _ _)).trans (ih _)

theorem netOnly_pumpPort (s : State) (p : Port) : NetOnly s (s.pumpPort p) := by
  have hold : NetOnly s (s.holdBack p) :=
    (netOnly_setPort s p _).trans (netOnly_foldl (fun t (b : OutTxn) => { t with col := t.col.map (fun g => g.takeBack b.x) })
      (fun _ _ => ⟨rfl, rfl, rfl, rfl⟩) _ _)
  exact (hold.trans (netOnly_pumpLink p .a _ _)).trans (netOnly_pumpLink p .b _ _)

theorem netOnly_flushOwed (s : State) (p : Port) (l : LinkId) : NetOnly s (s.flushOwed p l) := by
  unfold State.flushOwed
  dsimp only
  split
  · exact netOnly_frameOut s p l []
  · exact NetOnly.refl s

theorem netOnly_pump (s : State) : NetOnly s s.pump :=
  (netOnly_foldl _ netOnly_pumpPort _ s).trans
    (netOnly_foldl _ (fun _ p => (netOnly_flushOwed _ p .a).trans (netOnly_flushOwed _ p .b)) _ _)

theorem netOnly_sendTxn {s t : State} {kind : Byte} {x : Txn} (h : s.sendTxn kind x = some t) : NetOnly s t := by
  unfold State.sendTxn at h
  split at h
  · next p _ =>
    have hpost : NetOnly s (s.post p kind x none) := netOnly_setPort s p _
    rw [← Option.some.inj h]
    exact hpost.trans (netOnly_pump _)
  · cases h

theorem netOnly_sendTicket (s : State) (x : XSig) : NetOnly s (s.sendTicket x) := by
  unfold State.sendTicket
  cases h : s.sendTxn 0x07 (s.ticketTxn x) with
  | none => exact NetOnly.refl s
  | some t => exact netOnly_sendTxn h

theorem sameBytes_netOnly {s t : State} (h : NetOnly s t) : SameBytes s t := fun l b => by
  rw [State.readByte, store_congr h.cores h.quays h.dmem, State.readByte]

/-! ## Poison marks (R272) -/

theorem quiet_setStore (s : State) (l : Loc) (st : Store) (hc : st.cells = (s.store l).cells)
    (hp : ∀ n ∈ (s.store l).poison, n ∈ st.poison) : Quiet s (s.setStore l st) where
  cells k := by
    rw [store_setStore]
    split
    case isTrue e => rw [e, hc]
    case isFalse => rfl
  poison k n h := by
    simp only [State.poisoned, store_setStore, List.contains_iff_mem] at h ⊢
    split
    case isTrue e => subst e; exact hp n h
    case isFalse => exact h
  queue n := ⟨(s.queue n).cmds, by cases l <;> rfl⟩
  xsigs := by cases l <;> rfl
  nextMsg := by cases l <;> rfl
  xsigMs := by cases l <;> rfl
  lnk := by cases l <;> rfl
  tt := by cases l <;> rfl
  mode := by cases l <;> rfl
  held _ := by cases l <;> rfl
  ops := by cases l <;> rfl
  tickets := by cases l <;> rfl

theorem mem_foldl_setAdd {f : Nat → Nat} {l : List Nat} {p : List Nat} {n : Nat} :
    n ∈ l.foldl (fun acc i => setAdd (f i) acc) p ↔ (∃ i ∈ l, f i = n) ∨ n ∈ p := by
  induction l generalizing p with
  | nil => simp
  | cons x t ih =>
    rw [List.foldl_cons, ih, mem_setAdd_iff, List.exists_mem_cons_iff]
    constructor
    · rintro (h | rfl | h)
      · exact .inl (.inr h)
      · exact .inl (.inl rfl)
      · exact .inr h
    · rintro ((rfl | h) | h)
      · exact .inr (.inl rfl)
      · exact .inl h
      · exact .inr (.inr h)

theorem quiet_noted (t s : State) (op : Option Nat) (w : Writer) (after : Option Nat) (l : Loc) (n : Nat) (p : GranPut)
    (r : List OldGran) : Quiet t (t.noted s op w after l n p r) := by
  rw [noted_eq]
  refine ⟨⟨fun k => ?_, fun k n h => ?_, fun n => ⟨_, rfl⟩, rfl, rfl, rfl, rfl, rfl, rfl, fun _ => rfl⟩, rfl, rfl⟩
  · cases k <;> rfl
  · cases k <;> exact h

theorem quiet_poisonRange (s : State) (l : Loc) (a len : Nat) : Quiet s (s.poisonRange l a len) :=
  quiet_setStore s l _ rfl (fun _ h => mem_foldl_setAdd.2 (.inr h))

theorem poisoned_poisonRange (s : State) (l : Loc) {a len b : Nat} (h : a ≤ b) (h' : b < a + len) :
    (s.poisonRange l a len).poisoned l (b / 64) = true := by
  simp only [State.poisonRange, State.poisoned, store_setStore_self, List.contains_iff_mem]
  refine mem_foldl_setAdd.2 (.inl ⟨b / 64 - a / 64, List.mem_range.2 ?_, ?_⟩) <;> omega

theorem quiet_poisonAs_noted (s : State) (w : Writer) (l : Loc) (grans : List Nat) (t : State) :
    Quiet t (grans.foldl (fun t n => t.noted s none w none l n ⟨[], true, []⟩ []) t) :=
  quiet_foldl _ (fun t n => quiet_noted t s none w none l n _ _) grans t

theorem quiet_poisonAs (s : State) (w : Writer) (l : Loc) (a len : Nat) : Quiet s (s.poisonAs w l a len) :=
  (quiet_poisonRange s l a len).trans (quiet_poisonAs_noted s w l _ _)

theorem poisoned_poisonAs (s : State) (w : Writer) (l : Loc) {a len b : Nat} (h : a ≤ b) (h' : b < a + len) :
    (s.poisonAs w l a len).poisoned l (b / 64) = true :=
  (quiet_poisonAs_noted s w l _ _).poison _ _ (poisoned_poisonRange s l h h')

theorem quiet_emit (s : State) (o : Out) : Quiet s (s.emit o) := by
  refine ⟨⟨fun k => ?_, fun k n h => ?_, fun n => ⟨_, rfl⟩, rfl, rfl, rfl, rfl, rfl, rfl, fun _ => rfl⟩, rfl, rfl⟩
  · cases k <;> rfl
  · cases k <;> exact h

theorem quiet_poisonRegion (op : Nat) (set : List Nat) (s : State) (r : Region) : Quiet s (State.poisonRegion op set s r) := by
  unfold State.poisonRegion
  split
  · exact Quiet.refl s
  · split
    · exact quiet_foldl _ (fun t g => quiet_poisonAs t _ _ _ _) set s
    · exact quiet_poisonAs s _ _ _ _
    · exact quiet_poisonAs s _ _ _ _
    · exact quiet_emit s _
    · exact Quiet.refl s

/-- A mark that one step of a fold sets, whatever the state, stays to its end. -/
theorem poisoned_foldl {α : Type} {f : State → α → State} (hq : ∀ t x, Quiet t (f t x)) {l : List α} {x : α} (hx : x ∈ l)
    {k : Loc} {n : Nat} (h : ∀ t, (f t x).poisoned k n = true) (s : State) : (l.foldl f s).poisoned k n = true := by
  induction l generalizing s with
  | nil => cases hx
  | cons y t ih =>
    rcases List.mem_cons.1 hx with rfl | hx
    · exact (quiet_foldl f hq t _).poison k n (h s)
    · exact ih hx (f s y)

/-- The granules that poisoning output region r marks, of the cores of `set`. -/
def Region.Marks (r : Region) (set : List Nat) (a : Nat) (l : Loc) (n : Nat) : Prop :=
  (r.space = 0 ∧ (∃ g ∈ set, l = .lsp g) ∧ n = a / 64) ∨
    (r.space = 1 ∧ a < 2 ^ 35 ∧ a / 2 ^ 23 = r.base / 2 ^ 23 ∧ l = .lsp (a / 2 ^ 23) ∧ n = a % 2 ^ 23 / 64) ∨
    (r.space = 3 ∧ l = .dmem ∧ n = a / 64)

theorem poisoned_poisonRegion (op : Nat) {set : List Nat} {r : Region} {a n : Nat} {l : Loc} (hout : r.out = true)
    (ha : r.base ≤ a) (ha' : a < r.base + r.len) (h : r.Marks set a l n) (s : State) :
    (State.poisonRegion op set s r).poisoned l n = true := by
  rcases h with ⟨hsp, ⟨g, hg, rfl⟩, rfl⟩ | ⟨hsp, hlt, heq, rfl, rfl⟩ | ⟨hsp, rfl, rfl⟩
  · simp only [State.poisonRegion, hout, hsp, Bool.not_true, Bool.false_eq_true, if_false]
    exact poisoned_foldl (f := fun t g => t.poisonAs (.dispatcher op) (.lsp g) r.base r.len)
      (fun t g => quiet_poisonAs t _ _ _ _) hg (fun t => poisoned_poisonAs t _ _ ha ha') s
  · simp only [State.poisonRegion, hout, hsp, Bool.not_true, Bool.false_eq_true, if_false]
    have hcore : r.base / 2 ^ 23 % 4096 = a / 2 ^ 23 := by omega
    rw [hcore]
    exact poisoned_poisonAs s _ _ (by omega) (by omega)
  · simp only [State.poisonRegion, hout, hsp, Bool.not_true, Bool.false_eq_true, if_false]
    exact poisoned_poisonAs s _ _ ha ha'

/-! ## Increments and poisoning at an operation's end (R99, R272) -/

/-- The operation once its increments are applied or dropped. -/
def Op.afterSettle (o : Op) : Op :=
  if o.status = some .done then { o with applied := o.deferred.length, settled := true }
  else { o with dropped := o.deferred.length, settled := true }

theorem kept_increments (l : List (Half × Word32)) (s : State) :
    Kept s (l.foldl (fun t d => t.increment d.1.toNat d.2) s) := by
  induction l generalizing s with
  | nil => exact Kept.refl s
  | cons d t ih => exact (kept_increment s _ _).trans (ih _)

theorem ops_increments (l : List (Half × Word32)) (s : State) :
    (l.foldl (fun t d => t.increment d.1.toNat d.2) s).sch.ops = s.sch.ops := by
  induction l generalizing s with
  | nil => rfl
  | cons d t ih => exact (ih _).trans (ops_increment s _ _)

theorem ticket_increments (l : List (Half × Word32)) (s : State) (k : Nat) :
    (l.foldl (fun t d => t.increment d.1.toNat d.2) s).ticket k = s.ticket k + sumFor (fun d => d.1.toNat) (·.2) l k := by
  induction l generalizing s with
  | nil => simp [sumFor]
  | cons d t ih => rw [List.foldl_cons, ih, ticket_increment, sumFor_cons, add_assoc]

theorem opOf_congr {s t : State} (h : t.sch.ops = s.sch.ops) (id : Nat) : t.opOf id = s.opOf id := by
  rw [State.opOf, h, State.opOf]

theorem ticket_updOp (s : State) (id : Nat) (f : Op → Op) (k : Nat) : (s.updOp id f).ticket k = s.ticket k := rfl

section
variable {s : State} {o : Op}

theorem id_of_opOf {id : Nat} (h : s.opOf id = some o) : o.id = id := by
  simpa using List.find?_some h

theorem kept_settle : Kept s (s.settle o) := by
  unfold State.settle
  dsimp only
  refine Kept.trans ?_ (kept_updOp _ _ _)
  split
  · exact (kept_increments _ s).trans (kept_updOp _ _ _)
  · exact (quiet_foldl _ (quiet_poisonRegion _ _) _ s).toKept.trans (kept_updOp _ _ _)

theorem opOf_settle (h : s.opOf o.id = some o) : (s.settle o).opOf o.id = some o.afterSettle := by
  unfold State.settle Op.afterSettle
  dsimp only
  split
  · have h1 := (opOf_congr (ops_increments o.deferred s) o.id).trans h
    have h2 := opOf_updOp (f := fun x => { x with applied := o.deferred.length }) (fun _ => rfl) h1
    exact opOf_updOp (f := fun x => { x with settled := true }) (fun _ => rfl) h2
  · have h1 := (opOf_congr (quiet_foldl _ (quiet_poisonRegion o.id o.set) (s.regions o) s).ops o.id).trans h
    have h2 := opOf_updOp (f := fun x => { x with dropped := o.deferred.length }) (fun _ => rfl) h1
    exact opOf_updOp (f := fun x => { x with settled := true }) (fun _ => rfl) h2

theorem ticket_settle (k : Nat) : (s.settle o).ticket k =
    s.ticket k + if o.status = some .done then sumFor (fun d => d.1.toNat) (·.2) o.deferred k else 0 := by
  unfold State.settle
  dsimp only
  rw [ticket_updOp]
  split
  · rw [ticket_updOp, ticket_increments]
  · rw [ticket_updOp, ticket_quiet (quiet_foldl _ (quiet_poisonRegion _ _) _ s), add_zero]

theorem poisoned_settle (hst : o.status ≠ some .done) {r : Region} (hr : r ∈ s.regions o) (hout : r.out = true) {a n : Nat}
    {l : Loc} (ha : r.base ≤ a) (ha' : a < r.base + r.len) (h : r.Marks o.set a l n) :
    (s.settle o).poisoned l n = true := by
  unfold State.settle
  dsimp only
  rw [if_neg hst]
  exact (kept_updOp _ _ _).poison _ _ ((kept_updOp _ _ _).poison _ _
    (poisoned_foldl (quiet_poisonRegion _ _) hr (poisoned_poisonRegion _ hout ha ha' h) s))

end

theorem quiet_usedInv (s : State) (l : List Nat) : Quiet s (s.usedInv l) := by
  refine ⟨⟨fun k => ?_, fun k n h => ?_, fun n => ⟨_, rfl⟩, rfl, rfl, rfl, rfl, rfl, rfl, fun _ => rfl⟩, rfl, rfl⟩
  · cases k <;> rfl
  · cases k <;> exact h

/-! ## Signals (R266, R272) -/

theorem own_kept {s t : State} (h : Kept s t) : t.own = s.own := by rw [State.own, h.lnk, State.own]

theorem signalsPending_kept {s t : State} (h : Kept s t) (id : Nat) : t.signalsPending id = s.signalsPending id := by
  rw [State.signalsPending, h.xsigs, State.signalsPending]

/-- The signals that are given: all of an operation that is done, else those that always are. -/
def givenOf (done : Bool) (l : List Sig) : List Sig := l.filter (fun g => g.always || done)

/-- With none pending, signals for tickets here are each applied or withdrawn. -/
theorem takeSignals_here (id : Nat) (done : Bool) (l : List Sig) {s : State} {o : Op} (ho : s.opOf id = some o)
    (hp : s.signalsPending id = false) (hl : ∀ g ∈ givenOf done l, g.remote = false ∨ g.dev = s.own) :
    let t := takeSignals id done l s
    Kept s t ∧
      t.opOf id = some { o with
        sigDone := o.sigDone + (givenOf done l).length, sigGone := o.sigGone + (l.length - (givenOf done l).length) } ∧
      ∀ k, t.ticket k = s.ticket k + sumFor (fun g : Sig => g.ticket.toNat) (·.value) (givenOf done l) k := by
  dsimp only
  induction l generalizing s o with
  | nil => exact ⟨Kept.refl s, ho, fun k => by simp [takeSignals, givenOf, sumFor]⟩
  | cons g t ih =>
    have hlen : (givenOf done t).length ≤ t.length := List.length_filter_le _ _
    simp only [takeSignals, hp, Bool.false_eq_true, if_false]
    by_cases hg : (g.always || done) = true
    · have hgiven : givenOf done (g :: t) = g :: givenOf done t := List.filter_cons_of_pos hg
      rw [hgiven] at hl ⊢
      have hhere : (!g.remote || decide (g.dev = s.own)) = true := by
        simpa using hl g List.mem_cons_self
      have hk : Kept s (s.signal id g) := by
        rw [State.signal, if_pos hhere]
        exact (kept_increment s _ _).trans (kept_updOp _ _ _)
      have hop : (s.signal id g).opOf id = some { o with sigDone := o.sigDone + 1 } := by
        rw [State.signal, if_pos hhere]
        exact opOf_updOp (f := fun o => { o with sigDone := o.sigDone + 1 }) (fun _ => rfl)
          ((opOf_congr (ops_increment s _ _) id).trans ho)
      obtain ⟨h1, h2, h3⟩ := ih hop ((signalsPending_kept hk id).trans hp)
        (fun x hx => own_kept hk ▸ hl x (List.mem_cons_of_mem g hx))
      rw [if_pos hg]
      refine ⟨hk.trans h1, ?_, fun k => ?_⟩
      · rw [h2]
        simp only [List.length_cons, Option.some.injEq, Op.mk.injEq, true_and, and_true]
        omega
      · rw [h3, sumFor_cons, ← add_assoc, State.signal, if_pos hhere, ticket_updOp, ticket_increment]
    · have hgiven : givenOf done (g :: t) = givenOf done t := List.filter_cons_of_neg hg
      rw [hgiven] at hl ⊢
      have hq := quiet_logRec (s.updOp id (fun o => { o with sigGone := o.sigGone + 1 }))
        ⟨0x0033, 8, sERROR, 0, leBytes 2 (if g.remote then g.dev else s.own).toNat ++ leBytes 4 (0 : Word32).toNat ++
          leBytes 2 g.ticket.toNat ++ leBytes 4 g.value.toNat⟩
      have hk : Kept s (s.withdraw id g) := (kept_updOp s id _).trans hq.toKept
      have hop : (s.withdraw id g).opOf id = some { o with sigGone := o.sigGone + 1 } :=
        (opOf_congr hq.ops id).trans (opOf_updOp (f := fun o => { o with sigGone := o.sigGone + 1 }) (fun _ => rfl) ho)
      obtain ⟨h1, h2, h3⟩ := ih hop ((signalsPending_kept hk id).trans hp) (fun x hx => own_kept hk ▸ hl x hx)
      rw [if_neg hg]
      refine ⟨hk.trans h1, ?_, fun k => ?_⟩
      · rw [h2]
        simp only [List.length_cons, Option.some.injEq, Op.mk.injEq, true_and, and_true]
        omega
      · rw [h3]
        exact congrArg (· + _) (ticket_quiet hq k)

end Sys2Proof.Machine
end

/-!
PROOFS. The completion record, its place in the signal window, and the end of an operation (O28).
-/
section
namespace Sys2Proof.Machine

/-! ## The record (Table 8-7) -/

theorem exists_of_length_four {l : List Byte} (h : l.length = 4) : ∃ a b c d, l = [a, b, c, d] := by
  match l, h with
  | [a, b, c, d], _ => exact ⟨a, b, c, d, rfl⟩

/-- The fields of a completion record that say how its operation ended. -/
structure RecordSays (b : List Byte) (o : Op) : Prop where
  length : b.length = 64
  status : fieldAt b 5 1 % 128 = opStatusCode o.status
  cause  : fieldAt b 6 1 = o.cause.toNat
  info   : fieldAt b 0x24 4 = o.info.toNat
  done   : fieldAt b 0x34 1 = o.sigDone % 256
  gone   : fieldAt b 0x35 1 = o.sigGone % 256

theorem opStatusCode_lt (st : Option OpStatus) : opStatusCode st < 4 := by
  unfold opStatusCode
  split <;> decide

theorem recordOf_says (s : State) (o : Op) (h : o.bytes.length = 64) : RecordSays (s.recordOf o) o := by
  obtain ⟨a, b, c, d, hid⟩ := exists_of_length_four (l := (o.bytes.drop 4).take 4) (by simp [h])
  have hst := opStatusCode_lt o.status
  constructor <;> simp [State.recordOf, hid, fieldAt, leBytes, leNat]
  · omega
  · omega

theorem bytesAt_putBytes (m : List Host.Cell) (a : Nat) (l : List Byte) : bytesAt (putBytes m a l) a l.length = l := by
  rw [bytesAt_eq_map_range]
  refine List.ext_getElem (by simp) (fun i h h' => ?_)
  rw [List.getElem_map, List.getElem_range, byteAt_putBytes_in m a i l h']

/-! ## Writing a line of device memory -/

theorem byGranule_single {n : Nat} {l : List (Nat × Byte)} (hne : l ≠ []) (h : ∀ y ∈ l, y.1 / 64 = n) :
    byGranule l = [(n, l)] := by
  induction l with
  | nil => exact absurd rfl hne
  | cons y t ih =>
    have hy : y.1 / 64 = n := h y List.mem_cons_self
    by_cases ht : t = []
    · subst ht
      simp [byGranule, hy]
    · have := ih ht (fun z hz => h z (List.mem_cons_of_mem y hz))
      simp [byGranule, this, hy]

/-- No write of the dispatcher that belongs to no command takes effect before one that came first. -/
theorem later_dispatcher (s : State) (op : Nat) (l : Loc) (n : Nat) : s.later none (.dispatcher op) l n = [] := by
  have h (o : OldGran) : o.unordered none (.dispatcher op) s.wall = false := by simp [OldGran.unordered]
  have : (s.writesOf l n).reverse.zipIdx.takeWhile (fun _ => false) = [] := by
    cases (s.writesOf l n).reverse.zipIdx <;> rfl
  simp [State.later, lastOnes, h, this]

theorem orderGran_dispatcher (s : State) (op : Nat) (l : Loc) (n : Nat) (b : List (Nat × Byte)) (p : Bool) (m : List Nat) :
    s.orderGran none (.dispatcher op) none l n b p m =
      (s.writeGran l n b p m).noted s none (.dispatcher op) none l n (granPut b p m) [] := by
  simp only [State.orderGran, later_dispatcher]

/-- From s to t one line of device memory has been written. -/
structure WritesLine (s t : State) (line : Nat) : Prop where
  other  : ∀ l, l ≠ .dmem → t.store l = s.store l
  poison : ∀ l n, l ≠ .dmem ∨ n ≠ line → s.poisoned l n = true → t.poisoned l n = true
  sch    : t.sch = s.sch

theorem mem_setDel {x n : Nat} {l : List Nat} : x ∈ setDel n l ↔ x ∈ l ∧ x ≠ n := by simp [setDel]

/-- A write keeps the poison marks of other granules. -/
theorem mem_poison_storeWrite {st : Store} {sram : Bool} {gran n : Nat} {b : List (Nat × Byte)} {p : Bool} (hn : n ≠ gran)
    (h : n ∈ st.poison) : n ∈ (storeWrite st sram gran b p).poison := by
  unfold storeWrite
  dsimp only
  split_ifs
  · exact mem_setAdd_iff.2 (.inr h)
  · exact mem_setDel.2 ⟨h, hn⟩
  · exact mem_setAdd_iff.2 (.inr h)
  · exact h

theorem writesLine_writeGran (s : State) (n : Nat) (b : List (Nat × Byte)) (p : Bool) (m : List Nat) :
    WritesLine s (s.writeGran .dmem n b p m) n := by
  have hpre : Finds s (s.preWrite .dmem n b) := by
    unfold State.preWrite
    split
    · exact Finds.refl s
    · exact finds_touchLine s n
  refine ⟨fun l hl => ?_, fun l k hk hp => ?_, hpre.sch⟩
  · simp only [State.writeGran, store_setStore, if_neg hl]
    exact store_of_eq hpre.cores hpre.quays l hl
  · simp only [State.poisoned, State.writeGran, store_setStore, List.contains_iff_mem] at hp ⊢
    split
    case isTrue e =>
      subst e
      exact mem_poison_storeWrite (hk.resolve_left (fun h => h rfl)) (hpre.poison k hp)
    case isFalse e =>
      rwa [store_of_eq hpre.cores hpre.quays l e]

theorem writesLine_noted {s t : State} {line : Nat} (h : WritesLine s t line) (u : State) (op : Option Nat) (w : Writer)
    (after : Option Nat) (l : Loc) (n : Nat) (p : GranPut) (r : List OldGran) :
    WritesLine s (t.noted u op w after l n p r) line := by
  refine ⟨fun k hk => (noted_store ..).trans (h.other k hk), fun k j hj hp => ?_, ?_⟩
  · rw [State.poisoned, noted_store]
    exact h.poison k j hj hp
  · rw [noted_eq]
    exact h.sch

section
variable (s : State) (op a : Nat) (b : List Byte) (ha : a % 64 = 0) (hb : b ≠ []) (hlen : b.length ≤ 64)
include ha hb hlen

theorem writeRunAs_line : s.writeRunAs none (.dispatcher op) none .dmem a b false =
    s.orderGran none (.dispatcher op) none .dmem (a / 64) (addressed a b) false [] := by
  have hne : addressed a b ≠ [] := by
    cases b with
    | nil => exact absurd rfl hb
    | cons x t => simp [addressed]
  have hn : ∀ y ∈ addressed a b, y.1 / 64 = a / 64 := by
    intro y hy
    have := mem_addressed hy
    omega
  rw [State.writeRunAs, byGranule_single hne hn]
  rfl

theorem writesLine_writeRunAs : WritesLine s (s.writeRunAs none (.dispatcher op) none .dmem a b false) (a / 64) := by
  rw [writeRunAs_line s op a b ha hb hlen, orderGran_dispatcher]
  exact writesLine_noted (writesLine_writeGran ..) ..

theorem dmem_writeRunAs : (s.writeRunAs none (.dispatcher op) none .dmem a b false).dmem.cells =
    putBytes s.dmem.cells a b := by
  rw [writeRunAs_line s op a b ha hb hlen, orderGran_dispatcher]
  have h : ((s.writeGran .dmem (a / 64) (addressed a b) false []).noted s none (.dispatcher op) none .dmem (a / 64)
      (granPut (addressed a b) false []) []).store .dmem = (s.writeGran .dmem (a / 64) (addressed a b) false []).store .dmem :=
    noted_store ..
  have hc := writeGran_cells s .dmem .dmem (a / 64) (addressed a b) false []
  rw [← h, if_pos rfl, putCells_addressed] at hc
  exact hc
end

/-! ## The operation is dropped and its record written (R268, R276) -/

theorem quiet_endReads (s : State) (op : Nat) : Quiet s (s.endReads op) := by
  refine ⟨⟨fun k => ?_, fun k n h => ?_, fun n => ⟨_, rfl⟩, rfl, rfl, rfl, rfl, rfl, rfl, fun _ => rfl⟩, rfl, rfl⟩
  · cases k <;> rfl
  · cases k <;> exact h

theorem quiet_ledgerFlag (s : State) (kind : Nat) (terms : List Byte) : Quiet s (s.ledgerFlag kind terms) :=
  Quiet.trans (t := { s with sch := { s.sch with ledger := true, kind := s.sch.kind ||| BitVec.ofNat 4 kind } })
    ⟨kept_sch s _ (fun _ => ⟨_, rfl⟩) rfl rfl rfl, rfl, rfl⟩ (quiet_logRec _ _)

/-- What an operation's end leaves of the dispatcher, but for the operation. -/
structure Dropped (s t : State) (o : Op) : Prop where
  kept    : Kept s t
  gone    : t.opOf o.id = none
  tickets : t.sch.tickets = s.sch.tickets

theorem dropped_dropOp (s : State) (o : Op) : Dropped s (s.dropOp o) o := by
  unfold State.dropOp
  dsimp only
  generalize hu : (if s.endBalanced o = true then s else s.ledgerFlag 1 (s.opPart o).terms) = u
  have h : Quiet s u := by
    rw [← hu]
    split
    · exact Quiet.refl s
    · exact quiet_ledgerFlag s _ _
  have hdrop : Kept u { u with sch := { u.sch with ops := u.sch.ops.filter (fun x => x.id ≠ o.id) } } :=
    kept_sch u _ (fun _ => ⟨_, rfl⟩) rfl rfl rfl
  have hq := quiet_endReads { u with sch := { u.sch with ops := u.sch.ops.filter (fun x => x.id ≠ o.id) } } o.id
  refine ⟨(h.toKept.trans hdrop).trans hq.toKept, ?_, hq.tickets.trans h.tickets⟩
  rw [opOf_congr hq.ops]
  simp [State.opOf]

/-- What counting a record leaves of the state. -/
structure Counted (s t : State) (q : Nat) : Prop where
  store   : ∀ l, t.store l = s.store l
  written : (t.queue q).written = (s.queue q).written + 1
  ops     : t.sch.ops = s.sch.ops
  tickets : t.sch.tickets = s.sch.tickets

theorem counted_recordDone (s : State) (q seq : Nat) (irq : Bool) : Counted s (s.recordDone q seq irq) q := by
  unfold State.recordDone
  extract_lets x r c t s1
  have h : Counted s s1 q := ⟨fun l => by cases l <;> rfl, by simp [s1, x], rfl, rfl⟩
  split
  · unfold State.raiseMsix
    split
    · exact ⟨fun l => by rw [← h.store l]; cases l <;> rfl, h.written, h.ops, h.tickets⟩
    · exact ⟨fun l => by rw [← h.store l]; cases l <;> rfl, h.written, h.ops, h.tickets⟩
  · exact h

/-! ## One pass of the end of an operation -/

section
variable {s : State} {o : Op}

/-- What the signals of an operation begin from. -/
def State.settledFor (s : State) (o : Op) : State := (s.settle o).usedInv (s.poisonLines o)

/-- An operation that all have reported for, its status fixed, and whose lines can be written. -/
structure Ending (s : State) (o : Op) : Prop where
  found   : s.opOf o.id = some o
  waiting : o.waiting = []
  status  : o.status.isSome = true
  settled : o.settled = false
  unread  : o.unread = false
  sigDone : o.sigDone = 0
  sigGone : o.sigGone = 0
  alive   : s.sec.state ≠ .fatal
  pending : ∀ y ∈ s.sch.xsigs, y.op ≠ o.id
  mode    : s.hrw.mode ≠ 1
  held    : s.linesHeld (s.poisonLines o) = false

variable (h : Ending s o)
include h

theorem signalsPending_ending : s.signalsPending o.id = false := by
  simpa [State.signalsPending] using h.pending

omit h in
theorem kept_settledFor : Kept s (s.settledFor o) := kept_settle.trans (quiet_usedInv _ _).toKept

theorem opOf_settledFor : (s.settledFor o).opOf o.id = some o.afterSettle :=
  (opOf_congr (quiet_usedInv _ _).ops _).trans (opOf_settle h.found)

/-- The pass goes from the signals to the record. -/
theorem endOp_ending : s.endOp o.id =
    let t := takeSignals o.id (o.status = some .done) (signalsOf o.blk) (s.settledFor o)
    if t.signalsPending o.id then t
    else match t.opOf o.id with
      | some o1 => t.putRecord o1
      | none => t := by
  have hready : s.windowReady (s.poisonLines o) = true := by
    simpa [State.windowReady] using Or.inl h.mode
  have hread : s.readUnlaunched o = s := by simp [State.readUnlaunched, h.unread]
  have hst : o.status.isNone = false := by simpa using h.status
  simp only [State.endOp, h.found, hread, State.endRead, h.unread, h.waiting, hst, h.alive, h.held, hready, h.settled,
    h.sigDone, h.sigGone, List.isEmpty_nil, Bool.not_true, Bool.false_or, decide_false, Bool.false_eq_true, if_false,
    Nat.add_zero, List.drop_zero]
  rfl

/-- An operation whose turn is over keeps what it was. -/
theorem exec_endOperation : exec (.endOperation o.id) s = .next ((s.endOp o.id).checkEnd s o.q) := by
  have hafter : s.afterEarlier o.id = s := by simp [State.afterEarlier, h.found, h.status]
  change execEndOperation o.id s = _
  rw [execEndOperation, h.found]
  simp only [hafter]
  rfl

end

/-! ## The record in the signal window -/

/-- From s to t operation o has ended with its record in the line at `slot`. -/
structure Recorded (s t : State) (o : Op) (slot : Nat) : Prop where
  gone    : t.opOf o.id = none
  written : (t.queue o.q).written = (s.queue o.q).written + 1
  record  : RecordSays (bytesAt t.dmem.cells slot 64) o
  line    : ∀ a, a / 64 ≠ slot / 64 → t.readByte .dmem a = s.readByte .dmem a
  other   : ∀ l a, l ≠ .dmem → t.readByte l a = s.readByte l a
  poison  : ∀ l n, l ≠ .dmem ∨ n ≠ slot / 64 → s.poisoned l n = true → t.poisoned l n = true
  tickets : t.sch.tickets = s.sch.tickets

/-- The place of an operation's record in the signal window. -/
def State.recordSlot (s : State) (o : Op) : Nat := dmemReserved + (s.queue o.q).cplSlot o.seq

section
variable {s : State} {o : Op}

theorem recordSlot_aligned : s.recordSlot o % 64 = 0 := by
  rw [State.recordSlot, Queue.cplSlot, dmemReserved]
  omega

theorem putRecord_window (hc : (s.queue o.q).cfg.cplHost = false) (hm : s.hrw.mode ≠ 1)
    (hheld : s.linesHeld [s.recordSlot o / 64] = false) :
    s.putRecord o = ((s.dropOp o).writeRunAs none (.dispatcher o.id) none .dmem (s.recordSlot o) (s.recordOf o)
      false).recordDone o.q o.seq (opIrq o) := by
  have hheld' : s.linesHeld [(dmemReserved + (s.queue o.q).cplSlot o.seq) / 64] = false := hheld
  simp only [State.putRecord, hc, hheld', hm, Bool.false_eq_true, if_false]
  rfl

theorem recorded_putRecord (hlen : o.bytes.length = 64) (hc : (s.queue o.q).cfg.cplHost = false) (hm : s.hrw.mode ≠ 1)
    (hheld : s.linesHeld [s.recordSlot o / 64] = false) : Recorded s (s.putRecord o) o (s.recordSlot o) := by
  rw [putRecord_window hc hm hheld]
  have hsays := recordOf_says s o hlen
  have hne : s.recordOf o ≠ [] := fun e => by simpa [e] using hsays.length
  have hdrop := dropped_dropOp s o
  have hw := writesLine_writeRunAs (s.dropOp o) o.id (s.recordSlot o) (s.recordOf o) recordSlot_aligned hne hsays.length.le
  have hcells := dmem_writeRunAs (s.dropOp o) o.id (s.recordSlot o) (s.recordOf o) recordSlot_aligned hne hsays.length.le
  generalize (s.dropOp o).writeRunAs none (.dispatcher o.id) none .dmem (s.recordSlot o) (s.recordOf o) false = u
    at hw hcells
  have hdone := counted_recordDone u o.q o.seq (opIrq o)
  generalize u.recordDone o.q o.seq (opIrq o) = t at hdone
  have hdmem : t.dmem.cells = putBytes s.dmem.cells (s.recordSlot o) (s.recordOf o) := by
    have hold : (s.dropOp o).dmem.cells = s.dmem.cells := hdrop.kept.cells .dmem
    have hnew : t.dmem = u.dmem := hdone.store .dmem
    rw [hnew, hcells, hold]
  refine ⟨?_, ?_, ?_, fun a ha => ?_, fun l a hl => ?_, fun l n hn hp => ?_, ?_⟩
  · rw [opOf_congr hdone.ops, opOf_congr (congrArg Sch.ops hw.sch), hdrop.gone]
  · obtain ⟨cmds, hq⟩ := hdrop.kept.queue o.q
    rw [hdone.written, State.queue, hw.sch, ← State.queue, hq]
  · rw [hdmem, ← hsays.length, bytesAt_putBytes]
    exact hsays
  · have := hsays.length
    have := recordSlot_aligned (s := s) (o := o)
    change byteAt t.dmem.cells a = byteAt s.dmem.cells a
    rw [hdmem, byteAt_putBytes_out _ _ _ _ (by omega)]
  · rw [State.readByte, hdone.store, hw.other l hl, hdrop.kept.cells, State.readByte]
  · rw [State.poisoned, hdone.store]
    exact hw.poison l n hn (hdrop.kept.poison l n hp)
  · rw [hdone.tickets, hw.sch, hdrop.tickets]

theorem afterSettle_eq (o : Op) : ∃ a d, o.afterSettle = { o with applied := a, dropped := d, settled := true } := by
  unfold Op.afterSettle
  split
  · exact ⟨_, _, rfl⟩
  · exact ⟨_, _, rfl⟩

/-! ## What an operation's end comes to -/

/-- With every signal that is given for a ticket here, the pass ends with the record. -/
theorem endOp_recorded (h : Ending s o) (hlen : o.bytes.length = 64) (hc : (s.queue o.q).cfg.cplHost = false)
    (hheld : s.linesHeld [s.recordSlot o / 64] = false)
    (hl : ∀ g ∈ givenOf (o.status = some .done) (signalsOf o.blk), g.remote = false ∨ g.dev = s.own) :
    ∃ t o1, o1 = { o.afterSettle with
        sigDone := (givenOf (o.status = some .done) (signalsOf o.blk)).length
        sigGone := (signalsOf o.blk).length - (givenOf (o.status = some .done) (signalsOf o.blk)).length } ∧
      Kept (s.settledFor o) t ∧ Recorded t (s.endOp o.id) o1 (s.recordSlot o) ∧
      ∀ k, t.ticket k = (s.settledFor o).ticket k +
        sumFor (fun g : Sig => g.ticket.toNat) (·.value) (givenOf (o.status = some .done) (signalsOf o.blk)) k := by
  have hk := kept_settledFor (s := s) (o := o)
  have hpend := (signalsPending_kept hk o.id).trans (signalsPending_ending h)
  obtain ⟨ht, hop, htick⟩ := takeSignals_here o.id (o.status = some .done) (signalsOf o.blk) (opOf_settledFor h) hpend
    (fun g hg => own_kept hk ▸ hl g hg)
  have hexec := endOp_ending h
  generalize takeSignals o.id (o.status = some .done) (signalsOf o.blk) (s.settledFor o) = t at ht hop htick hexec
  obtain ⟨a, d, hset⟩ := afterSettle_eq o
  have hall := hk.trans ht
  obtain ⟨cmds, hq⟩ := hall.queue o.q
  simp only [(signalsPending_kept ht o.id).trans hpend, hop, Bool.false_eq_true, if_false] at hexec
  refine ⟨t, _, rfl, ht, ?_, htick⟩
  have hsig : o.afterSettle.sigDone = 0 ∧ o.afterSettle.sigGone = 0 := by
    rw [hset]
    exact ⟨h.sigDone, h.sigGone⟩
  rw [hsig.1, hsig.2, Nat.zero_add, Nat.zero_add] at hexec
  have hslot (x : Op) (hxq : x.q = o.q) (hxs : x.seq = o.seq) : t.recordSlot x = s.recordSlot o := by
    rw [State.recordSlot, hxq, hxs, hq, State.recordSlot]
    rfl
  rw [hexec]
  have hrec := recorded_putRecord (s := t) (o := { o.afterSettle with
        sigDone := (givenOf (o.status = some .done) (signalsOf o.blk)).length
        sigGone := (signalsOf o.blk).length - (givenOf (o.status = some .done) (signalsOf o.blk)).length })
  rw [hslot _ (by rw [hset]) (by rw [hset])] at hrec
  refine hrec (by rw [hset]; exact hlen) ?_ (hall.mode ▸ h.mode) (hall.held _ ▸ hheld)
  rw [hset]
  dsimp only
  rw [hq]
  exact hc

/-- While a signal is awaited none begins. -/
theorem takeSignals_pending {id : Nat} {s : State} (hp : s.signalsPending id = true) (done : Bool) (l : List Sig) :
    takeSignals id done l s = s := by
  cases l with
  | nil => rfl
  | cons g t => simp [takeSignals, hp]

/-- The state with a signal for another device noted as sent and awaited (R266). -/
def State.signalNoted (s : State) (id : Nat) (g : Sig) : State :=
  { s with sch := { s.sch with
      xsigs := s.sch.xsigs ++
        [⟨s.sch.nextMsg, id, g.dev, g.ticket, g.value, s.tt.now + s.sch.xsigMs.toNat * 1000000⟩]
      nextMsg := s.sch.nextMsg + 1 } }

theorem signal_far {id : Nat} {s : State} {g : Sig} (hr : g.remote = true) (hd : g.dev ≠ s.own) :
    NetOnly (s.signalNoted id g) (s.signal id g) := by
  have hfar : (!g.remote || decide (g.dev = s.own)) = false := by simp [hr, hd]
  rw [State.signal, hfar]
  exact netOnly_sendTicket (s.signalNoted id g) _

/-- With a first signal that is given and for another device, it is sent and awaited. -/
theorem endOp_sent (h : Ending s o) {g : Sig} {rest : List Sig} (hsigs : signalsOf o.blk = g :: rest)
    (hg : (g.always || decide (o.status = some .done)) = true) (hr : g.remote = true) (hd : g.dev ≠ s.own) :
    NetOnly ((s.settledFor o).signalNoted o.id g) (s.endOp o.id) := by
  have hk := kept_settledFor (s := s) (o := o)
  have hpend := (signalsPending_kept hk o.id).trans (signalsPending_ending h)
  have hsent := signal_far (id := o.id) (s := s.settledFor o) hr (own_kept hk ▸ hd)
  have hwaits : ((s.settledFor o).signal o.id g).signalsPending o.id = true := by
    rw [State.signalsPending, hsent.sch]
    simp [State.signalNoted]
  have hexec := endOp_ending h
  rw [hsigs, takeSignals, hpend] at hexec
  simp only [Bool.false_eq_true, if_false, hg, if_true, takeSignals_pending hwaits, hwaits] at hexec
  rw [hexec]
  exact hsent

end

/-- Settles O28. -/
theorem operationsEndWithARecord : Obligations.OperationsEndWithARecord := by
  unfold Obligations.OperationsEndWithARecord
  intro s o st x slot sigs given here field hfound _ hwait hst hset hunread hdone hgone halive hpend hmode hcpl hheld hpois hlen
  have h : Ending s o :=
    ⟨hfound, hwait, by rw [hst]; rfl, hset, hunread, hdone, hgone, halive, hpend, hmode, hpois⟩
  have hdec : decide (o.status = some .done) = decide (st = .done) := by simp [hst]
  have hgiven : givenOf (decide (o.status = some .done)) (signalsOf o.blk) = given := by rw [hdec]; rfl
  have hslot : s.recordSlot o = slot := by
    simp only [State.recordSlot, Queue.cplSlot, Queue.size, dmemReserved, slot, x]
    omega
  have hk := kept_settledFor (s := s) (o := o)
  refine ⟨fun hhere => ?_, fun g rest hsigs hg hr hd => ?_⟩
  · obtain ⟨t, o1, ho1, ht, hrec, htick⟩ := endOp_recorded h hlen hcpl (hslot ▸ hheld) (hgiven ▸ hhere)
    rw [hgiven] at ho1 htick
    rw [hslot] at hrec
    have hall := hk.trans ht
    obtain ⟨cmds, hq⟩ := hall.queue o.q
    obtain ⟨a, d, hset⟩ := afterSettle_eq o
    rw [hset] at ho1
    subst ho1
    obtain ⟨hgone, hwritten, hrecord, hline, hother, hpoison, htickets⟩ := hrec
    dsimp only at hwritten hgone
    rw [hq] at hwritten
    have hended : (s.endOp o.id).ended s o.q = true := by
      simp [State.ended, hwritten]
    refine ⟨s.endOp o.id, ?_, hgone, hwritten, hst ▸ hrecord.status, hrecord.cause, hrecord.info, hrecord.done, hrecord.gone,
      fun a ha => ?_, fun l a hl => ?_, fun hnd r hr hout a ha ha' => ?_, fun k => ?_⟩
    · rw [exec_endOperation h, State.checkEnd, hended, if_pos rfl]
    · rw [hline a ha, State.readByte, hall.cells, State.readByte]
    · rw [hother l a hl, State.readByte, hall.cells, State.readByte]
    · have hmarks {l : Loc} {n : Nat} (hn : l ≠ .dmem ∨ n ≠ slot / 64) (hm : r.Marks o.set a l n) :
          (s.endOp o.id).poisoned l n = true :=
        hpoison l n hn (ht.poison l n ((quiet_usedInv _ _).poison l n
          (poisoned_settle (by simpa [hst] using hnd) hr hout ha ha' hm)))
      exact ⟨fun hsp g hg => hmarks (.inl (by simp)) (.inl ⟨hsp, ⟨g, hg, rfl⟩, rfl⟩),
        fun hsp hlt heq => hmarks (.inl (by simp)) (.inr (.inl ⟨hsp, hlt, heq, rfl, rfl⟩)),
        fun hsp hne => hmarks (.inr hne) (.inr (.inr ⟨hsp, rfl, rfl⟩))⟩
    · have hsettled : (s.settledFor o).ticket k = (s.settle o).ticket k := rfl
      rw [State.ticket, htickets, ← State.ticket, htick, hsettled, ticket_settle]
      simp only [hst, Option.some.injEq]
      rfl
  · have hnet := endOp_sent h hsigs (by rw [hdec]; exact (List.mem_filter.1 hg).2) hr hd
    obtain ⟨cmds, hq⟩ := hk.queue o.q
    have hqueue : (s.endOp o.id).queue o.q = (s.settledFor o).queue o.q := by
      rw [State.queue, hnet.sch, ← State.queue]
      rfl
    have hended : (s.endOp o.id).ended s o.q = false := by
      simp [State.ended, hqueue, hq]
    refine ⟨s.endOp o.id, ?_, ?_, ?_, ?_, fun l a => ?_⟩
    · rw [exec_endOperation h, State.checkEnd, hended]
      rfl
    · rw [State.opOf, hnet.sch]
      exact congrArg Option.isSome (opOf_settledFor h)
    · rw [hqueue, hq]
    · rw [hnet.sch, State.signalNoted, hk.xsigs, hk.nextMsg, hk.xsigMs, hk.tt]
    · rw [sameBytes_netOnly hnet l a]
      exact congrArg (byteAt · a) (hk.cells l)

end Sys2Proof.Machine
end

/-!
PROOFS. Rules of the vector engine's lanes (R149): an element of a register made from its elements, bit operations element by
element, and what writing registers leaves in each of them.
-/
section
namespace Sys2Proof.Machine

/-! ## The shape of a lane format -/

theorem laneBits_le_laneStep (f : Fmt) : laneBits f ≤ laneStep f := by
  revert f; decide

theorem laneStep_mul_laneCount (f : Fmt) : laneStep f * laneCount f = 2048 := by
  revert f; decide

/-- Every element lies within the register. -/
theorem lane_within {f : Fmt} {i : Nat} (h : i < laneCount f) : laneStep f * i + laneStep f ≤ 2048 := by
  rw [← laneStep_mul_laneCount f, ← Nat.mul_succ]
  exact Nat.mul_le_mul_left _ h

theorem lane_lt (r : VReg) (f : Fmt) (i : Nat) : lane r f i < 2 ^ laneBits f := Nat.mod_lt _ (Nat.two_pow_pos _)

@[simp] theorem length_lanes (r : VReg) (f : Fmt) : (lanes r f).length = laneCount f := by simp [lanes]

@[simp] theorem getElem?_lanes (r : VReg) (f : Fmt) {i : Nat} (h : i < laneCount f) : (lanes r f)[i]? = some (lane r f i) := by
  simp [lanes, h]

@[simp] theorem getElem_lanes (r : VReg) (f : Fmt) {i : Nat} (h : i < (lanes r f).length) : (lanes r f)[i] = lane r f i := by
  simp [lanes]

/-! ## An element of a packed register -/

/-- A step's bits of what a list packs are those of its element there, which is 0 past the end. -/
theorem packFrom_div_mod (step : Nat) (xs : List Nat) (i : Nat) :
    packFrom step xs / 2 ^ (step * i) % 2 ^ step = xs.getD i 0 % 2 ^ step := by
  induction xs generalizing i with
  | nil => simp [packFrom]
  | cons x t ih =>
    have hx : x % 2 ^ step < 2 ^ step := Nat.mod_lt _ (Nat.two_pow_pos _)
    cases i with
    | zero => simp [packFrom]
    | succ i =>
      rw [Nat.mul_succ, Nat.add_comm, Nat.pow_add, ← Nat.div_div_eq_div_mul, packFrom, Nat.add_mul_div_left _ _ (Nat.two_pow_pos _),
        Nat.div_eq_of_lt hx, Nat.zero_add, ih, List.getD_cons_succ]

/-- Bits that lie below bit w stay when a number is cut at w. -/
theorem mod_div_mod_two_pow (x : Nat) {w k b : Nat} (h : k + b ≤ w) : x % 2 ^ w / 2 ^ k % 2 ^ b = x / 2 ^ k % 2 ^ b := by
  have hsplit : 2 ^ w = 2 ^ k * 2 ^ (w - k) := by rw [← Nat.pow_add, Nat.add_sub_cancel' (by omega)]
  rw [hsplit, Nat.mod_mul_right_div_self, Nat.mod_mod_of_dvd _ (Nat.pow_dvd_pow 2 (by omega))]

/-- The low bits of a step of a register that a list was packed into. -/
theorem ofNat_packFrom_div_mod {w step bits i : Nat} (xs : List Nat) (hb : bits ≤ step) (hi : step * i + step ≤ w) :
    (BitVec.ofNat w (packFrom step xs)).toNat / 2 ^ (step * i) % 2 ^ bits = xs.getD i 0 % 2 ^ bits := by
  have hle : 2 ^ bits ∣ 2 ^ step := Nat.pow_dvd_pow 2 hb
  rw [BitVec.toNat_ofNat, mod_div_mod_two_pow _ (by omega), ← Nat.mod_mod_of_dvd _ hle, packFrom_div_mod,
    Nat.mod_mod_of_dvd _ hle]

/-- An element of a packed register is the list's element there, in the format's bits. -/
theorem lane_pack (f : Fmt) (xs : List Nat) {i : Nat} (h : i < laneCount f) :
    lane (pack f xs) f i = xs.getD i 0 % 2 ^ laneBits f :=
  ofNat_packFrom_div_mod xs (laneBits_le_laneStep f) (lane_within h)

/-! ## Bit operations -/

theorem lane_and (a b : VReg) (f : Fmt) (i : Nat) : lane (a &&& b) f i = lane a f i &&& lane b f i := by
  simp only [lane, BitVec.toNat_and, ← Nat.shiftRight_eq_div_pow, Nat.shiftRight_and_distrib, Nat.and_mod_two_pow]

theorem lane_or (a b : VReg) (f : Fmt) (i : Nat) : lane (a ||| b) f i = lane a f i ||| lane b f i := by
  simp only [lane, BitVec.toNat_or, ← Nat.shiftRight_eq_div_pow, Nat.shiftRight_or_distrib, Nat.or_mod_two_pow]

theorem lane_xor (a b : VReg) (f : Fmt) (i : Nat) : lane (a ^^^ b) f i = lane a f i ^^^ lane b f i := by
  simp only [lane, BitVec.toNat_xor, ← Nat.shiftRight_eq_div_pow, Nat.shiftRight_xor_distrib, Nat.xor_mod_two_pow]

/-! ## Writing registers -/

@[simp] theorem getV_setV (v : Vec) (r k : BitVec 5) (x : VReg) : (v.setV r x).getV k = if r = k then x else v.getV k := by
  simp only [Vec.getV, Vec.setV, Vector.getElem_set, BitVec.toNat_inj]

/-- The last value that a list of writes gives a register, if it writes it. -/
def lastWrite (l : List (Nat × VReg)) (r : BitVec 5) : Option VReg :=
  ((l.filter (fun y => BitVec.ofNat 5 y.1 = r)).getLast?).map Prod.snd

@[simp] theorem lastWrite_nil (r : BitVec 5) : lastWrite [] r = none := rfl

theorem lastWrite_cons (y : Nat × VReg) (l : List (Nat × VReg)) (r : BitVec 5) :
    lastWrite (y :: l) r = (lastWrite l r).or (if BitVec.ofNat 5 y.1 = r then some y.2 else none) := by
  unfold lastWrite
  by_cases h : BitVec.ofNat 5 y.1 = r
  · rw [List.filter_cons_of_pos (by simpa using h), List.getLast?_cons, if_pos h]
    cases (l.filter (fun y => BitVec.ofNat 5 y.1 = r)).getLast? <;> rfl
  · rw [List.filter_cons_of_neg (by simpa using h), if_neg h, Option.or_none]

/-- A register holds the last value written to it. -/
theorem getV_putRegs (marks : List Nat) (l : List (Nat × VReg)) (v : Vec) (r : BitVec 5) :
    (v.putRegs marks l).getV r = (lastWrite l r).getD (v.getV r) := by
  induction l generalizing v with
  | nil => rfl
  | cons y t ih =>
    rw [Vec.putRegs, ih, lastWrite_cons]
    have hset : Vec.getV { v.setV (BitVec.ofNat 5 y.1) y.2 with marks := smPut [] v.marks y.1 marks } r =
        if BitVec.ofNat 5 y.1 = r then y.2 else v.getV r := getV_setV v _ r y.2
    rw [hset]
    cases lastWrite t r with
    | some x => rfl
    | none =>
      split
      · rfl
      · rfl

/-- Writing registers leaves commands, flags and histogram. -/
theorem putRegs_only (marks : List Nat) (l : List (Nat × VReg)) (v : Vec) :
    ∃ x m, v.putRegs marks l = { v with v := x, marks := m } := by
  induction l generalizing v with
  | nil => exact ⟨_, _, rfl⟩
  | cons y t ih =>
    obtain ⟨x, m, h⟩ := ih { v.setV (BitVec.ofNat 5 y.1) y.2 with marks := smPut [] v.marks y.1 marks }
    exact ⟨x, m, h⟩

end Sys2Proof.Machine
end

/-!
PROOFS. What each operation on registers leaves in an element of its destination (Table 5-2), in the order of Lanes.lean.
-/
section
namespace Sys2Proof.Machine

/-! ## Integer lanes (R156) -/

theorem iMod_natCast (f : Fmt) (m : Nat) : iMod f m = m % 2 ^ laneBits f := by
  rw [iMod, ofSigned, ← Int.natCast_mod, Int.toNat_natCast]

/-- A difference wraps as the sum with the complement does. -/
theorem iMod_sub (f : Fmt) (x : Nat) {y : Nat} (h : y < 2 ^ laneBits f) :
    iMod f ((x : Int) - y) = (x + (2 ^ laneBits f - y)) % 2 ^ laneBits f := by
  rw [← iMod_natCast, iMod, iMod, ofSigned, ofSigned, Nat.cast_add, Nat.cast_sub h.le, add_sub_left_comm, Int.add_emod_left]

theorem iMod_neg (f : Fmt) {x : Nat} (h : x < 2 ^ laneBits f) :
    iMod f (-(x : Int)) = (2 ^ laneBits f - x) % 2 ^ laneBits f := by
  simpa using iMod_sub f 0 h

/-! ## Floating lanes -/

/-- Turning the sign adds the sign bit, modulo the format's size. -/
theorem signFlip_mod (f : Fmt) {x : Nat} (h : x < 2 ^ laneBits f) :
    signFlip f x % 2 ^ laneBits f = (x + 2 ^ (laneBits f - 1)) % 2 ^ laneBits f := by
  unfold signFlip signBit
  change x < 2 ^ fmtBits f at h
  change (if decide (x / 2 ^ (fmtBits f - 1) % 2 = 1) = true then x - 2 ^ (fmtBits f - 1) else x + 2 ^ (fmtBits f - 1)) % 2 ^ fmtBits f =
    (x + 2 ^ (fmtBits f - 1)) % 2 ^ fmtBits f
  cases hn : fmtBits f with
  | zero => simp [Nat.mod_one]
  | succ n =>
    rw [hn, Nat.pow_succ] at h
    have hp := Nat.two_pow_pos n
    rw [Nat.add_sub_cancel, Nat.pow_succ]
    split
    next hs =>
      have hge : 2 ^ n ≤ x := by
        by_contra hlt
        simp [Nat.div_eq_of_lt (Nat.lt_of_not_le hlt)] at hs
      rw [show x + 2 ^ n = x - 2 ^ n + 2 ^ n * 2 by omega, Nat.add_mod_right]
    · rfl

/-! ## An operation applied element by element -/

/-- The operations that take an element of each source. -/
def VOp.lanewise : VOp → Bool
  | .vadd | .vsub | .vmul | .vfma | .vfms | .vdiv | .vsqrt | .vmin | .vmax | .vminn | .vmaxn | .vabs | .vneg => true
  | .vshl | .vshr | .vsar | .vexp2 | .vlog2 | .vrcp | .vrsqrt | .vsin | .vcos => true
  | _ => false

theorem vecCompute_lanewise (v : Vec) {k : VCmd} (h : k.op.lanewise = true) :
    vecCompute v k = outElems k.w.fd.toNat (vFmt k.w) (zip3 (elemOp k.op (vFmt k.w) (vRm k.w)) (lanes (v.getV k.w.fa) (vFmt k.w))
      (lanes (v.getV k.w.fb) (vFmt k.w)) (lanes (v.getV (vFc k.w)) (vFmt k.w))) := by
  unfold vecCompute
  split
  case h_18 => rfl
  all_goals
    next hop =>
      rw [hop] at h
      cases h

section
variable {k : VCmd} {a : VReg} {i x y z v : Nat} (hl : k.op.lanewise = true) (hx : x < 2 ^ laneBits (vFmt k.w))
  (h : laneResult k a i x y z = some v)
include hl hx h

/-- An operation on integers wraps, shifts and selects as Table 5-2 gives. -/
theorem intOp_laneResult (hint : fmtInt (vFmt k.w) = true) (hy : y < 2 ^ laneBits (vFmt k.w)) :
    intOp k.op (vFmt k.w) x y % 2 ^ laneBits (vFmt k.w) = v % 2 ^ laneBits (vFmt k.w) := by
  simp only [laneResult, hint, if_true] at h
  cases hop : k.op with
  | vadd =>
    simp only [hop, Option.some.injEq] at h
    rw [← h, intOp, iMod_natCast]
  | vsub =>
    simp only [hop, Option.some.injEq] at h
    rw [← h, intOp, iMod_sub _ _ hy]
  | vmul =>
    simp only [hop, Option.some.injEq] at h
    rw [← h, intOp, iMod_natCast]
  | vmin =>
    simp only [hop, Option.some.injEq] at h
    rw [← h]
    rfl
  | vmax =>
    simp only [hop, Option.some.injEq] at h
    rw [← h]
    rfl
  | vabs =>
    simp only [hop, Option.some.injEq] at h
    rw [← h, intOp, iMod_natCast]
    rfl
  | vneg =>
    simp only [hop, Option.some.injEq] at h
    rw [← h, intOp, iMod_neg _ hx]
  | vshl =>
    simp only [hop, Option.some.injEq] at h
    rw [← h, intOp, iMod_natCast]
    rfl
  | vshr =>
    simp only [hop, Option.some.injEq] at h
    rw [← h]
    rfl
  | vsar =>
    simp only [hop, Option.some.injEq] at h
    rw [← h]
    rfl
  | _ => simp [hop, VOp.lanewise] at h hl

/-- An operation on floating elements is that of the format (R153 to R155). -/
theorem floatOp_laneResult (hint : fmtInt (vFmt k.w) = false) :
    (floatOp k.op (vFmt k.w) (vRm k.w) x y z).code % 2 ^ laneBits (vFmt k.w) = v % 2 ^ laneBits (vFmt k.w) := by
  simp only [laneResult, hint, Bool.false_eq_true, if_false] at h
  cases hop : k.op with
  | vneg =>
    simp only [hop, Option.some.injEq] at h
    rw [← h, Nat.mod_mod]
    exact signFlip_mod _ hx
  | vabs =>
    simp only [hop, Option.some.injEq] at h
    rw [← h]
    rfl
  | _ =>
    simp only [hop, VOp.lanewise, Option.some.injEq, reduceCtorEq, Bool.false_eq_true] at h hl
    all_goals
      rw [← h]
      rfl

theorem elemOp_laneResult (hy : y < 2 ^ laneBits (vFmt k.w)) :
    (elemOp k.op (vFmt k.w) (vRm k.w) x y z).code % 2 ^ laneBits (vFmt k.w) = v % 2 ^ laneBits (vFmt k.w) := by
  unfold elemOp
  split
  next hint => exact intOp_laneResult hl hx h hint hy
  next hint => exact floatOp_laneResult hl hx h (by simpa using hint)

end

theorem getElem?_zip3 (g : Nat → Nat → Nat → Conv) : ∀ {xs ys zs : List Nat} {i x y z : Nat}, xs[i]? = some x → ys[i]? = some y →
    zs[i]? = some z → (zip3 g xs ys zs)[i]? = some (g x y z)
  | _ :: _, _ :: _, _ :: _, 0, _, _, _, rfl, rfl, rfl => rfl
  | _ :: xs, _ :: ys, _ :: zs, i + 1, _, _, _, hx, hy, hz => getElem?_zip3 g (xs := xs) (ys := ys) (zs := zs) (i := i) hx hy hz

/-- An element of the register that an operation makes of its results is the result's code there. -/
theorem lane_pack_codes (f : Fmt) {l : List Conv} {i : Nat} {c : Conv} (hi : i < laneCount f) (h : l[i]? = some c) :
    lane (pack f (l.map (·.code))) f i = c.code % 2 ^ laneBits f := by
  rw [lane_pack f _ hi, List.getD_eq_getElem?_getD, List.getElem?_map, h]
  rfl

theorem lane_pack_map_range (f : Fmt) (g : Nat → Nat) {i : Nat} (hi : i < laneCount f) :
    lane (pack f ((List.range (laneCount f)).map g)) f i = g i % 2 ^ laneBits f := by
  rw [lane_pack f _ hi]
  simp [hi]

/-- A reduction leaves the roots of its tree and zeros elsewhere (R167). -/
theorem lane_reduceReg (op : VOp) (f : Fmt) (rm grp : Nat) (a : VReg) (d : Nat) {i : Nat} (hi : i < laneCount f) :
    ∃ reg, (reduceReg op f rm grp a d).regs = [(d, reg)] ∧ lane reg f i =
      (((reduceTree (redOp op f rm) grp 1 (lanes a f)).1.mapIdx (fun j v => if j % 2 ^ grp = 0 then v else 0)).getD i 0) %
        2 ^ laneBits f :=
  ⟨_, rfl, lane_pack f _ hi⟩

/-- The operation writes one register, whose element i holds what Table 5-2 gives. -/
theorem vecCompute_laneResult (v : Vec) {k : VCmd} {i x : Nat} (hi : i < laneCount (vFmt k.w))
    (h : laneResult k (v.getV k.w.fa) i (lane (v.getV k.w.fa) (vFmt k.w) i) (lane (v.getV k.w.fb) (vFmt k.w) i)
      (lane (v.getV (vFc k.w)) (vFmt k.w) i) = some x) :
    ∃ reg, (vecCompute v k).regs = [(k.w.fd.toNat, reg)] ∧ lane reg (vFmt k.w) i = x % 2 ^ laneBits (vFmt k.w) := by
  by_cases hl : k.op.lanewise = true
  · rw [vecCompute_lanewise v hl]
    refine ⟨_, rfl, ?_⟩
    rw [lane_pack_codes _ hi (getElem?_zip3 _ (getElem?_lanes _ _ hi) (getElem?_lanes _ _ hi) (getElem?_lanes _ _ hi))]
    exact elemOp_laneResult hl (lane_lt _ _ _) h (lane_lt _ _ _)
  · unfold vecCompute
    unfold laneResult at h
    cases hop : k.op with
    | vand =>
      simp only [hop, Option.some.injEq] at h
      exact ⟨_, rfl, by rw [lane_and, h, Nat.mod_eq_of_lt (h ▸ lane_and _ _ _ _ ▸ lane_lt _ _ _)]⟩
    | vor =>
      simp only [hop, Option.some.injEq] at h
      exact ⟨_, rfl, by rw [lane_or, h, Nat.mod_eq_of_lt (h ▸ lane_or _ _ _ _ ▸ lane_lt _ _ _)]⟩
    | vxor =>
      simp only [hop, Option.some.injEq] at h
      exact ⟨_, rfl, by rw [lane_xor, h, Nat.mod_eq_of_lt (h ▸ lane_xor _ _ _ _ ▸ lane_lt _ _ _)]⟩
    | viota =>
      simp only [hop, Option.ite_none_right_eq_some, Option.some.injEq] at h
      obtain ⟨hf, rfl⟩ := h
      rw [hf] at hi ⊢
      exact ⟨_, rfl, lane_pack_map_range 0xC _ hi⟩
    | vsplat =>
      simp only [hop, Option.some.injEq] at h
      exact ⟨_, rfl, by simp [lane_pack _ _ hi, hi, ← h]⟩
    | vshuf =>
      simp only [hop, Option.some.injEq] at h
      exact ⟨_, rfl, by simp [lane_pack _ _ hi, hi, ← h]⟩
    | vrsum =>
      simp only [hop, Option.some.injEq] at h
      exact h ▸ lane_reduceReg _ _ _ _ _ _ hi
    | vrmax =>
      simp only [hop, Option.some.injEq] at h
      exact h ▸ lane_reduceReg _ _ _ _ _ _ hi
    | vrmin =>
      simp only [hop, Option.some.injEq] at h
      exact h ▸ lane_reduceReg _ _ _ _ _ _ hi
    | vrand =>
      simp only [hop, Option.some.injEq] at h
      exact ⟨_, rfl, by rw [← h, Nat.mod_mod]; exact lane_pack_map_range _ (fun j => (gen64 k.seed (dTag k.desc) (k.sidx.toNat + j)).toNat) hi⟩
    | vdrop =>
      simp only [hop, Option.some.injEq] at h
      exact ⟨_, rfl, by simp [lane_pack _ _ hi, hi, ← h]⟩
    | _ => simp [hop, VOp.lanewise] at h hl

end Sys2Proof.Machine
end

/-!
PROOFS. What comparing, selecting, converting and the online softmax's operations leave in the registers they write (R155, R157,
R168 to R172).
-/
section
namespace Sys2Proof.Machine

/-- The registers of v' are those of v with a list of writes performed in order. -/
def Puts (v v' : Vec) (l : List (Nat × VReg)) : Prop := ∀ r : BitVec 5, v'.getV r = (lastWrite l r).getD (v.getV r)

theorem lastWrite_append (l m : List (Nat × VReg)) (r : BitVec 5) : lastWrite (l ++ m) r = (lastWrite m r).or (lastWrite l r) := by
  induction l with
  | nil => simp
  | cons y t ih => rw [List.cons_append, lastWrite_cons, ih, lastWrite_cons, Option.or_assoc]

/-- Register numbers below 32 tell registers apart. -/
theorem ofNat_reg_inj {m n : Nat} (hm : m < 32) (hn : n < 32) : BitVec.ofNat 5 m = BitVec.ofNat 5 n ↔ m = n := by
  rw [← BitVec.toNat_inj, BitVec.toNat_ofNat, BitVec.toNat_ofNat, Nat.mod_eq_of_lt hm, Nat.mod_eq_of_lt hn]

/-- An only write is what its register holds. -/
theorem puts_single {v v' : Vec} {r : BitVec 5} {x : VReg} (h : Puts v v' [(r.toNat, x)]) : v'.getV (BitVec.ofNat 5 r.toNat) = x := by
  rw [h, lastWrite_cons, lastWrite_nil, if_pos rfl]
  rfl

/-! ## Comparing (R155) -/

/-- The bits of one step of a packed register, alone. -/
theorem packed_step {w step i : Nat} (xs : List Nat) (h : step * i + step ≤ w) :
    BitVec.ofNat w (packFrom step xs) >>> (step * i) &&& BitVec.ofNat w (2 ^ step - 1) = BitVec.ofNat w (xs.getD i 0 % 2 ^ step) := by
  have hle : 2 ^ step ≤ 2 ^ w := Nat.pow_le_pow_right (by decide) (by omega)
  have hpos := Nat.two_pow_pos step
  have hlt : xs.getD i 0 % 2 ^ step < 2 ^ step := Nat.mod_lt _ hpos
  apply BitVec.eq_of_toNat_eq
  rw [BitVec.toNat_and, BitVec.toNat_ushiftRight, BitVec.toNat_ofNat (2 ^ step - 1) w, Nat.mod_eq_of_lt (by omega),
    Nat.and_two_pow_sub_one_eq_mod, Nat.shiftRight_eq_div_pow, ofNat_packFrom_div_mod xs le_rfl h, BitVec.toNat_ofNat,
    Nat.mod_eq_of_lt (hlt.trans_le hle)]

theorem getD_cmpAll (f : Fmt) (cc : Nat) (a b : VReg) {i : Nat} (hi : i < laneCount f) :
    ((cmpAll f cc (lanes a f) (lanes b f)).map (·.code)).getD i 0 =
      if (cmpElem f cc (lane a f i) (lane b f i)).1 then 2 ^ laneStep f - 1 else 0 := by
  simp [cmpAll, hi]

/-- VCMP leaves all ones where the comparison holds, else zeros. -/
theorem vcmp_step {v v' : Vec} {k : VCmd} (hop : k.op = .vcmp) (h : Puts v v' (vecCompute v k).regs) {i : Nat}
    (hi : i < laneCount (vFmt k.w)) :
    v'.getV (BitVec.ofNat 5 k.w.fd.toNat) >>> (laneStep (vFmt k.w) * i) &&& BitVec.ofNat 2048 (2 ^ laneStep (vFmt k.w) - 1) =
      if (cmpElem (vFmt k.w) (vSpec k.w) (lane (v.getV k.w.fa) (vFmt k.w) i) (lane (v.getV k.w.fb) (vFmt k.w) i)).1
      then BitVec.ofNat 2048 (2 ^ laneStep (vFmt k.w) - 1) else 0 := by
  simp only [vecCompute, hop] at h
  rw [puts_single h, packed_step _ (lane_within hi), getD_cmpAll _ _ _ _ hi]
  split
  · rw [Nat.mod_eq_of_lt (Nat.sub_lt (Nat.two_pow_pos _) Nat.one_pos)]
  · rw [Nat.zero_mod]
    rfl

theorem vsel_bits {v v' : Vec} {k : VCmd} (hop : k.op = .vsel) (h : Puts v v' (vecCompute v k).regs) :
    v'.getV (BitVec.ofNat 5 k.w.fd.toNat) =
      ((v.getV k.w.fa &&& v.getV (vFc k.w)) ||| (v.getV k.w.fb &&& ~~~ v.getV (vFc k.w))) := by
  simp only [vecCompute, hop] at h
  exact puts_single h

/-! ## Conversion (R157, R158) -/

theorem laneCount_cases (f : Fmt) : laneCount f = 32 ∧ laneStep f = 64 ∨ laneCount f = 64 ∧ laneStep f = 32 := by
  revert f; decide

section
variable {src dst : Fmt} {half : Bool} {rm d : Nat} {a old : VReg}

/-- To fewer elements, or as many: the elements of the half that is chosen. -/
theorem lane_cvtReg_narrow {i : Nat} (hn : laneCount dst ≤ laneCount src) (hi : i < laneCount dst) :
    ∃ reg, (cvtReg src dst half rm a old d).regs = [(d, reg)] ∧ lane reg dst i =
      (laneCvt src dst rm (lane a src (if laneCount dst < laneCount src then i + (if half then 32 else 0) else i))).code %
        2 ^ laneBits dst := by
  unfold cvtReg
  by_cases hlt : laneCount dst < laneCount src
  · have hd : laneCount dst = 32 := by obtain h | h := laneCount_cases dst <;> obtain h' | h' := laneCount_cases src <;> omega
    have hs : laneCount src = 64 := by obtain h' | h' := laneCount_cases src <;> omega
    have hle : i + (if half then 32 else 0) < laneCount src := by split <;> omega
    rw [if_pos hlt]
    refine ⟨_, rfl, lane_pack_codes dst hi ?_⟩
    rw [List.getElem?_map, List.getElem?_take_of_lt (by omega), List.getElem?_drop, Nat.add_comm, getElem?_lanes _ _ hle, if_pos hlt]
    rfl
  · rw [if_neg hlt, if_neg (by omega)]
    refine ⟨_, rfl, lane_pack_codes dst hi ?_⟩
    rw [List.getElem?_map, getElem?_lanes _ _ (by omega), if_neg hlt]
    rfl

/-- The 32-bit steps of the register that a conversion to more elements leaves: the new half and the kept one. -/
def cvtHalves (src dst : Fmt) (half : Bool) (rm : Nat) (a old : VReg) : List Nat :=
  let ys := ((lanes a src).map (laneCvt src dst rm)).map (·.code)
  let keep := (List.range 64).map (lane old 0xC)
  if half then keep.take 32 ++ ys else ys ++ keep.drop 32

theorem cvtReg_wide (hn : laneCount src < laneCount dst) :
    (cvtReg src dst half rm a old d).regs = [(d, BitVec.ofNat 2048 (packFrom 32 (cvtHalves src dst half rm a old)))] := by
  rw [cvtReg, if_neg (by omega), if_pos hn]
  rfl

theorem lane_cvtReg_new (hn : laneCount src < laneCount dst) {i : Nat} (hi : i < laneCount src) :
    lane (BitVec.ofNat 2048 (packFrom 32 (cvtHalves src dst half rm a old))) dst (i + if half then 32 else 0) =
      (laneCvt src dst rm (lane a src i)).code % 2 ^ laneBits dst := by
  have hs : laneCount src = 32 := by obtain h | h := laneCount_cases dst <;> obtain h' | h' := laneCount_cases src <;> omega
  have hd : laneStep dst = 32 := by obtain h' | h' := laneCount_cases dst <;> omega
  have hb := laneBits_le_laneStep dst
  rw [hd] at hb
  rw [lane, hd, ofNat_packFrom_div_mod _ hb (by split <;> omega)]
  congr 1
  cases half
  · simp [cvtHalves, List.getD_eq_getElem?_getD, List.getElem?_append_left, hi]
  · simp [cvtHalves, List.getD_eq_getElem?_getD, List.getElem?_append_right, hi]

theorem lane_cvtReg_kept (hn : laneCount src < laneCount dst) {i : Nat} (hi : i < 32) :
    lane (BitVec.ofNat 2048 (packFrom 32 (cvtHalves src dst half rm a old))) 0xC (i + (32 - if half then 32 else 0)) =
      lane old 0xC (i + (32 - if half then 32 else 0)) := by
  have hs : laneCount src = 32 := by obtain h | h := laneCount_cases dst <;> obtain h' | h' := laneCount_cases src <;> omega
  have hget : (cvtHalves src dst half rm a old).getD (i + (32 - if half then 32 else 0)) 0 =
      lane old 0xC (i + (32 - if half then 32 else 0)) := by
    cases half
    · simp [cvtHalves, List.getD_eq_getElem?_getD, List.getElem?_append_right, hs, hi, Nat.add_comm]
    · simp [cvtHalves, List.getD_eq_getElem?_getD, List.getElem?_append_left, hi]
  change _ / 2 ^ (32 * _) % 2 ^ 32 = _
  rw [ofNat_packFrom_div_mod _ le_rfl (by split <;> omega), hget]
  exact Nat.mod_eq_of_lt (lane_lt old 0xC _)

end

/-- VCVT converts each element, and keeps the half of the register that it does not write. -/
theorem vcvt_lanes {v v' : Vec} {k : VCmd} (hop : k.op = .vcvt) (h : Puts v v' (vecCompute v k).regs) :
    let f := vFmt k.w
    let d : Fmt := BitVec.ofNat 4 (vSpec k.w)
    let hf := if 16 ≤ vSpec k.w then 32 else 0
    let new := v'.getV (BitVec.ofNat 5 k.w.fd.toNat)
    (∀ i, i < laneCount d → i < laneCount f →
      lane new d (if laneCount f < laneCount d then i + hf else i) =
        (laneCvt f d (vRm k.w) (lane (v.getV k.w.fa) f (if laneCount d < laneCount f then i + hf else i))).code %
          2 ^ laneBits d) ∧
    (laneCount f < laneCount d → ∀ i, i < 32 →
      lane new 0xC (i + (32 - hf)) = lane (v.getV k.w.fd) 0xC (i + (32 - hf))) := by
  simp only [vecCompute, hop] at h
  have hhalf : (if decide (16 ≤ vSpec k.w) = true then 32 else 0) = if 16 ≤ vSpec k.w then 32 else 0 := by
    simp only [decide_eq_true_eq]
  dsimp only
  rw [← hhalf]
  by_cases hw : laneCount (vFmt k.w) < laneCount (BitVec.ofNat 4 (vSpec k.w))
  · rw [cvtReg_wide hw] at h
    rw [puts_single h]
    refine ⟨fun i _ hi => ?_, fun _ i hi => lane_cvtReg_kept hw hi⟩
    rw [if_pos hw, if_neg hw.asymm]
    exact lane_cvtReg_new hw hi
  · refine ⟨fun i hi _ => ?_, fun hlt => absurd hlt hw⟩
    obtain ⟨reg, hreg, hl⟩ := lane_cvtReg_narrow (src := vFmt k.w) (half := decide (16 ≤ vSpec k.w)) (rm := vRm k.w)
      (d := k.w.fd.toNat) (a := v.getV k.w.fa) (old := v.getV k.w.fd) (Nat.le_of_not_lt hw) hi
    rw [hreg] at h
    rw [puts_single h, if_neg hw, hl]

/-! ## Groups of four registers (R168) -/

section
variable {v v' : Vec} {d i : Nat}

/-- The element that a selector takes of the row replaced, else the one that stands. -/
def smPutReg (v : Vec) (d : Nat) (rows : Nat → Option SmRow) (j : Nat) (sel : SmRow → Nat) : VReg :=
  pack bF ((lanes (v.getV (BitVec.ofNat 5 (d + j))) bF).mapIdx (fun r x =>
    match rows r with | some y => sel y | none => x))

theorem lane_smPutReg (rows : Nat → Option SmRow) (j : Nat) (sel : SmRow → Nat) (hi : i < 64) :
    lane (smPutReg v d rows j sel) bF i =
      ((rows i).map (fun y => sel y % 2 ^ 32)).getD (lane (v.getV (BitVec.ofNat 5 (d + j))) bF i) := by
  have hi' : i < laneCount bF := hi
  rw [smPutReg, lane_pack bF _ hi']
  cases h : rows i with
  | none => simpa [hi', h] using Nat.mod_eq_of_lt (lane_lt _ bF i)
  | some y =>
    simp [hi', h]
    rfl

/-- Four writes to a group leave their values in its registers, in order. -/
theorem lastWrite_group (hd : d ≤ 28) (x : Nat → VReg) {j : Nat} (hj : j < 4) :
    lastWrite [(d, x 0), (d + 1, x 1), (d + 2, x 2), (d + 3, x 3)] (BitVec.ofNat 5 (d + j)) = some (x j) := by
  have hne {m : Nat} (hm : m < 4) : BitVec.ofNat 5 (d + m) = BitVec.ofNat 5 (d + j) ↔ m = j := by
    rw [ofNat_reg_inj (by omega) (by omega), Nat.add_left_cancel_iff]
  have h0 := hne (m := 0) (by decide)
  rw [Nat.add_zero] at h0
  simp only [lastWrite_cons, lastWrite_nil, h0, hne (m := 1) (by decide), hne (m := 2) (by decide), hne (m := 3) (by decide)]
  interval_cases j <;> rfl

/-- A register outside the group is not written. -/
theorem lastWrite_group_other (hd : d ≤ 28) (x : Nat → VReg) {r : Nat} (hr : r < 32) (h : r < d ∨ d + 3 < r) :
    lastWrite [(d, x 0), (d + 1, x 1), (d + 2, x 2), (d + 3, x 3)] (BitVec.ofNat 5 r) = none := by
  have hne {m : Nat} (hm : m < 4) : ¬ BitVec.ofNat 5 (d + m) = BitVec.ofNat 5 r := by
    rw [ofNat_reg_inj (by omega) hr]
    omega
  have h0 := hne (m := 0) (by decide)
  rw [Nat.add_zero] at h0
  simp only [lastWrite_cons, lastWrite_nil, h0, hne (m := 1) (by decide), hne (m := 2) (by decide), hne (m := 3) (by decide),
    if_false, Option.or_none]

/-- Where a group of the new registers holds rows put in, each row is the one put or the one that stood. -/
theorem smRow_smPutRows (rows : Nat → Option SmRow) (hi : i < 64)
    (h0 : v'.getV (BitVec.ofNat 5 (d + 0)) = smPutReg v d rows 0 SmRow.m)
    (h1 : v'.getV (BitVec.ofNat 5 (d + 1)) = smPutReg v d rows 1 SmRow.t)
    (h2 : v'.getV (BitVec.ofNat 5 (d + 2)) = smPutReg v d rows 2 SmRow.c)
    (h3 : v'.getV (BitVec.ofNat 5 (d + 3)) = smPutReg v d rows 3 SmRow.f) :
    smRow v' d i = ((rows i).map smLow).getD (smRow v d i) := by
  simp only [smRow, h0, h1, h2, h3, lane_smPutReg _ _ _ hi]
  cases rows i <;> rfl

/-- What a group's rows put in write to its registers. -/
def smPutRegs (v : Vec) (d : Nat) (rows : Nat → Option SmRow) : Nat → VReg
  | 0 => smPutReg v d rows 0 SmRow.m
  | 1 => smPutReg v d rows 1 SmRow.t
  | 2 => smPutReg v d rows 2 SmRow.c
  | _ => smPutReg v d rows 3 SmRow.f

/-- A group holds its rows put in when no other write reaches it. -/
theorem smRow_puts {l : List (Nat × VReg)} (rows : Nat → Option SmRow) (h : Puts v v' l) (hi : i < 64)
    (hl : ∀ j, j < 4 → lastWrite l (BitVec.ofNat 5 (d + j)) = some (smPutRegs v d rows j)) :
    smRow v' d i = ((rows i).map smLow).getD (smRow v d i) := by
  have hreg (j : Nat) (hj : j < 4) : v'.getV (BitVec.ofNat 5 (d + j)) = smPutRegs v d rows j := by rw [h, hl j hj, Option.getD_some]
  exact smRow_smPutRows rows hi (hreg 0 (by decide)) (hreg 1 (by decide)) (hreg 2 (by decide)) (hreg 3 (by decide))

theorem lastWrite_smPutRows (rows : Nat → Option SmRow) (hd : d ≤ 28) {j : Nat} (hj : j < 4) :
    lastWrite (smPutRows v d rows) (BitVec.ofNat 5 (d + j)) = some (smPutRegs v d rows j) :=
  lastWrite_group hd (smPutRegs v d rows) hj

theorem lastWrite_smPutRows_other (rows : Nat → Option SmRow) (hd : d ≤ 28) {r : Nat} (hr : r < 32) (h : r < d ∨ d + 3 < r) :
    lastWrite (smPutRows v d rows) (BitVec.ofNat 5 r) = none :=
  lastWrite_group_other hd (smPutRegs v d rows) hr h

end

/-! ## The online softmax (R169 to R172) -/

/-- What VSMINIT writes to every element of the group's registers. -/
def smInit : Nat → Nat
  | 0 => negInf32
  | 1 => 0
  | 2 => 0
  | _ => one32

section
variable {v v' : Vec} {k : VCmd} {i : Nat} (h : Puts v v' (vecCompute v k).regs)
include h

/-- VSMINIT empties each row of its group. -/
theorem vsminit_rows (hop : k.op = .vsminit) (hd : k.w.fd.toNat ≤ 28) (hi : i < 64) :
    smRow v' k.w.fd.toNat i = ⟨0xFF800000, 0, 0, 0x3F800000⟩ := by
  simp only [vecCompute, hop] at h
  have hi' : i < laneCount bF := hi
  have hreg (j : Nat) (hj : j < 4) : v'.getV (BitVec.ofNat 5 (k.w.fd.toNat + j)) =
      pack bF (List.replicate 64 (smInit j)) := by
    have hregs : (vsminitReg k.w).regs = [(k.w.fd.toNat, pack bF (List.replicate 64 (smInit 0))),
        (k.w.fd.toNat + 1, pack bF (List.replicate 64 (smInit 1))), (k.w.fd.toNat + 2, pack bF (List.replicate 64 (smInit 2))),
        (k.w.fd.toNat + 3, pack bF (List.replicate 64 (smInit 3)))] := rfl
    rw [h, hregs, lastWrite_group hd (fun j => pack bF (List.replicate 64 (smInit j))) hj, Option.getD_some]
  have hlane (x : Nat) : lane (pack bF (List.replicate 64 x)) bF i = x % 2 ^ 32 := by
    rw [lane_pack bF _ hi', List.getD_eq_getElem?_getD, List.getElem?_replicate_of_lt hi, Option.getD_some]
    rfl
  simp only [smRow, hreg 0 (by decide), hreg 1 (by decide), hreg 2 (by decide), hreg 3 (by decide), hlane]
  rfl

/-- VSMA puts the new state into its row and the probabilities into its register. -/
theorem vsma_rows (hop : k.op = .vsma) (hg : vGroupOk .vsma k.w = true) :
    let row := vSpec k.w % 64
    let qpos := lane (v.getV (BitVec.ofNat 5 (vSpec k.w / 64 % 32))) 0xC row % 2 ^ 24
    let r := vsmaRow (smRow v k.w.fd.toNat row)
      ((lanes (v.getV k.w.fa) bF).zip (liveLanes (lanes (v.getV k.w.fb) 0xC) qpos (vSpec k.w / 2048 % 2 = 1)))
    (((vFc k.w).toNat < k.w.fd.toNat ∨ k.w.fd.toNat + 3 < (vFc k.w).toNat) →
      ∀ i, i < 64 → smRow v' k.w.fd.toNat i = if i = row then smLow r.1 else smRow v k.w.fd.toNat i) ∧
    ∀ i, i < 64 → lane (v'.getV (BitVec.ofNat 5 (vFc k.w).toNat)) bF i = r.2.1.getD i 0 % 2 ^ 32 := by
  have hd : k.w.fd.toNat ≤ 28 := by simpa [vGroupOk] using hg
  simp only [vecCompute, hop, vsmaReg] at h
  extract_lets row qpos r
  refine ⟨fun hp i hi => ?_, fun i hi => ?_⟩
  · rw [smRow_puts (fun i => if i = row then some r.1 else none) h hi (fun j hj => ?_)]
    · split <;> rfl
    · have hne : ¬ BitVec.ofNat 5 (vFc k.w).toNat = BitVec.ofNat 5 (k.w.fd.toNat + j) := by
        rw [ofNat_reg_inj (vFc k.w).isLt (by omega)]
        omega
      rw [lastWrite_append, lastWrite_cons, if_neg hne]
      exact lastWrite_smPutRows _ hd hj
  · rw [h, lastWrite_append, lastWrite_cons, if_pos rfl]
    exact lane_pack bF r.2.1 hi

/-- VSMMRG puts the merged state into each row of FD and its factor into F of the group at FA. -/
theorem vsmmrg_rows (hop : k.op = .vsmmrg) (hg : vGroupOk .vsmmrg k.w = true) (hi : i < 64) :
    let r := vsmmrgRow (smRow v k.w.fd.toNat i) (smRow v k.w.fa.toNat i)
    smRow v' k.w.fd.toNat i = smLow r.1 ∧
      lane (v'.getV (BitVec.ofNat 5 (k.w.fa.toNat + 3))) bF i =
        r.2.1.getD (lane (v.getV (BitVec.ofNat 5 (k.w.fa.toNat + 3))) bF i) % 2 ^ 32 := by
  have hgroups : k.w.fd.toNat ≤ 28 ∧ k.w.fa.toNat ≤ 28 ∧
      (k.w.fa.toNat + 3 < k.w.fd.toNat ∨ k.w.fd.toNat + 3 < k.w.fa.toNat) := by
    simp only [vGroupOk, groupsMeet, Bool.and_eq_true, decide_eq_true_eq, Bool.not_eq_true', Bool.and_eq_false_iff,
      decide_eq_false_iff_not] at hg
    omega
  obtain ⟨hd, ha, hmeet⟩ := hgroups
  simp only [vecCompute, hop, vsmmrgReg] at h
  have hi' : i < laneCount bF := hi
  have hrow : ((List.range 64).map (fun i => vsmmrgRow (smRow v k.w.fd.toNat i) (smRow v k.w.fa.toNat i)))[i]? =
      some (vsmmrgRow (smRow v k.w.fd.toNat i) (smRow v k.w.fa.toNat i)) := by simp [hi]
  refine ⟨?_, ?_⟩
  · rw [smRow_puts _ h hi (fun j hj => by rw [lastWrite_cons, lastWrite_smPutRows _ hd hj, Option.some_or]), hrow]
    rfl
  · rw [h, lastWrite_cons, lastWrite_smPutRows_other _ hd (by omega) (by omega), if_pos rfl, Option.none_or, Option.getD_some,
      lane_pack bF _ hi']
    simp only [List.getD_eq_getElem?_getD, List.getElem?_mapIdx, getElem?_lanes _ _ hi', Option.map_some, Option.getD_some, hrow]
    cases vsmmrgRow (smRow v k.w.fd.toNat i) (smRow v k.w.fa.toNat i) with
    | mk x y =>
      cases y with
      | mk y z => cases y <;> rfl

end

end Sys2Proof.Machine
end

/-!
PROOFS. In which order a command's writes of several granules take effect (R226): reading for a masked write orders nothing, and
a command's own write leaves the writes that come after its others the same.
-/
section
namespace Sys2Proof.Machine

/-! ## What orders writes -/

/-- From s to t the writes kept of granules, and the time, are the same. -/
def SameOrder (s t : State) : Prop := t.old = s.old ∧ t.wall = s.wall

theorem SameOrder.refl (s : State) : SameOrder s s := ⟨rfl, rfl⟩

theorem SameOrder.trans {s t u : State} (h : SameOrder s t) (k : SameOrder t u) : SameOrder s u :=
  ⟨k.1.trans h.1, k.2.trans h.2⟩

theorem sameOrder_foldl {α : Type} (f : State → α → State) (h : ∀ t x, SameOrder t (f t x)) (l : List α) (s : State) :
    SameOrder s (l.foldl f s) := by
  induction l generalizing s with
  | nil => exact SameOrder.refl s
  | cons x t ih => exact (h s x).trans (ih (f s x))

theorem sameOrder_setStore (s : State) (l : Loc) (st : Store) : SameOrder s (s.setStore l st) := by
  cases l <;> exact ⟨rfl, rfl⟩

theorem sameOrder_logRec (s : State) (r : LogRec) : SameOrder s (s.logRec r) := ⟨logRec_old s r, logRec_wall s r⟩

theorem sameOrder_onDieEcc (s : State) (n : Nat) : SameOrder s (s.onDieEcc n) := by
  unfold State.onDieEcc
  split <;> exact ⟨rfl, rfl⟩

theorem sameOrder_listPage (s : State) (p : Nat) (y : PageReason) : SameOrder s (s.listPage p y) := by
  unfold State.listPage
  dsimp only
  split_ifs
  · exact SameOrder.refl s
  · exact SameOrder.trans ⟨rfl, rfl⟩ (sameOrder_logRec _ _)
  · exact sameOrder_logRec s _

theorem sameOrder_lineCe (s : State) (n : Nat) : SameOrder s (s.lineCe n) := by
  unfold State.lineCe
  extract_lets a k st row day hits s1 d s2 s3
  have h3 : SameOrder s s3 := ⟨rfl, rfl⟩
  split
  · exact h3.trans (sameOrder_listPage _ _ _)
  · exact h3

theorem sameOrder_lineUe (s : State) (n : Nat) : SameOrder s (s.lineUe n) := by
  unfold State.lineUe
  extract_lets a k st s1 d h s2 r w s3
  have h2 : SameOrder s s2 := ⟨rfl, rfl⟩
  have h3 : SameOrder s2 s3 :=
    SameOrder.trans (t := { s2 with hrw := { s2.hrw with events := s2.hrw.events ++ [r] } }) ⟨rfl, rfl⟩ (sameOrder_logRec _ r)
  exact ((h2.trans h3).trans (u := s3.healthInc _ _) ⟨rfl, rfl⟩).trans (sameOrder_listPage _ _ _)

theorem sameOrder_touchLine (s : State) (n : Nat) : SameOrder s (s.touchLine n) := by
  unfold State.touchLine
  split
  · exact sameOrder_onDieEcc s n
  · exact (sameOrder_onDieEcc s n).trans (sameOrder_lineCe _ n)
  · exact (sameOrder_onDieEcc s n).trans (sameOrder_lineUe _ n)

theorem sameOrder_touchWord (s : State) (l : Loc) (w : Nat) : SameOrder s (s.touchWord l w) := by
  unfold State.touchWord
  dsimp only
  split
  · exact SameOrder.refl s
  · exact (sameOrder_setStore s l _).trans ⟨rfl, rfl⟩
  · exact ((sameOrder_setStore s l _).trans ⟨rfl, rfl⟩).trans (sameOrder_logRec _ _)

theorem sameOrder_preWrite (s : State) (l : Loc) (n : Nat) (b : List (Nat × Byte)) : SameOrder s (s.preWrite l n b) := by
  have hwords (k : Loc) : SameOrder s ((List.range 8).foldl (fun t i =>
      if touchesWord b (8 * n + i) && !coversWord b (8 * n + i) then t.touchWord k (8 * n + i) else t) s) := by
    refine sameOrder_foldl _ (fun t i => ?_) _ s
    split
    · exact sameOrder_touchWord t k _
    · exact SameOrder.refl t
  unfold State.preWrite
  split
  · exact SameOrder.refl s
  · cases l with
    | dmem => exact sameOrder_touchLine s n
    | lsp g => exact hwords _
    | quay d => exact hwords _

theorem sameOrder_writeGran (s : State) (l : Loc) (n : Nat) (b : List (Nat × Byte)) (p : Bool) (m : List Nat) :
    SameOrder s (s.writeGran l n b p m) := by
  unfold State.writeGran
  cases l <;> exact (sameOrder_preWrite s _ n b).trans ⟨rfl, rfl⟩

theorem sameOrder_setGran (s : State) (l : Loc) (n : Nat) (live : List (Nat × Byte)) (p : Bool) (m : List Nat) :
    SameOrder s (s.setGran l n live p m) := by
  unfold State.setGran
  cases l <;> exact ⟨rfl, rfl⟩

/-! ## The last of a list of writes -/

/-- All of a list of writes satisfy f, given each one's place from the end. -/
def AllOnes (f : Nat → OldGran → Bool) (l : List OldGran) : Prop := ∀ x ∈ l.reverse.zipIdx, f x.2 x.1 = true

theorem takeWhile_zipIdx {α : Type} (p : α × Nat → Bool) (l : List α) (k : Nat) :
    (((l.zipIdx k).takeWhile p).map Prod.fst).zipIdx k = (l.zipIdx k).takeWhile p := by
  induction l generalizing k with
  | nil => rfl
  | cons x t ih =>
    rw [List.zipIdx_cons, List.takeWhile_cons]
    split
    · rw [List.map_cons, List.zipIdx_cons, ih]
    · rfl

theorem allOnes_lastOnes (f : Nat → OldGran → Bool) (l : List OldGran) : AllOnes f (lastOnes f l) := by
  intro x hx
  rw [lastOnes, List.reverse_reverse, takeWhile_zipIdx] at hx
  exact List.mem_takeWhile_imp (p := fun x : OldGran × Nat => f x.2 x.1) hx

/-- Where one write fails f and all after it satisfy it, those are the last ones. -/
theorem lastOnes_append {f : Nat → OldGran → Bool} (xs : List OldGran) {o : OldGran} {ys : List OldGran} (hys : AllOnes f ys)
    (ho : ∀ i, f i o = false) : lastOnes f (xs ++ o :: ys) = ys := by
  rw [lastOnes, List.reverse_append, List.reverse_cons, List.append_assoc, List.zipIdx_append, List.takeWhile_append_of_pos hys,
    List.singleton_append, List.zipIdx_cons, List.takeWhile_cons_of_neg (by simp [ho]), List.append_nil, List.zipIdx_map_fst,
    List.reverse_reverse]

/-- A write without what its granule held before it. -/
def OldGran.bare (o : OldGran) : OldGran := { o with was := ⟨[], false, []⟩ }

theorem allOnes_bare {f : Nat → OldGran → Bool} (hf : ∀ i o, f i o.bare = f i o) (l : List OldGran) :
    AllOnes f (l.map OldGran.bare) ↔ AllOnes f l := by
  simp only [AllOnes, ← List.map_reverse, List.zipIdx_map, List.forall_mem_map, Prod.map, hf, id]

theorem inTurn_bare (l : List OldGran) (x : Gran) : (inTurn l x).map OldGran.bare = l.map OldGran.bare := by
  induction l generalizing x with
  | nil => rfl
  | cons o t ih => exact congrArg (o.bare :: ·) (ih _)

theorem inTurn_puts (l : List OldGran) (x : Gran) : (inTurn l x).map (·.put) = l.map (·.put) := by
  induction l generalizing x with
  | nil => rfl
  | cons o t ih => exact congrArg (o.put :: ·) (ih _)

theorem mem_inTurn {l : List OldGran} {x : Gran} {y : OldGran} (h : y ∈ inTurn l x) : ∃ o ∈ l, y.loc = o.loc ∧ y.n = o.n := by
  induction l generalizing x with
  | nil => cases h
  | cons o t ih =>
    rcases List.mem_cons.1 h with rfl | h
    · exact ⟨o, List.mem_cons_self, rfl, rfl⟩
    · obtain ⟨z, hz, hloc⟩ := ih h
      exact ⟨z, List.mem_cons_of_mem _ hz, hloc⟩

/-! ## A command's own write (R226) -/

theorem Writer.party_self (w : Writer) : w.party w = true := by
  cases w <;> simp [Writer.party]

/-- Whether a write, the i-th from the last of its granule, takes effect after one of w at a time (R226). -/
def comesAfter (op : Option Nat) (w : Writer) (wall : Nat) (l : Loc) (n : Nat) (i : Nat) (o : OldGran) : Bool :=
  o.unordered op w wall && Config.writesFirst (i :: op.getD 0 :: locCode l :: n :: writerCode w)

/-- No write comes after one of the same party. -/
theorem comesAfter_own {op : Option Nat} {w : Writer} {o : OldGran} (h : o.writer = w) (wall : Nat) (l : Loc) (n i : Nat) :
    comesAfter op w wall l n i o = false := by
  simp [comesAfter, OldGran.unordered, h, Writer.party_self]

theorem later_eq (s : State) (op : Option Nat) (w : Writer) (l : Loc) (n : Nat) :
    s.later op w l n = lastOnes (comesAfter op w s.wall l n) (s.writesOf l n) := rfl

/-- From s to t the writes that take effect after one of w now, on any granule, write the same. -/
def SameLater (op : Option Nat) (w : Writer) (s t : State) : Prop :=
  ∀ l n, (t.later op w l n).map (·.put) = (s.later op w l n).map (·.put)

section
variable {op : Option Nat} {w : Writer}

theorem SameLater.trans {s t u : State} (h : SameLater op w s t) (k : SameLater op w t u) : SameLater op w s u :=
  fun l n => (k l n).trans (h l n)

theorem sameLater_of_sameOrder {s t : State} (h : SameOrder s t) : SameLater op w s t := fun l n => by
  rw [later_eq, State.writesOf, h.1, h.2, later_eq, State.writesOf]

theorem lands_sameLater {s t : State} (h : SameLater op w s t) (y : Loc × Nat) : t.lands op w y = s.lands op w y := by
  have hany (u : State) : (u.later op w y.1 (y.2 / 64)).any (fun o => o.put.covers (y.2 % 64)) =
      ((u.later op w y.1 (y.2 / 64)).map (·.put)).any (fun p => p.covers (y.2 % 64)) := by rw [List.any_map]; rfl
  rw [State.lands, State.lands, hany t, hany s, h]

/-- The later writes of a granule are of it. -/
theorem mem_writesOf {s : State} {l : Loc} {n : Nat} {o : OldGran} : o ∈ s.writesOf l n ↔ o ∈ s.old ∧ o.loc = l ∧ o.n = n := by
  simp [State.writesOf]

theorem mem_later {s : State} {l : Loc} {n : Nat} {o : OldGran} (h : o ∈ s.later op w l n) : o ∈ s.writesOf l n := by
  obtain ⟨x, hx, rfl⟩ := List.mem_map.1 (List.mem_reverse.1 h)
  have hz := (List.takeWhile_sublist _).mem hx
  exact List.mem_reverse.1 (List.fst_mem_of_mem_zipIdx hz)

/-- What is kept of a granule's writes after one that comes before some of them: others, it, and those again. -/
theorem writesOf_replaced {s t : State} {l : Loc} {n : Nat} {all : List OldGran} (hall : ∀ y ∈ all, y.loc = l ∧ y.n = n)
    (ht : t.old = s.old.filter (fun y => !(y.loc = l && y.n = n)) ++ all) (l' : Loc) (n' : Nat) :
    t.writesOf l' n' = if l' = l ∧ n' = n then all else s.writesOf l' n' := by
  rw [State.writesOf, ht, List.filter_append, List.filter_filter, State.writesOf]
  split
  case isTrue h =>
    obtain ⟨rfl, rfl⟩ := h
    have hnone : s.old.filter (fun y => (y.loc = l' && y.n = n') && !(y.loc = l' && y.n = n')) = [] :=
      List.filter_eq_nil_iff.2 (fun y _ => by simp)
    rw [hnone, List.nil_append]
    exact List.filter_eq_self.2 (fun y hy => by simpa using hall y hy)
  case isFalse h =>
    have hnone : all.filter (fun y => y.loc = l' && y.n = n') = [] := by
      refine List.filter_eq_nil_iff.2 (fun y hy hy' => h ?_)
      obtain ⟨rfl, rfl⟩ := hall y hy
      simp only [Bool.and_eq_true, decide_eq_true_eq] at hy'
      exact ⟨hy'.1.symm, hy'.2.symm⟩
    rw [hnone, List.append_nil]
    refine List.filter_congr (fun y _ => ?_)
    by_cases hy : y.loc = l' ∧ y.n = n'
    · obtain ⟨rfl, rfl⟩ := hy
      simpa only [decide_true, Bool.and_true, Bool.true_and, Bool.not_eq_true', Bool.and_eq_false_iff, decide_eq_false_iff_not,
        not_and_or] using h
    · have hf : (decide (y.loc = l') && decide (y.n = n')) = false := by simpa using hy
      rw [hf, Bool.false_and]

/-- A write that w has made is noted before the later ones, which stay the last. -/
theorem sameLater_noted {s t : State} (h : SameOrder s t) (after : Option Nat) (l : Loc) (n : Nat) (p : GranPut) :
    SameLater op w s (t.noted s op w after l n p (s.later op w l n)) := by
  unfold State.noted
  split
  case isTrue => exact sameLater_of_sameOrder h
  case isFalse =>
    extract_lets x o all
    have hall : all = s.writesOf l n := by rw [State.writesOf, ← h.1]; rfl
    have hmem (y : OldGran) (hy : y ∈ all.take (all.length - (s.later op w l n).length) ++ o :: inTurn (s.later op w l n) (x.put p)) :
        y.loc = l ∧ y.n = n := by
      rcases List.mem_append.1 hy with hy | hy
      · exact (mem_writesOf.1 (hall ▸ List.mem_of_mem_take hy)).2
      · rcases List.mem_cons.1 hy with rfl | hy
        · exact ⟨rfl, rfl⟩
        · obtain ⟨z, hz, hloc, hn⟩ := mem_inTurn hy
          obtain ⟨-, hzl, hzn⟩ := mem_writesOf.1 (mem_later hz)
          exact ⟨hloc.trans hzl, hn.trans hzn⟩
    have hwrites := writesOf_replaced hmem (s := s) (t := { t with
      old := t.old.filter (fun y => !(y.loc = l && y.n = n)) ++ all.take (all.length - (s.later op w l n).length) ++
        (o :: inTurn (s.later op w l n) (x.put p)) }) (by rw [← h.1, List.append_assoc])
    intro l' n'
    rw [later_eq, hwrites]
    split
    case isFalse =>
      exact congrArg (fun wall => (lastOnes (comesAfter op w wall l' n') (s.writesOf l' n')).map (·.put)) h.2
    case isTrue e =>
      obtain ⟨rfl, rfl⟩ := e
      rw [lastOnes_append]
      · exact inTurn_puts _ _
      · rw [← allOnes_bare (fun _ _ => rfl), inTurn_bare, allOnes_bare (fun _ _ => rfl)]
        change AllOnes (comesAfter op w t.wall l' n') _
        rw [h.2]
        exact allOnes_lastOnes _ _
      · exact fun i => comesAfter_own rfl _ _ _ i

theorem sameLater_orderGran (s : State) (after : Option Nat) (l : Loc) (n : Nat) (b : List (Nat × Byte)) (p : Bool) (m : List Nat) :
    SameLater op w s (s.orderGran op w after l n b p m) := by
  unfold State.orderGran
  dsimp only
  refine sameLater_noted ?_ after l n _
  split
  · exact sameOrder_writeGran s l n b p m
  · exact (sameOrder_preWrite s l n b).trans (sameOrder_setGran _ _ _ _ _ _)

end

end Sys2Proof.Machine
end

/-!
PROOFS. What a command's writes of several granules leave in memory (R191, R226): the bytes that no later write of another party
covers, in the order of their accesses.
-/
section
namespace Sys2Proof.Machine

/-! ## The bytes of a command by granule -/

theorem smGet_of_no_key {α : Type} {d : α} {m : List (Nat × α)} {k : Nat} (h : ∀ x ∈ m, x.1 ≠ k) : smGet d m k = d := by
  induction m with
  | nil => rfl
  | cons x t ih =>
    rw [smGet, if_neg (h x List.mem_cons_self)]
    exact ih (fun y hy => h y (List.mem_cons_of_mem _ hy))

/-- A map in canonical form, gone through in order, is its values at every key in order. -/
theorem flatMap_sorted {α β : Type} {h : List α → List β} (h0 : h [] = []) (len k : Nat) {m : List (Nat × List α)}
    (hm : m.Pairwise (fun x y => x.1 < y.1)) (hk : ∀ x ∈ m, k ≤ x.1 ∧ x.1 < k + len) :
    m.flatMap (fun x => h x.2) = (List.range' k len).flatMap (fun n => h (smGet [] m n)) := by
  induction len generalizing k m with
  | zero =>
    cases m with
    | nil => rfl
    | cons x t =>
      have := hk x List.mem_cons_self
      omega
  | succ len ih =>
    rw [List.range'_succ, List.flatMap_cons]
    by_cases hhead : ∃ v t, m = (k, v) :: t
    · obtain ⟨v, t, rfl⟩ := hhead
      obtain ⟨hlt, ht⟩ := List.pairwise_cons.1 hm
      have htail : ∀ n ∈ List.range' (k + 1) len, h (smGet [] ((k, v) :: t) n) = h (smGet [] t n) := fun n hn => by
        rw [smGet, if_neg (by have := List.mem_range'_1.1 hn; omega)]
      rw [List.flatMap_cons, List.flatMap_congr htail, ← ih (k + 1) ht (fun x hx => ?_), smGet, if_pos rfl]
      have := hk x (List.mem_cons_of_mem _ hx)
      have := hlt x hx
      omega
    · have hne : ∀ x ∈ m, k < x.1 := fun x hx => by
        cases m with
        | nil => cases hx
        | cons y t =>
          have hy : y.1 ≠ k := fun e => hhead ⟨y.2, t, by rw [← e]⟩
          have hy' := hk y List.mem_cons_self
          rcases List.mem_cons.1 hx with rfl | hx
          · omega
          · have := (List.pairwise_cons.1 hm).1 x hx
            omega
      rw [smGet_of_no_key (fun x hx => (hne x hx).ne'), h0, List.nil_append]
      exact ih (k + 1) hm (fun x hx => ⟨hne x hx, by have := hk x hx; omega⟩)

theorem addPend_eq (b : PendByte) (m : List (Nat × List PendByte)) :
    addPend b m = smPut [] m (b.addr / 64) (smGet [] m (b.addr / 64) ++ [b]) := by
  rw [smPut, if_neg (by simp), addPend]

theorem groupPend_append (l : List PendByte) (b : PendByte) : groupPend (l ++ [b]) = addPend b (groupPend l) := by
  rw [groupPend, List.foldl_append]
  rfl

theorem smWf_groupPend (l : List PendByte) : smWf [] (groupPend l) = true := by
  induction l using List.reverseRecOn with
  | nil => rfl
  | append_singleton l b ih =>
    rw [groupPend_append, addPend_eq]
    exact smWf_smPut _ _ _ _ ih

/-- A granule's group is its bytes in their order. -/
theorem smGet_groupPend (l : List PendByte) (n : Nat) : smGet [] (groupPend l) n = l.filter (fun b => b.addr / 64 = n) := by
  induction l using List.reverseRecOn with
  | nil => rfl
  | append_singleton l b ih =>
    rw [groupPend_append, addPend_eq, smGet_smPut, List.filter_append]
    split
    case isTrue h =>
      subst h
      rw [ih]
      simp
    case isFalse h => simp [ih, Ne.symm h]

theorem smGet_of_mem {α : Type} {d : α} {m : List (Nat × α)} (hm : m.Pairwise (fun x y => x.1 < y.1)) {x : Nat × α} (hx : x ∈ m) :
    smGet d m x.1 = x.2 := by
  induction m with
  | nil => cases hx
  | cons y t ih =>
    obtain ⟨hlt, ht⟩ := List.pairwise_cons.1 hm
    rcases List.mem_cons.1 hx with rfl | hx
    · rw [smGet, if_pos rfl]
    · rw [smGet, if_neg (hlt x hx).ne, ih ht hx]

theorem groupPend_mem {l : List PendByte} {x : Nat × List PendByte} (hx : x ∈ groupPend l) :
    x.2 = l.filter (fun b => b.addr / 64 = x.1) := by
  rw [← smGet_groupPend, smGet_of_mem ((smWf_iff _ _).1 (smWf_groupPend l)).1 hx]

/-- What a command's bytes give, taken in the order of its accesses: granule by granule, each in the bytes' order. -/
theorem flatMap_groupPend {β : Type} (f : Nat × Byte → Option β) {l : List PendByte} {len : Nat} (h : ∀ b ∈ l, b.addr / 64 < len) :
    (groupPend l).flatMap (fun x => x.2.filterMap (fun b => f (b.addr, b.byte))) =
      (List.range' 0 len).flatMap (fun n => ((rowBytesOf l).filter (fun y => y.1 / 64 = n)).filterMap f) := by
  obtain ⟨hs, hne⟩ := (smWf_iff _ _).1 (smWf_groupPend l)
  have hkeys : ∀ x ∈ groupPend l, 0 ≤ x.1 ∧ x.1 < 0 + len := fun x hx => by
    obtain ⟨b, hb⟩ := List.exists_mem_of_ne_nil _ (hne x hx)
    rw [groupPend_mem hx] at hb
    obtain ⟨hmem, hn⟩ := List.mem_filter.1 hb
    have := h b hmem
    simp only [decide_eq_true_eq] at hn
    omega
  rw [flatMap_sorted (h := fun bs => bs.filterMap (fun b => f (b.addr, b.byte))) rfl len 0 hs hkeys]
  simp only [smGet_groupPend, rowBytesOf, List.filter_map, List.filterMap_map]
  rfl

/-! ## Writes in an order -/

theorem wrote_refl (s : State) : Wrote s s [] := fun _ _ => rfl

theorem wrote_append {s t u : State} {p q : List ((Loc × Nat) × Byte)} (h : Wrote s t p) (k : Wrote t u q) : Wrote s u (p ++ q) := by
  intro l a
  rw [k l a, h l a, List.filter_append, List.getLast?_append]
  cases (q.filter (fun x => x.1 = (l, a))).getLast? <;> rfl

/-- What leaves every byte before and after writes does not show. -/
theorem wrote_of_sameBytes {s s0 s1 t : State} {p : List ((Loc × Nat) × Byte)} (h : SameBytes s s0) (hw : Wrote s0 s1 p)
    (k : SameBytes s1 t) : Wrote s t p := fun l a => by
  rw [k, hw, h]

theorem byteAt_putCells (m : List Host.Cell) (l : List (Nat × Byte)) (a : Nat) :
    byteAt (putCells m l) a = ((l.filter (fun y => y.1 = a)).getLast?.map Prod.snd).getD (byteAt m a) := by
  induction l using List.reverseRecOn with
  | nil => rfl
  | append_singleton l y ih =>
    rw [putCells, List.foldl_append, List.foldl_cons, List.foldl_nil, byteAt_putByte, List.filter_append]
    by_cases h : y.1 = a
    · simp [h]
    · rw [if_neg (Ne.symm h)]
      simp only [h, decide_false, Bool.false_eq_true, not_false_eq_true, List.filter_cons_of_neg, List.filter_nil, List.append_nil]
      exact ih

/-- One ordered access leaves those of its bytes that no later write covers. -/
theorem wrote_orderGran (s : State) (op : Option Nat) (w : Writer) (after : Option Nat) (l : Loc) (n : Nat) (b : List (Nat × Byte))
    (p : Bool) (m : List Nat) (hb : ∀ y ∈ b, y.1 / 64 = n) :
    Wrote s (s.orderGran op w after l n b p m) ((b.filter (fun y => s.lands op w (l, y.1))).map (fun y => ((l, y.1), y.2))) := by
  intro k a
  rw [State.readByte, orderGran_cells s op w after l k n b p m hb, List.filter_map, List.getLast?_map]
  by_cases hk : k = l
  · subst hk
    rw [if_pos rfl, byteAt_putCells]
    simp only [Function.comp_def, Prod.mk.injEq, true_and, Option.map_map]
    rfl
  · rw [if_neg hk]
    simp [Function.comp_def, Ne.symm hk]
    rfl

/-! ## Writes through a descriptor -/

/-- Where a byte's granule lies, the byte lies at its place in it. -/
theorem bytePlace_eq (g : Nat) (d : Desc) (b : PendByte) :
    bytePlace g d b = (locOf g d (b.addr / 64 * 64)).map (fun y => (y.1, y.2 / 64 * 64 + b.addr % 64)) := by
  have hcore : b.addr / 64 * 64 / 8388608 = b.addr / 8388608 := by omega
  have hplace : b.addr / 64 * 64 % 8388608 / 64 * 64 + b.addr % 64 = b.addr % 8388608 := by omega
  have hself : b.addr / 64 * 64 + b.addr % 64 = b.addr := by omega
  unfold bytePlace locOf
  split
  case h_5 => split <;> simp [hcore, hplace, hself]
  all_goals simp [hcore, hplace, hself]

/-- One granule's part of a command's writes through a descriptor. -/
def State.writeGroup (op : Option Nat) (w : Writer) (g : Nat) (d : Desc) (t : State) (x : Nat × List PendByte) : State :=
  match locOf g d (x.1 * 64) with
  | some (l, a) => t.writePendGran op w l (a / 64) (x.2.map (fun b => { b with addr := a / 64 * 64 + b.addr % 64 }))
  | none => t

theorem writeDesc_eq (s : State) (op : Option Nat) (w : Writer) (g : Nat) (d : Desc) (bs : List PendByte) :
    s.writeDesc op w g d bs = (groupPend bs).foldl (State.writeGroup op w g d) s := rfl

/-- A byte stays when its place, if it has one on this device, is not covered later. -/
def staysAt (lands : Loc × Nat → Bool) : Option (Loc × Nat) → Bool
  | some y => lands y
  | none => true

theorem map_of_stays {β : Type} (lands : Loc × Nat → Bool) (f : Loc × Nat → β) (x : Option (Loc × Nat)) :
    (if staysAt lands x = true then x.map f else none) = (x.filter lands).map f := by
  cases x with
  | none => rfl
  | some y =>
    simp only [Option.filter_some, staysAt]
    split
    case isTrue h => exact if_pos h
    case isFalse h => exact if_neg h

section
variable (s : State) (op : Option Nat) (w : Writer) (g : Nat) (d : Desc)

/-- A byte addressed through a descriptor as it is stored: its place with its value, when it has one and stays. -/
def State.landed (s : State) (op : Option Nat) (w : Writer) (g : Nat) (d : Desc) (y : Nat × Byte) : Option ((Loc × Nat) × Byte) :=
  ((locOf g d y.1).filter (s.lands op w)).map (fun p => (p, y.2))

theorem landed_sameLater {s t : State} {op : Option Nat} {w : Writer} (h : SameLater op w s t) (g : Nat) (d : Desc) :
    t.landed op w g d = s.landed op w g d := by
  funext y
  rw [State.landed, State.landed, funext (lands_sameLater h)]

/-- One granule's access through a descriptor stores the bytes of it that stay. -/
theorem wrote_writePendGran {n : Nat} {bs : List PendByte} (hbs : ∀ b ∈ bs, b.addr / 64 = n) {l : Loc} {a : Nat}
    (hl : locOf g d (n * 64) = some (l, a)) :
    Wrote s (s.writePendGran op w l (a / 64) (bs.map (fun b => { b with addr := a / 64 * 64 + b.addr % 64 })))
      (bs.filterMap (fun b => s.landed op w g d (b.addr, b.byte))) := by
  have hplace (b : PendByte) (hb : b ∈ bs) : locOf g d b.addr = some (l, a / 64 * 64 + b.addr % 64) := by
    have := bytePlace_eq g d b
    rw [hbs b hb, hl] at this
    exact this
  have hland : bs.filterMap (fun b => s.landed op w g d (b.addr, b.byte)) =
      (((bs.map (fun b => (a / 64 * 64 + b.addr % 64, b.byte))).filter (fun y => s.lands op w (l, y.1))).map
        (fun y => ((l, y.1), y.2))) := by
    rw [List.filter_map, List.map_map, ← List.filterMap_eq_map, List.filterMap_filter]
    refine List.filterMap_congr (fun b hb => ?_)
    simp only [State.landed, hplace b hb, Option.filter_some, Function.comp_apply]
    split <;> rfl
  rw [hland, State.writePendGran, List.map_map]
  refine wrote_orderGran s op w none l (a / 64) _ _ _ (fun y hy => ?_)
  obtain ⟨b, -, rfl⟩ := List.mem_map.1 hy
  simp only [Function.comp_apply]
  omega

theorem wrote_writeGroup {x : Nat × List PendByte} (hx : ∀ b ∈ x.2, b.addr / 64 = x.1) :
    Wrote s (s.writeGroup op w g d x) (x.2.filterMap (fun b => s.landed op w g d (b.addr, b.byte))) := by
  unfold State.writeGroup
  split
  next l a hloc => exact wrote_writePendGran s op w g d hx hloc
  next hloc =>
    have hnone : x.2.filterMap (fun b => s.landed op w g d (b.addr, b.byte)) = [] := by
      refine List.filterMap_eq_nil_iff.2 (fun b hb => ?_)
      have := bytePlace_eq g d b
      rw [hx b hb, hloc] at this
      rw [State.landed, show locOf g d b.addr = none from this]
      rfl
    rw [hnone]
    exact wrote_refl s

theorem sameLater_writeGroup (x : Nat × List PendByte) : SameLater op w s (s.writeGroup op w g d x) := by
  unfold State.writeGroup
  split
  · exact sameLater_orderGran s none _ _ _ _ _
  · exact sameLater_of_sameOrder (SameOrder.refl s)

/-- Groups are written one after the other. -/
theorem wrote_groups {t : State} (h : SameLater op w s t) (m : List (Nat × List PendByte))
    (hm : ∀ x ∈ m, ∀ b ∈ x.2, b.addr / 64 = x.1) :
    Wrote t (m.foldl (State.writeGroup op w g d) t)
      (m.flatMap (fun x => x.2.filterMap (fun b => s.landed op w g d (b.addr, b.byte)))) := by
  induction m generalizing t with
  | nil => exact wrote_refl t
  | cons x m ih =>
    have hw := wrote_writeGroup t op w g d (hm x List.mem_cons_self)
    rw [landed_sameLater h] at hw
    exact wrote_append hw (ih (h.trans (sameLater_writeGroup t op w g d x)) (fun y hy => hm y (List.mem_cons_of_mem _ hy)))

/-- A command's writes through a descriptor leave its bytes that stay, in the order of its accesses. -/
theorem wrote_writeDesc (bs : List PendByte) :
    Wrote s (s.writeDesc op w g d bs) ((groupPend bs).flatMap (fun x => x.2.filterMap (fun b => s.landed op w g d (b.addr, b.byte)))) :=
  wrote_groups s op w g d (sameLater_of_sameOrder (SameOrder.refl s)) (groupPend bs) (fun x hx b hb => by
    rw [groupPend_mem hx] at hb
    simpa using (List.mem_filter.1 hb).2)

/-- What a command's writes land, in the order of its accesses, comes from its bytes by their addresses. -/
theorem placedBytes_landing {bs cs : List PendByte} (h : rowBytesOf bs = rowBytesOf cs) :
    placedBytes g d (s.landing op w g d [bs]) =
      (groupPend cs).flatMap (fun x => x.2.filterMap (fun b => s.landed op w g d (b.addr, b.byte))) := by
  obtain ⟨len, hlen⟩ : ∃ len, ∀ y ∈ rowBytesOf cs, y.1 / 64 < len :=
    ⟨((rowBytesOf cs).map (·.1)).sum + 1, fun y hy => by
      have := List.le_sum_of_mem (List.mem_map_of_mem (f := (·.1)) hy)
      omega⟩
  have hbound {l : List PendByte} (hl : ∀ y ∈ rowBytesOf l, y ∈ rowBytesOf cs) (b : PendByte) (hb : b ∈ l) : b.addr / 64 < len :=
    hlen _ (hl _ (List.mem_map_of_mem (f := fun b => (b.addr, b.byte)) hb))
  have hstays : s.landing op w g d [bs] = [bs.filter (fun b => staysAt (s.lands op w) (locOf g d b.addr))] := rfl
  have hrow : rowBytesOf (bs.filter (fun b => staysAt (s.lands op w) (locOf g d b.addr))) = (rowBytesOf cs).filter (fun y => staysAt (s.lands op w) (locOf g d y.1)) := by
    rw [← h, rowBytesOf, rowBytesOf, List.filter_map]
    rfl
  rw [hstays, placedBytes, List.flatMap_singleton, flatMap_groupPend _ (hbound (fun y hy => hy))]
  refine (flatMap_groupPend (fun y => (locOf g d y.1).map (fun p => (p, y.2)))
    (hbound (fun y hy => (List.mem_filter.1 (hrow ▸ hy)).1))).trans ?_
  refine List.flatMap_congr (fun n _ => ?_)
  rw [hrow, List.filter_comm, List.filterMap_filter]
  refine List.filterMap_congr (fun y _ => ?_)
  exact map_of_stays _ _ _

end

end Sys2Proof.Machine
end

/-!
PROOFS. Beginning and completing the vector engine's commands (R159 to R165): the instruction at the head of the queue, register
operations, loads and stores.
-/
section
namespace Sys2Proof.Machine

/-! ## Beginning (R159, R163, R164) -/

section
variable {s : State} {g : Gcn} {k : VCmd} {rest : List VCmd}

theorem vecBegin_runs (hq : (s.core g.toNat).vec.queue = k :: rest) (hh : (s.core g.toNat).vec.hazard k = false)
    (hc : s.vecCredit g.toNat = true) (hcode : vecCode k = none) :
    s.vecBegin g.toNat = s.setCore g.toNat { s.core g.toNat with vec := { (s.core g.toNat).vec with
      queue := rest, run := (s.core g.toNat).vec.run ++ [k]
      busy := (s.core g.toNat).vec.busy + occupancy g.toNat k + bankCycles g.toNat (s.core g.toNat).op k } } := by
  simp [State.vecBegin, hq, hh, hc, hcode, State.setVec]

theorem vecBegin_faults {code : Nat} (hq : (s.core g.toNat).vec.queue = k :: rest) (hh : (s.core g.toNat).vec.hazard k = false)
    (hc : s.vecCredit g.toNat = true) (hcode : vecCode k = some code) :
    s.vecBegin g.toNat = s.setCore g.toNat
      (Core.raise { s.core g.toNat with vec := { (s.core g.toNat).vec with queue := rest } }
        ⟨9, BitVec.ofNat 14 (0x1000 + code), k.pc, k.ord⟩) := by
  simp [State.vecBegin, hq, hh, hc, hcode, State.setVec, State.vecFault, State.raise]
  rfl

theorem vectorCommandBegin_runs (hq : (s.core g.toNat).vec.queue = k :: rest) (hh : (s.core g.toNat).vec.hazard k = false)
    (hc : s.vecCredit g.toNat = true) (hcode : vecCode k = none) :
    Completes (.vectorCommandBegin g) s (fun t => CoreOnly s t g ∧ (t.core g.toNat).vec = { (s.core g.toNat).vec with
      queue := rest, run := (s.core g.toNat).vec.run ++ [k]
      busy := (s.core g.toNat).vec.busy + occupancy g.toNat k + bankCycles g.toNat (s.core g.toNat).op k } ∧
        (t.core g.toNat).seq = (s.core g.toNat).seq) :=
  ⟨_, congrArg Host.Outcome.next (vecBegin_runs hq hh hc hcode), coreOnly_setCore s g _, by rw [core_setCore], by rw [core_setCore]⟩

theorem vectorCommandBegin_faults {code : Nat} (hq : (s.core g.toNat).vec.queue = k :: rest)
    (hh : (s.core g.toNat).vec.hazard k = false) (hc : s.vecCredit g.toNat = true) (hcode : vecCode k = some code) :
    Completes (.vectorCommandBegin g) s (fun t => CoreOnly s t g ∧
      Records s t g ⟨9, BitVec.ofNat 14 (0x1000 + code), k.pc, k.ord⟩) :=
  ⟨_, congrArg Host.Outcome.next (vecBegin_faults hq hh hc hcode), coreOnly_setCore s g _, by rw [core_setCore]; rfl,
    by rw [core_setCore]; rfl⟩

end

/-! ## Completing: counts and checks -/

/-- From core c to core d its oldest vector instruction has completed and been counted, with registers written and flags raised. -/
structure Retired (c d : Core) (k : VCmd) (rest : List VCmd) (regs : List (Nat × VReg)) (flags : BitVec 5) : Prop where
  seq   : d.seq = { c.seq with vec := k.n }
  run   : d.vec.run = rest
  regs  : Puts c.vec d.vec regs
  flags : d.vec.flags = c.vec.flags ||| flags
  lsp   : d.lsp = c.lsp

theorem vecDone_next {c : Core} {k : VCmd} {rest : List VCmd} (hrun : c.vec.run = k :: rest) (hn : k.n = c.seq.vec + 1) :
    c.vecDone = { c with seq := { c.seq with vec := k.n }, vec := { c.vec with run := rest } } := by
  simp only [Core.vecDone, hrun, hn, if_true]

theorem addVecCheck_only (c : Core) (k : VCmd) (loaded : List Elem) (now : Nat) :
    ∃ checks nextChk, (c.addVecCheck k loaded now).1 = { c with checks := checks, nextChk := nextChk } := by
  unfold Core.addVecCheck
  split
  · exact ⟨_, _, rfl⟩
  · exact ⟨c.checks, c.nextChk, rfl⟩

/-- An instruction's check submitted, its registers written and its flags raised, it is retired. -/
theorem retired_vecDone {c : Core} {k : VCmd} {rest : List VCmd} (hrun : c.vec.run = k :: rest) (hn : k.n = c.seq.vec + 1)
    (loaded : List Elem) (now : Nat) (marks : List Nat) (regs : List (Nat × VReg)) (flags : BitVec 5) :
    let r := c.addVecCheck k loaded now
    let v := r.1.vec.putRegs marks regs
    Retired c ({ r.1 with vec := { v with flags := v.flags ||| flags } } : Core).vecDone k rest regs flags := by
  intro r v
  obtain ⟨checks, nextChk, hr⟩ : ∃ checks nextChk, r.1 = { c with checks := checks, nextChk := nextChk } :=
    addVecCheck_only c k loaded now
  obtain ⟨x, m, hv⟩ : ∃ x m, v = { r.1.vec with v := x, marks := m } := putRegs_only marks regs r.1.vec
  have hputs (q : BitVec 5) : v.getV q = (lastWrite regs q).getD (r.1.vec.getV q) := getV_putRegs marks regs r.1.vec q
  rw [vecDone_next (k := k) (rest := rest) (by rw [hv, hr]; exact hrun) (by rw [hr]; exact hn)]
  rw [hr] at hputs
  exact ⟨by rw [hr], rfl, hputs, by rw [hv, hr], by rw [hr]⟩

/-! ## Completing in the state -/

section
variable {s : State} {g : Gcn} {k : VCmd} {rest : List VCmd} (hrun : (s.core g.toNat).vec.run = k :: rest)
  (hplace : vecChecked k.op = true → (s.core g.toNat).checkQueueFull = false)
include hplace

theorem checks_fit : (vecChecked k.op && (s.core g.toNat).checkQueueFull) = false := by
  cases h : vecChecked k.op with
  | false => rfl
  | true => exact hplace h

include hrun

theorem vecComplete_reg (hl : k.op ≠ .vld) (hs : k.op ≠ .vst) : s.vecComplete g.toNat = s.completeReg g.toNat k := by
  simp only [State.vecComplete, hrun, checks_fit hplace, Bool.false_eq_true, if_false]

theorem vecComplete_vld (hl : k.op = .vld) : s.vecComplete g.toNat = s.completeVld g.toNat k := by
  simp only [State.vecComplete, hrun, checks_fit hplace, Bool.false_eq_true, if_false]
  rw [hl]

theorem vecComplete_vst (hs : k.op = .vst) (hh : s.vstHeld g.toNat k = false) :
    s.vecComplete g.toNat = s.completeVst g.toNat k := by
  simp only [State.vecComplete, hrun, checks_fit hplace, Bool.false_eq_true, if_false]
  rw [hs]
  simp only [hh, Bool.false_eq_true, if_false]

end

/-! ## What a load reads and writes (R161) -/

/-- What VLD reads: its elements, as they come once the read has found the errors of what it touches. -/
def State.vldReads (s : State) (g : Nat) (k : VCmd) : List Elem :=
  let u := s.touchDesc g k.desc (vecIxs k)
  (vecIxs k).map (readElem (u.dview (u.reader g (some .vector) k.ord true) 0 k.desc) k.desc)

/-- The elements that VLD writes: those read, in the lane format, and zeros above. -/
def vldFill (k : VCmd) (els : List Elem) : List Nat :=
  let xs := els.map (loadElem k.desc (vFmt k.w) (vRm k.w))
  xs.map (·.code) ++ List.replicate (laneCount (vFmt k.w) - xs.length) 0

theorem getD_vldFill (k : VCmd) (els : List Elem) (i : Nat) :
    (vldFill k els).getD i 0 = (els.map (fun e => (loadElem k.desc (vFmt k.w) (vRm k.w) e).code)).getD i 0 := by
  rw [vldFill, List.map_map, List.getD_eq_getElem?_getD, List.getElem?_append, List.getD_eq_getElem?_getD]
  split
  case isTrue => rfl
  case isFalse h =>
    rw [List.getElem?_eq_none (l := els.map _) (by simpa using h), List.getElem?_replicate]
    split <;> rfl

/-! ## What a store writes (R160, R162, R226) -/

/-- The elements that VST stores, each awaiting the checks given. -/
def Core.vstPlaced (c : Core) (k : VCmd) (marks : List Nat) : List Placed :=
  List.zipWith (fun ix x => ⟨ix, decodeNum (vFmt k.w) x, false, marks⟩) (vecIxs k)
    ((lanes (c.vec.getV k.w.fa) (vFmt k.w)).take (vecCount k))

/-- A store's bytes do not depend on the checks that its elements await. -/
theorem rowBytesOf_vstPlaced (c : Core) (k : VCmd) (marks : List Nat) :
    rowBytesOf ((convertPlaced k.seed k.desc (c.vstPlaced k [])).bytes k.desc) =
      rowBytesOf ((convertPlaced k.seed k.desc (c.vstPlaced k marks)).bytes k.desc) := by
  have hbare : c.vstPlaced k [] = (c.vstPlaced k marks).map Placed.bare := by
    rw [Core.vstPlaced, Core.vstPlaced, List.map_zipWith]
    rfl
  rw [hbare, rowBytesOf_convertPlaced_bare]

/-- Core g, with c0 stored for it, has written the bytes of a VST. -/
def State.vstWritten (s : State) (g : Nat) (k : VCmd) (c0 : Core) (marks : List Nat) : State :=
  (s.setCore g c0).writeDesc (s.core g).op (.engine g .vector k.n) g k.desc
    ((convertPlaced k.seed k.desc ((s.core g).vstPlaced k marks)).bytes k.desc)

theorem writeGroup_core (s : State) (op : Option Nat) (w : Writer) (g : Nat) (d : Desc) (x : Nat × List PendByte) (h : Nat) :
    ∃ l m, (s.writeGroup op w g d x).core h = { s.core h with lsp := l, marks := m } := by
  unfold State.writeGroup
  split
  · exact orderGran_core s op w none _ _ _ _ _ h
  · exact ⟨_, _, rfl⟩

theorem writeDesc_core (s : State) (op : Option Nat) (w : Writer) (g : Nat) (d : Desc) (bs : List PendByte) (h : Nat) :
    ∃ l m, (s.writeDesc op w g d bs).core h = { s.core h with lsp := l, marks := m } := by
  rw [writeDesc_eq]
  induction groupPend bs generalizing s with
  | nil => exact ⟨_, _, rfl⟩
  | cons x t ih =>
    obtain ⟨l, m, hx⟩ := writeGroup_core s op w g d x h
    obtain ⟨l', m', ht⟩ := ih (s.writeGroup op w g d x)
    exact ⟨l', m', by rw [List.foldl_cons, ht, hx]⟩

section
variable {s : State} {g : Gcn} {k : VCmd} {rest : List VCmd} (hrun : (s.core g.toNat).vec.run = k :: rest)
  (hn : k.n = (s.core g.toNat).seq.vec + 1)
include hrun hn

/-! ## Completing each -/

theorem completeReg_retired : ∃ d, s.completeReg g.toNat k = s.setCore g.toNat d ∧
    Retired (s.core g.toNat) d k rest (vecCompute (s.core g.toNat).vec k).regs (vecCompute (s.core g.toNat).vec k).flags :=
  ⟨_, rfl, retired_vecDone hrun hn [] _ _ _ _⟩

/-- An instruction that a core retires by storing it changes that core alone and no byte. -/
theorem vectorCommandComplete_reg (hplace : vecChecked k.op = true → (s.core g.toNat).checkQueueFull = false)
    (hl : k.op ≠ .vld) (hs : k.op ≠ .vst) :
    Completes (.vectorCommandComplete g) s (fun t => CoreOnly s t g ∧ SameBytes s t ∧
      (t.core g.toNat).vec.run = rest ∧ (t.core g.toNat).seq = { (s.core g.toNat).seq with vec := k.n } ∧
      (t.core g.toNat).vec.flags = (s.core g.toNat).vec.flags ||| (vecCompute (s.core g.toNat).vec k).flags ∧
      Puts (s.core g.toNat).vec (t.core g.toNat).vec (vecCompute (s.core g.toNat).vec k).regs) := by
  obtain ⟨d, hd, h⟩ := completeReg_retired hrun hn
  refine ⟨(s.setCore g.toNat d).settleMarks g.toNat, ?_, ?_, ?_, ?_, ?_, ?_, ?_⟩
  · rw [← hd, ← vecComplete_reg hrun hplace hl hs]
    rfl
  · exact coreOnly_trans (coreOnly_setCore s g d) (coreOnly_settleMarks _ g)
  · exact sameBytes_trans (sameBytes_setCore s _ d h.lsp) (sameBytes_settleMarks _ _)
  · rw [vec_settleMarks, core_setCore, h.run]
  · rw [seq_settleMarks, core_setCore, h.seq]
  · rw [vec_settleMarks, core_setCore, h.flags]
  · rw [vec_settleMarks, core_setCore]
    exact h.regs

theorem completeVld_retired (hbad : (s.vldReads g.toNat k).any (·.bad) = false) :
    ∃ d flags, s.completeVld g.toNat k = (s.touchDesc g.toNat k.desc (vecIxs k)).setCore g.toNat d ∧
      Retired ((s.touchDesc g.toNat k.desc (vecIxs k)).core g.toNat) d k rest
        [(k.w.fd.toNat, pack (vFmt k.w) (vldFill k (s.vldReads g.toNat k)))] flags := by
  obtain ⟨x, hx⟩ := (onlyFound_touchDesc s g.toNat k.desc (vecIxs k)).core g.toNat
  have hgood : ¬ (s.vldReads g.toNat k).any (·.bad) = true := by simp [hbad]
  rw [show s.completeVld g.toNat k = _ from if_neg hgood]
  exact ⟨_, _, rfl, retired_vecDone (by rw [hx]; exact hrun) (by rw [hx]; exact hn) (s.vldReads g.toNat k) _ _ _ _⟩

theorem vectorCommandComplete_vld (hplace : vecChecked k.op = true → (s.core g.toNat).checkQueueFull = false)
    (hl : k.op = .vld) (hbad : (s.vldReads g.toNat k).any (·.bad) = false) :
    Completes (.vectorCommandComplete g) s (fun t => SameBytes s t ∧
      (t.core g.toNat).vec.run = rest ∧ (t.core g.toNat).seq = { (s.core g.toNat).seq with vec := k.n } ∧
      Puts (s.core g.toNat).vec (t.core g.toNat).vec
        [(k.w.fd.toNat, pack (vFmt k.w) (vldFill k (s.vldReads g.toNat k)))]) := by
  have hfound := onlyFound_touchDesc s g.toNat k.desc (vecIxs k)
  obtain ⟨x, hx⟩ := hfound.core g.toNat
  obtain ⟨d, flags, hd, h⟩ := completeVld_retired hrun hn hbad
  have hread : SameBytes s (s.touchDesc g.toNat k.desc (vecIxs k)) := fun l b => by
    rw [State.readByte, hfound.cells, State.readByte]
  refine ⟨((s.touchDesc g.toNat k.desc (vecIxs k)).setCore g.toNat d).settleMarks g.toNat, ?_, ?_, ?_, ?_, ?_⟩
  · rw [← hd, ← vecComplete_vld hrun hplace hl]
    rfl
  · exact sameBytes_trans hread (sameBytes_trans (sameBytes_setCore _ _ d h.lsp) (sameBytes_settleMarks _ _))
  · rw [vec_settleMarks, core_setCore, h.run]
  · rw [seq_settleMarks, core_setCore, h.seq, hx]
  · have hregs := h.regs
    rw [hx] at hregs
    rw [vec_settleMarks, core_setCore]
    exact hregs

theorem completeVst_retired : ∃ c0 d marks, (∃ checks nextChk, c0 = { s.core g.toNat with checks := checks, nextChk := nextChk }) ∧
    s.completeVst g.toNat k = (s.vstWritten g.toNat k c0 marks).setCore g.toNat d ∧
      d.lsp = ((s.vstWritten g.toNat k c0 marks).core g.toNat).lsp ∧ d.vec.run = rest ∧
      d.seq = { (s.core g.toNat).seq with vec := k.n } ∧ d.vec.v = (s.core g.toNat).vec.v := by
  let r := (s.core g.toNat).addVecCheck k [] (s.die (dieOf g.toNat)).cycles
  obtain ⟨checks, nextChk, hr⟩ : ∃ checks nextChk, r.1 = { s.core g.toNat with checks := checks, nextChk := nextChk } :=
    addVecCheck_only _ k [] _
  let marks := setUnion r.2 ((s.core g.toNat).vec.sourceMarks k)
  let wr := convertPlaced k.seed k.desc ((s.core g.toNat).vstPlaced k marks)
  let s1 := s.vstWritten g.toNat k r.1 marks
  obtain ⟨l, m, hcore⟩ : ∃ l m, s1.core g.toNat = { (s.setCore g.toNat r.1).core g.toNat with lsp := l, marks := m } :=
    writeDesc_core _ _ _ _ _ _ _
  rw [core_setCore, hr] at hcore
  let c1 : Core := { s1.core g.toNat with vec := { (s1.core g.toNat).vec with
    flags := (s1.core g.toNat).vec.flags ||| wr.flags
    hist := if dHist k.desc then (s1.core g.toNat).vec.hist.countAll wr.vals else (s1.core g.toNat).vec.hist } }
  have hdone := vecDone_next (c := c1) (k := k) (rest := rest) (by rw [← hrun]; simp only [c1, hcore])
    (by rw [hn]; simp only [c1, hcore])
  refine ⟨r.1, { c1.vecDone with vec := { c1.vecDone.vec with
    hist := if c1.vecDone.vec.counting then c1.vecDone.vec.hist else c1.vecDone.vec.hist.settle } }, marks,
    ⟨checks, nextChk, hr⟩, rfl, ?_, ?_, ?_, ?_⟩
  · rw [hdone]
  · rw [hdone]
  · rw [hdone]
    simp only [c1, hcore]
  · rw [hdone]
    simp only [c1, hcore]

theorem vectorCommandComplete_vst (hplace : vecChecked k.op = true → (s.core g.toNat).checkQueueFull = false)
    (hs : k.op = .vst) (hheld : s.vstHeld g.toNat k = false) :
    Completes (.vectorCommandComplete g) s (fun t =>
      (t.core g.toNat).vec.run = rest ∧ (t.core g.toNat).seq = { (s.core g.toNat).seq with vec := k.n } ∧
      (t.core g.toNat).vec.v = (s.core g.toNat).vec.v ∧
      Wrote s t (placedBytes g.toNat k.desc (s.landing (s.core g.toNat).op (.engine g.toNat .vector k.n) g.toNat k.desc
        [(convertPlaced k.seed k.desc ((s.core g.toNat).vstPlaced k [])).bytes k.desc]))) := by
  obtain ⟨c0, d, marks, ⟨checks, nextChk, hc0⟩, hexec, hlsp, hrun', hseq, hv⟩ := completeVst_retired hrun hn
  refine ⟨((s.vstWritten g.toNat k c0 marks).setCore g.toNat d).settleMarks g.toNat, ?_, ?_, ?_, ?_, ?_⟩
  · rw [← hexec, ← vecComplete_vst hrun hplace hs hheld]
    rfl
  · rw [vec_settleMarks, core_setCore, hrun']
  · rw [seq_settleMarks, core_setCore, hseq]
  · rw [vec_settleMarks, core_setCore, hv]
  · have horder : SameLater (s.core g.toNat).op (.engine g.toNat .vector k.n) s (s.setCore g.toNat c0) :=
      sameLater_of_sameOrder ⟨rfl, rfl⟩
    have hw := wrote_writeDesc (s.setCore g.toNat c0) (s.core g.toNat).op (.engine g.toNat .vector k.n) g.toNat k.desc
      ((convertPlaced k.seed k.desc ((s.core g.toNat).vstPlaced k marks)).bytes k.desc)
    rw [landed_sameLater horder, ← placedBytes_landing s _ _ _ _ (rowBytesOf_vstPlaced (s.core g.toNat) k marks)] at hw
    exact wrote_of_sameBytes (sameBytes_setCore s _ c0 (by rw [hc0])) hw
      (sameBytes_trans (sameBytes_setCore _ _ d hlsp) (sameBytes_settleMarks _ _))

end

/-! ## The claim -/

/-- What an operation on registers leaves in them, by its operation. -/
theorem register_results {v v' : Vec} {k : VCmd} (h : Puts v v' (vecCompute v k).regs) {i x : Nat}
    (hi : i < laneCount (vFmt k.w))
    (hx : laneResult k (v.getV k.w.fa) i (lane (v.getV k.w.fa) (vFmt k.w) i) (lane (v.getV k.w.fb) (vFmt k.w) i)
      (lane (v.getV (vFc k.w)) (vFmt k.w) i) = some x) :
    lane (v'.getV (BitVec.ofNat 5 k.w.fd.toNat)) (vFmt k.w) i = x % 2 ^ laneBits (vFmt k.w) := by
  obtain ⟨reg, hregs, hlane⟩ := vecCompute_laneResult v hi hx
  rw [hregs] at h
  rw [puts_single h, hlane]

/-- Settles O21: each instruction begins, and completes, by the lemma of its kind. -/
theorem vectorCommandsBeginAndComplete : Obligations.VectorCommandsBeginAndComplete := by
  unfold Obligations.VectorCommandsBeginAndComplete
  intro s g k rest c f a b z u read new counted place
  refine ⟨fun hq hh hc => ⟨vectorCommandBegin_runs hq hh hc, fun _ => vectorCommandBegin_faults hq hh hc⟩,
    fun hrun hn hplace => ⟨fun hl hs => ?_, fun hl hbad => ?_, fun hs hheld => ?_⟩⟩
  · obtain ⟨t, hexec, honly, hbytes, htrun, htseq, hflags, hregs⟩ := vectorCommandComplete_reg hrun hn hplace hl hs
    exact ⟨t, hexec, honly, hbytes, ⟨htrun, htseq⟩, hflags, hregs, fun i v hi hv => register_results hregs hi hv,
      fun hop => vsel_bits hop hregs, fun hop i hi => vcmp_step hop hregs hi,
      fun hop hd i hi => vsminit_rows hregs hop hd hi, fun hop hg => vsma_rows hregs hop hg,
      fun hop hg i hi => vsmmrg_rows hregs hop hg hi, fun hop => vcvt_lanes hop hregs⟩
  · obtain ⟨t, hexec, hbytes, htrun, htseq, hregs⟩ := vectorCommandComplete_vld hrun hn hplace hl hbad
    refine ⟨t, hexec, hbytes, ⟨htrun, htseq⟩, fun i hi => ?_, fun r hr => ?_⟩
    · exact (congrArg (lane · f i) (puts_single hregs)).trans ((lane_pack f _ hi).trans (by rw [getD_vldFill]; rfl))
    · rw [hregs, lastWrite_cons, if_neg (by rw [BitVec.ofNat_toNat, BitVec.setWidth_eq]; exact hr.symm)]
      rfl
  · obtain ⟨t, hexec, htrun, htseq, hv, hwrote⟩ := vectorCommandComplete_vst hrun hn hplace hs hheld
    exact ⟨t, hexec, ⟨htrun, htseq⟩, hv, hwrote⟩

end Sys2Proof.Machine
end

/-!
PROOFS. Beginning the matrix engine's commands (R116, R123, R132, R144) and the activity ramp of the array (R136 to R139).
-/
section
namespace Sys2Proof.Machine

/-! ## Tiles and buffers (R115, R123) -/

@[simp] theorem tile_put (x : SubArr) (b : Bool) (w : Tile) : (x.put b w).tile b = some w := by
  cases b <;> rfl

@[simp] theorem cur_put (x : SubArr) (b : Bool) (w : Tile) : (x.put b w).cur = x.cur := by
  cases b <;> rfl

/-- Register (i, j) of a loaded tile is element (j, i) of the descriptor, as row i's view has it. -/
theorem at_loadTile (v : Nat → View) {d : Desc} {i j : Nat} (hi : i < lExt d 1) (hj : j < lExt d 0) :
    (loadTile v d).at i j =
      ((readElem (v i) d [j, i, 0, 0, 0]).num (dFmt d), (readElem (v i) d [j, i, 0, 0, 0]).bad) := by
  simp [loadTile, Tile.at, hi, hj]

/-- The current tile is that of the current buffer. -/
theorem current_eq {x : SubArr} {b : Bool} {w : Tile} (hb : x.cur = some b) (hw : x.tile b = some w) :
    x.current = some w := by
  simp [SubArr.current, hb, hw]

/-! ## The command at the head of the queue (R116, R123, R132, R144) -/

/-- The state with the head of core g's matrix queue taken off. -/
def State.matTaken (s : State) (g : Nat) (rest : List MCmd) : State :=
  s.setMat g { (s.core g).mat with queue := rest }

@[simp] theorem core_matTaken (s : State) (g : Nat) (rest : List MCmd) :
    (s.matTaken g rest).core g = { s.core g with mat := { (s.core g).mat with queue := rest } } :=
  core_setMat s g _

theorem setCore_matTaken (s : State) (g : Nat) (rest : List MCmd) (c : Core) :
    (s.matTaken g rest).setCore g c = s.setCore g c :=
  setCore_setCore s g _ c

/-- The tile that command k loads: row i is one access, the i-th of the command (R123). -/
def State.mwlTile (s : State) (g : Nat) (k : MCmd) (dw : Desc) : Tile :=
  loadTile (fun i => s.dview (s.reader g (some .matrix) k.ord true) i dw) dw

section
variable {s : State} {g : Gcn} {k : MCmd} {rest : List MCmd}
variable (hq : (s.core g.toNat).mat.queue = k :: rest) (hr : s.matReady g.toNat k = true)
include hq hr

theorem matBegin_mmode_present {quad : Bool} (hop : k.op = .mmode quad) (hquad : quad = (s.core g.toNat).mat.quad) :
    s.matBegin g.toNat = s.setCore g.toNat (((s.matTaken g.toNat rest).core g.toNat).matDone k.n) := by
  rw [← setCore_matTaken s g.toNat rest]
  simp [State.matBegin, hq, hr, hop, hquad, State.matTaken]

theorem matBegin_mmode_change {quad : Bool} (hop : k.op = .mmode quad) (hquad : quad ≠ (s.core g.toNat).mat.quad) :
    s.matBegin g.toNat = s.setCore g.toNat { s.core g.toNat with
      mat := { (s.core g.toNat).mat with queue := rest, modeChg := some k, modeLeft := 4 } } := by
  simp [State.matBegin, hq, hr, hop, hquad, State.setMat]

theorem matBegin_mwl_loads {dw : Desc} (hop : k.op = .mwl dw) (hcode : mwlCode (s.core g.toNat).mat.quad dw = none) :
    let u := (s.matTaken g.toNat rest).touchDesc g.toNat dw (allIx dw)
    let m := (u.core g.toNat).mat
    let b := ((s.core g.toNat).mat.subAt k.q).target
    s.matBegin g.toNat = u.setMat g.toNat { m.setSub k.q ((m.subAt k.q).put b (u.mwlTile g.toNat k dw)) with
      loading := m.loading ++ [(k, b)] } := by
  simp [State.matBegin, hq, hr, hop, hcode, State.matTaken, State.mwlTile]

theorem matBegin_mwl_faults {dw : Desc} {code : Nat} (hop : k.op = .mwl dw)
    (hcode : mwlCode (s.core g.toNat).mat.quad dw = some code) :
    s.matBegin g.toNat = (s.matTaken g.toNat rest).matFault g.toNat k code := by
  simp [State.matBegin, hq, hr, hop, hcode, State.matTaken]

theorem matBegin_mtile_enters {x : MTileOp} {b : Bool} {w : Tile} (hop : k.op = .mtile x)
    (hb : ((s.core g.toNat).mat.subAt k.q).cur = some b) (hw : ((s.core g.toNat).mat.subAt k.q).tile b = some w)
    (hcode : mtileCode (some w) x = none) :
    s.matBegin g.toNat = s.setCore g.toNat (((s.matTaken g.toNat rest).core g.toNat).beginTile k x b w) := by
  rw [← setCore_matTaken s g.toNat rest]
  simp [State.matBegin, hq, hr, hop, hb, current_eq hb hw, hcode, State.matTaken]

theorem matBegin_mtile_faults {x : MTileOp} {code : Nat} (hop : k.op = .mtile x)
    (hcode : mtileCode ((s.core g.toNat).mat.subAt k.q).current x = some code) :
    s.matBegin g.toNat = (s.matTaken g.toNat rest).matFault g.toNat k code := by
  simp [State.matBegin, hq, hr, hop, hcode, State.matTaken]

end

/-! ## MATRIX_COMMAND_BEGIN -/

section
variable {s : State} {g : Gcn} {k : MCmd} {rest : List MCmd}

/-- A command that fails its checks stops its core with ENGINE and discards the queue (R106, R108, R116). -/
theorem matrixCommandBegin_faults {code : Nat}
    (h : s.matBegin g.toNat = (s.matTaken g.toNat rest).matFault g.toNat k code) :
    Completes (.matrixCommandBegin g) s (fun t => CoreOnly s t g ∧
      Records s t g ⟨9, BitVec.ofNat 14 (k.q.toNat * 1024 + code), k.pc, k.ord⟩ ∧
      (t.core g.toNat).mat = { (s.core g.toNat).mat with queue := [] }) := by
  rw [State.matFault, State.raise, setCore_matTaken, core_matTaken] at h
  exact ⟨_, congrArg Host.Outcome.next h, coreOnly_setCore s g _,
    ⟨by rw [core_setCore]; rfl, by rw [core_setCore]; rfl⟩, by rw [core_setCore]; rfl⟩

variable (hq : (s.core g.toNat).mat.queue = k :: rest) (hr : s.matReady g.toNat k = true)
include hq hr

/-- An MMODE that names the present mode completes at once (R132). -/
theorem matrixCommandBegin_mmode_present {quad : Bool} (hop : k.op = .mmode quad)
    (hquad : quad = (s.core g.toNat).mat.quad) (hdone : (s.core g.toNat).mat.done = [])
    (hn : k.n = (s.core g.toNat).seq.mec + 1) :
    Completes (.matrixCommandBegin g) s (fun t => (t.core g.toNat).mat.queue = rest ∧ CoreOnly s t g ∧
      (t.core g.toNat).seq.mec = k.n ∧ (t.core g.toNat).mat.quad = (s.core g.toNat).mat.quad) := by
  have h := matBegin_mmode_present hq hr hop hquad
  rw [core_matTaken, matDone_next (by exact hdone) (by exact hn)] at h
  exact ⟨_, congrArg Host.Outcome.next h, by rw [core_setCore], coreOnly_setCore s g _, by rw [core_setCore],
    by rw [core_setCore]⟩

/-- An MMODE that changes the mode waits (R132). -/
theorem matrixCommandBegin_mmode_change {quad : Bool} (hop : k.op = .mmode quad)
    (hquad : quad ≠ (s.core g.toNat).mat.quad) :
    Completes (.matrixCommandBegin g) s (fun t => (t.core g.toNat).mat.queue = rest ∧ CoreOnly s t g ∧
      (t.core g.toNat).mat = { (s.core g.toNat).mat with queue := rest, modeChg := some k, modeLeft := 4 }) :=
  ⟨_, congrArg Host.Outcome.next (matBegin_mmode_change hq hr hop hquad), by rw [core_setCore],
    coreOnly_setCore s g _, by rw [core_setCore]⟩

/-- An MWL puts its tile in the buffer that is not current, and reads without changing a byte (R123). -/
theorem matrixCommandBegin_mwl {dw : Desc} (hop : k.op = .mwl dw)
    (hcode : mwlCode (s.core g.toNat).mat.quad dw = none) :
    let m := (s.core g.toNat).mat
    let u := (s.matTaken g.toNat rest).touchDesc g.toNat dw (allIx dw)
    Completes (.matrixCommandBegin g) s (fun t => (t.core g.toNat).mat.queue = rest ∧
      (t.core g.toNat).mat.loading = m.loading ++ [(k, (m.subAt k.q).target)] ∧
      (t.core g.toNat).mat.subAt k.q = (m.subAt k.q).put (m.subAt k.q).target (u.mwlTile g.toNat k dw) ∧
      (t.core g.toNat).mat.exec = m.exec ∧ SameBytes s t) := by
  intro m u
  have hfound : OnlyFound (s.matTaken g.toNat rest) u := onlyFound_touchDesc _ _ _ _
  have hmat : (u.core g.toNat).mat = { m with queue := rest } := by
    obtain ⟨lsp, hlsp⟩ := hfound.core g.toNat
    rw [hlsp, core_matTaken]
  have hbytes : SameBytes (s.matTaken g.toNat rest) u := fun l b => by
    rw [State.readByte, hfound.cells, State.readByte]
  have hexec := matBegin_mwl_loads hq hr hop hcode
  refine ⟨_, congrArg Host.Outcome.next hexec, ?_, ?_, ?_, ?_,
    sameBytes_trans (sameBytes_setMat s _ _) (sameBytes_trans hbytes (sameBytes_setMat u _ _))⟩ <;>
    rw [core_setMat, hmat]
  · rfl
  · exact subAt_setSub ..
  · rfl

/-- An MTILE enters execution with the current tile and takes the entry at HEAD (R144). -/
theorem matrixCommandBegin_mtile {x : MTileOp} {b : Bool} {w : Tile} (hop : k.op = .mtile x)
    (hb : ((s.core g.toNat).mat.subAt k.q).cur = some b) (hw : ((s.core g.toNat).mat.subAt k.q).tile b = some w)
    (hcode : mtileCode (some w) x = none) :
    Completes (.matrixCommandBegin g) s (fun t => (t.core g.toNat).mat.queue = rest ∧ CoreOnly s t g ∧
      ∃ e, (t.core g.toNat).mat.exec = (s.core g.toNat).mat.exec ++ [e] ∧ e.cmd = k ∧ e.row = 0 ∧ e.wbuf = [] ∧
        e.tile = w ∧ e.buf = b ∧ e.dlog = (s.core g.toNat).mat.head.toNat ∧
        (t.core g.toNat).mat.head = (s.core g.toNat).mat.head + 1) := by
  have h := matBegin_mtile_enters hq hr hop hb hw hcode
  rw [core_matTaken] at h
  refine ⟨_, congrArg Host.Outcome.next h, ?_, coreOnly_setCore s g _, ?_⟩ <;> rw [core_setCore]
  · rfl
  · exact ⟨_, rfl, rfl, rfl, rfl, rfl, rfl, rfl, rfl⟩

end

/-- Settles O17: each kind of command begins, or fails, by the lemma of its kind. -/
theorem matrixCommandsBegin : Obligations.MatrixCommandsBegin := by
  unfold Obligations.MatrixCommandsBegin
  intro s g k rest m begins fails hq hr
  refine ⟨fun quad hop => ⟨?present, ?change⟩, fun dw hop => ⟨?loads, ?mwlFails⟩, fun x hop => ⟨?enters, ?mtileFails⟩⟩
  case present => exact matrixCommandBegin_mmode_present hq hr hop
  case change => exact matrixCommandBegin_mmode_change hq hr hop
  case loads =>
    intro hcode
    obtain ⟨t, hexec, hqueue, hload, hsub, hrun, hbytes⟩ := matrixCommandBegin_mwl hq hr hop hcode
    refine ⟨t, hexec, hqueue, hload, ?_, ⟨_, ?_, rfl, rfl, rfl, rfl, fun i j hi hj => at_loadTile _ hi hj⟩, hrun, hbytes⟩
    · rw [hsub, cur_put]
    · rw [hsub]
      exact tile_put ..
  case mwlFails => exact fun code hcode => matrixCommandBegin_faults (matBegin_mwl_faults hq hr hop hcode)
  case enters => exact fun b w hb hw hcode => matrixCommandBegin_mtile hq hr hop hb hw hcode
  case mtileFails => exact fun code hcode => matrixCommandBegin_faults (matBegin_mtile_faults hq hr hop hcode)

/-! ## The activity ramp (R136 to R139) -/

/-- A row of the table that stores core g's matrix engine changes that alone. -/
theorem completes_setMat {c : Instr} {s : State} {g : Gcn} {m : Mat} (h : exec c s = .next (s.setMat g.toNat m)) :
    Completes c s (fun t => CoreOnly s t g ∧ t.core g.toNat = { s.core g.toNat with mat := m }) :=
  ⟨_, h, coreOnly_setCore s g _, core_setMat s g.toNat m⟩

section
variable {s : State} {g : Gcn}

theorem exec_arrayRampUp_ramps (hwork : (s.core g.toNat).mat.hasWork = true) (hrows : (s.core g.toNat).mat.rows < 32)
    (hfrozen : (s.core g.toNat).mat.allFrozen = false)
    (hcredit : (s.core g.toNat).mat.atIdle = false ∨ s.creditFor g.toNat = true) :
    exec (.arrayRampUp g) s = .next (s.setMat g.toNat { (s.core g.toNat).mat with
      rows := 32, rampLeft := 32 - (s.core g.toNat).mat.enabled, rampDown := false, idleCyc := 0 }) := by
  show execArrayRampUp g s = _
  simp [execArrayRampUp, hwork, hrows, hfrozen, hcredit]

/-- Without credit an idle array stays so (R139). -/
theorem exec_arrayRampUp_idles (hidle : (s.core g.toNat).mat.atIdle = true) (hcredit : s.creditFor g.toNat = false) :
    exec (.arrayRampUp g) s = .next s := by
  show execArrayRampUp g s = _
  simp [execArrayRampUp, hidle, hcredit]

theorem exec_arrayRampDown_ramps (hwork : (s.core g.toNat).mat.hasWork = false) (hrows : 0 < (s.core g.toNat).mat.rows)
    (hcyc : 16 ≤ (s.core g.toNat).mat.idleCyc) :
    exec (.arrayRampDown g) s = .next (s.setMat g.toNat { (s.core g.toNat).mat with
      rows := 0, rampLeft := (s.core g.toNat).mat.rows, rampDown := true }) := by
  show execArrayRampDown g s = _
  simp [execArrayRampDown, hwork, hrows, hcyc]

theorem exec_frozenRampDown_ramps (hfrozen : (s.core g.toNat).mat.allFrozen = true)
    (hrows : 0 < (s.core g.toNat).mat.rows) (hcyc : 64 ≤ (s.core g.toNat).mat.frozenCyc) :
    exec (.frozenRampDown g) s = .next (s.setMat g.toNat { (s.core g.toNat).mat with
      rows := 0, rampLeft := (s.core g.toNat).mat.rows, rampDown := true }) := by
  show execFrozenRampDown g s = _
  simp [execFrozenRampDown, hfrozen, hrows, hcyc]

end

/-- Settles O20: each ramp stores the array's new rows, and a ramp up that lacks credit stores nothing. -/
theorem activityRampsOfTheArray : Obligations.ActivityRampsOfTheArray := by
  unfold Obligations.ActivityRampsOfTheArray
  intro s g m
  refine ⟨?up, ?noCredit, ?down, ?frozenDown⟩
  case up => exact fun hwork hrows hfrozen hcredit =>
    completes_setMat (exec_arrayRampUp_ramps hwork hrows hfrozen hcredit)
  case noCredit => exact fun _ hidle hcredit => exec_arrayRampUp_idles hidle hcredit
  case down => exact fun hwork hrows hcyc => completes_setMat (exec_arrayRampDown_ramps hwork hrows hcyc)
  case frozenDown => exact fun hfrozen hrows hcyc => completes_setMat (exec_frozenRampDown_ramps hfrozen hrows hcyc)

end Sys2Proof.Machine
end

/-!
PROOFS. What becomes of a ferry channel's command (R77, R78, R214): it goes on, it fails, or it completes. The ferry engine, the
answers that other devices send and the host's completions share these rules.
-/
section
namespace Sys2Proof.Machine

/-! ## Channels -/

theorem find?_smIns_self {α : Type} (k : Nat) (v : α) {m : List (Nat × α)} (h : ∀ x ∈ m, x.1 ≠ k) :
    (smIns k v m).find? (fun x => x.1 = k) = some (k, v) := by
  induction m with
  | nil => simp [smIns]
  | cons x t ih =>
    have hx : x.1 ≠ k := h x List.mem_cons_self
    unfold smIns
    split
    · simp
    · rw [List.find?_cons_of_neg (by simpa using hx)]
      exact ih (fun y hy => h y (List.mem_cons_of_mem _ hy))

/-- The ferry engine with command x on its channel. -/
def Fer.withChan (f : Fer) (x : FExec) : Fer := { f with chans := smIns x.cmd.ch.toNat x (smDel x.cmd.ch.toNat f.chans) }

theorem putChan_eq (s : State) (g : Nat) (x : FExec) : s.putChan g x = s.setFer g ((s.core g).fer.withChan x) := rfl

@[simp] theorem chan_withChan (f : Fer) (x : FExec) : (f.withChan x).chan x.cmd.ch.toNat = some x := by
  rw [Fer.chan, Fer.withChan, find?_smIns_self _ _ (fun y hy => (key_smDel hy).2)]
  rfl

@[simp] theorem chan_dropChan (f : Fer) (n : Nat) : (f.dropChan n).chan n = none := by
  simp [Fer.chan, Fer.dropChan]

@[simp] theorem core_setFer (s : State) (g : Nat) (f : Fer) : (s.setFer g f).core g = { s.core g with fer := f } :=
  core_setCore s g _

@[simp] theorem fer_settleMarks (s : State) (g : Nat) : ((s.settleMarks g).core g).fer = (s.core g).fer := by
  rcases settleMarks_cases s g with h | h <;> rw [h]
  rw [core_setCore]
  rfl

theorem sameBytes_setFer (s : State) (g : Nat) (f : Fer) : SameBytes s (s.setFer g f) := sameBytes_setCore s g _ rfl

theorem sameBytes_raise (s : State) (g cause detail : Nat) (pc : Half) (ord : Nat) :
    SameBytes s (s.raise g cause detail pc ord) := sameBytes_setCore s g _ rfl

/-! ## One core -/

/-- Between s and t no core but g differs, and nothing beside the cores. -/
def OneCore (s t : State) (g : Nat) : Prop := t = { s with cores := t.cores } ∧ ∀ h, h ≠ g → t.core h = s.core h

theorem OneCore.refl (s : State) (g : Nat) : OneCore s s g := ⟨rfl, fun _ _ => rfl⟩

theorem OneCore.trans {s t u : State} {g : Nat} (h : OneCore s t g) (k : OneCore t u g) : OneCore s u g :=
  ⟨by rw [k.1, h.1], fun n hn => (k.2 n hn).trans (h.2 n hn)⟩

theorem oneCore_setCore (s : State) (g : Nat) (c : Core) : OneCore s (s.setCore g c) g := ⟨rfl, fun _ h => core_setCore_ne s c h⟩

theorem oneCore_settleMarks (s : State) (g : Nat) : OneCore s (s.settleMarks g) g := by
  rcases settleMarks_cases s g with h | h <;> rw [h]
  · exact OneCore.refl s g
  · exact oneCore_setCore s g _

/-! ## Going on, failing and completing -/

/-- From s to t channel ch of core g has come to hold `y`, a command or none: no byte differs, and nothing beside the core. -/
structure ChannelHolds (s t : State) (g : Nat) (ch : Channel) (y : Option FExec) : Prop where
  only     : OneCore s t g
  bytes    : SameBytes s t
  chan     : (t.core g).fer.chan ch.toNat = y
  idxFault : (t.core g).fer.idxFault = (s.core g).fer.idxFault

theorem channelHolds_putChan (s : State) (g : Nat) (x : FExec) : ChannelHolds s (s.putChan g x) g x.cmd.ch (some x) :=
  ⟨oneCore_setCore s g _, sameBytes_setFer s g _, by rw [putChan_eq, core_setFer, chan_withChan], by
    rw [putChan_eq, core_setFer]
    rfl⟩

theorem seq_putChan (s : State) (g : Nat) (x : FExec) : ((s.putChan g x).core g).seq = (s.core g).seq := by
  rw [putChan_eq, core_setFer]

/-- Core g's marks settle once the channel has been freed. -/
theorem channelHolds_dropChan (s : State) (g : Nat) (ch : Channel) :
    ChannelHolds s ((s.setFer g ((s.core g).fer.dropChan ch.toNat)).settleMarks g) g ch none :=
  ⟨(oneCore_setCore s g _).trans (oneCore_settleMarks _ g),
    sameBytes_trans (sameBytes_setFer s g _) (sameBytes_settleMarks _ g),
    by rw [fer_settleMarks, core_setFer, chan_dropChan], by rw [fer_settleMarks, core_setFer]; rfl⟩

/-- The command with the answers that it awaits once it fails: of one that still reads, none. -/
def FExec.cut (x : FExec) : FExec := { x with tags := if x.phase = .reading then [] else x.tags }

/-- What stays on the channel of a command that has failed: it, until every write that it sent is answered (R239). -/
def FExec.settled (x : FExec) (code : Nat) : Option FExec :=
  if x.tags = [] then none else some { x with phase := .failing code }

section
variable {s : State} {g : Nat} {x : FExec} (hcopy : x.copyOf = none)
include hcopy

theorem ferSettle_eq (code : Nat) : s.ferSettle g x code =
    if x.tags = [] then (s.setFer g ((s.core g).fer.dropChan x.cmd.ch.toNat)).settleMarks g
    else s.putChan g { x with phase := .failing code } := by
  simp only [State.ferSettle, List.isEmpty_iff, hcopy]

theorem channelHolds_ferSettle (code : Nat) : ChannelHolds s (s.ferSettle g x code) g x.cmd.ch (x.settled code) := by
  rw [ferSettle_eq hcopy, FExec.settled]
  split
  · exact channelHolds_dropChan s g x.cmd.ch
  · exact channelHolds_putChan s g { x with phase := .failing code }

theorem seq_ferSettle (code : Nat) : ((s.ferSettle g x code).core g).seq = (s.core g).seq := by
  rw [ferSettle_eq hcopy]
  split
  · rw [seq_settleMarks, core_setFer]
  · exact seq_putChan ..

variable (hphase : ∀ c, x.phase ≠ .failing c)
include hphase

theorem ferFail_eq (code : Nat) : s.ferFail g x cENGINE code = (s.ferSettle g x.cut code).raise g cENGINE
      (0x2000 + x.cmd.ch.toNat * 1024 + code) x.cmd.pc x.cmd.ord := by
  unfold State.ferFail
  split
  · next c hc => exact absurd hc (hphase c)
  · simp only [FExec.cut, hcopy, if_true]

/-- A command that fails raises ENGINE with its code, and leaves its channel or awaits the writes that it sent (R197, R214). -/
theorem channelHolds_ferFail (code : Nat) : ChannelHolds s (s.ferFail g x cENGINE code) g x.cmd.ch
    (x.cut.settled code) := by
  rw [ferFail_eq hcopy hphase]
  have h := channelHolds_ferSettle (s := s) (g := g) (x := x.cut) hcopy code
  exact ⟨h.only.trans (oneCore_setCore _ g _), sameBytes_trans h.bytes (sameBytes_raise _ _ _ _ _ _),
    by rw [State.raise, core_setCore]; exact h.chan, by rw [State.raise, core_setCore]; exact h.idxFault⟩

theorem fault_ferFail (code : Nat) :
    ((s.ferFail g x cENGINE code).core g).seq.cond = .stopping ∧
    ((s.ferFail g x cENGINE code).core g).seq.fault = some (keepFault (s.core g).seq.fault
      ⟨9, BitVec.ofNat 14 (0x2000 + x.cmd.ch.toNat * 1024 + code), x.cmd.pc, x.cmd.ord⟩) := by
  have hseq := seq_ferSettle (s := s) (g := g) (x := x.cut) hcopy code
  rw [ferFail_eq hcopy hphase, State.raise, core_setCore, ← hseq]
  exact ⟨rfl, rfl⟩

end

section
variable {s : State} {g : Nat} {x : FExec} (hcopy : x.copyOf = none) (hpsn : x.psn = false)
  (hdone : (s.core g).fer.done = []) (hn : x.cmd.n = (s.core g).seq.fec + 1)
include hcopy hpsn hdone hn

theorem ferFinish_eq : s.ferFinish g x = (s.setCore g { s.core g with
    seq := { (s.core g).seq with fec := x.cmd.n }, fer := (s.core g).fer.dropChan x.cmd.ch.toNat }).settleMarks g := by
  have hr : prefixCount (s.core g).seq.fec [x.cmd.n] 1 = (x.cmd.n, []) := by
    rw [hn]
    exact prefixCount_next _
  have hfer : { (s.core g).fer.dropChan x.cmd.ch.toNat with done := [] } = (s.core g).fer.dropChan x.cmd.ch.toNat :=
    congrArg (fun l => { (s.core g).fer.dropChan x.cmd.ch.toNat with done := l }) hdone.symm
  simp only [State.ferFinish, hcopy, hpsn, hdone, List.length_nil, hr, hfer, Bool.false_eq_true, if_false]

/-- The next command in order completes: it frees its channel and is counted (R77). -/
theorem channelHolds_ferFinish : ChannelHolds s (s.ferFinish g x) g x.cmd.ch none := by
  rw [ferFinish_eq hcopy hpsn hdone hn]
  exact ⟨(oneCore_setCore s g _).trans (oneCore_settleMarks _ g),
    sameBytes_trans (t := s.setCore g _) (sameBytes_setCore s g _ (by rfl)) (sameBytes_settleMarks _ g),
    by rw [fer_settleMarks, core_setCore, chan_dropChan], by rw [fer_settleMarks, core_setCore]; rfl⟩

theorem seq_ferFinish : ((s.ferFinish g x).core g).seq = { (s.core g).seq with fec := x.cmd.n } := by
  rw [ferFinish_eq hcopy hpsn hdone hn, seq_settleMarks, core_setCore]

end

end Sys2Proof.Machine
end

/-!
PROOFS. Beginning and completing the ferry engine's commands, and failing indices (R194 to R205): the command at the head of the
queue, and a transfer performed on this device.
-/
section
namespace Sys2Proof.Machine

/-! ## Groups of bytes written one after the other (R191, R226) -/

theorem sameLater_foldl {α : Type} {op : Option Nat} {w : Writer} (f : State → α → State)
    (h : ∀ t x, SameLater op w t (f t x)) (l : List α) (s : State) : SameLater op w s (l.foldl f s) := by
  induction l generalizing s with
  | nil => exact sameLater_of_sameOrder (SameOrder.refl s)
  | cons x t ih => exact (h s x).trans (ih (f s x))

theorem landing_sameLater {s t : State} {op : Option Nat} {w : Writer} (h : SameLater op w s t) (g : Nat) (d : Desc)
    (l : List (List PendByte)) : t.landing op w g d l = s.landing op w g d l := by
  rw [State.landing, State.landing, funext (lands_sameLater h)]

section
variable (s : State) (op : Option Nat) (w : Writer) (g : Nat) (d : Desc)

theorem sameLater_writeDesc (bs : List PendByte) : SameLater op w s (s.writeDesc op w g d bs) :=
  sameLater_foldl _ (fun t x => sameLater_writeGroup t op w g d x) _ s

/-- Groups of writes through a descriptor leave their bytes that stay, in the order of their accesses. -/
theorem wrote_writeAs (l : List (List PendByte)) : Wrote s (s.writeAs op w g d l) (placedBytes g d (s.landing op w g d l)) := by
  induction l generalizing s with
  | nil => exact wrote_refl s
  | cons b t ih =>
    have hb := wrote_writeDesc s op w g d b
    rw [← placedBytes_landing s op w g d rfl] at hb
    have ht := ih (s.writeDesc op w g d b)
    rw [landing_sameLater (sameLater_writeDesc s op w g d b)] at ht
    have hcons : placedBytes g d (s.landing op w g d (b :: t)) =
        placedBytes g d (s.landing op w g d [b]) ++ placedBytes g d (s.landing op w g d t) := by
      rw [← List.singleton_append, State.landing, List.map_append, placedBytes, List.flatMap_append]
      rfl
    rw [hcons]
    exact wrote_append hb ht

theorem writeAs_core (l : List (List PendByte)) (h : Nat) :
    ∃ x m, (s.writeAs op w g d l).core h = { s.core h with lsp := x, marks := m } := by
  induction l generalizing s with
  | nil => exact ⟨_, _, rfl⟩
  | cons b t ih =>
    obtain ⟨x, m, hb⟩ := writeDesc_core s op w g d b h
    obtain ⟨x', m', ht⟩ := ih (s.writeDesc op w g d b)
    exact ⟨x', m', ht.trans (by rw [hb])⟩

end

theorem sameOrder_touch (s : State) (l : Loc) (n : Nat) : SameOrder s (s.touch l n) := by
  cases l with
  | dmem => exact sameOrder_touchLine s n
  | lsp g => exact sameOrder_foldl _ (fun t i => sameOrder_touchWord t _ _) _ s
  | quay d => exact sameOrder_foldl _ (fun t i => sameOrder_touchWord t _ _) _ s

theorem sameBytes_onlyFound {s t : State} (h : OnlyFound s t) : SameBytes s t := fun l b => by
  rw [State.readByte, h.cells, State.readByte]

/-! ## Beginning (R194, R197) -/

section
variable {s : State} {g : Gcn} {k : FCmd} {rest : List FCmd} (hq : (s.core g.toNat).fer.queue = k :: rest)
  (hheld : s.ferHeld g.toNat k = false)
include hq hheld

/-- The command at the head of the queue goes onto its channel (R194). -/
theorem ferryCommandBegin_begins (hcode : ferCode k = none) (hremote : s.isRemote k.dsrc = false) (hhost : isHost k.dsrc = false) :
    Completes (.ferryCommandBegin g) s (fun t => CoreOnly s t g ∧ (t.core g.toNat).fer.queue = rest ∧
      ∃ y, (t.core g.toNat).fer.chan k.ch.toNat = some y ∧ y.cmd = k ∧ y.phase = .ready) := by
  let x : FExec := ⟨k, none, .ready, [], [], [], [], 0, false⟩
  let u := s.setFer g.toNat { (s.core g.toNat).fer with queue := rest }
  have hbegin : s.ferBegin g.toNat = u.putChan g.toNat x := by
    have hr : u.isRemote k.dsrc = false := hremote
    simp only [State.ferBegin, hq, hheld, hcode, Bool.false_eq_true, if_false]
    simp only [State.startFer, show (s.setFer g.toNat _).isRemote k.dsrc = false from hr, hhost, Bool.false_eq_true, if_false]
    rfl
  have hput := channelHolds_putChan u g.toNat x
  refine ⟨u.putChan g.toNat x, congrArg Host.Outcome.next hbegin, ?_, ?_, x, hput.chan, rfl, rfl⟩
  · exact coreOnly_trans (coreOnly_setCore s g _) (coreOnly_setCore u g _)
  · rw [putChan_eq, core_setFer, core_setFer]
    rfl

/-- A command that fails a check of its shapes, spaces or formats raises ENGINE (R197). -/
theorem ferryCommandBegin_faults {code : Nat} (hcode : ferCode k = some code) :
    Completes (.ferryCommandBegin g) s (fun t => CoreOnly s t g ∧
      Records s t g ⟨9, BitVec.ofNat 14 (0x2000 + k.ch.toNat * 1024 + code), k.pc, k.ord⟩) := by
  let u := s.setFer g.toNat { (s.core g.toNat).fer with queue := rest }
  have hbegin : s.ferBegin g.toNat = u.raise g.toNat cENGINE (0x2000 + k.ch.toNat * 1024 + code) k.pc k.ord := by
    simp only [State.ferBegin, hq, hheld, hcode, Bool.false_eq_true, if_false]
    rfl
  refine ⟨_, congrArg Host.Outcome.next hbegin, coreOnly_trans (coreOnly_setCore s g _) (coreOnly_setCore u g _), ?_, ?_⟩
  · rw [State.raise, core_setCore]
    rfl
  · rw [State.raise, core_setCore, core_setFer]
    rfl

end

/-! ## A transfer performed on this device (R198 to R212) -/

/-- The state once the reads of a transfer have found the errors of what they touch. -/
def State.ferRead (s : State) (g : Nat) (x : FExec) (p : Plan) : State :=
  (s.ferTouched g x.cmd p).foldl (fun t y => t.touch y.1 y.2) s

/-- What a transfer writes: groups of bytes, with the flags of its conversions. -/
def State.ferWritten (s : State) (g : Nat) (x : FExec) (p : Plan) : List (List PendByte) × BitVec 5 :=
  (s.ferRead g x p).ferOutput g x p

/-- The transfer's command once its bytes are known. -/
def FExec.moved (x : FExec) (out : List (List PendByte) × BitVec 5) : FExec :=
  { x with psn := x.psn || out.1.any (fun b => b.any (·.poison)), copyFlags := x.copyFlags ||| out.2 }

/-- The state with a transfer's writes performed. -/
def State.ferMoved (s : State) (g : Nat) (x : FExec) (p : Plan) : State :=
  let out := s.ferWritten g x p
  ((((s.ferRead g x p).ferNote g (x.moved out) p out.2 (countBytes out.1)).writeAs (s.ferReader g x).op
    (.engine g .ferry x.cmd.n) g x.cmd.ddst out.1).usedInv [])

/-- A transfer can be performed on this device now: none of its accesses is refused, none waits, and none is of device memory. -/
structure MovesHere (s : State) (g : Nat) (x : FExec) (p : Plan) : Prop where
  granted   : s.ferRefused g x.cmd p ((s.ferRead g x p).ferStored g x.cmd (s.ferWritten g x p).1) = false
  ready     : s.ferWaits g (s.ownDest g x.cmd.ddst) (s.ferTouched g x.cmd p) = false
  free      : s.ferProtected ((s.ferRead g x p).ferStored g x.cmd (s.ferWritten g x p).1) = false
  noLine    : dmemLines (s.ferTouched g x.cmd p ++ (s.ferRead g x p).ferStored g x.cmd (s.ferWritten g x p).1) = []
  notRemote : s.isRemote x.cmd.ddst = false
  notHost   : isHost x.cmd.ddst = false

theorem ferPerform_here {s : State} {g : Nat} {x : FExec} {p : Plan} (h : MovesHere s g x p) (done : State → FExec → State) :
    s.ferPerform g x p done = done (s.ferMoved g x p) (x.moved (s.ferWritten g x p)) := by
  obtain ⟨hgranted, hready, hfree, hline, hremote, hhost⟩ := h
  have hstored : dmemLines ((s.ferRead g x p).ferStored g x.cmd (s.ferWritten g x p).1) = [] := by
    rw [dmemLines, List.filterMap_append] at hline
    exact (List.append_eq_nil_iff.1 hline).2
  have hheld : s.linesHeld [] = false := rfl
  have hwindow : s.windowReady [] = true := by simp [State.windowReady, windowLines]
  unfold State.ferRead State.ferWritten State.ferRead at hgranted hfree hline hstored
  simp only [State.ferPerform, hgranted, hready, hfree, hline, hstored, hremote, hhost, hheld, hwindow, Bool.or_self,
    Bool.not_true, Bool.false_eq_true, if_false]
  rfl

section
variable (s : State) (g : Nat) (x : FExec) (p : Plan)

theorem onlyFound_ferRead : OnlyFound s (s.ferRead g x p) := 
  onlyFound_foldl (fun t (y : Loc × Nat) => t.touch y.1 y.2) (fun t y => onlyFound_touch t y.1 y.2) _ s

theorem op_ferReader (hcopy : x.copyOf = none) : (s.ferReader g x).op = (s.core g).op := by
  rw [State.ferReader, hcopy]

/-- What a transfer's note leaves of its core. -/
theorem ferNote_core (flags : BitVec 5) (n : Nat) : ∃ ctr fer,
    s.ferNote g x p flags n = s.setCore g { s.core g with ctr := ctr, fer := fer } ∧ fer.done = (s.core g).fer.done ∧ fer.idxFault = (s.core g).fer.idxFault := by
  unfold State.ferNote
  split
  · exact ⟨_, _, rfl, rfl, rfl⟩
  · exact ⟨_, _, rfl, rfl, rfl⟩

/-- From s to t core g's transfer has been performed: what it wrote, and what is left of its core. -/
structure Moved (s t : State) (g : Nat) (put : List ((Loc × Nat) × Byte)) : Prop where
  wrote    : Wrote s t put
  seq      : (t.core g).seq = (s.core g).seq
  done     : (t.core g).fer.done = (s.core g).fer.done
  idxFault : (t.core g).fer.idxFault = (s.core g).fer.idxFault

theorem moved_ferMoved (hcopy : x.copyOf = none) : Moved s (s.ferMoved g x p) g (placedBytes g x.cmd.ddst
    ((s.ferRead g x p).landing (s.core g).op (.engine g .ferry x.cmd.n) g x.cmd.ddst (s.ferWritten g x p).1)) := by
  have hread := onlyFound_ferRead s g x p
  obtain ⟨lsp, hcore⟩ := hread.core g
  unfold State.ferMoved
  dsimp only
  generalize s.ferWritten g x p = out
  generalize s.ferRead g x p = v at hread hcore
  obtain ⟨ctr, fer, hnote, hdone, hidx⟩ := ferNote_core v g (x.moved out) p out.2 (countBytes out.1)
  rw [op_ferReader s g x hcopy, hnote]
  have hw := wrote_writeAs (v.setCore g { v.core g with ctr := ctr, fer := fer }) (s.core g).op (.engine g .ferry x.cmd.n) g
    x.cmd.ddst out.1
  obtain ⟨lsp', marks, hwcore⟩ := writeAs_core (v.setCore g { v.core g with ctr := ctr, fer := fer }) (s.core g).op
    (.engine g .ferry x.cmd.n) g x.cmd.ddst out.1 g
  have horder : SameLater (s.core g).op (.engine g .ferry x.cmd.n) v (v.setCore g { v.core g with ctr := ctr, fer := fer }) :=
    sameLater_of_sameOrder ⟨rfl, rfl⟩
  rw [landing_sameLater horder] at hw
  generalize (v.setCore g { v.core g with ctr := ctr, fer := fer }).writeAs (s.core g).op (.engine g .ferry x.cmd.n) g
    x.cmd.ddst out.1 = t at hw hwcore
  have hgcore : (t.usedInv []).core g = t.core g := rfl
  rw [core_setCore, hcore] at hwcore
  rw [hcore] at hdone hidx
  refine ⟨?_, by rw [hgcore, hwcore], by rw [hgcore, hwcore]; exact hdone, by rw [hgcore, hwcore]; exact hidx⟩
  exact wrote_of_sameBytes (sameBytes_trans (sameBytes_onlyFound hread) (sameBytes_setCore v g _ (by rfl))) hw
    (fun l b => congrArg (byteAt · b) ((quiet_usedInv t []).cells l))

end

/-! ## Completing (R77, R205, R213) -/

/-- The index tensor's reads find the errors of what they touch. -/
theorem onlyFound_idxTouch (s : State) (g : Nat) (x : FExec) : OnlyFound s (s.idxTouch g x) := by
  unfold State.idxTouch
  split
  · exact onlyFound_touchDesc s g _ _
  · exact OnlyFound.refl s

section
variable {s : State} {g : Gcn} {ch : Channel} {x : FExec} (hx : (s.core g.toNat).fer.chan ch.toNat = some x)
  (hch : x.cmd.ch = ch) (hcopy : x.copyOf = none)
include hx hch hcopy

omit hx hch in
/-- What a transfer that begins with its index tensor's reads does. -/
theorem moved_idxTouch (p : Plan) : Moved s ((s.idxTouch g.toNat x).ferMoved g.toNat x p) g.toNat (placedBytes g.toNat x.cmd.ddst
    (((s.idxTouch g.toNat x).ferRead g.toNat x p).landing (s.core g.toNat).op (.engine g.toNat .ferry x.cmd.n) g.toNat x.cmd.ddst
      ((s.idxTouch g.toNat x).ferWritten g.toNat x p).1)) := by
  have hread := onlyFound_idxTouch s g.toNat x
  obtain ⟨lsp, hcore⟩ := hread.core g.toNat
  have h := moved_ferMoved (s.idxTouch g.toNat x) g.toNat x p hcopy
  rw [hcore] at h
  exact ⟨wrote_of_sameBytes (sameBytes_onlyFound hread) h.wrote (sameBytes_refl _), by rw [h.seq, hcore], by rw [h.done, hcore],
    by rw [h.idxFault, hcore]⟩

theorem ferryCommandComplete_acked (hpsn : x.psn = false) (hdone : (s.core g.toNat).fer.done = [])
    (hn : x.cmd.n = (s.core g.toNat).seq.fec + 1) (hphase : x.phase = .acking) (htags : x.tags = []) :
    Completes (.ferryCommandComplete g ch) s (fun t => CoreOnly s t g ∧ (t.core g.toNat).fer.chan ch.toNat = none ∧
      (t.core g.toNat).seq = { (s.core g.toNat).seq with fec := x.cmd.n } ∧ SameBytes s t) := by
  have hexec : s.ferComplete g.toNat ch = s.ferFinish g.toNat x := by
    simp only [State.ferComplete, hx, hphase, htags, List.isEmpty_nil, if_true]
  have h := channelHolds_ferFinish hcopy hpsn hdone hn
  rw [hch] at h
  exact ⟨_, congrArg Host.Outcome.next hexec, h.only, h.chan, seq_ferFinish hcopy hpsn hdone hn, h.bytes⟩

/-- A transfer that can be performed completes its command (R198). -/
theorem ferryCommandComplete_moves (hpsn : x.psn = false) (hdone : (s.core g.toNat).fer.done = [])
    (hn : x.cmd.n = (s.core g.toNat).seq.fec + 1) (hphase : x.phase = .ready) {u : State} (hu : s.idxTouch g.toNat x = u)
    {p : Plan} (hp : u.ferPlan g.toNat x = p) (hfail : p.fail = none) (hhere : MovesHere u g.toNat x p)
    (hclean : (u.ferWritten g.toNat x p).1.any (fun b => b.any (·.poison)) = false) :
    Completes (.ferryCommandComplete g ch) s (fun t => (t.core g.toNat).fer.chan ch.toNat = none ∧
      (t.core g.toNat).seq = { (s.core g.toNat).seq with fec := x.cmd.n } ∧ Wrote s t (placedBytes g.toNat x.cmd.ddst
        ((u.ferRead g.toNat x p).landing (s.core g.toNat).op (.engine g.toNat .ferry x.cmd.n) g.toNat x.cmd.ddst
          (u.ferWritten g.toNat x p).1))) := by
  subst hu
  have hmoved := moved_idxTouch (s := s) (g := g) hcopy p
  have hexec : s.ferComplete g.toNat ch = ((s.idxTouch g.toNat x).ferMoved g.toNat x p).ferFinish g.toNat
      (x.moved ((s.idxTouch g.toNat x).ferWritten g.toNat x p)) := by
    simp only [State.ferComplete, hx, hphase, hp, hfail, Option.isSome_none, Bool.false_eq_true, if_false,
      ferPerform_here hhere]
  have hpsn' : (x.moved ((s.idxTouch g.toNat x).ferWritten g.toNat x p)).psn = false := by
    simp only [FExec.moved, hpsn, hclean, Bool.or_self]
  have hdone' := hmoved.done.trans hdone
  have hn' : x.cmd.n = (((s.idxTouch g.toNat x).ferMoved g.toNat x p).core g.toNat).seq.fec + 1 := by rw [hmoved.seq, hn]
  have h := channelHolds_ferFinish (x := x.moved _) hcopy hpsn' hdone' hn'
  have hseq := seq_ferFinish (x := x.moved _) hcopy hpsn' hdone' hn'
  rw [hmoved.seq] at hseq
  exact ⟨_, congrArg Host.Outcome.next hexec, hch ▸ h.chan, hseq, wrote_of_sameBytes (sameBytes_refl s) hmoved.wrote h.bytes⟩

/-- An index that fails: the earlier elements' writes are performed, and the command faults with INDEX (R205). -/
theorem ferryIndexFault_faults {pos : Nat} {i : Int} (hphase : x.phase = .ready) (htags : x.tags = []) {u : State}
    (hu : s.idxTouch g.toNat x = u) {p : Plan} (hp : u.ferPlan g.toNat x = p) (hfail : p.fail = some (pos, i, false))
    (hhere : MovesHere u g.toNat x p) (hnone : (s.core g.toNat).fer.idxFault = none) :
    Completes (.ferryIndexFault g ch) s (fun t => (t.core g.toNat).fer.chan ch.toNat = none ∧ Wrote s t (placedBytes g.toNat x.cmd.ddst
        ((u.ferRead g.toNat x p).landing (s.core g.toNat).op (.engine g.toNat .ferry x.cmd.n) g.toNat x.cmd.ddst
          (u.ferWritten g.toNat x p).1)) ∧
      (t.core g.toNat).fer.idxFault.map (fun y => (y.pos, y.val, y.ch)) =
        some (BitVec.ofNat 64 pos, BitVec.ofInt 64 i, ch) ∧
      Records s t g ⟨9, BitVec.ofNat 14 (0x2000 + ch.toNat * 1024 + 5), x.cmd.pc, x.cmd.ord⟩) := by
  subst hu
  have hmoved := moved_idxTouch (s := s) (g := g) hcopy p
  generalize hw : (s.idxTouch g.toNat x).ferMoved g.toNat x p = w at hmoved
  let y := x.moved ((s.idxTouch g.toNat x).ferWritten g.toNat x p)
  let v := w.setFer g.toNat ((w.core g.toNat).fer.noteIndex x.cmd pos i false)
  have hexec : s.ferIndexFault g.toNat ch = v.ferFail g.toNat y cENGINE 5 := by
    simp only [State.ferIndexFault, hx, hphase, hp, hfail, ferPerform_here hhere, hw, Bool.false_eq_true, if_false]
    rfl
  have hy : ∀ c, y.phase ≠ .failing c := fun c hc => by
    have hc' : x.phase = .failing c := hc
    rw [hphase] at hc'
    cases hc'
  have h := channelHolds_ferFail (s := v) (g := g.toNat) (x := y) hcopy hy 5
  obtain ⟨hcond, hfault⟩ := fault_ferFail (s := v) (g := g.toNat) (x := y) hcopy hy 5
  have hcut : y.cut.settled 5 = none := by
    have : y.cut.tags = [] := by
      show (if x.phase = FPhase.reading then [] else x.tags) = []
      rw [htags, ite_self]
    rw [FExec.settled, if_pos this]
  rw [hcut] at h
  have hv : (v.core g.toNat).seq = (s.core g.toNat).seq := by rw [core_setFer, hmoved.seq]
  rw [hv, show y.cmd.ch = ch from hch] at hfault
  refine ⟨_, congrArg Host.Outcome.next hexec, hch ▸ h.chan, ?_, ?_, hcond, hfault⟩
  · exact wrote_of_sameBytes (sameBytes_refl s) hmoved.wrote (sameBytes_trans (sameBytes_setFer w _ _) h.bytes)
  · rw [h.idxFault, core_setFer, Fer.noteIndex, hmoved.idxFault, hnone, ← hch]
    rfl

end

/-- Settles O22: a command begins, completes or faults by the lemma of its case. -/
theorem ferryCommandsBeginCompleteAndFault : Obligations.FerryCommandsBeginCompleteAndFault := by
  unfold Obligations.FerryCommandsBeginCompleteAndFault
  intro s g k rest ch x c freed u p reads v out stored here wrote
  have hmoves (h : here) : MovesHere u g.toNat x p := by
    obtain ⟨hgranted, hready, hfree, hline, hremote, hhost⟩ := h
    exact ⟨hgranted, hready, hfree, hline, hremote, hhost⟩
  refine ⟨fun hq hheld => ⟨ferryCommandBegin_begins hq hheld, fun _ => ferryCommandBegin_faults hq hheld⟩,
    fun hx hch hcopy hpsn hdone hn => ⟨?acked, ?moves⟩, ?index⟩
  case acked => exact ferryCommandComplete_acked hx hch hcopy hpsn hdone hn
  case moves =>
    exact fun hphase hfail hhere hclean =>
      ferryCommandComplete_moves hx hch hcopy hpsn hdone hn hphase rfl rfl hfail (hmoves hhere) hclean
  case index =>
    exact fun pos i hx hch hcopy hphase htags hfail hhere hnone =>
      ferryIndexFault_faults hx hch hcopy hphase htags rfl rfl hfail (hmoves hhere) hnone

end Sys2Proof.Machine
end

/-!
PROOFS. What answers do to the channel command that waits for them (R214, R239, R334): a transaction that arrives in its turn acts
on the command, and what the links send then changes nothing else.
-/
section
namespace Sys2Proof.Machine

/-! ## Sending on the links leaves all but the ports (R326 to R333) -/

/-- From s to t the links have sent: nothing differs but the ports, the blocks that stayed behind, and what left the device. It
is what `NetOnly` says, and of the links' own state beside. -/
def PortsOnly (s t : State) : Prop :=
  t = { s with lnk := { s.lnk with ports := t.lnk.ports }, col := t.col, out := t.out, freeCtr := t.freeCtr }

theorem PortsOnly.refl (s : State) : PortsOnly s s := rfl

theorem PortsOnly.trans {s t u : State} (h : PortsOnly s t) (k : PortsOnly t u) : PortsOnly s u := by
  unfold PortsOnly at h k ⊢
  rw [k, h]

theorem portsOnly_foldl {α : Type} (f : State → α → State) (h : ∀ t x, PortsOnly t (f t x)) (l : List α) (s : State) :
    PortsOnly s (l.foldl f s) := by
  induction l generalizing s with
  | nil => exact PortsOnly.refl s
  | cons x t ih => exact (h s x).trans (ih (f s x))

theorem portsOnly_setPort (s : State) (p : Port) (x : PortSt) : PortsOnly s (s.setPort p x) := rfl

theorem portsOnly_setLink (s : State) (p : Port) (l : LinkId) (x : Link) : PortsOnly s (s.setLink p l x) := by
  cases l <;> exact portsOnly_setPort s p _

theorem portsOnly_frameOut (s : State) (p : Port) (l : LinkId) (ts : List OutTxn) : PortsOnly s (s.frameOut p l ts) :=
  (portsOnly_setLink s p l _).trans rfl

theorem portsOnly_creditBack (s : State) (p : Port) (l : LinkId) (c n : Nat) : PortsOnly s (s.creditBack p l c n) := by
  unfold State.creditBack
  dsimp only
  split <;> exact portsOnly_setLink s p l _

theorem portsOnly_leaveBuffer (s : State) (t : OutTxn) : PortsOnly s (s.leaveBuffer t) := by
  unfold State.leaveBuffer
  split
  · exact PortsOnly.refl s
  · exact (portsOnly_setLink s _ _ _).trans (portsOnly_creditBack _ _ _ _ _)

theorem portsOnly_loadFrame (p : Port) (l : LinkId) (k room : Nat) (s : State) (ts : List OutTxn) :
    PortsOnly s (State.loadFrame p l k room s ts).1 := by
  induction k generalizing room s ts with
  | zero => exact PortsOnly.refl s
  | succ k ih =>
    unfold State.loadFrame
    split
    · exact PortsOnly.refl s
    · dsimp only
      split
      · exact ((portsOnly_setPort s p _).trans (portsOnly_setLink _ p l _)).trans (ih _ _ _)
      · exact PortsOnly.refl s

theorem portsOnly_pumpLink (p : Port) (l : LinkId) (k : Nat) (s : State) : PortsOnly s (State.pumpLink p l k s) := by
  induction k generalizing s with
  | zero => exact PortsOnly.refl s
  | succ k ih =>
    unfold State.pumpLink
    split
    case isTrue => exact PortsOnly.refl s
    split
    next ts rest _ =>
      dsimp only
      split
      · exact (((portsOnly_setPort s p _).trans (portsOnly_setLink _ p l _)).trans (portsOnly_frameOut _ p l _)).trans (ih _)
      · exact PortsOnly.refl s
    next _ =>
      have h := portsOnly_loadFrame p l frameFlits frameFlits s []
      split
      · exact PortsOnly.refl s
      · next _ heq =>
        rw [heq] at h
        exact ((h.trans (portsOnly_frameOut _ p l _)).trans (portsOnly_foldl _ portsOnly_leaveBuffer _ _)).trans (ih _)

theorem portsOnly_pumpPort (s : State) (p : Port) : PortsOnly s (s.pumpPort p) := by
  have hold : PortsOnly s (s.holdBack p) :=
    (portsOnly_setPort s p _).trans (portsOnly_foldl (fun t (b : OutTxn) => { t with col := t.col.map (fun g => g.takeBack b.x) })
      (fun _ _ => rfl) _ _)
  exact (hold.trans (portsOnly_pumpLink p .a _ _)).trans (portsOnly_pumpLink p .b _ _)

theorem portsOnly_flushOwed (s : State) (p : Port) (l : LinkId) : PortsOnly s (s.flushOwed p l) := by
  unfold State.flushOwed
  dsimp only
  split
  · exact portsOnly_frameOut s p l []
  · exact PortsOnly.refl s

theorem portsOnly_pump (s : State) : PortsOnly s s.pump :=
  (portsOnly_foldl _ portsOnly_pumpPort _ s).trans
    (portsOnly_foldl _ (fun _ p => (portsOnly_flushOwed _ p .a).trans (portsOnly_flushOwed _ p .b)) _ _)

theorem PortsOnly.netOnly {s t : State} (h : PortsOnly s t) : NetOnly s t := by
  rw [h]
  exact ⟨rfl, rfl, rfl, rfl⟩

theorem PortsOnly.txns {s t : State} (h : PortsOnly s t) : t.lnk.txns = s.lnk.txns := by rw [h]

theorem PortsOnly.late {s t : State} (h : PortsOnly s t) : t.lnk.late = s.lnk.late := by rw [h]

/-! ## Arriving in turn (R327, R333) -/

theorem route_here_iff {s : State} {d : Coord} :
    s.route d = .here ↔ cx d = cx s.own ∧ cy d = cy s.own ∧ cz d = cz s.own := by
  have hentry (e : Nat) (plus minus : Port) : s.takeEntry e plus minus ≠ .here := by
    unfold State.takeEntry
    split_ifs <;> simp
  simp only [State.route, ne_eq, ite_not]
  by_cases hx : cx d = cx s.own
  · by_cases hy : cy d = cy s.own
    · by_cases hz : cz d = cz s.own <;> simp [hx, hy, hz, hentry]
    · simp [hx, hy, hentry]
  · simp [hx, hentry]

theorem getD_onClass_le (l : List Nat) (c e : Nat) :
    (onClass l c (· + 1)).getD e 0 ≤ l.getD e 0 + if e = c then 1 else 0 := by
  unfold onClass
  by_cases hc : e = c
  · subst hc
    by_cases hlen : e < l.length
    · simp [List.getD_eq_getElem?_getD, hlen]
    · rw [List.set_eq_of_length_le (by omega)]
      omega
  · simp [List.getD_eq_getElem?_getD, List.getElem?_set_ne (Ne.symm hc), hc]

/-- What a port awaits, and what came to it early, do not turn on its credits. -/
theorem early_creditBack (s : State) (p : Port) (l : LinkId) (c n : Nat) :
    ((s.creditBack p l c n).port p).early = (s.port p).early ∧ ((s.creditBack p l c n).port p).rxNum = (s.port p).rxNum := by
  have hlink (x : Link) : ((s.setLink p l x).port p).early = (s.port p).early ∧
      ((s.setLink p l x).port p).rxNum = (s.port p).rxNum := by
    cases l <;> simp [State.setLink]
  unfold State.creditBack
  dsimp only
  split <;> exact hlink _

/-- The state once a transaction of class c has come to port p in its turn. -/
def State.took (s : State) (p : Port) (c : Nat) : State :=
  s.setPort p { s.port p with rxNum := onClass (s.port p).rxNum c (· + 1) }

theorem drainEarly_none {s : State} {p : Port} (h : ∀ e ∈ (s.port p).early, s.isDue p e = false) (k : Nat) :
    State.drainEarly p k s = s := by
  cases k with
  | zero => rfl
  | succ k =>
    have hnone : (s.port p).early.find? (s.isDue p) = none := List.find?_eq_none.2 (fun e he => by simp [h e he])
    rw [State.drainEarly, hnone]

/-- What comes in its turn is delivered, and what came early and is due after it. -/
theorem arrive_in_turn {s : State} {p : Port} {e : Early} (hup : (s.port p).up = true)
    (hturn : e.num = (s.port p).rxNum.getD e.class 0)
    (hnew : ∀ y ∈ (s.port p).early, ¬ (y.class = e.class ∧ y.num = e.num)) :
    s.arrive p e = (State.drainEarly p ((s.deliver p e).port p).early.length (s.deliver p e)).pump := by
  have hfirst : (s.port p).early.any (fun y => y.class = e.class && y.num = e.num) = false :=
    List.any_eq_false.2 (fun y hy => by simpa using hnew y hy)
  have hlate : ¬ e.num < (s.port p).rxNum.getD e.class 0 := by omega
  simp only [State.arrive, hup, Bool.not_true, Bool.false_eq_true, if_false, hfirst, Bool.or_false, decide_eq_true_eq,
    if_neg hlate, if_pos hturn]

/-- A transaction that comes in its turn acts here; the links then send what they can. -/
theorem arrive_acts {s u : State} {p : Port} {kind : Byte} {x : Txn} (h : Comes s p kind x)
    (hact : (s.took p (kindClass kind)).act p kind x = (u, false))
    (hports : u.lnk.ports = (s.took p (kindClass kind)).lnk.ports) : PortsOnly u (s.arrive p (.txn kind x)) := by
  obtain ⟨hup, hturn, hhere, hnext⟩ := h
  let v := u.creditBack p x.link (kindClass kind) (flits kind x)
  have hdeliver : s.deliver p (.txn kind x) = v := by
    have hroute : (s.took p (kindClass kind)).route x.dst = .here :=
      route_here_iff.2 (route_here_iff (s := s).1 hhere)
    have htook : s.setPort p { s.port p with rxNum := onClass (s.port p).rxNum (kindClass kind) (· + 1) } =
      s.took p (kindClass kind) := rfl
    simp only [State.deliver, Early.class, Early.flits, htook, hroute, hact, if_true, Bool.false_eq_true, if_false, v]
  obtain ⟨hearly, hnum⟩ : (v.port p).early = (s.port p).early ∧
      (v.port p).rxNum = onClass (s.port p).rxNum (kindClass kind) (· + 1) := by
    have hport : u.port p = (s.took p (kindClass kind)).port p := by rw [State.port, hports, State.port]
    obtain ⟨he, hn⟩ := early_creditBack u p x.link (kindClass kind) (flits kind x)
    rw [hport, State.took, port_setPort] at he hn
    exact ⟨he, hn⟩
  have hdrain : ∀ e ∈ (v.port p).early, v.isDue p e = false := fun e he => by
    have hafter := hnext e (hearly ▸ he)
    have hle := getD_onClass_le (s.port p).rxNum (kindClass kind) e.class
    exact decide_eq_false (by rw [hnum]; omega)
  have hnew : ∀ y ∈ (s.port p).early, ¬ (y.class = kindClass kind ∧ y.num = x.num) := fun y hy ⟨hclass, hy'⟩ => by
    have hafter := hnext y hy
    rw [hclass, if_pos rfl] at hafter
    omega
  rw [arrive_in_turn (e := .txn kind x) hup hturn hnew, hdeliver, drainEarly_none hdrain]
  exact (portsOnly_creditBack u p x.link _ _).trans (portsOnly_pump _)

/-! ## Answers (R214, R239, R334) -/

/-- An answer whose tag no transaction has is counted as late. -/
theorem arrive_late {s : State} {p : Port} {kind : Byte} {x : Txn} (h : Comes s p kind x)
    (hact : (s.took p (kindClass kind)).act p kind x = ((s.took p (kindClass kind)).late, false)) :
    (s.arrive p (.txn kind x)).lnk.late = s.lnk.late + 1 ∧ SameBytes s (s.arrive p (.txn kind x)) ∧
      (s.arrive p (.txn kind x)).cores = s.cores := by
  have ht := arrive_acts h hact rfl
  have hlate : NetOnly s (s.took p (kindClass kind)).late := ⟨rfl, rfl, rfl, rfl⟩
  exact ⟨ht.late, sameBytes_netOnly (hlate.trans ht.netOnly), (hlate.trans ht.netOnly).cores⟩

theorem answered_unknown {s : State} {x : Txn} (h : s.txnOf x.tag = none) (f : State → RTxn → FExec → State) :
    s.answered x f = s.late := by
  rw [State.answered, h]

theorem txnOf_dropTxn (s : State) (tag : Word32) : (s.dropTxn tag).txnOf tag = none := by
  simp [State.txnOf, State.dropTxn]

/-- A command on its channel awaits the transaction's answer, and has not been taken from it. -/
structure Awaits (s : State) (r : RTxn) (k : FExec) : Prop where
  known : s.txnOf r.tag = some r
  chan  : (s.core r.core).fer.chan r.ch.toNat = some k
  tag   : k.tags.contains r.tag = true
  on    : k.cmd.ch = r.ch

theorem Awaits.waiter {s : State} {r : RTxn} {k : FExec} (h : Awaits s r k) : s.waiter r = some k := by
  obtain ⟨-, hchan, htag, -⟩ := h
  simp only [State.waiter, hchan, htag, if_true]

/-- The command once the answer with this tag has come. -/
def FExec.got (k : FExec) (tag : Word32) : FExec := { k with tags := k.tags.erase tag }

theorem answered_known {s : State} {x : Txn} {r : RTxn} {k : FExec} (h : Awaits s r k) (hx : x.tag = r.tag)
    (f : State → RTxn → FExec → State) : s.answered x f = f (s.dropTxn r.tag) r (k.got r.tag) := by
  have hw : (s.dropTxn r.tag).waiter r = some k := h.waiter
  simp only [State.answered, hx, h.known, hw]
  rfl

/-- From s to t the transaction's answer has come, and the command's channel holds `y`. -/
structure Answered (s t : State) (r : RTxn) (y : Option FExec) : Prop where
  taken : t.txnOf r.tag = none
  bytes : SameBytes s t
  chan  : (t.core r.core).fer.chan r.ch.toNat = y

theorem answered_dropTxn {s u : State} {r : RTxn} {y : Option FExec} (h : ChannelHolds (s.dropTxn r.tag) u r.core r.ch y) :
    Answered s u r y := by
  obtain ⟨⟨honly, -⟩, hbytes, hchan, -⟩ := h
  refine ⟨?_, sameBytes_trans (sameBytes_netOnly ⟨rfl, rfl, rfl, rfl⟩) hbytes, hchan⟩
  rw [honly]
  exact txnOf_dropTxn s r.tag

section
variable {s u : State} {p : Port} {kind : Byte} {x : Txn} {r : RTxn} {k : FExec} {y : Option FExec} {f : State → RTxn → FExec → State}

/-- An answer in its turn reaches the command that awaits it, and nothing then changes but what the links send. -/
theorem arrive_answers (h : Comes s p kind x) (hk : Awaits s r k) (hx : x.tag = r.tag)
    (hact : (s.took p (kindClass kind)).act p kind x = ((s.took p (kindClass kind)).answered x f, false))
    (hf : f ((s.took p (kindClass kind)).dropTxn r.tag) r (k.got r.tag) = u)
    (hu : ChannelHolds ((s.took p (kindClass kind)).dropTxn r.tag) u r.core r.ch y) :
    Answered s (s.arrive p (.txn kind x)) r y ∧ (s.arrive p (.txn kind x)).core r.core = u.core r.core := by
  have hk' : Awaits (s.took p (kindClass kind)) r k := ⟨hk.known, hk.chan, hk.tag, hk.on⟩
  rw [answered_known hk' hx, hf] at hact
  obtain ⟨htaken, hbytes, hchan⟩ := answered_dropTxn hu
  have ht := arrive_acts h hact (by rw [hu.only.1]; rfl)
  have hcore : (s.arrive p (.txn kind x)).core r.core = u.core r.core := by rw [State.core, ht.netOnly.cores, State.core]
  refine ⟨⟨?_, ?_, by rw [hcore]; exact hchan⟩, hcore⟩
  · rw [State.txnOf, ht.txns]
    exact htaken
  · exact sameBytes_trans (sameBytes_trans (sameBytes_netOnly ⟨rfl, rfl, rfl, rfl⟩) hbytes) (sameBytes_netOnly ht.netOnly)

variable (hk : Awaits s r k) (hcopy : k.copyOf = none)
include hk hcopy

/-- WRITE_ACK of a write that a failed command sent: with the last, it leaves its channel (R239). -/
theorem writeAck_failing (h : Comes s p 3 x) (hx : x.tag = r.tag) {code : Nat} (hphase : k.phase = .failing code) :
    Completes (.writeAck p x) s (fun t => Answered s t r ((k.got r.tag).settled code) ∧
      (t.core r.core).seq = (s.core r.core).seq) := by
  let v := (s.took p 3).dropTxn r.tag
  have hf : v.takeAck r (k.got r.tag) = v.ferSettle r.core (k.got r.tag) code := by
    have : (k.got r.tag).phase = .failing code := hphase
    rw [State.takeAck, this]
  have hu := channelHolds_ferSettle (s := v) (g := r.core) (x := k.got r.tag) hcopy code
  obtain ⟨ha, hcore⟩ := arrive_answers h hk hx rfl hf (hk.on ▸ hu)
  refine ⟨_, rfl, ha, ?_⟩
  rw [hcore]
  exact seq_ferSettle (s := v) (g := r.core) (x := k.got r.tag) hcopy code

variable (hphase : ∀ c, k.phase ≠ .failing c)
include hphase

omit hcopy in
/-- WRITE_ACK takes its tag off the command's. -/
theorem writeAck_takes (h : Comes s p 3 x) (hx : x.tag = r.tag) :
    Completes (.writeAck p x) s (fun t => Answered s t r (some (k.got r.tag))) := by
  let v := (s.took p 3).dropTxn r.tag
  have hf : v.takeAck r (k.got r.tag) = v.putChan r.core (k.got r.tag) := by
    unfold State.takeAck
    split
    · next c hc => exact absurd hc (hphase c)
    · rfl
  exact ⟨_, rfl, (arrive_answers h hk hx rfl hf (hk.on ▸ channelHolds_putChan v r.core (k.got r.tag))).1⟩

omit hcopy hphase in
/-- READ_DATA places its data in the command. -/
theorem readData_places (h : Comes s p 4 x) (hx : x.tag = r.tag) :
    Completes (.readData p x) s (fun t => ∃ y, Answered s t r (some y) ∧ y.tags = k.tags.erase r.tag ∧
      y.rx = putBytes k.rx r.addr x.data ∧ (k.phase = .reading → k.tags.erase r.tag = [] → y.phase = .ready)) := by
  let v := (s.took p 3).dropTxn r.tag
  have hu (y : FExec) (hy : y.cmd = k.cmd) : ChannelHolds v (v.putChan r.core y) r.core r.ch (some y) :=
    hk.on ▸ hy ▸ channelHolds_putChan v r.core y
  exact ⟨_, rfl, _, (arrive_answers h hk hx rfl rfl (hu _ rfl)).1, rfl, rfl, fun hp ht => by simp [FExec.got, hp, ht]⟩

/-- From s to t the command has failed with this ENGINE code, and an answer less is awaited. -/
structure Failed (s t : State) (r : RTxn) (k : FExec) (code : Nat) : Prop where
  answered : Answered s t r ((k.got r.tag).cut.settled code)
  fault    : (t.core r.core).seq.fault = some (keepFault (s.core r.core).seq.fault
    ⟨9, BitVec.ofNat 14 (0x2000 + r.ch.toNat * 1024 + code), k.cmd.pc, k.cmd.ord⟩)

/-- An answer by which the command fails raises ENGINE with the code. -/
theorem arrive_fails {code : Nat} (h : Comes s p kind x) (hx : x.tag = r.tag)
    (hact : (s.took p (kindClass kind)).act p kind x =
      ((s.took p (kindClass kind)).answered x (fun t r k => t.ferFail r.core k cENGINE code), false)) :
    Failed s (s.arrive p (.txn kind x)) r k code := by
  let v := (s.took p (kindClass kind)).dropTxn r.tag
  have hu := channelHolds_ferFail (s := v) (g := r.core) (x := k.got r.tag) hcopy hphase code
  obtain ⟨ha, hcore⟩ := arrive_answers h hk hx hact rfl (hk.on ▸ hu)
  refine ⟨ha, ?_⟩
  rw [hcore, ← hk.on]
  exact (fault_ferFail (s := v) (g := r.core) (x := k.got r.tag) hcopy hphase code).2

/-- UNROUTABLE of the transaction's address reaches the command (R339). -/
theorem unroutable_fails (h : Comes s p 6 x) (hx : x.tag = r.tag) (haddr : r.addr = x.addr.toNat) :
    Failed s (s.arrive p (.txn 6 x)) r k 6 := by
  refine arrive_fails hk hcopy hphase h hx ?_
  have hknown : (s.took p 3).txnOf x.tag = some r := hx ▸ hk.known
  show ((s.took p 3).takeUnroutable x, false) = _
  simp only [State.takeUnroutable, hknown, if_pos haddr]
  rfl

/-- A transaction that gets no answer in time fails its command (R334). -/
theorem txnTimeout_fails (htime : r.sent + s.lnk.txnUs * 1000 ≤ s.wall) : Failed s (s.txnTimeout r.tag) r k 7 := by
  let v := s.dropTxn r.tag
  have hw : v.waiter r = some k := hk.waiter
  have hexec : s.txnTimeout r.tag = v.ferFail r.core (k.got r.tag) cENGINE 7 := by
    simp only [State.txnTimeout, hk.known, if_neg (Nat.not_lt.2 htime), show (s.dropTxn r.tag).waiter r = some k from hw]
    rfl
  have hu := channelHolds_ferFail (s := v) (g := r.core) (x := k.got r.tag) hcopy hphase 7
  rw [hexec]
  refine ⟨answered_dropTxn (hk.on ▸ hu), ?_⟩
  rw [← hk.on]
  exact (fault_ferFail (s := v) (g := r.core) (x := k.got r.tag) hcopy hphase 7).2

end

/-- An UNROUTABLE return that names nothing of this device is counted as late (log entry 45). -/
theorem takeUnroutable_unknown {s : State} {x : Txn} (h : s.txnOf x.tag = none) (hcoll : s.engineOf (txnColl x) = none)
    (hsig : s.sch.xsigs = []) : s.takeUnroutable x = s.late := by
  simp [State.takeUnroutable, h, hsig, State.collUnroutable, hcoll]

/-- Settles O38: the answer reaches the command that awaits it, which goes on or fails by the lemma of its kind. -/
theorem answersReachTheWaitingCommand : Obligations.AnswersReachTheWaitingCommand := by
  unfold Obligations.AnswersReachTheWaitingCommand
  intro s p x r k core codeRaised
  have hraised {t : State} {code : Nat} (h : Failed s t r k code) : codeRaised code t :=
    ⟨h.answered.taken, h.answered.bytes, h.answered.chan, h.fault⟩
  refine ⟨fun d hcomes hnone hd => ?late, fun hknown hchan htag hon hcopy => ?known⟩
  case late =>
    have hcomes' {kind : Byte} (hclass : kindClass kind = 3) : Comes s p kind x := by
      obtain ⟨hup, hturn, hhere, hnext⟩ := hcomes
      exact ⟨hup, hclass ▸ hturn, hhere, hclass ▸ hnext⟩
    have hlate (f) : (s.took p 3).answered x f = (s.took p 3).late := answered_unknown (s := s.took p 3) hnone f
    rcases hd with rfl | rfl | rfl | ⟨rfl, hcoll, hsig⟩
    · exact ⟨_, rfl, arrive_late hcomes (congrArg (·, false) (hlate _))⟩
    · exact ⟨_, rfl, arrive_late (hcomes' rfl) (congrArg (·, false) (hlate _))⟩
    · exact ⟨_, rfl, arrive_late (hcomes' rfl) (congrArg (·, false) (hlate _))⟩
    · exact ⟨_, rfl, arrive_late (hcomes' rfl)
        (congrArg (·, false) (takeUnroutable_unknown (s := s.took p 3) hnone hcoll hsig))⟩
  case known =>
    have hk : Awaits s r k := ⟨hknown, hchan, htag, hon⟩
    refine ⟨fun code hphase hx h => ?failing, fun hphase hx => ⟨fun h => ?ack, fun h => ?data, fun h => ?refused,
      fun h haddr => ⟨_, rfl, hraised (unroutable_fails hk hcopy hphase h hx haddr)⟩⟩,
      fun hphase htime => ⟨_, rfl, hraised (txnTimeout_fails hk hcopy hphase htime)⟩⟩
    case failing =>
      obtain ⟨t, ht, ha, hseq⟩ := writeAck_failing hk hcopy h hx hphase
      exact ⟨t, ht, ha.taken, ha.bytes, hseq, by rw [ha.chan, FExec.settled, ← hphase]; rfl⟩
    case ack =>
      obtain ⟨t, ht, ha⟩ := writeAck_takes hk hphase h hx
      exact ⟨t, ht, ha.taken, ha.bytes, ha.chan⟩
    case data =>
      obtain ⟨t, ht, y, ha, hy⟩ := readData_places hk h hx
      exact ⟨t, ht, ha.taken, ha.bytes, y, ha.chan, hy⟩
    case refused => exact ⟨_, rfl, hraised (arrive_fails hk hcopy hphase h hx rfl)⟩

end Sys2Proof.Machine
end

/-!
PROOFS. The host's reads and writes of device memory, snoops that are answered, decoders, and the host's completions (R213, R361,
R362, R366, R372, R373, R375, R379).
-/
section
namespace Sys2Proof.Machine

/-! ## Runs of bytes of device memory (R225) -/

theorem flatMap_byGranule (l : List (Nat × Byte)) : (byGranule l).flatMap Prod.snd = l := by
  induction l with
  | nil => rfl
  | cons b t ih =>
    rw [byGranule]
    split
    next h =>
      rw [h] at ih
      simpa using ih
    next n bs rest h =>
      rw [h] at ih
      split <;> simpa using ih

theorem granule_of_byGranule {l : List (Nat × Byte)} {x : Nat × List (Nat × Byte)} (hx : x ∈ byGranule l) :
    ∀ y ∈ x.2, y.1 / 64 = x.1 := by
  induction l generalizing x with
  | nil => cases hx
  | cons b t ih =>
    rw [byGranule] at hx
    split at hx
    next h =>
      obtain rfl := List.mem_singleton.1 hx
      simp
    next n bs rest h =>
      rw [h] at ih
      split at hx
      next hn =>
        rcases List.mem_cons.1 hx with rfl | hx
        · intro y hy
          rcases List.mem_cons.1 hy with rfl | hy
          · exact hn.symm
          · exact ih List.mem_cons_self y hy
        · exact ih (List.mem_cons_of_mem _ hx)
      next =>
        rcases List.mem_cons.1 hx with rfl | hx
        · simp
        · exact ih hx

/-- From s to t the bytes b have been written from address a of device memory on, and no other byte. -/
def PutRun (s t : State) (a : Nat) (b : List Byte) : Prop :=
  ∀ k, (t.store k).cells = if k = .dmem then putBytes s.dmem.cells a b else (s.store k).cells

section
variable {s t : State} {a : Nat} {b : List Byte} (h : PutRun s t a b)
include h

theorem PutRun.dmem (i : Nat) :
    t.readByte .dmem i = if a ≤ i ∧ i < a + b.length then b.getD (i - a) 0 else s.readByte .dmem i := by
  rw [State.readByte, h .dmem, if_pos rfl]
  split
  case isTrue hi =>
    have hlt : i - a < b.length := by omega
    have hin := byteAt_putBytes_in s.dmem.cells a (i - a) b hlt
    rw [show a + (i - a) = i by omega] at hin
    rw [hin, List.getD_eq_getElem _ _ hlt]
  case isFalse hi => exact byteAt_putBytes_out _ _ _ _ (by omega)

theorem PutRun.other {k : Loc} (hk : k ≠ .dmem) (i : Nat) : t.readByte k i = s.readByte k i := by
  rw [State.readByte, h k, if_neg hk, State.readByte]

/-- What leaves every store does not show. -/
theorem PutRun.of_store {s' t' : State} (hs : ∀ k, s.store k = s'.store k) (ht : ∀ k, t'.store k = t.store k) : PutRun s' t' a b :=
  fun k => by
    have hd : s.dmem = s'.dmem := hs .dmem
    rw [ht, h k, hs, hd]

end

/-- No write of the host takes effect before one that came first. -/
theorem later_host (s : State) (l : Loc) (n : Nat) : s.later none .host l n = [] := by
  have h (o : OldGran) : o.unordered none .host s.wall = false := by simp [OldGran.unordered]
  have : (s.writesOf l n).reverse.zipIdx.takeWhile (fun _ => false) = [] := by
    cases (s.writesOf l n).reverse.zipIdx <;> rfl
  simp [State.later, lastOnes, h, this]

/-- A write of the host to granules one after the other leaves all its bytes. -/
theorem cells_hostGrans (p : Bool) (k : Loc) (m : List (Nat × List (Nat × Byte))) (hm : ∀ x ∈ m, ∀ y ∈ x.2, y.1 / 64 = x.1)
    (s : State) : ((m.foldl (fun t x => t.orderGran none .host none .dmem x.1 x.2 p []) s).store k).cells =
      if k = .dmem then putCells s.dmem.cells (m.flatMap Prod.snd) else (s.store k).cells := by
  induction m generalizing s with
  | nil =>
    split
    case isTrue hk =>
      subst hk
      rfl
    case isFalse => rfl
  | cons x t ih =>
    have hall : x.2.filter (fun y => s.lands none .host (.dmem, y.1)) = x.2 :=
      List.filter_eq_self.2 (fun y _ => by simp [State.lands, later_host])
    have hx (j : Loc) := orderGran_cells s none .host none .dmem j x.1 x.2 p [] (hm x List.mem_cons_self)
    rw [hall] at hx
    have hd : (s.orderGran none .host none .dmem x.1 x.2 p []).dmem.cells = putCells s.dmem.cells x.2 := hx .dmem
    rw [List.foldl_cons, ih (fun y hy => hm y (List.mem_cons_of_mem x hy)), hd, hx k]
    split
    · rw [List.flatMap_cons, putCells, putCells, putCells, List.foldl_append]
    · rfl

theorem putRun_host (s : State) (a : Nat) (b : List Byte) (p : Bool) : PutRun s (s.writeRunAs none .host none .dmem a b p) a b :=
  fun k => by
    rw [State.writeRunAs, cells_hostGrans p k _ (fun _ hx => granule_of_byGranule hx), flatMap_byGranule, putCells_addressed]

theorem mem_addressed_iff {a : Nat} {b : List Byte} {i : Nat} :
    (∃ y ∈ addressed a b, y.1 = i) ↔ a ≤ i ∧ i < a + b.length := by
  induction b generalizing a with
  | nil =>
    simp only [addressed, List.not_mem_nil, false_and, exists_false, List.length_nil, false_iff]
    omega
  | cons x t ih =>
    rw [addressed, List.exists_mem_cons_iff, ih, List.length_cons]
    omega

/-- A whole line brings its own poison mark (R362). -/
theorem poisoned_storeWrite {st : Store} {n : Nat} {b : List Byte} (hb : b.length = 64) (p : Bool) :
    (storeWrite st false n (addressed (n * 64) b) p).poison.contains n = p := by
  have hall : coversAll (addressed (n * 64) b) n = true := by
    refine List.all_eq_true.2 (fun i hi => List.any_eq_true.2 ?_)
    have hi' := List.mem_range.1 hi
    obtain ⟨y, hy, he⟩ := (mem_addressed_iff (a := n * 64) (b := b) (i := n * 64 + i)).2 (by omega)
    exact ⟨y, hy, by simpa using he⟩
  unfold storeWrite
  simp only [hall, if_true]
  cases p
  · simp [mem_setDel]
  · simp [mem_setAdd_iff]

theorem poisoned_hostLine (s : State) {n : Nat} {b : List Byte} (hb : b.length = 64) (p : Bool) :
    (s.writeRunAs none .host none .dmem (n * 64) b p).poisoned .dmem n = p := by
  have hne : addressed (n * 64) b ≠ [] := by
    cases b with
    | nil => simp at hb
    | cons x t => simp [addressed]
  have hline : ∀ y ∈ addressed (n * 64) b, y.1 / 64 = n := fun y hy => by
    have := mem_addressed hy
    omega
  rw [State.writeRunAs, byGranule_single hne hline, List.foldl_cons, List.foldl_nil, State.orderGran]
  simp only [later_host]
  rw [State.poisoned, noted_store]
  simp only [State.writeGran, store_setStore_self]
  exact poisoned_storeWrite hb p

/-! ## Accesses (R361, R362, R366, R372) -/

/-- What the host's read of a run of device memory, that touches these lines, leaves and answers. -/
structure HostReads (s t : State) (a n : Nat) (lines : List Nat) : Prop where
  same   : SameBytes s t
  bytes  : t.reply.bytes = bytesAt s.dmem.cells a n
  poison : t.reply.poison = true ↔ ∃ m ∈ lines, t.poisoned .dmem m = true

/-- What a CXL.mem answer changes is no memory. -/
theorem store_hostAnswer (t : State) (line v : Nat) (b : List Byte) (p : Bool) (k : Loc) :
    (((t.hostHas line).answer v b p).withLoad line).store k = t.store k := by
  cases k <;> rfl

theorem store_answer (t : State) (v : Nat) (b : List Byte) (p : Bool) (k : Loc) : (t.answer v b p).store k = t.store k := by
  cases k <;> rfl

theorem store_noteAer (t : State) (bit : Nat) (k : Loc) : (t.noteAer bit).store k = t.store k := by
  cases k <;> rfl

theorem sameBytes_of_store {s t : State} (h : ∀ k, t.store k = s.store k) : SameBytes s t := fun l b => by
  rw [State.readByte, h, State.readByte]

theorem hostReads_line (s : State) (dpa : Nat) :
    HostReads s (s.hostRead dpa) (dpaAddr dpa / 64 * 64) 64 [dpaAddr dpa / 64] := by
  have htouch := onlyFound_touchLine s (dpaAddr dpa / 64)
  unfold State.hostRead
  dsimp only
  generalize s.touchLine (dpaAddr dpa / 64) = t at htouch
  refine ⟨sameBytes_trans (sameBytes_onlyFound htouch) (sameBytes_of_store (fun _ => store_hostAnswer ..)),
    congrArg (bytesAt · _ _) (htouch.cells .dmem), ?_⟩
  simp only [List.mem_singleton, exists_eq_left, State.poisoned, store_hostAnswer]
  rfl

theorem hostReads_bar4 (s : State) (off n : Nat) :
    HostReads s (s.bar4 off none n false) (dmemReserved + off) n (granulesOf (dmemReserved + off) n) := by
  have htouch : OnlyFound s (s.touchAll .dmem (granulesOf (dmemReserved + off) n)) :=
    onlyFound_foldl _ (fun t m => onlyFound_touch t .dmem m) _ s
  exact ⟨sameBytes_trans (sameBytes_onlyFound htouch) (sameBytes_of_store (fun _ => store_answer ..)),
    congrArg (bytesAt · _ _) (htouch.cells .dmem), List.any_eq_true⟩

theorem hostWrite_putRun (s : State) (dpa : Nat) {b : List Byte} (hb : b.length = 64) (p : Bool) :
    PutRun s (s.hostWrite dpa b p) (dpaAddr dpa / 64 * 64) b ∧ (s.hostWrite dpa b p).poisoned .dmem (dpaAddr dpa / 64) = p := by
  have htake : (b ++ List.replicate 64 0).take 64 = b := by
    rw [List.take_append_of_le_length hb.ge, List.take_of_length_le hb.le]
  have hrun := putRun_host s (dpaAddr dpa / 64 * 64) b p
  have hpsn := poisoned_hostLine s (n := dpaAddr dpa / 64) hb p
  unfold State.hostWrite
  dsimp only
  rw [htake]
  generalize s.writeRunAs none .host none .dmem (dpaAddr dpa / 64 * 64) b p = t at hrun hpsn
  refine ⟨hrun.of_store (fun _ => rfl) (fun _ => store_hostAnswer ..), ?_⟩
  simp only [State.poisoned, store_hostAnswer]
  exact hpsn

theorem bar4_putRun (s : State) (off n : Nat) (b : List Byte) (p : Bool) :
    PutRun s (s.bar4 off (some b) n p) (dmemReserved + off) b := by
  have hrun := putRun_host s (dmemReserved + off) b p
  unfold State.bar4
  dsimp only
  split
  · exact hrun.of_store (fun _ => rfl) (fun _ => store_noteAer ..)
  · exact hrun

section
variable {s : State} {y : HostAccess} (hreach : s.hostReaches y = true)
include hreach

theorem hostAccess_performs (hempty : s.hrw.waiting = []) (hheld : s.linesHeld y.lines = false) : s.hostAccess y = s.hostPerform y := by
  simp [State.hostAccess, hreach, hempty, hheld]

/-- An access that its stack does not accept, or that comes behind one that waits, waits (R366). -/
theorem hostAccess_waits (h : s.hrw.waiting ≠ [] ∨ s.linesHeld y.lines = true) :
    s.hostAccess y = { s with hrw := { s.hrw with waiting := s.hrw.waiting ++ [y] } } := by
  have hnot : (s.hrw.waiting.isEmpty && !s.linesHeld y.lines) = false := by
    rcases h with h | h <;> simp [h]
  simp [State.hostAccess, hreach, hnot]

end

/-! ## Decoders (R373) -/

theorem hdmDecoderCommit_sets {s : State} (hup : s.hostUp = true) (n : Bool) (dpa size ways : Nat) (base : Word64) :
    Completes (.hdmDecoderCommit n dpa size ways base) s (fun t => SameBytes s t ∧ t.cores = s.cores ∧
      (if n then t.hrw.dec0 = s.hrw.dec0 else t.hrw.dec1 = s.hrw.dec1) ∧
      (s.decoderOk n dpa size ways = true → (if n then t.hrw.dec1 else t.hrw.dec0) = ⟨true, false, size, base⟩) ∧
      (s.decoderOk n dpa size ways = false → (if n then t.hrw.dec1 else t.hrw.dec0).committed = false ∧
        (if n then t.hrw.dec1 else t.hrw.dec0).err = true)) := by
  refine ⟨_, rfl, ?_⟩
  simp only [State.commitDecoder, hup, Bool.not_true, Bool.false_eq_true, if_false]
  cases n
  · exact ⟨sameBytes_netOnly ⟨rfl, rfl, rfl, rfl⟩, rfl, rfl, fun h => if_pos h, fun h => by simp [h]⟩
  · exact ⟨sameBytes_netOnly ⟨rfl, rfl, rfl, rfl⟩, rfl, rfl, fun h => if_pos h, fun h => by simp [h]⟩

/-! ## Snoops (R375) -/

section
variable {s : State} {line : Nat} (hup : s.hostUp = true) (hempty : s.hrw.waiting = []) (hheld : s.linesHeld [line] = false)
include hup hempty hheld

theorem exec_bisnpResponse {why : Snoop} (hfind : s.hrw.snoops.find? (fun y => y.1 = line) = some (line, why)) :
    exec (.bisnpResponse line) s =
      .next (({ s with hrw := { s.hrw with snoops := s.hrw.snoops.erase (line, why) } }).snooped line why) := by
  have hreach : s.hostReaches (.snoop line) = true := by simp [State.hostReaches, hup]
  change Host.Outcome.next (s.hostAccess (.snoop line)) = _
  rw [hostAccess_performs hreach hempty hheld, State.hostPerform, State.snoopAnswer, hfind]

/-- The host gives a line back. -/
theorem bisnpResponse_inv (hfind : s.hrw.snoops.find? (fun y => y.1 = line) = some (line, .inv)) :
    Completes (.bisnpResponse line) s (fun t => line ∈ t.hrw.inval ∧ t.hrw.snoops = s.hrw.snoops.erase (line, .inv) ∧
      SameBytes s t) := by
  refine ⟨_, exec_bisnpResponse hup hempty hheld hfind, ?_, rfl, sameBytes_netOnly ⟨rfl, rfl, rfl, rfl⟩⟩
  show line ∈ (if s.hrw.inval.contains line then s.hrw.inval else s.hrw.inval ++ [line])
  split
  case isTrue h => exact List.contains_iff_mem.1 h
  case isFalse => simp

/-- The record that waited for its line is written, with the time (R276). -/
theorem bisnpResponse_record {op q seq : Nat} {irq : Bool} {b : List Byte}
    (hfind : s.hrw.snoops.find? (fun y => y.1 = line) = some (line, .record op q seq irq b)) (hb : b.length = 64)
    (halive : s.sec.state ≠ .fatal) :
    CompletesChecked (.bisnpResponse line) s (fun t => PutRun s t (line * 64) (stampEnd s.tt.now b) ∧
      (t.queue q).written = (s.queue q).written + 1) := by
  let v := { s with hrw := { s.hrw with snoops := s.hrw.snoops.erase (line, Snoop.record op q seq irq b) } }
  let u := v.writeRunAs none (.dispatcher op) none .dmem (line * 64) (stampEnd s.tt.now b) false
  have hlen : (stampEnd s.tt.now b).length = 64 := by simp [stampEnd, hb]
  have hne : stampEnd s.tt.now b ≠ [] := fun e => by simp [e] at hlen
  have hw := writesLine_writeRunAs v op (line * 64) (stampEnd s.tt.now b) (by omega) hne hlen.le
  have hcells := dmem_writeRunAs v op (line * 64) (stampEnd s.tt.now b) (by omega) hne hlen.le
  have hdone := counted_recordDone u q seq irq
  have hsnooped : v.snooped line (.record op q seq irq b) = (u.recordDone q seq irq).checkLedgers := if_neg halive
  refine ⟨_, (exec_bisnpResponse hup hempty hheld hfind).trans (congrArg Host.Outcome.next hsnooped), fun k => ?_, ?_⟩
  · rw [hdone.store]
    split
    case isTrue hk =>
      subst hk
      exact hcells
    case isFalse hk =>
      rw [hw.other k hk]
      cases k <;> rfl
  · rw [hdone.written, State.queue, hw.sch]
    rfl

end

/-! ## Completions for a channel (R213, R379) -/

section
variable {s : State} {g : Gcn} {ch : Channel} {x : FExec} (hx : (s.core g.toNat).fer.chan ch.toNat = some x) (hch : x.cmd.ch = ch)
include hx hch

/-- A granule that the host sends is placed in the command, which goes on with its last. -/
theorem hostCompletion_data (hup : s.hostUp = true) {n : Nat} {rest : List Nat} (hphase : x.phase = .reading)
    (hpend : x.pend = n :: rest) (b : List Byte) (psn : Bool) :
    Completes (.hostCompletion (.ferry g ch) (.data b psn)) s (fun t => SameBytes s t ∧
      (t.core g.toNat).fer.chan ch.toNat = some { x with
        pend := rest, rx := putBytes x.rx (n * 64) (b.take 64)
        rxPoison := if psn then setAdd n x.rxPoison else x.rxPoison
        phase := if rest = [] then .ready else .reading }) := by
  let y : FExec := { x with
    pend := rest, rx := putBytes x.rx (n * 64) (b.take 64)
    rxPoison := if psn then setAdd n x.rxPoison else x.rxPoison
    phase := if rest.isEmpty then .ready else .reading }
  let u := if psn then s.noteAer aerPoisoned else s
  have hexec : s.hostCompletion (.ferry g ch) (.data b psn) = u.putChan g.toNat y := by
    have hhost : x.onHost = true := by simp [FExec.onHost, hphase, hpend]
    simp only [State.hostCompletion, hup, hx, hhost, hphase, State.hostData, hpend, Bool.not_true, Bool.false_eq_true, reduceCtorEq,
      if_false]
    rfl
  have hu : SameBytes s u := by
    by_cases hp : psn = true
    · exact sameBytes_of_store (fun k => by rw [show u = s.noteAer aerPoisoned from if_pos hp, store_noteAer])
    · exact sameBytes_of_store (fun k => by rw [show u = s from if_neg hp])
  have hput := channelHolds_putChan u g.toNat y
  have hchan : ((u.putChan g.toNat y).core g.toNat).fer.chan ch.toNat = some y := by
    rw [← hch]
    exact hput.chan
  refine ⟨_, congrArg Host.Outcome.next hexec, sameBytes_trans hu hput.bytes, hchan.trans ?_⟩
  simp only [y, List.isEmpty_iff]

variable (hcopy : x.copyOf = none)
include hcopy

/-- A completion ends the command that awaited the flush. -/
theorem hostCompletion_flushed (hup : s.hostUp = true) (hphase : x.phase = .flushing) (hpsn : x.psn = false)
    (hdone : (s.core g.toNat).fer.done = []) (hn : x.cmd.n = (s.core g.toNat).seq.fec + 1) :
    Completes (.hostCompletion (.ferry g ch) .flushed) s (fun t => (t.core g.toNat).fer.chan ch.toNat = none ∧
      (t.core g.toNat).seq = { (s.core g.toNat).seq with fec := x.cmd.n } ∧ SameBytes s t) := by
  have hexec : s.hostCompletion (.ferry g ch) .flushed = s.ferFinish g.toNat x := by
    have hhost : x.onHost = true := by simp [FExec.onHost, hphase]
    simp only [State.hostCompletion, hup, hx, hhost, hphase, Bool.not_true, Bool.false_eq_true, if_false, if_true]
  have h := channelHolds_ferFinish hcopy hpsn hdone hn
  rw [hch] at h
  exact ⟨_, congrArg Host.Outcome.next hexec, h.chan, seq_ferFinish hcopy hpsn hdone hn, h.bytes⟩

/-- From s to t the host has failed the command on channel ch of core g. -/
structure HostFails (s t : State) (g : Gcn) (ch : Channel) (x : FExec) : Prop where
  bytes : SameBytes s t
  chan  : (t.core g.toNat).fer.chan ch.toNat = x.cut.settled 8
  fault : (t.core g.toNat).seq.fault = some (keepFault (s.core g.toNat).seq.fault
    ⟨9, BitVec.ofNat 14 (0x2000 + ch.toNat * 1024 + 8), x.cmd.pc, x.cmd.ord⟩)

variable (hphase : x.phase = .flushing ∨ (x.phase = .reading ∧ x.pend ≠ []))
include hphase

omit hx hch hcopy in
theorem onHost_of_phase : x.onHost = true := by
  rcases hphase with h | ⟨h, hp⟩
  · simp [FExec.onHost, h]
  · simp [FExec.onHost, h, hp]

omit hx in
theorem hostFails_ferFail {u : State} (hu : ∀ k, u.store k = s.store k) (hc : u.core g.toNat = s.core g.toNat) :
    HostFails s (u.ferFail g.toNat x cENGINE 8) g ch x := by
  have hnot : ∀ c, x.phase ≠ .failing c := fun c hc => by
    rcases hphase with h | ⟨h, -⟩ <;> simp [h] at hc
  have h := channelHolds_ferFail (s := u) (g := g.toNat) hcopy hnot 8
  have hfault := (fault_ferFail (s := u) (g := g.toNat) hcopy hnot 8).2
  rw [hch] at h hfault
  rw [hc] at hfault
  exact ⟨sameBytes_trans (sameBytes_of_store hu) h.bytes, h.chan, hfault⟩

theorem hostCompletion_error (hup : s.hostUp = true) :
    Completes (.hostCompletion (.ferry g ch) .error) s (fun t => HostFails s t g ch x) := by
  have hexec : s.hostCompletion (.ferry g ch) .error = s.ferFail g.toNat x cENGINE 8 := by
    simp only [State.hostCompletion, hup, hx, onHost_of_phase hphase, Bool.not_true, Bool.false_eq_true, if_false]
  exact ⟨_, congrArg Host.Outcome.next hexec, hostFails_ferFail hch hcopy hphase (fun _ => rfl) rfl⟩

theorem hostCompletionTimeout_fails : Completes (.hostCompletionTimeout g ch) s (fun t => HostFails s t g ch x) := by
  have hexec : s.hostTimeout g.toNat ch = (s.noteAer aerTimeout).ferFail g.toNat x cENGINE 8 := by
    simp only [State.hostTimeout, hx, onHost_of_phase hphase, if_true]
  exact ⟨_, congrArg Host.Outcome.next hexec, hostFails_ferFail hch hcopy hphase (store_noteAer s _) rfl⟩

end

/-! ## The host fence (R236, R276) -/

/-- An operation that is done, with nothing declared and nothing deferred, that all have reported for. -/
structure BareEnd (s : State) (o : Op) : Prop where
  found    : s.opOf o.id = some o
  waiting  : o.waiting = []
  status   : o.status = some .done
  settled  : o.settled = false
  unread   : o.unread = false
  blk      : o.blk = []
  deferred : o.deferred = []
  alive    : s.sec.state ≠ .fatal
  pending  : ∀ y ∈ s.sch.xsigs, y.op ≠ o.id

theorem hrw_dropOp (s : State) (o : Op) : (s.dropOp o).hrw = s.hrw := by
  unfold State.dropOp
  dsimp only
  split
  · rfl
  · exact logRec_hrw _ _

/-- From s to t operation o has ended, and its record waits for the line at `slot`. -/
structure AwaitsLine (s t : State) (o : Op) (slot : Nat) : Prop where
  gone    : t.opOf o.id = none
  kept    : Kept s t
  snoops  : ∃ irq b, t.hrw.snoops = s.hrw.snoops ++ [(slot / 64, .record o.id o.q o.seq irq b)]

theorem quiet_snoop (s : State) (line : Nat) (data : Bool) (why : Snoop) : Quiet s (s.snoop line data why) := by
  refine ⟨⟨fun k => ?_, fun k n h => ?_, fun n => ⟨_, rfl⟩, rfl, rfl, rfl, rfl, rfl, rfl, fun _ => rfl⟩, rfl, rfl⟩
  · cases k <;> rfl
  · cases k <;> exact h

theorem sameBytes_kept {s t : State} (h : Kept s t) : SameBytes s t := fun l b => by
  rw [State.readByte, h.cells, State.readByte]

/-- In CXL mode the line of a record is asked for first (R375). -/
theorem awaitsLine_putRecord {s : State} {o : Op} (hc : (s.queue o.q).cfg.cplHost = false) (hm : s.hrw.mode = 1)
    (hheld : s.linesHeld [s.recordSlot o / 64] = false) : AwaitsLine s (s.putRecord o) o (s.recordSlot o) := by
  have hput : s.putRecord o = (s.dropOp o).snoop (s.recordSlot o / 64) false
      (.record o.id o.q o.seq (opIrq o) (s.recordOf o)) := by
    have hheld' : s.linesHeld [(dmemReserved + (s.queue o.q).cplSlot o.seq) / 64] = false := hheld
    simp only [State.putRecord, hc, hheld', hm, Bool.false_eq_true, if_false, if_true]
    rfl
  have hdrop := dropped_dropOp s o
  have hrw := hrw_dropOp s o
  rw [hput]
  refine ⟨hdrop.gone, hdrop.kept.trans (quiet_snoop _ _ _ _).toKept, opIrq o, s.recordOf o, ?_⟩
  rw [← hrw]
  rfl

theorem snoops_settledFor {s : State} {o : Op} (hstatus : o.status = some .done) (hdef : o.deferred = []) :
    (s.settledFor o).hrw.snoops = s.hrw.snoops := by
  simp only [State.settledFor, State.settle, hstatus, hdef, if_true, List.foldl_nil]
  rfl

section
variable {s : State} {o : Op} (h : BareEnd s o)
include h

/-- Its end goes to its record at once. -/
theorem endOp_bare : s.endOp o.id = (s.settledFor o).putRecord o.afterSettle := by
  have hread : s.readUnlaunched o = s := by simp [State.readUnlaunched, h.unread]
  have hlines : s.poisonLines o = [] := by simp [State.poisonLines, h.status]
  have hready : s.windowReady [] = true := by simp [State.windowReady, windowLines]
  have hheld : s.linesHeld [] = false := rfl
  have hpend : (s.settledFor o).signalsPending o.id = false := by
    rw [signalsPending_kept kept_settledFor]
    simpa [State.signalsPending] using h.pending
  have hop : (s.settledFor o).opOf o.id = some o.afterSettle :=
    (opOf_congr (quiet_usedInv _ _).ops _).trans (opOf_settle h.found)
  have hsig : signalsOf [] = [] := rfl
  have hfor : (s.settle o).usedInv [] = s.settledFor o := by rw [State.settledFor, hlines]
  simp only [State.endOp, h.found, hread, State.endRead, h.unread, h.waiting, h.status, h.alive, hlines, hheld, hready, h.settled,
    h.blk, hsig, List.drop_nil, takeSignals, hfor, hpend, hop, List.isEmpty_nil, Option.isNone_some, Bool.not_true, Bool.or_self,
    decide_false, Bool.false_eq_true, if_false]

variable (hc : (s.queue o.q).cfg.cplHost = false) (hheld : s.linesHeld [s.recordSlot o / 64] = false)
include hc hheld

omit h in
/-- At its record the operation has its place, and its queue's ring, as at its end's beginning. -/
theorem afterSettle_record : o.afterSettle.id = o.id ∧ o.afterSettle.q = o.q ∧ o.afterSettle.seq = o.seq ∧
    ((s.settledFor o).queue o.afterSettle.q).cfg.cplHost = false ∧ (s.settledFor o).recordSlot o.afterSettle = s.recordSlot o ∧
    (s.settledFor o).linesHeld [(s.settledFor o).recordSlot o.afterSettle / 64] = false ∧
    ((s.settledFor o).queue o.q).written = (s.queue o.q).written := by
  have hk := kept_settledFor (s := s) (o := o)
  obtain ⟨cmds, hq⟩ := hk.queue o.q
  obtain ⟨a, d, hset⟩ := afterSettle_eq o
  have hslot : (s.settledFor o).recordSlot o.afterSettle = s.recordSlot o := by
    rw [hset, State.recordSlot, hq, State.recordSlot]
    rfl
  refine ⟨by rw [hset], by rw [hset], by rw [hset], ?_, hslot, ?_, by rw [hq]⟩
  · rw [hset, hq]
    exact hc
  · rw [hslot]
    exact (hk.held _).trans hheld

/-- In CXL mode its record waits for its line, and the ledgers are not yet checked. -/
theorem endOpCheck_awaitsLine (hm : s.hrw.mode = 1) : AwaitsLine s (s.endOpCheck o.id o.q) o (s.recordSlot o) := by
  have hk := kept_settledFor (s := s) (o := o)
  obtain ⟨hid, hq, hseq, hhost, hslot, hline, hwritten⟩ := afterSettle_record hc hheld
  obtain ⟨hgone, hkept, irq, b, hsnoops⟩ := awaitsLine_putRecord hhost (hk.mode.trans hm) hline
  have hcheck : s.endOpCheck o.id o.q = (s.settledFor o).putRecord o.afterSettle := by
    obtain ⟨cmds, hqueue⟩ := hkept.queue o.q
    have hnot : ((s.settledFor o).putRecord o.afterSettle).ended s o.q = false := by
      rw [State.ended, hqueue, hwritten]
      simp
    rw [State.endOpCheck, endOp_bare h, State.checkEnd, hnot]
    rfl
  rw [hid] at hgone
  rw [hslot, hid, hq, hseq, snoops_settledFor h.status h.deferred] at hsnoops
  rw [hcheck]
  exact ⟨hgone, hk.trans hkept, irq, b, hsnoops⟩

/-- Elsewhere its record is written, and the ledgers are checked. -/
theorem endOpCheck_records (hm : s.hrw.mode ≠ 1) (hlen : o.bytes.length = 64) :
    ∃ t, s.endOpCheck o.id o.q = t.checkLedgers ∧ Recorded (s.settledFor o) t o.afterSettle (s.recordSlot o) ∧
      (t.queue o.q).written = (s.queue o.q).written + 1 := by
  obtain ⟨-, hq, -, hhost, hslot, hline, hwritten⟩ := afterSettle_record hc hheld
  have hbytes : o.afterSettle.bytes = o.bytes := by
    obtain ⟨a, d, hset⟩ := afterSettle_eq o
    rw [hset]
  have hk := kept_settledFor (s := s) (o := o)
  have hrec := recorded_putRecord (hbytes ▸ hlen) hhost (hk.mode ▸ hm) hline
  have hcount := hrec.written
  rw [hq, hwritten] at hcount
  refine ⟨_, ?_, hslot ▸ hrec, hcount⟩
  have hended : ((s.settledFor o).putRecord o.afterSettle).ended s o.q = true := by simp [State.ended, hcount]
  rw [State.endOpCheck, endOp_bare h, State.checkEnd, if_pos hended]

end

/-- A host fence whose read has returned. -/
def Op.returned (o : Op) : Op := { o.fix .done 0 0 with waiting := [] }

theorem returned_eq {o : Op} (h : o.status = none) :
    o.returned = { o with status := some .done, cause := 0, info := 0, waiting := [] } := by
  simp [Op.returned, Op.fix, h]

theorem id_returned (o : Op) : o.returned.id = o.id := by
  unfold Op.returned Op.fix
  split <;> rfl

section
variable {s : State} {q : QueueId} {o : Op}

/-- A host fence of queue q that awaits the host's completion, and may end with its record in the signal window at once. -/
structure FenceAwaits (s : State) (q : QueueId) (o : Op) : Prop where
  first    : s.sch.ops.find? (fun y => y.q = q.toNat && y.kind = .hostFence && !y.waiting.isEmpty) = some o
  found    : s.opOf o.id = some o
  status   : o.status = none
  settled  : o.settled = false
  unread   : o.unread = false
  blk      : o.blk = []
  deferred : o.deferred = []
  alive    : s.sec.state ≠ .fatal
  pending  : ∀ y ∈ s.sch.xsigs, y.op ≠ o.id
  ring     : (s.queue q.toNat).cfg.cplHost = false
  held     : s.linesHeld [s.recordSlot o / 64] = false

theorem queue_of_first (h : s.sch.ops.find? (fun y => y.q = q.toNat && y.kind = .hostFence && !y.waiting.isEmpty) = some o) :
    o.q = q.toNat := by
  have := List.find?_some h
  simp only [Bool.and_eq_true, decide_eq_true_eq] at this
  exact this.1.1

variable (h : FenceAwaits s q o)
include h

theorem bareEnd_returned : BareEnd (s.updOp o.id Op.returned) o.returned := by
  have hid := id_returned o
  have hfound := opOf_updOp (f := Op.returned) id_returned h.found
  rw [returned_eq h.status] at hfound hid ⊢
  exact ⟨hfound, rfl, rfl, h.settled, h.unread, h.blk, h.deferred, h.alive, h.pending⟩

/-- The read of a host fence returns: the fence that awaits it ends. -/
theorem hostCompletion_fence (hup : s.hostUp = true) (cpl : Completion) :
    s.hostCompletion (.fence q) cpl = (s.updOp o.id Op.returned).endOpCheck o.returned.id o.returned.q := by
  have hq := queue_of_first h.first
  simp only [State.hostCompletion, hup, Bool.not_true, Bool.false_eq_true, if_false, State.fenceReturned, h.first]
  rw [returned_eq h.status, ← hq]
  rfl

theorem returned_record : ((s.updOp o.id Op.returned).queue o.returned.q).cfg.cplHost = false ∧
    (s.updOp o.id Op.returned).recordSlot o.returned = s.recordSlot o := by
  rw [returned_eq h.status]
  exact ⟨(queue_of_first h.first) ▸ h.ring, rfl⟩

/-- In CXL mode the fence's record waits for its line. -/
theorem hostCompletion_fence_awaits (hup : s.hostUp = true) (cpl : Completion) (hm : s.hrw.mode = 1) :
    AwaitsLine s (s.hostCompletion (.fence q) cpl) o (s.recordSlot o) := by
  obtain ⟨hring, hslot⟩ := returned_record h
  obtain ⟨hgone, hkept, irq, b, hsnoops⟩ := endOpCheck_awaitsLine (bareEnd_returned h) hring (hslot ▸ h.held) hm
  rw [← hostCompletion_fence h hup cpl] at hgone hkept hsnoops
  rw [hslot] at hsnoops
  rw [returned_eq h.status] at hgone hsnoops
  exact ⟨hgone, (kept_updOp s o.id Op.returned).trans hkept, irq, b, hsnoops⟩

/-- Else its record is written at once. -/
theorem hostCompletion_fence_records (hup : s.hostUp = true) (cpl : Completion) (hm : s.hrw.mode ≠ 1) (hlen : o.bytes.length = 64) :
    CompletesChecked (.hostCompletion (.fence q) cpl) s (fun t => t.opOf o.id = none ∧
      (t.queue q.toNat).written = (s.queue q.toNat).written + 1 ∧
      fieldAt (bytesAt t.dmem.cells (s.recordSlot o) 64) 5 1 % 128 = 1 ∧
      fieldAt (bytesAt t.dmem.cells (s.recordSlot o) 64) 6 1 = 0 ∧
      ∀ a, a / 64 ≠ s.recordSlot o / 64 → t.readByte .dmem a = s.readByte .dmem a) := by
  obtain ⟨hring, hslot⟩ := returned_record h
  have hbytes : o.returned.bytes = o.bytes := by rw [returned_eq h.status]
  obtain ⟨t, ht, hrec, hwritten⟩ := endOpCheck_records (bareEnd_returned h) hring (hslot ▸ h.held) hm (hbytes ▸ hlen)
  rw [← hostCompletion_fence h hup cpl] at ht
  obtain ⟨a, d, hset⟩ := afterSettle_eq o.returned
  have hsays := hrec.record
  have hgone := hrec.gone
  rw [hslot] at hsays
  rw [hset, returned_eq h.status] at hsays hgone
  have hbefore := (kept_updOp s o.id Op.returned).trans (kept_settledFor (s := s.updOp o.id Op.returned) (o := o.returned))
  refine ⟨t, congrArg Host.Outcome.next ht, hgone, ?_, hsays.status, hsays.cause, fun i hi => ?_⟩
  · rw [returned_eq h.status, queue_of_first h.first] at hwritten
    exact hwritten
  · rw [hrec.line i (hslot ▸ hi)]
    exact sameBytes_kept hbefore .dmem i

end

/-! ## The statement -/

/-- Settles O45: the host's accesses, its answered snoops and its completions, each by the lemma of its kind. -/
theorem hostReachesMemory : Obligations.HostReachesMemory := by
  unfold Obligations.HostReachesMemory
  intro s a g ch x q line read wrote c left failed waits
  have hread {t : State} {at_ n : Nat} {lines : List Nat} (h : HostReads s t at_ n lines) : read t at_ n lines :=
    ⟨h.same, h.bytes, h.poison⟩
  have hwrote {t : State} {at_ : Nat} {b : List Byte} (h : PutRun s t at_ b) : wrote t at_ b :=
    ⟨h.dmem, fun _ i hk => h.other hk i⟩
  have hfailed {t : State} (h : HostFails s t g ch x) : failed t := ⟨h.bytes, h.chan, h.fault⟩
  refine ⟨fun hup hserves => ?line, fun hup hmode hempty b psn n hn hb => ?bar4, fun n dpa size ways base hup =>
    hdmDecoderCommit_sets hup n dpa size ways base, fun hup hempty hheld => ?snoop, fun hx hch hcopy => ?ferry,
    fun o cpl hup hfirst hfound hstatus hsettled hunread hblk hdef halive hpend hring => ?fence⟩
  case line =>
    have hreads : s.hostReaches (.read a) = true := by simp [State.hostReaches, hup, hserves]
    have hwrites (b : List Byte) (psn : Bool) : s.hostReaches (.write a b psn) = true := by
      simp [State.hostReaches, hup, hserves]
    refine ⟨fun hempty hheld => ⟨?_, fun b psn hb => ?_⟩, fun hw => ⟨?_, fun b psn => ?_⟩⟩
    · exact ⟨_, congrArg Host.Outcome.next (hostAccess_performs hreads hempty hheld), hread (hostReads_line s a)⟩
    · obtain ⟨hrun, hpsn⟩ := hostWrite_putRun s a hb psn
      exact ⟨_, congrArg Host.Outcome.next (hostAccess_performs (hwrites b psn) hempty hheld), hwrote hrun, hpsn⟩
    · exact ⟨_, rfl, hostAccess_waits hreads hw⟩
    · exact ⟨_, rfl, hostAccess_waits (hwrites b psn) hw⟩
  case bar4 =>
    refine ⟨fun hheld => ?_, fun hheld => ?_⟩
    · have hreach : s.hostReaches (.bar4 a none n false) = true := by
        simp [State.hostReaches, hup, hmode, bar4Len, windowLen, hn]
      exact ⟨_, congrArg Host.Outcome.next (hostAccess_performs hreach hempty hheld), hread (hostReads_bar4 s a n)⟩
    · have hreach : s.hostReaches (.bar4 a (some b) n psn) = true := by
        simp [State.hostReaches, hup, hmode, bar4Len, windowLen, hb]
      exact ⟨_, congrArg Host.Outcome.next (hostAccess_performs hreach hempty hheld), hwrote (bar4_putRun s a n b psn)⟩
  case snoop =>
    refine ⟨bisnpResponse_inv hup hempty hheld, fun op seq irq b hfind hb halive => ?_⟩
    obtain ⟨t, ht, hrun, hwritten⟩ := bisnpResponse_record hup hempty hheld hfind hb halive
    exact ⟨t, ht, hwrote hrun, hwritten⟩
  case ferry =>
    refine ⟨fun n rest b psn hup hphase hpend => hostCompletion_data hx hch hup hphase hpend b psn,
      hostCompletion_flushed hx hch hcopy, fun hphase => ⟨fun hup => ?_, ?_⟩⟩
    · obtain ⟨t, ht, h⟩ := hostCompletion_error hx hch hcopy hphase hup
      exact ⟨t, ht, hfailed h⟩
    · obtain ⟨t, ht, h⟩ := hostCompletionTimeout_fails hx hch hcopy hphase
      exact ⟨t, ht, hfailed h⟩
  case fence =>
    intro slot hheld _
    have hq := queue_of_first hfirst
    have hslot : s.recordSlot o = slot := by rw [State.recordSlot, hq]; rfl
    have h : FenceAwaits s q o :=
      ⟨hfirst, hfound, hstatus, hsettled, hunread, hblk, hdef, halive, hpend, hring, hslot ▸ hheld⟩
    refine ⟨fun hm => ?_, fun hm hlen => hslot ▸ hostCompletion_fence_records h hup cpl hm hlen⟩
    obtain ⟨hgone, hkept, irq, b, hsnoops⟩ := hostCompletion_fence_awaits h hup cpl hm
    rw [hslot, hq] at hsnoops
    exact ⟨_, rfl, hgone, sameBytes_kept hkept, irq, b, hsnoops⟩

end Sys2Proof.Machine
end

/-!
PROOFS. Resets of the host link and of the function, MSI-X unmasking, scrubs and refreshes (O47).
-/
section
namespace Sys2Proof.Machine

/-! ## Queues that stay enabled or disabled -/

/-- From s to t no queue has been enabled or disabled. -/
def SameEnabled (s t : State) : Prop := ∀ n, (t.queue n).enabled = (s.queue n).enabled

theorem SameEnabled.refl (s : State) : SameEnabled s s := fun _ => rfl

theorem SameEnabled.trans {s t u : State} (h : SameEnabled s t) (k : SameEnabled t u) : SameEnabled s u :=
  fun n => (k n).trans (h n)

theorem sameEnabled_foldl {α : Type} (f : State → α → State) (h : ∀ t x, SameEnabled t (f t x)) (l : List α) (s : State) :
    SameEnabled s (l.foldl f s) := by
  induction l generalizing s with
  | nil => exact SameEnabled.refl s
  | cons x t ih => exact (h s x).trans (ih (f s x))

theorem Kept.sameEnabled {s t : State} (h : Kept s t) : SameEnabled s t := fun n => by
  obtain ⟨cmds, hq⟩ := h.queue n
  rw [hq]

theorem sameEnabled_of_queues {s t : State} (h : t.sch.queues = s.sch.queues) : SameEnabled s t := fun n => by
  rw [State.queue, h, State.queue]

theorem NetOnly.sameEnabled {s t : State} (h : NetOnly s t) : SameEnabled s t :=
  sameEnabled_of_queues (congrArg Sch.queues h.sch)

theorem queue_setQueue_ne (s : State) {n k : Nat} (x : Queue) (h : k ≠ n) : (s.setQueue n x).queue k = s.queue k := by
  have hdef : ∀ m : List (Nat × Queue), smGet (Queue.reset k) (smPut (Queue.reset n) m n x) k = smGet (Queue.reset k) m k := by
    intro m
    unfold smPut
    split <;> simp [h]
  exact hdef _

theorem sameEnabled_setQueue (s : State) (n : Nat) (x : Queue) (h : x.enabled = (s.queue n).enabled) :
    SameEnabled s (s.setQueue n x) := fun k => by
  by_cases hk : k = n
  · rw [hk, queue_setQueue, h]
  · rw [queue_setQueue_ne s x hk]

/-! ### The end of an operation -/

theorem sch_orderGran_dispatcher (s : State) (op n : Nat) (b : List (Nat × Byte)) (p : Bool) :
    (s.orderGran none (.dispatcher op) none .dmem n b p []).sch = s.sch := by
  rw [orderGran_dispatcher]
  exact (writesLine_noted (writesLine_writeGran s n b p []) s none (.dispatcher op) none .dmem n _ []).sch

theorem sch_writeRunAs_dispatcher (s : State) (op a : Nat) (b : List Byte) (p : Bool) :
    (s.writeRunAs none (.dispatcher op) none .dmem a b p).sch = s.sch :=
  List.foldlRecOn (motive := fun t => t.sch = s.sch) (byGranule (addressed a b)) _ rfl
    (fun t ht x _ => (sch_orderGran_dispatcher t op x.1 x.2 p).trans ht)

theorem sameEnabled_recordDone (s : State) (q seq : Nat) (irq : Bool) : SameEnabled s (s.recordDone q seq irq) := by
  unfold State.recordDone
  extract_lets x r c t s1
  have h : SameEnabled s s1 := (sameEnabled_of_queues (s := s) (t := t) rfl).trans (sameEnabled_setQueue t q _ rfl)
  split
  · refine h.trans (sameEnabled_of_queues ?_)
    unfold State.raiseMsix
    split <;> rfl
  · exact h

theorem sameEnabled_putRecord (s : State) (o : Op) : SameEnabled s (s.putRecord o) := by
  have hdrop : SameEnabled s (s.dropOp o) := (dropped_dropOp s o).kept.sameEnabled
  unfold State.putRecord
  dsimp only
  split_ifs
  · exact SameEnabled.refl s
  · exact (hdrop.trans (quiet_emit _ _).toKept.sameEnabled).trans (sameEnabled_recordDone _ _ _ _)
  · exact SameEnabled.refl s
  · exact hdrop.trans (quiet_snoop _ _ _ _).toKept.sameEnabled
  · refine SameEnabled.trans (hdrop.trans (sameEnabled_of_queues ?_)) (sameEnabled_recordDone _ _ _ _)
    rw [sch_writeRunAs_dispatcher]

theorem sameEnabled_signal (s : State) (id : Nat) (g : Sig) : SameEnabled s (s.signal id g) := by
  unfold State.signal
  split
  · exact ((kept_increment s _ _).trans (kept_updOp _ _ _)).sameEnabled
  · extract_lets x
    refine SameEnabled.trans ?_ (netOnly_sendTicket _ x).sameEnabled
    exact sameEnabled_of_queues rfl

theorem sameEnabled_withdraw (s : State) (id : Nat) (g : Sig) : SameEnabled s (s.withdraw id g) :=
  ((kept_updOp s _ _).trans (quiet_logRec _ _).toKept).sameEnabled

theorem sameEnabled_takeSignals (id : Nat) (done : Bool) (l : List Sig) (s : State) :
    SameEnabled s (takeSignals id done l s) := by
  induction l generalizing s with
  | nil => exact SameEnabled.refl s
  | cons g t ih =>
    rw [takeSignals]
    split
    · exact SameEnabled.refl s
    · split
      · exact (sameEnabled_signal s id g).trans (ih _)
      · exact (sameEnabled_withdraw s id g).trans (ih _)

theorem quiet_askInv (s : State) (l : List Nat) : Quiet s (s.askInv l) := by
  refine quiet_foldl _ (fun t n => ?_) _ s
  split
  · exact Quiet.refl t
  · exact quiet_snoop t n false .inv

/-- What follows an operation's signals. -/
theorem sameEnabled_signalled {s : State} (id : Nat) (t : State) (h : SameEnabled s t) :
    SameEnabled s (if t.signalsPending id then t else match t.opOf id with
      | some o => t.putRecord o
      | none => t) := by
  split
  · exact h
  · split
    · exact h.trans (sameEnabled_putRecord _ _)
    · exact h

theorem sameEnabled_endRead (s : State) (id : Nat) : SameEnabled s (s.endRead id) := by
  unfold State.endRead
  split
  case h_1 => exact SameEnabled.refl s
  case h_2 o _ =>
    split_ifs
    · exact SameEnabled.refl s
    · exact SameEnabled.refl s
    · exact (quiet_askInv s _).toKept.sameEnabled
    · exact sameEnabled_signalled _ _ (sameEnabled_takeSignals _ _ _ _)
    · exact sameEnabled_signalled _ _ ((kept_settle.trans (quiet_usedInv _ _).toKept).sameEnabled.trans
        (sameEnabled_takeSignals _ _ _ _))

theorem sameEnabled_endOp (s : State) (id : Nat) : SameEnabled s (s.endOp id) := by
  unfold State.endOp
  split
  · exact SameEnabled.refl s
  · next o _ =>
    have hread : SameEnabled s (s.readUnlaunched o) := by
      unfold State.readUnlaunched
      dsimp only
      split
      · exact SameEnabled.refl s
      · split <;> exact ((quiet_of_finds (finds_touchBlock s _)).toKept.trans (kept_updOp _ _ _)).sameEnabled
    exact hread.trans (sameEnabled_endRead _ _)

/-! ### Commands that end unlaunched, and the ledgers' check (R275, R276, R279) -/

theorem sameEnabled_endUnlaunched (s : State) (q : Nat) (c : QCmd) (cause info : Nat) :
    SameEnabled s (s.endUnlaunched q c cause info) := by
  have hadd (o : Op) : SameEnabled s (s.addOp o) := sameEnabled_of_queues rfl
  unfold State.endUnlaunched
  dsimp only
  split
  · exact (hadd _).trans (sameEnabled_endOp _ _)
  · refine SameEnabled.trans ?_ (sameEnabled_endOp _ _)
    split
    · exact (hadd _).trans (sameEnabled_withdraw _ _ _)
    · exact hadd _

theorem sameEnabled_judgeLedgers (s : State) : SameEnabled s s.judgeLedgers := by
  have hnote : SameEnabled s s.noteLedgers := sameEnabled_of_queues rfl
  unfold State.judgeLedgers
  extract_lets t u
  have hu : SameEnabled s u := by
    dsimp only [u]
    split
    · exact hnote
    · exact hnote.trans (quiet_ledgerFlag _ _ _).toKept.sameEnabled
  split
  · exact hu
  · exact hu.trans (quiet_ledgerFlag _ _ _).toKept.sameEnabled

theorem sameEnabled_takeHead (s : State) (q : Nat) : SameEnabled s (s.takeHead q) := by
  unfold State.takeHead
  extract_lets x s1
  have h1 : SameEnabled s s1 := sameEnabled_setQueue s q { x with cmds := x.cmds.drop 1, firstAt := s.wall } rfl
  refine SameEnabled.trans ?_ (quiet_latch _).toKept.sameEnabled
  exact h1.trans (sameEnabled_of_queues rfl)

theorem sameEnabled_haltQueue (q k : Nat) (s : State) : SameEnabled s (haltQueue q k s) := by
  induction k generalizing s with
  | zero => exact SameEnabled.refl s
  | succ k ih =>
    rw [haltQueue]
    split
    · exact SameEnabled.refl s
    · next c _ _ =>
      have hend := (sameEnabled_takeHead s q).trans (sameEnabled_endUnlaunched (s.takeHead q) q c 7 s.sch.kind.toNat)
      refine SameEnabled.trans ?_ (ih _)
      split
      · exact hend.trans (sameEnabled_judgeLedgers _)
      · exact hend

theorem sameEnabled_checkLedgers (s : State) : SameEnabled s s.checkLedgers := by
  refine (sameEnabled_judgeLedgers s).trans (u := s.judgeLedgers.ledgerHalt) ?_
  unfold State.ledgerHalt
  split
  · exact sameEnabled_foldl _ (fun t q => sameEnabled_haltQueue q _ t) _ _
  · exact SameEnabled.refl _

theorem sameEnabled_checkEnd {s t : State} (h : SameEnabled s t) (u : State) (q : Nat) : SameEnabled s (t.checkEnd u q) := by
  unfold State.checkEnd
  split
  · exact h.trans (sameEnabled_checkLedgers t)
  · exact h

/-! ### Cancelling a queue (R273 to R275) -/

theorem sameEnabled_cancelRead (s : State) (q : Nat) (c : QCmd) : SameEnabled s (s.cancelRead q c) := by
  unfold State.cancelRead State.endUnlaunchedCheck
  extract_lets x first
  have hset : SameEnabled s (s.setQueue q { x with
      cmds := x.cmds.filter (fun y => y.seq ≠ c.seq), firstAt := if first then s.wall else x.firstAt }) :=
    sameEnabled_setQueue s q _ rfl
  exact sameEnabled_checkEnd ((hset.trans (quiet_latch _).toKept.sameEnabled).trans (sameEnabled_endUnlaunched _ _ _ _ _)) _ _

theorem sameEnabled_cancelReads (q : Nat) (l : List QCmd) (s : State) : SameEnabled s (cancelReads q l s).1 := by
  induction l generalizing s with
  | nil => exact SameEnabled.refl s
  | cons c t ih =>
    rw [cancelReads]
    split
    · exact (sameEnabled_cancelRead s q c).trans (ih _)
    · exact ih s

theorem netOnly_releaseHeld (s : State) (l : List RxBlk) : NetOnly s (s.releaseHeld l) := by
  refine netOnly_foldl _ (fun t r => ?_) l s
  split
  · exact (netOnly_setLink t _ _ _).trans (netOnly_creditBack _ _ _ _ _)
  · exact NetOnly.refl t

theorem sameEnabled_collStopped (s : State) (e : EngineId) : SameEnabled s (s.collStopped e) := by
  unfold State.collStopped
  split
  · split
    · unfold State.collReport
      split
      · exact SameEnabled.refl s
      · extract_lets x s1
        have h1 : SameEnabled s s1 := sameEnabled_of_queues rfl
        refine SameEnabled.trans ?_ (netOnly_pump _).sameEnabled
        refine SameEnabled.trans ?_ (kept_updOp _ _ _).sameEnabled
        exact h1.trans (netOnly_releaseHeld _ _).sameEnabled
    · exact SameEnabled.refl s
  · exact SameEnabled.refl s

theorem netOnly_sendTxn_getD (s : State) (kind : Byte) (x : Txn) : NetOnly s ((s.sendTxn kind x).getD s) := by
  cases h : s.sendTxn kind x with
  | none => exact NetOnly.refl s
  | some t => exact netOnly_sendTxn h

theorem sameEnabled_collHalt (s : State) (e : EngineId) : SameEnabled s (s.collHalt e) := by
  unfold State.collHalt
  split
  · exact SameEnabled.refl s
  · split
    · exact SameEnabled.refl s
    · extract_lets x s1
      have h1 : SameEnabled s s1 := sameEnabled_of_queues rfl
      refine SameEnabled.trans ?_ (sameEnabled_collStopped _ _)
      exact h1.trans (netOnly_foldl _ (fun t p => netOnly_sendTxn_getD t _ _) _ _).sameEnabled

theorem sameEnabled_cancelOp (s : State) (o : Op) : SameEnabled s (s.cancelOp o) := by
  unfold State.cancelOp State.stopOp
  have hcores (t : State) : SameEnabled t (t.cancelCores o) :=
    sameEnabled_of_queues (by rw [(cancelsOnly_cancelCores t o).1])
  refine ((kept_updOp s _ _).sameEnabled.trans (hcores _)).trans (sameEnabled_foldl _ (fun t e => ?_) _ _)
  split
  · exact sameEnabled_collHalt t e
  · exact SameEnabled.refl t

theorem sameEnabled_cancelQueue (s : State) (q : Nat) : SameEnabled s (s.cancelQueue q) := by
  unfold State.cancelQueue
  extract_lets x live s1 r n
  have h1 : SameEnabled s s1 :=
    sameEnabled_foldl (fun t k => t.cancelUnread q k) (fun t k => sameEnabled_setQueue t q _ rfl) _ s
  have hr : SameEnabled s r.1 := h1.trans (sameEnabled_cancelReads q _ _)
  exact (hr.trans (sameEnabled_foldl (fun t o => t.cancelOp o) sameEnabled_cancelOp _ _)).trans (sameEnabled_of_queues rfl)

/-! ## Resets of the link and of the function (R371, R383, R392) -/

/-- A function-level reset disables a queue and cancels what is in it. -/
def State.shutQueue (s : State) (q : Nat) : State := (s.setQueue q { s.queue q with enabled := false }).cancelQueue q

theorem disabled_shutQueue (s : State) (q k : Nat) :
    ((s.shutQueue q).queue k).enabled = if k = q then false else (s.queue k).enabled := by
  rw [State.shutQueue, sameEnabled_cancelQueue]
  split
  case isTrue h => rw [h, queue_setQueue]
  case isFalse h => rw [queue_setQueue_ne s _ h]

/-- Shutting queues one after the other leaves each disabled. -/
theorem disabled_shutQueues (l : List Nat) (s : State) (k : Nat) (h : k ∈ l ∨ (s.queue k).enabled = false) :
    ((l.foldl State.shutQueue s).queue k).enabled = false := by
  induction l generalizing s with
  | nil => simpa using h
  | cons q t ih =>
    refine ih _ ?_
    by_cases hk : k = q
    · exact .inr (by rw [disabled_shutQueue, if_pos hk])
    · rw [disabled_shutQueue, if_neg hk]
      exact h.imp_left (fun hm => (List.mem_cons.1 hm).resolve_left hk)

/-- What a function-level reset does once it has shut every queue. -/
theorem flr_eq {s : State} (hup : s.hostUp = true) : ∃ t : State, (∀ q, q < 64 → (t.queue q).enabled = false) ∧
    s.flr = ({ t with
      sch := { t.sch with canCount := s.sch.canCount, canResult := s.sch.canResult }, hrw := t.hrw.functionReset }).unselect := by
  have hshut : (fun (u : State) (q : Nat) => (u.setQueue q { u.queue q with enabled := false }).cancelQueue q) =
    State.shutQueue := rfl
  refine ⟨(List.range 64).foldl State.shutQueue s,
    fun q hq => disabled_shutQueues (List.range 64) s q (.inl (List.mem_range.2 hq)), ?_⟩
  simp only [State.flr, hup, Bool.not_true, Bool.false_eq_true, if_false, hshut]

theorem linkReset_stays (s : State) (cxl : Bool) (rate : LinkRate) (width : LinkWidth)
    (h : s.pins.perstLow = true ∨ s.pins.cxlRef = false) : s.linkReset cxl rate width = s := by
  rcases h with h | h <;> simp [State.linkReset, h]

/-- With no snoop in flight a reset of the link settles none. -/
theorem settleSnoops_none {s : State} (h : s.hrw.snoops = []) :
    s.settleSnoops = { s with hrw := { s.hrw with snoops := [], inval := [] } } := by
  simp [State.settleSnoops, h, snoopsOnce]

/-! ## MSI-X (R383) -/

section
variable {s : State} {v : Nat}

/-- What unmasking a vector leaves: its pending message is sent where MSI-X allows it. -/
theorem unmask_sends (hup : s.hostUp = true) :
    let sends := s.hrw.cfg.msixOn = true ∧ s.hrw.cfg.msixMask = false ∧ v ∈ s.hrw.msixPend
    ((s.unmask v).hrw.msixEntry v).masked = false ∧ SameBytes s (s.unmask v) ∧
      (∀ n, n ∈ (s.unmask v).hrw.msixPend ↔ n ∈ s.hrw.msixPend ∧ ¬ (sends ∧ n = v)) ∧
      (s.unmask v).out = s.out ++ if sends then [.msix v (s.hrw.msixEntry v).addr (s.hrw.msixEntry v).data] else [] := by
  intro sends
  let e : Msix := { s.hrw.msixEntry v with masked := false }
  let t : State := { s with hrw := { s.hrw with msix := smPut Msix.reset s.hrw.msix v e } }
  have hentry : t.hrw.msixEntry v = e := smGet_smPut_self _ _ _ _
  have hcond : (t.msixSends v && s.hrw.msixPend.contains v) = true ↔ sends := by
    simp [State.msixSends, hentry, e, t, sends, and_assoc]
  have hput : s.unmask v = if (t.msixSends v && s.hrw.msixPend.contains v) = true then
      ({ t with hrw := { t.hrw with msixPend := setDel v t.hrw.msixPend } }).sendMsix v else t := by
    simp only [State.unmask, hup, Bool.not_true, Bool.false_eq_true, if_false]
    rfl
  have hbytes (u : State) (hu : ∀ k, u.store k = s.store k) : SameBytes s u := sameBytes_of_store hu
  rw [hput]
  by_cases hs : sends
  · rw [if_pos (hcond.2 hs)]
    refine ⟨congrArg Msix.masked hentry, hbytes _ (fun k => by cases k <;> rfl), fun n => ?_, ?_⟩
    · change n ∈ setDel v s.hrw.msixPend ↔ _
      simp [mem_setDel, hs]
    · rw [if_pos hs]
      change s.out ++ [Out.msix v (t.hrw.msixEntry v).addr (t.hrw.msixEntry v).data] = _
      rw [hentry]
  · rw [if_neg (mt hcond.1 hs)]
    refine ⟨congrArg Msix.masked hentry, hbytes _ (fun k => by cases k <;> rfl), fun n => ?_, ?_⟩
    · change n ∈ s.hrw.msixPend ↔ _
      simp [hs]
    · rw [if_neg hs, List.append_nil]

end

/-! ## Scrubs (R231, R361) -/

theorem Store.errors_smDel (st : Store) (n : Nat) (p : List Nat) :
    Store.errors { st with errs := smDel n st.errs, poison := p } n = [] := smGet_smDel_self _ _ _

/-- What reading a line makes of its errors. -/
theorem touchLine_finds (s : State) (n : Nat) :
    (s.touchLine n).dmem.errors n = [] ∧
      (2 ≤ (s.dmem.errors n).length → (s.touchLine n).poisoned .dmem n = true) ∧
      ((s.dmem.errors n).length < 2 → (s.touchLine n).dmem.poison = s.dmem.poison) := by
  unfold State.touchLine
  split
  next h => simp [h]
  next x h => simp [h, Store.errors_smDel]
  next x y l h => simp [h, Store.errors_smDel, State.poisoned, State.store, mem_setAdd_iff]

/-- What reading a word makes of its errors. -/
theorem touchWord_finds (s : State) (l : Loc) (n : Nat) :
    (2 ≤ ((s.store l).errors n).length → (s.touchWord l n).poisoned l (n / 8) = true) ∧
      (((s.store l).errors n).length < 2 → ((s.touchWord l n).store l).errors n = [] ∧
        ((s.touchWord l n).store l).poison = (s.store l).poison) := by
  unfold State.touchWord
  dsimp only
  split
  next h => simp [h]
  next x h =>
    simp only [h, store_healthInc, store_setStore_self]
    simp [Store.errors]
  next x y t h =>
    simp only [h, State.poisoned, store_logRec, store_healthInc, store_setStore_self]
    simp [mem_setAdd_iff]

/-- A scrub of a line that is not held reads it, and counts towards a pass. -/
theorem scrub_dmem {s : State} {n : StackId} {k : Nat} (h : s.linesHeld [lineOfStack n (k % stackLines)] = false) :
    ∀ l, (s.scrub n k).store l = (s.touchLine (lineOfStack n (k % stackLines))).store l := by
  intro l
  simp only [State.scrub, h, Bool.false_eq_true, if_false]
  split <;> cases l <;> rfl

/-! ## The statement -/

/-- Settles O47: each reset, unmasking, scrub and refresh by the lemma of its kind. -/
theorem hostResetsAndMemoryUpkeep : Obligations.HostResetsAndMemoryUpkeep := by
  unfold Obligations.HostResetsAndMemoryUpkeep
  intro s cxl rate width v n k bank u line place
  refine ⟨fun h => congrArg Host.Outcome.next (linkReset_stays s cxl rate width h), fun hperst href hreset hstage hsnoops => ?link,
    fun hup => ?flr, fun hup => ⟨_, rfl, ?unmask⟩, fun hheld => ⟨_, rfl, ?scrub⟩, ⟨_, rfl, rfl⟩, ⟨_, rfl, rfl⟩, ?sram⟩
  case link =>
    refine ⟨_, rfl, ?_⟩
    simp only [State.linkReset, hperst, href, hreset, hstage, Bool.not_true, Bool.or_self, ne_eq, not_true_eq_false,
      decide_false, Bool.false_eq_true, if_false]
    exact settleSnoops_none hsnoops
  case flr =>
    obtain ⟨t, hshut, heq⟩ := flr_eq hup
    refine ⟨_, rfl, ?_⟩
    rw [heq]
    exact ⟨hshut, rfl, rfl, rfl, rfl, rfl, rfl⟩
  case unmask => exact unmask_sends hup
  case scrub =>
    have hstore := scrub_dmem hheld
    have hd : (s.scrub n k).dmem = (s.touchLine line).dmem := hstore .dmem
    obtain ⟨hnone, hpoisons, hkeeps⟩ := touchLine_finds s line
    refine ⟨sameBytes_trans (sameBytes_onlyFound (onlyFound_touchLine s line)) (sameBytes_of_store hstore), ?_, fun h2 => ?_, fun h1 => ?_⟩
    · rw [hd, hnone]
    · rw [State.poisoned, hstore]
      exact hpoisons h2
    · rw [hd, hkeeps h1]
  case sram =>
    have hscrub : s.sramScrub u k = s.touchWord place.1 place.2 := by cases u <;> rfl
    refine ⟨_, rfl, ?_⟩
    rw [hscrub]
    exact ⟨sameBytes_onlyFound (onlyFound_touchWord s _ _), touchWord_finds s _ _⟩

end Sys2Proof.Machine
end

/-!
PROOFS. What reading and writing memory leaves beside the memories, and what the links' sending leaves in the ports: what they
hold of what came, and every transaction of their own that has not left or has left in a frame (O37).
-/
section
namespace Sys2Proof.Machine

/-! ## Accesses to memory leave all else (R230, R231, R361, R362) -/

/-- From s to t memory has been read and written: what was found is noted and logged, and nothing else differs. -/
def MemoryOnly (s t : State) : Prop :=
  t = { s with
    cores := t.cores, quays := t.quays, dmem := t.dmem, old := t.old, hbm := t.hbm, log := t.log
    hrw := { s.hrw with events := t.hrw.events } }

theorem MemoryOnly.refl (s : State) : MemoryOnly s s := rfl

theorem MemoryOnly.trans {s t u : State} (h : MemoryOnly s t) (k : MemoryOnly t u) : MemoryOnly s u := by
  unfold MemoryOnly at h k ⊢
  rw [k, h]

theorem memoryOnly_foldl {α : Type} (f : State → α → State) (h : ∀ t x, MemoryOnly t (f t x)) (l : List α) (s : State) :
    MemoryOnly s (l.foldl f s) := by
  induction l generalizing s with
  | nil => exact MemoryOnly.refl s
  | cons x t ih => exact (h s x).trans (ih (f s x))

theorem memoryOnly_logRec (s : State) (r : LogRec) : MemoryOnly s (s.logRec r) := by
  unfold MemoryOnly
  rw [logRec_only]

theorem memoryOnly_setStore (s : State) (l : Loc) (st : Store) : MemoryOnly s (s.setStore l st) := by
  cases l <;> rfl

theorem memoryOnly_onDieEcc (s : State) (n : Nat) : MemoryOnly s (s.onDieEcc n) := by
  unfold State.onDieEcc
  split <;> rfl

theorem memoryOnly_listPage (s : State) (p : Nat) (y : PageReason) : MemoryOnly s (s.listPage p y) := by
  unfold State.listPage
  dsimp only
  split_ifs
  · exact MemoryOnly.refl s
  · exact MemoryOnly.trans (by exact rfl) (memoryOnly_logRec _ _)
  · exact memoryOnly_logRec s _

theorem memoryOnly_lineCe (s : State) (n : Nat) : MemoryOnly s (s.lineCe n) := by
  unfold State.lineCe
  extract_lets a k st row day hits s1 d s2 s3
  have h3 : MemoryOnly s s3 := rfl
  split
  · exact h3.trans (memoryOnly_listPage _ _ _)
  · exact h3

theorem memoryOnly_lineUe (s : State) (n : Nat) : MemoryOnly s (s.lineUe n) := by
  unfold State.lineUe
  extract_lets a k st s1 d h s2 r w s3
  have h3 : MemoryOnly s s3 :=
    MemoryOnly.trans (t := { s2 with hrw := { s2.hrw with events := s2.hrw.events ++ [r] } }) rfl (memoryOnly_logRec _ r)
  exact (h3.trans (u := s3.healthInc _ _) rfl).trans (memoryOnly_listPage _ _ _)

theorem memoryOnly_touchLine (s : State) (n : Nat) : MemoryOnly s (s.touchLine n) := by
  unfold State.touchLine
  split
  · exact memoryOnly_onDieEcc s n
  · exact (memoryOnly_onDieEcc s n).trans (memoryOnly_lineCe _ n)
  · exact (memoryOnly_onDieEcc s n).trans (memoryOnly_lineUe _ n)

theorem memoryOnly_touchWord (s : State) (l : Loc) (w : Nat) : MemoryOnly s (s.touchWord l w) := by
  unfold State.touchWord
  dsimp only
  split
  · exact MemoryOnly.refl s
  · exact (memoryOnly_setStore s l _).trans (by exact rfl)
  · exact ((memoryOnly_setStore s l _).trans (by exact rfl)).trans (memoryOnly_logRec _ _)

theorem memoryOnly_touch (s : State) (l : Loc) (n : Nat) : MemoryOnly s (s.touch l n) := by
  cases l with
  | dmem => exact memoryOnly_touchLine s n
  | lsp g => exact memoryOnly_foldl _ (fun t i => memoryOnly_touchWord t _ _) _ s
  | quay d => exact memoryOnly_foldl _ (fun t i => memoryOnly_touchWord t _ _) _ s

theorem memoryOnly_preWrite (s : State) (l : Loc) (n : Nat) (b : List (Nat × Byte)) : MemoryOnly s (s.preWrite l n b) := by
  have hwords (k : Loc) : MemoryOnly s ((List.range 8).foldl (fun t i =>
      if touchesWord b (8 * n + i) && !coversWord b (8 * n + i) then t.touchWord k (8 * n + i) else t) s) := by
    refine memoryOnly_foldl _ (fun t i => ?_) _ s
    split
    · exact memoryOnly_touchWord t k _
    · exact MemoryOnly.refl t
  unfold State.preWrite
  split
  · exact MemoryOnly.refl s
  · cases l with
    | dmem => exact memoryOnly_touchLine s n
    | lsp g => exact hwords _
    | quay d => exact hwords _

theorem memoryOnly_writeGran (s : State) (l : Loc) (n : Nat) (b : List (Nat × Byte)) (p : Bool) (m : List Nat) :
    MemoryOnly s (s.writeGran l n b p m) := by
  unfold State.writeGran
  cases l <;> exact (memoryOnly_preWrite s _ n b).trans rfl

theorem memoryOnly_setGran (s : State) (l : Loc) (n : Nat) (live : List (Nat × Byte)) (p : Bool) (m : List Nat) :
    MemoryOnly s (s.setGran l n live p m) := by
  unfold State.setGran
  cases l <;> rfl

theorem memoryOnly_noted {s t : State} (h : MemoryOnly s t) (u : State) (op : Option Nat) (w : Writer) (after : Option Nat) (l : Loc)
    (n : Nat) (p : GranPut) (r : List OldGran) : MemoryOnly s (t.noted u op w after l n p r) := by
  refine h.trans ?_
  rw [noted_eq]
  rfl

theorem memoryOnly_orderGran (s : State) (op : Option Nat) (w : Writer) (after : Option Nat) (l : Loc) (n : Nat)
    (b : List (Nat × Byte)) (p : Bool) (m : List Nat) : MemoryOnly s (s.orderGran op w after l n b p m) := by
  unfold State.orderGran
  dsimp only
  refine memoryOnly_noted ?_ s op w after l n _ _
  split
  · exact memoryOnly_writeGran s l n b p m
  · exact (memoryOnly_preWrite s l n b).trans (memoryOnly_setGran _ _ _ _ _ _)

theorem memoryOnly_writeRunAs (s : State) (op : Option Nat) (w : Writer) (after : Option Nat) (l : Loc) (a : Nat) (b : List Byte)
    (p : Bool) : MemoryOnly s (s.writeRunAs op w after l a b p) :=
  memoryOnly_foldl (fun t (x : Nat × List (Nat × Byte)) => t.orderGran op w after l x.1 x.2 p [])
    (fun t x => memoryOnly_orderGran t op w after l x.1 x.2 p []) _ s

/-! ## A run of bytes that a party writes (R225, R226) -/

/-- A run leaves those of its bytes that no later write covers. -/
theorem wrote_writeRunAs (s : State) (op : Option Nat) (w : Writer) (after : Option Nat) (l : Loc) (a : Nat) (b : List Byte) (p : Bool) :
    Wrote s (s.writeRunAs op w after l a b p)
      (((addressed a b).filter (fun y => s.lands op w (l, y.1))).map (fun y => ((l, y.1), y.2))) := by
  have hgrans (m : List (Nat × List (Nat × Byte))) (hm : ∀ x ∈ m, ∀ y ∈ x.2, y.1 / 64 = x.1) (t : State) (h : SameLater op w s t) :
      Wrote t (m.foldl (fun t x => t.orderGran op w after l x.1 x.2 p []) t)
        (((m.flatMap Prod.snd).filter (fun y => s.lands op w (l, y.1))).map (fun y => ((l, y.1), y.2))) := by
    induction m generalizing t with
    | nil => exact wrote_refl t
    | cons x m ih =>
      have hfirst := wrote_orderGran t op w after l x.1 x.2 p [] (hm x List.mem_cons_self)
      simp only [lands_sameLater h] at hfirst
      rw [List.flatMap_cons, List.filter_append, List.map_append]
      exact wrote_append hfirst (ih (fun y hy => hm y (List.mem_cons_of_mem x hy)) _ (h.trans (sameLater_orderGran t after l _ _ _ _)))
  rw [← flatMap_byGranule (addressed a b)]
  rw [State.writeRunAs]
  exact hgrans (byGranule (addressed a b)) (fun _ hx => granule_of_byGranule hx) s (sameLater_of_sameOrder (SameOrder.refl s))

/-- A run holds one byte at each of its addresses. -/
theorem addressed_at (a : Nat) (b : List Byte) (i : Nat) :
    (addressed a b).filter (fun y => y.1 = i) = if a ≤ i ∧ i < a + b.length then [(i, b.getD (i - a) 0)] else [] := by
  induction b generalizing a with
  | nil => rw [if_neg (by simp only [List.length_nil]; omega)]; rfl
  | cons x t ih =>
    rw [addressed, List.filter_cons, ih (a + 1), List.length_cons]
    by_cases h : a = i
    · subst h
      simp
    · rw [if_neg (by simpa using h)]
      by_cases hin : a + 1 ≤ i ∧ i < a + 1 + t.length
      · rw [if_pos hin, if_pos (by omega), show i - a = i - (a + 1) + 1 by omega, List.getD_cons_succ]
      · rw [if_neg hin, if_neg (by omega)]

/-- The bytes of a place once a run has been written there, and those of every other place. -/
theorem readByte_writeRunAs (s : State) (op : Option Nat) (w : Writer) (after : Option Nat) (l : Loc) (a : Nat) (b : List Byte) (p : Bool) :
    (∀ i, (s.writeRunAs op w after l a b p).readByte l i =
      if a ≤ i ∧ i < a + b.length ∧ s.lands op w (l, i) = true then b.getD (i - a) 0 else s.readByte l i) ∧
    ∀ k i, k ≠ l → (s.writeRunAs op w after l a b p).readByte k i = s.readByte k i := by
  have h := wrote_writeRunAs s op w after l a b p
  refine ⟨fun i => ?_, fun k i hk => ?_⟩
  · rw [h l i, List.filter_map, List.filter_filter, List.getLast?_map]
    have hone : (addressed a b).filter (fun y => ((fun x : (Loc × Nat) × Byte => decide (x.1 = (l, i))) ∘ fun y => ((l, y.1), y.2)) y &&
        s.lands op w (l, y.1)) = ((addressed a b).filter (fun y => y.1 = i)).filter (fun y => s.lands op w (l, y.1)) := by
      rw [List.filter_filter]
      refine List.filter_congr (fun y _ => ?_)
      simp [Bool.and_comm]
    rw [hone, addressed_at]
    by_cases hin : a ≤ i ∧ i < a + b.length
    · by_cases hl : s.lands op w (l, i) = true <;> simp [hin, hl]
    · rw [if_neg hin, if_neg (fun hc => hin ⟨hc.1, hc.2.1⟩)]
      rfl
  · rw [h k i, List.filter_map]
    simp [Function.comp_def, Ne.symm hk]

/-! ## Ports -/

theorem portNum_injective {p q : Port} (h : portNum p = portNum q) : p = q := by
  cases p <;> cases q <;> first | rfl | exact absurd h (by decide)

theorem port_setPort_eq (s : State) (p q : Port) (x : PortSt) : (s.setPort p x).port q = if q = p then x else s.port q := by
  split
  case isTrue h => rw [h, port_setPort]
  case isFalse h =>
    exact Vector.getElem_set_ne (portNum p).isLt (portNum q).isLt (fun e => h (portNum_injective (Fin.ext e)).symm)

/-- What a port holds of what came to it, and whether it can send, are the same. -/
structure SameInbox (x y : PortSt) : Prop where
  waiting : y.waiting = x.waiting
  early   : y.early = x.early
  rxNum   : y.rxNum = x.rxNum
  up      : y.up = x.up

theorem SameInbox.refl (x : PortSt) : SameInbox x x := ⟨rfl, rfl, rfl, rfl⟩

theorem SameInbox.trans {x y z : PortSt} (h : SameInbox x y) (k : SameInbox y z) : SameInbox x z :=
  ⟨k.waiting.trans h.waiting, k.early.trans h.early, k.rxNum.trans h.rxNum, k.up.trans h.up⟩

/-- What a collective is to do. -/
def Coll.plan (c : Coll) : Nat × Nat × List Step := (c.op, c.pos, c.steps)

/-- An engine runs the same collective, failed or not, and names the same as its last. -/
structure SameRun (g h : ColEng) : Prop where
  id  : h.id = g.id
  run : h.run.map (fun c => (c.plan, c.failed)) = g.run.map (fun c => (c.plan, c.failed))

theorem SameRun.refl (g : ColEng) : SameRun g g := ⟨rfl, rfl⟩

theorem SameRun.trans {g h k : ColEng} (a : SameRun g h) (b : SameRun h k) : SameRun g k := ⟨b.id.trans a.id, b.run.trans a.run⟩

/-- A block that stays behind is unsent again, and no more (R295). -/
theorem sameRun_takeBack (g : ColEng) (x : Txn) : SameRun g (g.takeBack x) := by
  unfold ColEng.takeBack
  split
  next c hc =>
    split
    · exact ⟨rfl, by rw [hc]; rfl⟩
    · exact SameRun.refl g
  next => exact SameRun.refl g

/-- A transaction of this device that is y but for what it gets when it leaves. -/
def OutTxn.isOf (kind : Byte) (y : Txn) (z : OutTxn) : Bool := z.kind = kind && z.x.plain = y.plain && z.until_ = none

/-- The transactions in frames sent on a port. -/
def framed (q : Port) (l : List Out) : List OutTxn :=
  l.flatMap (fun o => match o with
    | .frame p _ _ ts => if p = q then ts else []
    | _ => [])

theorem carried_eq (s : State) (q : Port) (kind : Byte) (y : Txn) :
    s.carried q kind y = (s.port q).txq.countP (OutTxn.isOf kind y) + (framed q s.out).countP (OutTxn.isOf kind y) := rfl

/-- From s to t the links have sent: nothing differs but what `PortsOnly` names, the ports hold what came to them, the engines run
what they ran, and of the device's transactions, those queued and those sent, none is lost, `more` ones on port p aside. -/
structure Carries (s t : State) (p : Port) (more : List OutTxn) : Prop where
  only    : PortsOnly s t
  inbox   : ∀ q, SameInbox (s.port q) (t.port q)
  engine  : ∀ e, SameRun (s.eng e) (t.eng e)
  carried : ∀ q kind y,
    s.carried q kind y ≤ t.carried q kind y + if q = p then more.countP (OutTxn.isOf kind y) else 0

/-- None is lost. -/
def Sends (s t : State) : Prop := ∀ p, Carries s t p []

section
variable {s t u : State}

theorem Carries.sends {p : Port} (h : Carries s t p []) : Sends s t := fun _ =>
  ⟨h.only, h.inbox, h.engine, fun q kind y => by simpa using h.carried q kind y⟩

theorem Sends.only (h : Sends s t) : PortsOnly s t := (h .xp).only

theorem Sends.inbox (h : Sends s t) (q : Port) : SameInbox (s.port q) (t.port q) := (h .xp).inbox q

theorem Sends.engine (h : Sends s t) (e : EngineId) : SameRun (s.eng e) (t.eng e) := (h .xp).engine e

theorem Sends.carried (h : Sends s t) (q : Port) (kind : Byte) (y : Txn) : s.carried q kind y ≤ t.carried q kind y := by
  simpa using (h .xp).carried q kind y

theorem Sends.refl (s : State) : Sends s s := fun _ =>
  ⟨PortsOnly.refl s, fun _ => SameInbox.refl _, fun _ => SameRun.refl _, fun q kind y => by simp⟩

theorem Carries.trans {p : Port} {a b : List OutTxn} (h : Carries s t p a) (k : Carries t u p b) : Carries s u p (a ++ b) := by
  refine ⟨h.only.trans k.only, fun q => (h.inbox q).trans (k.inbox q), fun e => (h.engine e).trans (k.engine e), fun q kind y => ?_⟩
  have h1 := h.carried q kind y
  have h2 := k.carried q kind y
  rw [List.countP_append]
  split_ifs at h1 h2 ⊢ <;> omega

theorem Sends.trans (h : Sends s t) (k : Sends t u) : Sends s u := fun p => (h p).trans (k p)

theorem sends_foldl {α : Type} (f : State → α → State) (h : ∀ t x, Sends t (f t x)) (l : List α) (s : State) :
    Sends s (l.foldl f s) := by
  induction l generalizing s with
  | nil => exact Sends.refl s
  | cons x t ih => exact (h s x).trans (ih (f s x))

end

/-! ## Sending keeps what came, and loses no transaction of this device (R326 to R333) -/

theorem carries_setPort (s : State) (p : Port) (x : PortSt) (more : List OutTxn) (hin : SameInbox (s.port p) x)
    (hq : ∀ kind y, (s.port p).txq.countP (OutTxn.isOf kind y) ≤
      x.txq.countP (OutTxn.isOf kind y) + more.countP (OutTxn.isOf kind y)) : Carries s (s.setPort p x) p more := by
  refine ⟨portsOnly_setPort s p x, fun q => ?_, fun _ => SameRun.refl _, fun q kind y => ?_⟩
  · rw [port_setPort_eq]
    split
    case isTrue h => rw [h]; exact hin
    case isFalse => exact SameInbox.refl _
  · rw [carried_eq, carried_eq, port_setPort_eq, setPort_out]
    split
    case isTrue h =>
      rw [h]
      have := hq kind y
      omega
    case isFalse => exact le_rfl

/-- A port's link changes, but not whether it carries. -/
theorem sends_setLink (s : State) (p : Port) (l : LinkId) (x : Link) (h : x.state = (s.link p l).state) : Sends s (s.setLink p l x) := by
  cases l with
  | a =>
    refine (carries_setPort s p { s.port p with la := x } [] ⟨rfl, rfl, rfl, ?_⟩ (fun _ _ => le_rfl)).sends
    have hs : x.state = (s.port p).la.state := h
    rw [PortSt.up, hs, PortSt.up]
  | b =>
    refine (carries_setPort s p { s.port p with lb := x } [] ⟨rfl, rfl, rfl, ?_⟩ (fun _ _ => le_rfl)).sends
    have hs : x.state = (s.port p).lb.state := h
    rw [PortSt.up, hs, PortSt.up]

theorem sends_creditBack (s : State) (p : Port) (l : LinkId) (c n : Nat) : Sends s (s.creditBack p l c n) := by
  unfold State.creditBack
  dsimp only
  split <;> exact sends_setLink s p l _ rfl

theorem sends_keepFlits (s : State) (p : Port) (l : LinkId) (c n : Nat) : Sends s (s.keepFlits p l c n) := sends_setLink s p l _ rfl

theorem sends_leaveBuffer (s : State) (t : OutTxn) : Sends s (s.leaveBuffer t) := by
  unfold State.leaveBuffer
  split
  · exact Sends.refl s
  · exact (sends_setLink s _ _ _ (by rfl)).trans (sends_creditBack _ _ _ _ _)

/-- A frame carries its transactions away. -/
theorem carried_frameOut (s : State) (p : Port) (l : LinkId) (ts : List OutTxn) (q : Port) (kind : Byte) (y : Txn) :
    (s.frameOut p l ts).carried q kind y ≥ s.carried q kind y + if q = p then ts.countP (OutTxn.isOf kind y) else 0 := by
  let lk := (s.link p l).sends ts s.wall
  have hset := sends_setLink s p l { lk with txSeq := lk.txSeq + 1, owe := zero5, replay := lk.replay ++ [⟨lk.txSeq, lk.owe, ts⟩] } rfl
  have hc := hset.carried q kind y
  generalize hv : s.setLink p l { lk with txSeq := lk.txSeq + 1, owe := zero5, replay := lk.replay ++ [⟨lk.txSeq, lk.owe, ts⟩] } = v at hc
  have hout : framed q (s.frameOut p l ts).out = framed q v.out ++ if q = p then ts else [] := by
    have hlast : (s.frameOut p l ts).out = v.out ++ [.frame p l (frameBytes lk.txSeq lk.rxSeq lk.nak lk.owe (lmsgOf v.freeCtr) ts) ts] := by
      rw [← hv]
      rfl
    rw [hlast, framed, List.flatMap_append]
    simp only [List.flatMap_cons, List.flatMap_nil, List.append_nil, eq_comm (a := p)]
    rfl
  have hport : (s.frameOut p l ts).port q = v.port q := by
    rw [← hv]
    rfl
  rw [carried_eq _ q, hport, hout, List.countP_append]
  rw [carried_eq v] at hc
  split_ifs
  · omega
  · rw [List.countP_nil]
    omega

theorem inbox_frameOut (s : State) (p : Port) (l : LinkId) (ts : List OutTxn) (q : Port) :
    SameInbox (s.port q) ((s.frameOut p l ts).port q) :=
  (sends_setLink s p l { (s.link p l).sends ts s.wall with
    txSeq := ((s.link p l).sends ts s.wall).txSeq + 1, owe := zero5
    replay := ((s.link p l).sends ts s.wall).replay ++ [⟨((s.link p l).sends ts s.wall).txSeq, ((s.link p l).sends ts s.wall).owe, ts⟩] } rfl).inbox q

theorem engine_frameOut (s : State) (p : Port) (l : LinkId) (ts : List OutTxn) (e : EngineId) :
    SameRun (s.eng e) ((s.frameOut p l ts).eng e) := by
  cases l <;> exact SameRun.refl _

/-- Transactions taken off the queue are not lost once a frame carries them. -/
theorem Carries.frameOut {s t : State} {p : Port} {ts : List OutTxn} (h : Carries s t p ts) (l : LinkId) : Sends s (t.frameOut p l ts) :=
  fun r => ⟨h.only.trans (portsOnly_frameOut t p l ts), fun q => (h.inbox q).trans (inbox_frameOut t p l ts q),
    fun e => (h.engine e).trans (engine_frameOut t p l ts e), fun q kind y => by
    have h1 := h.carried q kind y
    have h2 := carried_frameOut t p l ts q kind y
    omega⟩

theorem sends_frameOut (s : State) (p : Port) (l : LinkId) (ts : List OutTxn) : Sends s (s.frameOut p l ts) := by
  refine Carries.frameOut ⟨PortsOnly.refl s, fun _ => SameInbox.refl _, fun _ => SameRun.refl _, fun q kind y => ?_⟩ l
  exact Nat.le_add_right _ _

theorem mem_txq_nextTxn {s : State} {p : Port} {l : LinkId} {t : OutTxn} (h : s.nextTxn p l = some t) : t ∈ (s.port p).txq := by
  obtain ⟨c, -, hc⟩ := List.exists_of_findSome?_eq_some h
  split at hc
  · cases hc
  · next y hy =>
    split at hc
    · rw [← Option.some.inj hc]
      exact List.mem_of_find?_eq_some hy
    · cases hc

/-- A transaction that leaves a queue has left it for the frame. -/
theorem carries_takeTxn {s : State} {p : Port} {l : LinkId} {t : OutTxn} (h : t ∈ (s.port p).txq) :
    Carries s (s.takeTxn p l t).1 p [(s.takeTxn p l t).2] := by
  have hport := carries_setPort s p { s.port p with
      txq := (s.port p).txq.erase t, txNum := onClass (s.port p).txNum (kindClass t.kind) (· + 1) } [(s.takeTxn p l t).2]
    ⟨rfl, rfl, rfl, rfl⟩ (fun kind y => ?_)
  · have hlink := hport.trans (sends_setLink _ p l { ((s.setPort p { s.port p with
      txq := (s.port p).txq.erase t, txNum := onClass (s.port p).txNum (kindClass t.kind) (· + 1) }).link p l).spend [t] with
      sentAt := (((s.setPort p { s.port p with
        txq := (s.port p).txq.erase t, txNum := onClass (s.port p).txNum (kindClass t.kind) (· + 1) }).link p l).sentAt).set
          (kindClass t.kind) s.wall } rfl p)
    rw [List.append_nil] at hlink
    exact hlink
  · have hsame : OutTxn.isOf kind y (s.takeTxn p l t).2 = OutTxn.isOf kind y t := rfl
    dsimp only
    rw [(List.perm_cons_erase h).countP_eq, List.countP_cons, List.countP_cons, List.countP_nil, hsame]
    omega

theorem carries_loadFrame (p : Port) (l : LinkId) (k room : Nat) (s s0 : State) (ts : List OutTxn) (h : Carries s0 s p ts) :
    Carries s0 (State.loadFrame p l k room s ts).1 p (State.loadFrame p l k room s ts).2 := by
  induction k generalizing room s ts with
  | zero => exact h
  | succ k ih =>
    unfold State.loadFrame
    split
    · exact h
    · next t ht =>
      dsimp only
      split
      · exact ih _ _ _ (h.trans (carries_takeTxn (mem_txq_nextTxn ht)))
      · exact h

theorem sends_pumpLink (p : Port) (l : LinkId) (k : Nat) (s : State) : Sends s (State.pumpLink p l k s) := by
  induction k generalizing s with
  | zero => exact Sends.refl s
  | succ k ih =>
    unfold State.pumpLink
    split
    case isTrue => exact Sends.refl s
    split
    next ts rest _ =>
      dsimp only
      split
      · have hset := (carries_setPort s p { s.port p with resend := rest } [] ⟨rfl, rfl, rfl, rfl⟩ (fun _ _ => le_rfl)).sends
        exact ((hset.trans (sends_setLink _ p l _ (by rfl))).trans (sends_frameOut _ p l _)).trans (ih _)
      · exact Sends.refl s
    next _ =>
      have h := carries_loadFrame p l frameFlits frameFlits s s [] (Sends.refl s p)
      split
      · exact Sends.refl s
      · next _ heq =>
        rw [heq] at h
        exact ((h.frameOut l).trans (sends_foldl _ sends_leaveBuffer _ _)).trans (ih _)

/-- A block that stays behind is not one that may leave at any time. -/
theorem sends_holdBack (s : State) (p : Port) : Sends s (s.holdBack p) := by
  have hset := (carries_setPort s p { s.port p with txq := (s.port p).txq.filter (fun t => !t.late s.tt.now) } []
    ⟨rfl, rfl, rfl, rfl⟩ (fun kind y => ?_)).sends
  · refine hset.trans (sends_foldl (fun t (b : OutTxn) => { t with col := t.col.map (fun g => g.takeBack b.x) })
      (fun t b _ => ⟨rfl, fun _ => SameInbox.refl _, fun e => ?_, fun q kind y => ?_⟩) _ _)
    · have he : State.eng { t with col := t.col.map (fun g => g.takeBack b.x) } e = (t.eng e).takeBack b.x :=
        Vector.getElem_map _ _
      rw [he]
      exact sameRun_takeBack _ _
    · exact Nat.le_add_right _ _
  · dsimp only
    rw [List.countP_filter]
    refine (List.countP_mono_left (fun z _ hz => ?_)).trans (Nat.le_add_right _ _)
    have hnone : z.until_ = none := by
      simp only [OutTxn.isOf, Bool.and_eq_true, decide_eq_true_eq] at hz
      exact hz.2
    simp [hz, OutTxn.late, hnone]

theorem sends_pumpPort (s : State) (p : Port) : Sends s (s.pumpPort p) :=
  ((sends_holdBack s p).trans (sends_pumpLink p .a _ _)).trans (sends_pumpLink p .b _ _)

theorem sends_flushOwed (s : State) (p : Port) (l : LinkId) : Sends s (s.flushOwed p l) := by
  unfold State.flushOwed
  dsimp only
  split
  · exact sends_frameOut s p l []
  · exact Sends.refl s

theorem sends_pump (s : State) : Sends s s.pump :=
  (sends_foldl _ sends_pumpPort _ s).trans
    (sends_foldl _ (fun _ p => (sends_flushOwed _ p .a).trans (sends_flushOwed _ p .b)) _ _)

/-! ## Routes (R338) -/

theorem own_portsOnly {s t : State} (h : PortsOnly s t) : t.own = s.own := by
  rw [h]
  rfl

/-- What a route leads by does not turn on what has been sent. -/
theorem route_sends {s t : State} (h : Sends s t) (d : Coord) : t.route d = s.route d := by
  have hentry (e : Nat) (a b : Port) : t.takeEntry e a b = s.takeEntry e a b := by
    rw [State.takeEntry, (h.inbox a).up, (h.inbox b).up, State.takeEntry]
  have hx : t.lnk.routeX = s.lnk.routeX ∧ t.lnk.routeY = s.lnk.routeY ∧ t.lnk.routeZ = s.lnk.routeZ := by
    rw [h.only]
    exact ⟨rfl, rfl, rfl⟩
  obtain ⟨hx, hy, hz⟩ := hx
  simp only [State.route, own_portsOnly h.only, hentry, hx, hy, hz]

end Sys2Proof.Machine
end

/-!
PROOFS. Remote writes and reads: what they do in their turn, how they are answered, and when they wait (O37).
-/
section
namespace Sys2Proof.Machine

/-! ## Answering (R333, R339) -/

/-- From s to t a transaction of the given kind has been sent if a route leads to its destination; of the device's transactions
none is lost. -/
structure SendsOne (s t : State) (kind : Byte) (y : Txn) : Prop where
  net     : NetOnly s t
  inbox   : ∀ q, SameInbox (s.port q) (t.port q)
  carried : ∀ q, s.route y.dst = .out q → s.carried q kind y < t.carried q kind y

/-- A transaction queued is one more. -/
theorem carried_post (s : State) (q : Port) (kind : Byte) (y : Txn) :
    s.carried q kind y < (s.post q kind y none).carried q kind y := by
  have hone : OutTxn.isOf kind y ⟨kind, y, none, none⟩ = true := by simp [OutTxn.isOf]
  have hq : ((s.post q kind y none).port q).txq = (s.port q).txq ++ [⟨kind, y, none, none⟩] := by
    rw [State.post, State.postTill, port_setPort]
  rw [carried_eq, carried_eq, hq, List.countP_append, List.countP_cons, if_pos hone, List.countP_nil]
  change _ < _ + (framed q s.out).countP _
  omega

/-- Sending a transaction loses none of the device's. -/
theorem sends_sendTxn {s t : State} {kind : Byte} {y : Txn} (h : s.sendTxn kind y = some t) : Sends s t := by
  unfold State.sendTxn at h
  split at h
  · next p _ =>
    have hpost := carries_setPort s p { s.port p with txq := (s.port p).txq ++ [⟨kind, y, none, none⟩] } [] ⟨rfl, rfl, rfl, rfl⟩
      (fun k z => by rw [List.countP_append]; omega)
    rw [← Option.some.inj h]
    exact hpost.sends.trans (sends_pump _)
  · cases h

theorem sendsOne_sendAnswer (s : State) (kind : Byte) (y : Txn) : SendsOne s (s.sendAnswer kind y) kind y := by
  have hnone (h : ∀ q, s.route y.dst ≠ .out q) :
      SendsOne s { s with lnk := { s.lnk with unroutable := s.lnk.unroutable + 1 } } kind y :=
    ⟨⟨rfl, rfl, rfl, rfl⟩, fun _ => SameInbox.refl _, fun q hq => absurd hq (h q)⟩
  unfold State.sendAnswer
  cases hroute : s.route y.dst with
  | out p =>
    have hsend : s.sendTxn kind y = some (s.post p kind y none).pump := by rw [State.sendTxn, hroute]
    have hall := sends_sendTxn hsend
    rw [hsend]
    refine ⟨hall.only.netOnly, hall.inbox, fun q hq => ?_⟩
    obtain rfl : p = q := by simpa [hroute] using hq
    exact (carried_post s p kind y).trans_le ((sends_pump _).carried p kind y)
  | here =>
    rw [State.sendTxn, hroute]
    exact hnone (by simp [hroute])
  | unreachable =>
    rw [State.sendTxn, hroute]
    exact hnone (by simp [hroute])

/-! ## Arriving (R333) -/

section
variable {s u v : State} {p : Port} {kind : Byte} {x : Txn}

theorem route_took (c : Nat) (d : Coord) : (s.took p c).route d = s.route d := by
  have hentry (e : Nat) (a b : Port) : (s.took p c).takeEntry e a b = s.takeEntry e a b := by
    have hup (q : Port) : ((s.took p c).port q).up = (s.port q).up := by
      rw [State.took, port_setPort_eq]
      split
      case isTrue h => rw [h]; rfl
      case isFalse => rfl
    rw [State.takeEntry, hup, hup, State.takeEntry]
  have hown : (s.took p c).own = s.own := rfl
  simp only [State.route, hown, hentry]
  rfl

theorem deliver_txn (hhere : s.route x.dst = .here) : s.deliver p (.txn kind x) =
    let r := (s.took p (kindClass kind)).act p kind x
    if r.2 then r.1.keepFlits p x.link (kindClass kind) (flits kind x) else r.1.creditBack p x.link (kindClass kind) (flits kind x) := by
  have hroute : (s.took p (kindClass kind)).route x.dst = .here := (route_took _ _).trans hhere
  have htook : s.setPort p { s.port p with rxNum := onClass (s.port p).rxNum (kindClass kind) (· + 1) } =
    s.took p (kindClass kind) := rfl
  simp only [State.deliver, Early.class, Early.flits, htook, hroute, if_true]

/-- A transaction that comes in its turn acts; nothing that came early follows it, and the links send what they can. -/
theorem arrive_pumps (h : Comes s p kind x) (hdeliver : s.deliver p (.txn kind x) = v)
    (hearly : (v.port p).early = (s.port p).early) (hnum : (v.port p).rxNum = ((s.took p (kindClass kind)).port p).rxNum) :
    s.arrive p (.txn kind x) = v.pump := by
  obtain ⟨hup, hturn, -, hnext⟩ := h
  rw [State.took, port_setPort] at hnum
  dsimp only at hnum
  have hdrain : ∀ e ∈ (v.port p).early, v.isDue p e = false := fun e he => by
    have hafter := hnext e (hearly ▸ he)
    have hle := getD_onClass_le (s.port p).rxNum (kindClass kind) e.class
    exact decide_eq_false (by rw [hnum]; omega)
  have hnew : ∀ y ∈ (s.port p).early, ¬ (y.class = kindClass kind ∧ y.num = x.num) := fun y hy ⟨hclass, hy'⟩ => by
    have hafter := hnext y hy
    rw [hclass, if_pos rfl] at hafter
    omega
  rw [arrive_in_turn (e := .txn kind x) hup hturn hnew, hdeliver, drainEarly_none hdrain]

/-- What a transaction for this device does in its turn, and what the links send after it. -/
theorem arrive_done (h : Comes s p kind x) (hact : (s.took p (kindClass kind)).act p kind x = (u, false))
    (hin : SameInbox ((s.took p (kindClass kind)).port p) (u.port p)) : Sends u (s.arrive p (.txn kind x)) := by
  let v := u.creditBack p x.link (kindClass kind) (flits kind x)
  have hcredit : Sends u v := sends_creditBack u p x.link _ _
  have hdeliver : s.deliver p (.txn kind x) = v := by
    rw [deliver_txn h.here, hact]
    rfl
  have hall := hin.trans (hcredit.inbox p)
  have hearly : ((s.took p (kindClass kind)).port p).early = (s.port p).early := by rw [State.took, port_setPort]
  rw [arrive_pumps h hdeliver (hall.early.trans hearly) hall.rxNum]
  exact hcredit.trans (sends_pump v)

/-- One that stays in the buffer. -/
theorem arrive_kept (h : Comes s p kind x) (hact : (s.took p (kindClass kind)).act p kind x = (u, true))
    (hearly : (u.port p).early = (s.port p).early) (hnum : (u.port p).rxNum = ((s.took p (kindClass kind)).port p).rxNum) :
    Sends u (s.arrive p (.txn kind x)) := by
  let v := u.keepFlits p x.link (kindClass kind) (flits kind x)
  have hkeep : Sends u v := sends_keepFlits u p x.link _ _
  have hdeliver : s.deliver p (.txn kind x) = v := by
    rw [deliver_txn h.here, hact]
    rfl
  rw [arrive_pumps h hdeliver ((hkeep.inbox p).early.trans hearly) ((hkeep.inbox p).rxNum.trans hnum)]
  exact hkeep.trans (sends_pump v)

end

/-! ## Accesses (R222, R335, R336, R402) -/

/-- The kinds of a remote access: 1 a write, 2 a read. -/
def accessKind (kind : Byte) : Prop := kind = 1 ∨ kind = 2

section
variable {s : State} {p : Port} {kind : Byte} {x : Txn}

theorem act_access (hk : accessKind kind) (u : State) : u.act p kind x = u.actAccess p kind x := by
  rcases hk with rfl | rfl <;> rfl

theorem waits_took (c : Nat) : (s.took p c).remoteWaits kind x = s.remoteWaits kind x := rfl

theorem sameBytes_took (c : Nat) : SameBytes s (s.took p c) := sameBytes_of_store (fun _ => rfl)

theorem carried_took (c : Nat) (q : Port) (k : Byte) (y : Txn) : (s.took p c).carried q k y = s.carried q k y := by
  rw [carried_eq, carried_eq, State.took, port_setPort_eq]
  split
  case isTrue h => rw [h]; rfl
  case isFalse => rfl

/-- An access performed at once. -/
theorem act_performs (hk : accessKind kind) (hempty : (s.port p).waiting = []) (hw : s.remoteWaits kind x = false) :
    (s.took p (kindClass kind)).act p kind x = ((s.took p (kindClass kind)).remoteAccess kind x, false) := by
  have hport : ((s.took p (kindClass kind)).port p).waiting = [] := by
    rw [State.took, port_setPort]
    exact hempty
  rw [act_access hk, State.actAccess, hport, waits_took, hw]
  rfl

/-- From s to t memory has been read or written, perhaps noting that lines of the signal window have been used. -/
structure Performed (s t : State) : Prop where
  lnk : t.lnk = s.lnk
  out : t.out = s.out

theorem MemoryOnly.performed {s t : State} (h : MemoryOnly s t) : Performed s t := by
  rw [h]
  exact ⟨rfl, rfl⟩

theorem Performed.trans {s t u : State} (h : Performed s t) (k : Performed t u) : Performed s u :=
  ⟨k.lnk.trans h.lnk, k.out.trans h.out⟩

theorem port_performed {s u : State} (h : Performed s u) (q : Port) : u.port q = s.port q := by
  rw [State.port, h.lnk, State.port]

theorem route_performed {s u : State} (h : Performed s u) (d : Coord) : u.route d = s.route d := by
  have hown : u.own = s.own := by rw [State.own, h.lnk, State.own]
  have hentry (e : Nat) (a b : Port) : u.takeEntry e a b = s.takeEntry e a b := by
    rw [State.takeEntry, port_performed h, port_performed h, State.takeEntry]
  simp only [State.route, hown, hentry, h.lnk]

/-- An access that comes in its turn, performs `u` and sends an answer with it: the answer is sent, and no memory changes after. -/
theorem access_answers {u : State} {code : Byte} {count aux : Nat} {poison : Bool} {data : List Byte} (h : Comes s p kind x)
    (hk : accessKind kind) (hempty : (s.port p).waiting = []) (hw : s.remoteWaits kind x = false)
    (hu : Performed (s.took p (kindClass kind)) u)
    (hdo : (s.took p (kindClass kind)).remoteAccess kind x = u.sendAnswer code (u.replyTo x count aux poison data)) :
    SameBytes u (s.arrive p (.txn kind x)) ∧
      ∀ P : Txn → Prop, P (u.replyTo x count aux poison data) → Answers s (s.arrive p (.txn kind x)) x code P := by
  let y := u.replyTo x count aux poison data
  have hsent := sendsOne_sendAnswer u code y
  have hdone := arrive_done h (hdo ▸ act_performs hk hempty hw) (port_performed hu p ▸ hsent.inbox p)
  refine ⟨sameBytes_netOnly (hsent.net.trans hdone.only.netOnly), fun P hP q hq => ⟨y, rfl, rfl, rfl, ?_, hP, ?_⟩⟩
  · change u.own = s.own
    rw [State.own, hu.lnk]
    rfl
  · have hroute : u.route y.dst = .out q := (route_performed hu _).trans ((route_took _ _).trans hq)
    have hbefore : s.carried q code y = u.carried q code y := by
      rw [← carried_took (kindClass kind) q, carried_eq, carried_eq u, port_performed hu, hu.out]
    rw [hbefore]
    exact (hsent.carried q hroute).trans_le (hdone.carried q code y)

/-- A refused access is answered so, and no byte changes (R335). -/
theorem access_refused (h : Comes s p kind x) (hk : accessKind kind) (hempty : (s.port p).waiting = [])
    (hw : s.remoteWaits kind x = false)
    (hdo : (s.took p (kindClass kind)).remoteAccess kind x =
      (s.took p (kindClass kind)).sendAnswer 5 ((s.took p (kindClass kind)).replyTo x 0 0 false [])) :
    Answers s (s.arrive p (.txn kind x)) x 5 (fun _ => True) ∧ SameBytes s (s.arrive p (.txn kind x)) := by
  obtain ⟨hbytes, hanswers⟩ := access_answers h hk hempty hw ⟨rfl, rfl⟩ hdo
  exact ⟨hanswers _ trivial, sameBytes_trans (sameBytes_took _) hbytes⟩

/-- An access that must wait, or comes behind one that waits (R366, R402, R454). -/
theorem access_waits (h : Comes s p kind x) (hk : accessKind kind)
    (hw : (s.port p).waiting ≠ [] ∨ s.remoteWaits kind x = true) :
    SameBytes s (s.arrive p (.txn kind x)) ∧ ((s.arrive p (.txn kind x)).port p).waiting = (s.port p).waiting ++ [(kind, x)] := by
  let t := s.took p (kindClass kind)
  let u := t.setPort p { t.port p with waiting := (t.port p).waiting ++ [(kind, x)] }
  have hport : t.port p = { s.port p with rxNum := onClass (s.port p).rxNum (kindClass kind) (· + 1) } := port_setPort s p _
  have hact : t.act p kind x = (u, true) := by
    have hnot : ((t.port p).waiting.isEmpty && !t.remoteWaits kind x) = false := by
      rw [hport, waits_took]
      rcases hw with hw | hw <;> simp [hw]
    rw [act_access hk, State.actAccess, if_neg (by simp [hnot])]
  have hu : u.port p = { t.port p with waiting := (t.port p).waiting ++ [(kind, x)] } := port_setPort t p _
  have hsends := arrive_kept h hact (by rw [hu, hport]) (by rw [hu])
  refine ⟨sameBytes_trans (t := u) (sameBytes_of_store (fun _ => rfl)) (sameBytes_netOnly hsends.only.netOnly), ?_⟩
  rw [(hsends.inbox p).waiting, hu, hport]

/-! ### Writes -/

/-- A write that is not refused and whose lines are invalidated places its bytes (R222, R336). -/
theorem remoteWrite_places (h : Comes s p 1 x) (hempty : (s.port p).waiting = []) (hw : s.remoteWaits 1 x = false)
    (href : s.remoteRefuses x x.data.length = false) (hready : s.windowReady (dmemLines (remoteGrans x x.data.length)) = true) :
    Answers s (s.arrive p (.txn 1 x)) x 3 (fun _ => True) ∧
      (∀ b, (s.arrive p (.txn 1 x)).readByte (remotePlace x).1 b =
        if (remotePlace x).2 ≤ b ∧ b < (remotePlace x).2 + x.data.length ∧
          s.lands none (.device x.src) ((remotePlace x).1, b) = true
        then x.data.getD (b - (remotePlace x).2) 0 else s.readByte (remotePlace x).1 b) ∧
      ∀ k b, k ≠ (remotePlace x).1 → (s.arrive p (.txn 1 x)).readByte k b = s.readByte k b := by
  let t := s.took p 4
  let w := t.writeRunAs none (.device x.src) none (remotePlace x).1 (remotePlace x).2 x.data x.poison
  let u := w.usedInv (dmemLines (remoteGrans x x.data.length))
  have hu : Performed t u := (memoryOnly_writeRunAs t _ _ _ _ _ _ _).performed.trans ⟨rfl, rfl⟩
  have hdo : t.remoteAccess 1 x = u.sendAnswer 3 (u.replyTo x 0 0 false []) := by
    have href' : t.remoteRefuses x x.data.length = false := href
    have hready' : t.windowReady (dmemLines (remoteGrans x x.data.length)) = true := hready
    simp only [State.remoteAccess, if_true, State.remoteWrite, href', hready', Bool.false_eq_true, if_false]
    rfl
  obtain ⟨hbytes, hanswers⟩ := access_answers h (.inl rfl) hempty hw hu hdo
  have hused : SameBytes w u := sameBytes_of_store (fun _ => rfl)
  have hafter : SameBytes w (s.arrive p (.txn 1 x)) := sameBytes_trans hused hbytes
  have hbefore : SameBytes s t := sameBytes_took 4
  obtain ⟨hin, hout⟩ := readByte_writeRunAs t none (.device x.src) none (remotePlace x).1 (remotePlace x).2 x.data x.poison
  refine ⟨hanswers _ trivial, fun b => ?_, fun k b hk => ?_⟩
  · have hlands : t.lands none (.device x.src) ((remotePlace x).1, b) = s.lands none (.device x.src) ((remotePlace x).1, b) := rfl
    rw [hafter, hin, hbefore, hlands]
  · rw [hafter, hout k b hk, hbefore]

/-! ### Reads -/

/-- The granules of an access are all those that its bytes lie in. -/
theorem mem_remoteGrans {len i : Nat} (hi : i < len) : ((remotePlace x).1, ((remotePlace x).2 + i) / 64) ∈ remoteGrans x len := by
  refine List.mem_map.2 ⟨((remotePlace x).2 + i) / 64, ?_, rfl⟩
  rw [granulesOf, if_neg (by omega)]
  exact List.mem_map.2 ⟨((remotePlace x).2 + i) / 64 - (remotePlace x).2 / 64, List.mem_range.2 (by omega), by omega⟩

/-- A read that is not refused is answered with its granules' bytes, when none of them is poisoned (R336, R404). -/
theorem remoteRead_answers (h : Comes s p 2 x) (hempty : (s.port p).waiting = []) (hw : s.remoteWaits 2 x = false)
    (href : s.remoteRefuses x (64 * x.count.toNat) = false) :
    SameBytes s (s.arrive p (.txn 2 x)) ∧ Answers s (s.arrive p (.txn 2 x)) x 4 (fun y => y.poison = false →
      y.data = bytesAt (s.store (remotePlace x).1).cells (remotePlace x).2 (64 * x.count.toNat)) := by
  let t := s.took p 4
  let len := 64 * x.count.toNat
  let gs := remoteGrans x len
  let u := gs.foldl (fun v g => v.touch g.1 g.2) t
  let bad := gs.any (fun g => u.poisoned g.1 g.2 || u.failedMark g.1 g.2)
  have hu : Performed t u := (memoryOnly_foldl _ (fun v (g : Loc × Nat) => memoryOnly_touch v g.1 g.2) gs t).performed
  have hfound : OnlyFound t u := onlyFound_foldl _ (fun v (g : Loc × Nat) => onlyFound_touch v g.1 g.2) gs t
  have hdo : t.remoteAccess 2 x = u.sendAnswer 4 (u.replyTo x x.count.toNat 0 bad
      ((List.range len).map (fun i => u.outByte (remotePlace x).1 ((remotePlace x).2 + i)))) := by
    have href' : t.remoteRefuses x len = false := href
    simp only [State.remoteAccess, State.remoteRead, href', len, Bool.false_eq_true, if_false]
    rfl
  obtain ⟨hbytes, hanswers⟩ := access_answers h (.inr rfl) hempty hw hu hdo
  have hread : SameBytes s u := sameBytes_trans (sameBytes_took 4) (sameBytes_onlyFound hfound)
  refine ⟨sameBytes_trans hread hbytes, hanswers _ (fun hgood => ?_)⟩
  have hclean : bad = false := hgood
  change (List.range len).map _ = _
  rw [bytesAt_eq_map_range]
  refine List.map_congr_left (fun i hi => ?_)
  have hgran : (u.poisoned (remotePlace x).1 (((remotePlace x).2 + i) / 64) ||
      u.failedMark (remotePlace x).1 (((remotePlace x).2 + i) / 64)) = false :=
    Bool.eq_false_iff.2 (List.any_eq_false.1 hclean _ (mem_remoteGrans (List.mem_range.1 hi)))
  rw [State.outByte, hgran, Bool.and_false]
  exact hread _ _

/-! ### Early and late ones (R333) -/

/-- What came before is discarded: its credits go back. -/
theorem arrive_again {e : Early} (hup : (s.port p).up = true)
    (h : e.num < (s.port p).rxNum.getD e.class 0 ∨ ∃ y ∈ (s.port p).early, y.class = e.class ∧ y.num = e.num) :
    Sends s (s.arrive p e) := by
  have hcond : (decide (e.num < (s.port p).rxNum.getD e.class 0) ||
      (s.port p).early.any (fun y => y.class = e.class && y.num = e.num)) = true := by
    rw [Bool.or_eq_true, decide_eq_true_eq, List.any_eq_true]
    exact h.imp_right (fun ⟨y, hy, hc⟩ => ⟨y, hy, by simpa using hc⟩)
  have harrive : s.arrive p e = (s.creditBack p e.link e.class e.flits).pump := by
    simp only [State.arrive, hup, Bool.not_true, Bool.false_eq_true, if_false, hcond, if_true]
  rw [harrive]
  exact (sends_creditBack s p _ _ _).trans (sends_pump _)

/-- What comes before its turn waits in the link's buffer. -/
theorem arrive_early {e : Early} (hup : (s.port p).up = true) (hearly : (s.port p).rxNum.getD e.class 0 < e.num)
    (hnew : ¬ ∃ y ∈ (s.port p).early, y.class = e.class ∧ y.num = e.num) :
    s.arrive p e = (s.setPort p { s.port p with early := (s.port p).early ++ [e] }).keepFlits p e.link e.class e.flits := by
  have hcond : (decide (e.num < (s.port p).rxNum.getD e.class 0) ||
      (s.port p).early.any (fun y => y.class = e.class && y.num = e.num)) = false := by
    rw [Bool.or_eq_false_iff, decide_eq_false_iff_not, List.any_eq_false]
    exact ⟨by omega, fun y hy hc => hnew ⟨y, hy, by simpa using hc⟩⟩
  have hne : ¬ e.num = (s.port p).rxNum.getD e.class 0 := by omega
  simp only [State.arrive, hup, Bool.not_true, Bool.false_eq_true, if_false, hcond, if_neg hne]

end

/-! ## The statement -/

/-- The row of a remote access brings its transaction to the port. -/
theorem exec_access {kind : Byte} {d : Instr} {p : Port} {x : Txn}
    (hd : kind = 1 ∧ d = Instr.remoteWrite p x ∨ kind = 2 ∧ d = Instr.remoteRead p x) (s : State) :
    accessKind kind ∧ exec d s = .next (s.arrive p (.txn kind x)) := by
  rcases hd with ⟨rfl, rfl⟩ | ⟨rfl, rfl⟩
  · exact ⟨.inl rfl, rfl⟩
  · exact ⟨.inr rfl, rfl⟩

/-- Settles O37: each access by what it finds when it comes, in its turn, before it or after it. -/
theorem remoteAccessesAreAnswered : Obligations.RemoteAccessesAreAnswered := by
  unfold Obligations.RemoteAccessesAreAnswered
  intro s p x l a
  refine ⟨fun h hempty hw => ⟨fun href hready => ⟨_, rfl, remoteWrite_places h hempty hw href hready⟩, fun href => ?write⟩,
    fun h hempty hw => ⟨fun href => ⟨_, rfl, remoteRead_answers h hempty hw href⟩, fun href => ?read⟩,
    fun k d hd h hw => ?waits, fun k d hd hup => ?order⟩
  case write =>
    refine ⟨_, rfl, access_refused h (.inl rfl) hempty hw ?_⟩
    have href' : (s.took p 4).remoteRefuses x x.data.length = true := href
    change (s.took p 4).remoteAccess 1 x = (s.took p 4).sendAnswer 5 ((s.took p 4).replyTo x 0 0 false [])
    simp only [State.remoteAccess, State.remoteWrite, href', if_true]
  case read =>
    refine ⟨_, rfl, access_refused h (.inr rfl) hempty hw ?_⟩
    have href' : (s.took p 4).remoteRefuses x (64 * x.count.toNat) = true := href
    change (s.took p 4).remoteAccess 2 x = (s.took p 4).sendAnswer 5 ((s.took p 4).replyTo x 0 0 false [])
    simp only [State.remoteAccess, State.remoteRead, href', if_true]
    rfl
  case waits =>
    obtain ⟨hk, hexec⟩ := exec_access hd s
    exact ⟨_, hexec, access_waits h hk hw⟩
  case order =>
    obtain ⟨hk, hexec⟩ := exec_access hd s
    refine ⟨fun h => ?_, fun hearly hnew => ⟨_, hexec, arrive_early (e := .txn k x) hup hearly hnew⟩⟩
    have hsends := arrive_again (e := .txn k x) hup h
    obtain ⟨hwaiting, hearly, hnum, -⟩ := hsends.inbox p
    have hnet := hsends.only.netOnly
    exact ⟨_, hexec, sameBytes_netOnly hnet, hnet.sch, hnet.cores, hwaiting, hearly, hnum⟩

end Sys2Proof.Machine
end

/-!
PROOFS. A command's turn (R255, R258 to R260): what the dispatcher's reading, its queues and its new operation leave of the state,
the ledgers' check, and a completion record written at once (O26).
-/
section
namespace Sys2Proof
open Machine

/-! ## What the dispatcher looks at (R264, R361) -/

/-- From s to t the dispatcher has read lines of device memory and noted what it found, of its queues perhaps what their commands
await; nothing else differs. -/
def LooksOnly (s t : State) : Prop :=
  t = { s with
    dmem := t.dmem, hbm := t.hbm, log := t.log, hrw := { s.hrw with events := t.hrw.events }
    sch := { s.sch with queues := t.sch.queues, turn := t.sch.turn } }

theorem LooksOnly.trans {s t u : State} (h : LooksOnly s t) (k : LooksOnly t u) : LooksOnly s u := by
  unfold LooksOnly at h k ⊢
  rw [k, h]

/-- Besides, no byte differs, no line is held that was not, and of each queue only what it holds unlaunched may differ. -/
structure Looks (s t : State) : Prop where
  only    : LooksOnly s t
  cells   : t.dmem.cells = s.dmem.cells
  retrain : ∀ n, (t.stack n).retrain = (s.stack n).retrain
  queue   : ∀ n, ∃ cmds firstAt, t.queue n = { s.queue n with cmds := cmds, firstAt := firstAt }
  records : s.recordLedger = true → t.recordLedger = true

theorem Looks.refl (s : State) : Looks s s := ⟨rfl, rfl, fun _ => rfl, fun _ => ⟨_, _, rfl⟩, id⟩

theorem Looks.trans {s t u : State} (h : Looks s t) (k : Looks t u) : Looks s u where
  only := h.only.trans k.only
  cells := k.cells.trans h.cells
  retrain n := (k.retrain n).trans (h.retrain n)
  queue n := by
    obtain ⟨a, b, ht⟩ := h.queue n
    obtain ⟨c, d, hu⟩ := k.queue n
    exact ⟨c, d, by rw [hu, ht]⟩
  records hr := k.records (h.records hr)

theorem looks_foldl {α : Type} (f : State → α → State) (h : ∀ t x, Looks t (f t x)) (l : List α) (s : State) :
    Looks s (l.foldl f s) := by
  induction l generalizing s with
  | nil => exact Looks.refl s
  | cons x t ih => exact (h s x).trans (ih (f s x))

theorem looks_touchLine (s : State) (n : Nat) : Looks s (s.touchLine n) := by
  have hmem := memoryOnly_touchLine s n
  have hfinds := finds_touchLine s n
  have hold := (sameOrder_touchLine s n).1
  generalize s.touchLine n = t at hmem hfinds hold
  refine ⟨?_, hfinds.cells, hfinds.retrain, fun k => ⟨(s.queue k).cmds, (s.queue k).firstAt, ?_⟩, fun h => ?_⟩
  · unfold MemoryOnly at hmem
    rw [hfinds.cores, hfinds.quays, hold] at hmem
    unfold LooksOnly
    rw [hfinds.sch]
    exact hmem
  · rw [State.queue, hfinds.sch]
    rfl
  · rw [State.recordLedger, hfinds.sch]
    exact h

theorem looks_touchAll (s : State) (l : List Nat) : Looks s (s.touchAll .dmem l) := looks_foldl _ looks_touchLine l s

theorem looks_touchBlock (s : State) (c : QCmd) : Looks s (s.touchBlock c) := looks_touchAll s _

section
variable {s t : State} (h : Looks s t)
include h

theorem Looks.held (l : List Nat) : t.linesHeld l = s.linesHeld l := by
  refine linesHeld_of_eq ?_ h.retrain l
  rw [h.only]

theorem Looks.sameBytes : SameBytes s t := by
  have honly := h.only
  unfold LooksOnly at honly
  intro l b
  cases l with
  | dmem => exact congrArg (byteAt · b) h.cells
  | lsp g =>
    rw [honly]
    rfl
  | quay d =>
    rw [honly]
    rfl

/-- The dispatcher reads a range as before. -/
theorem Looks.dispBytes (ord k a n : Nat) : t.dispBytes ord k a n = s.dispBytes ord k a n := by
  have hold : t.old = s.old := by rw [h.only]
  simp only [State.dispBytes, State.pick, State.copies, State.writesOf, hold, h.cells]

theorem Looks.block (c : QCmd) : t.block c = s.block c := h.dispBytes ..

theorem Looks.hrw : t.hrw.mode = s.hrw.mode ∧ t.hrw.apSize = s.hrw.apSize ∧ t.hrw.apBase = s.hrw.apBase ∧
    t.hrw.snoops = s.hrw.snoops := by
  rw [h.only]
  exact ⟨rfl, rfl, rfl, rfl⟩

theorem Looks.sch : t.sch = { s.sch with queues := t.sch.queues, turn := t.sch.turn } := by
  have honly := h.only
  unfold LooksOnly at honly
  exact congrArg State.sch honly

end

/-! ## Queues -/

/-- The sequence numbers of the commands that a queue holds unlaunched. -/
def seqsOf (s : State) (n : Nat) : List Nat := (s.queue n).cmds.map (·.seq)

/-- From s to t no queue has lost or got a command. -/
def SameSeqs (s t : State) : Prop := ∀ n, seqsOf t n = seqsOf s n

theorem SameSeqs.trans {s t u : State} (h : SameSeqs s t) (k : SameSeqs t u) : SameSeqs s u := fun n => (k n).trans (h n)

theorem sameSeqs_of_queues {s t : State} (h : t.sch.queues = s.sch.queues) : SameSeqs s t := fun n => by
  rw [seqsOf, State.queue, h, seqsOf, State.queue]

theorem sameSeqs_setQueue (s : State) (n : Nat) (x : Queue) (h : x.cmds = (s.queue n).cmds) : SameSeqs s (s.setQueue n x) := fun k => by
  by_cases hk : k = n
  · rw [hk, seqsOf, queue_setQueue, h, seqsOf]
  · rw [seqsOf, queue_setQueue_ne s x hk, seqsOf]

theorem queues_touchBlocks (s : State) (l : List QCmd) : (l.foldl State.touchBlock s).sch = s.sch :=
  (finds_foldl State.touchBlock finds_touchBlock l s).sch

/-- What a look at the first commands' waits makes of one queue. -/
def latchQueue (s t : State) (x : Nat × Queue) : Nat × Queue :=
  match x.2.cmds with
  | [] => x
  | c :: l => if s.linesHeld c.blkLines then x else (x.1, { x.2 with cmds := t.latchCmd c :: l })

/-- A look at a queue changes only what it notes of the first command. -/
theorem latchQueue_eq (s t : State) (x : Nat × Queue) : ∃ cmds, latchQueue s t x = (x.1, { x.2 with cmds := cmds }) ∧
    cmds.map (·.seq) = x.2.cmds.map (·.seq) := by
  have hseq (c : QCmd) : (t.latchCmd c).seq = c.seq := by
    unfold State.latchCmd
    dsimp only
    split_ifs <;> rfl
  unfold latchQueue
  split
  next h => exact ⟨x.2.cmds, rfl, rfl⟩
  next c l h =>
    split
    · exact ⟨x.2.cmds, rfl, rfl⟩
    · exact ⟨_, rfl, by rw [h, List.map_cons, List.map_cons, hseq]⟩

theorem latch_eq (s : State) : s.latch = { s.heads.foldl State.touchBlock s with
    sch := { s.sch with queues := s.sch.queues.map (latchQueue s (s.heads.foldl State.touchBlock s)) } } := by
  have hsch := queues_touchBlocks s s.heads
  unfold State.latch
  simp only [hsch]
  rfl

theorem queue_latch (s : State) (n : Nat) : ∃ cmds, s.latch.queue n = { s.queue n with cmds := cmds } ∧
    cmds.map (·.seq) = (s.queue n).cmds.map (·.seq) := by
  rw [latch_eq]
  refine smGet_map_snd _ (fun x => ?_) _ _ n
    (fun x y : Queue => ∃ cmds, y = { x with cmds := cmds } ∧ cmds.map (·.seq) = x.cmds.map (·.seq)) ⟨_, rfl, rfl⟩ (fun x => ?_)
  · obtain ⟨cmds, h, -⟩ := latchQueue_eq s (s.heads.foldl State.touchBlock s) x
    rw [h]
  · obtain ⟨cmds, h, hseq⟩ := latchQueue_eq s (s.heads.foldl State.touchBlock s) x
    exact ⟨cmds, by rw [h], hseq⟩

theorem sameSeqs_latch (s : State) : SameSeqs s s.latch := fun n => by
  obtain ⟨cmds, h, hseq⟩ := queue_latch s n
  rw [seqsOf, h]
  exact hseq

theorem looks_latch (s : State) : Looks s s.latch := by
  have ht := looks_foldl State.touchBlock looks_touchBlock s.heads s
  refine ⟨?_, ?_, ?_, fun n => ?_, fun h => ?_⟩
  · refine ht.only.trans ?_
    rw [latch_eq]
    generalize s.sch.queues.map _ = l
    rw [← queues_touchBlocks s s.heads]
    rfl
  · rw [latch_eq]; exact ht.cells
  · rw [latch_eq]; exact ht.retrain
  · obtain ⟨cmds, hq, -⟩ := queue_latch s n
    exact ⟨cmds, (s.queue n).firstAt, hq⟩
  · rw [State.recordLedger, latch_eq, List.all_map, List.all_eq_true]
    intro x hx
    obtain ⟨cmds, hl, -⟩ := latchQueue_eq s (s.heads.foldl State.touchBlock s) x
    have hx' := List.all_eq_true.1 h x hx
    rw [Function.comp, hl]
    exact hx'

theorem balanced_queue {s : State} (h : s.recordLedger = true) (n : Nat) : (s.queue n).balanced = true := by
  have hall := List.all_eq_true.1 h
  unfold State.queue
  generalize s.sch.queues = m at hall
  induction m with
  | nil => simp [smGet, Queue.balanced, Queue.reset]
  | cons x t ih =>
    rw [smGet]
    split
    · exact hall x List.mem_cons_self
    · exact ih (fun y hy => hall y (List.mem_cons_of_mem x hy))

/-- A queue whose counts stay as they are leaves the records' balance. -/
theorem records_setQueue {s : State} {n : Nat} {x : Queue} (h : s.recordLedger = true) (hx : x.balanced = (s.queue n).balanced) :
    (s.setQueue n x).recordLedger = true := by
  refine List.all_eq_true.2 (fun y hy => ?_)
  have hdel (hy : y ∈ smDel n s.sch.queues) : y.2.balanced = true := List.all_eq_true.1 h y (key_smDel hy).1
  have hput : y ∈ smPut (Queue.reset n) s.sch.queues n x := hy
  unfold smPut at hput
  split at hput
  · exact hdel hput
  · rcases mem_smIns hput with rfl | hmem
    · exact hx.trans (balanced_queue h n)
    · exact hdel hmem

/-- The first command leaves its queue, and the others' waits are looked at. -/
theorem looks_takeHead (s : State) (q : Nat) : Looks s (s.takeHead q) := by
  unfold State.takeHead
  extract_lets x s1
  refine Looks.trans ?_ (looks_latch _)
  refine ⟨by exact rfl, rfl, fun _ => rfl, fun n => ?_, fun h => ?_⟩
  · change ∃ cmds firstAt, s1.queue n = _
    by_cases hn : n = q
    · subst hn
      exact ⟨_, _, queue_setQueue s n _⟩
    · exact ⟨(s.queue n).cmds, (s.queue n).firstAt, queue_setQueue_ne s _ hn⟩
  · exact records_setQueue h rfl

theorem seqs_takeHead (s : State) (q : Nat) : seqsOf (s.takeHead q) q = ((s.queue q).cmds.drop 1).map (·.seq) := by
  unfold State.takeHead
  extract_lets x s1
  rw [sameSeqs_latch]
  exact congrArg (fun y : Queue => y.cmds.map (·.seq)) (queue_setQueue s q _)

/-! ## A turn (R255, R258) -/

section
variable {s : State} {q : QueueId} {c : QCmd} {rest : List QCmd} {op : Nat}

/-- The state in which a command is launched: its block has been read, and it has left its queue. -/
def taken (s : State) (q : QueueId) (c : QCmd) : State := (s.touchBlock c).takeHead q.toNat

theorem looks_taken : Looks s (taken s q c) := (looks_touchBlock s c).trans (looks_takeHead _ _)

theorem seqs_taken (h : Turn s q c rest op) : seqsOf (taken s q c) q.toNat = rest.map (·.seq) := by
  have hq : (s.touchBlock c).queue q.toNat = s.queue q.toNat := by
    rw [State.queue, (finds_touchBlock s c).sch, State.queue]
  rw [taken, seqs_takeHead, hq, h.first]
  rfl

/-- The bytes of the operation block of a command that has one. -/
def blkOf (s : State) (c : QCmd) : List Byte := if c.hasBlock then s.block c else []

/-- A valid command that need not wait is launched at its turn. -/
theorem turn_launches (h : Turn s q c rest op) {ops : Nat → Bool} {hold : QCmd → List Byte → Bool}
    (f : State → QCmd → List Byte → State) (hops : ops op = true) (hhold : hold c (blkOf s c) = false) :
    s.turn q.toNat ops hold f = f (taken s q c) c (blkOf s c) := by
  have hblk : (if c.hasBlock then (s.touchBlock c).block c else []) = blkOf s c := by
    rw [(looks_touchBlock s c).block, blkOf]
  have hbad : (if c.hasBlock then blockBad (s.touchBlock c).hrw.apSize c.opcode (blkOf s c) else none) = none := by
    split
    case isTrue hb => rw [blkOf, if_pos hb, (looks_touchBlock s c).hrw.2.1, h.opcode, (h.block hb).2]
    case isFalse => rfl
  simp only [State.turn, h.launching, h.chosen, Bool.not_true, ne_eq, not_true_eq_false, decide_false, Bool.or_self,
    Bool.false_eq_true, if_false, h.first, h.opcode, hops, h.valid]
  rw [h.opcode] at hbad
  simp only [hblk, hbad, hhold, Bool.false_eq_true, if_false]
  rfl

/-- The dispatcher launches: it has no ledger fault, and the firmware runs. -/
theorem launching_runs (h : Turn s q c rest op) : s.sch.ledger = false ∧ s.sec.state = .running := by
  have hl := h.launching
  simp only [State.launching, State.schedOn, Bool.and_eq_true, Bool.not_eq_true', decide_eq_true_eq] at hl
  exact ⟨hl.2, hl.1.1.2⟩

end

/-! ## New operations -/

section
variable {s : State} {o : Op}

theorem opOf_addOp (h : ∀ y ∈ s.sch.ops, y.id ≠ o.id) : (s.addOp o).opOf o.id = some o := by
  have hnone : s.sch.ops.find? (fun y => y.id = o.id) = none := List.find?_eq_none.2 (fun y hy => by simpa using h y hy)
  simp only [State.opOf, State.addOp, List.find?_append, hnone, Option.none_or]
  simp

/-- The new operation is the only one of its number. -/
theorem eq_of_mem_addOp (h : ∀ y ∈ s.sch.ops, y.id ≠ o.id) {y : Op} (hy : y ∈ (s.addOp o).sch.ops) (hid : y.id = o.id) : y = o := by
  rcases List.mem_append.1 hy with hy | hy
  · exact absurd hid (h y hy)
  · exact List.mem_singleton.1 hy

end

/-! ## The ledgers in balance (R276, R279) -/

section
variable {s t : State}

theorem balanced_looks (h : Looks s t) (hb : LedgersBalance s) : LedgersBalance t := by
  obtain ⟨htickets, hops, hrecords⟩ := hb
  refine ⟨?_, ?_, h.records hrecords⟩
  · rw [State.ticketLedger, h.sch]
    exact htickets
  · have hbal : t.opBalanced = s.opBalanced := by
      funext y
      rw [State.opBalanced, State.opPart, h.sch]
      rfl
    rw [State.opLedger, hbal, h.sch]
    exact hops

theorem balanced_addOp {o : Op} (hb : LedgersBalance s) (ho : s.opBalanced o = true) : LedgersBalance (s.addOp o) := by
  obtain ⟨htickets, hops, hrecords⟩ := hb
  refine ⟨htickets, ?_, hrecords⟩
  change (s.sch.ops ++ [o]).all s.opBalanced = true
  rw [List.all_append, List.all_cons, List.all_nil, ho, Bool.and_true, Bool.and_true]
  exact hops

theorem balanced_addTicket (hb : LedgersBalance s) (k : Nat) (v : Word32) : LedgersBalance (s.addTicket k v) := by
  obtain ⟨htickets, hops, hrecords⟩ := hb
  refine ⟨?_, hops, hrecords⟩
  have h : s.sch.tickets = s.sch.ticketSum := by simpa [State.ticketLedger] using htickets
  simp [State.ticketLedger, State.addTicket, State.ticket, h]

theorem balanced_increment (hb : LedgersBalance s) (k : Nat) (v : Word32) : LedgersBalance (s.increment k v) :=
  balanced_looks (looks_latch _) (balanced_addTicket (balanced_looks (looks_latch s) hb) k v)

theorem balanced_updOp (hb : LedgersBalance s) (id : Nat) (f : Op → Op)
    (hf : ∀ y ∈ s.sch.ops, y.id = id → s.opBalanced (f y) = true) : LedgersBalance (s.updOp id f) := by
  obtain ⟨htickets, hops, hrecords⟩ := hb
  refine ⟨htickets, ?_, hrecords⟩
  change (s.sch.ops.map _).all s.opBalanced = true
  rw [List.all_map, List.all_eq_true]
  intro y hy
  by_cases hid : y.id = id
  · simp only [Function.comp, if_pos hid]
    exact hf y hy hid
  · simp only [Function.comp, if_neg hid]
    exact List.all_eq_true.1 hops y hy

/-- In balance, a check notes the ledgers and no more. -/
theorem checkLedgers_balanced (hb : LedgersBalance s) (hl : s.sch.ledger = false) : s.checkLedgers = s.noteLedgers := by
  have ht : s.noteLedgers.ticketLedger = true := hb.tickets
  have ho : s.noteLedgers.opLedger = true := hb.ops
  have hr : s.noteLedgers.recordLedger = true := hb.records
  have hn : s.noteLedgers.sch.ledger = false := hl
  simp only [State.checkLedgers, State.judgeLedgers, ht, ho, Bool.and_self, if_true, hr, State.ledgerHalt, hn, Bool.false_eq_true,
    if_false]

end

/-! ## A record written at once (R268) -/

/-- From s to t operation o has ended with its record DONE in its slot of the signal window. -/
structure RecordTaken (s t : State) (o : Op) : Prop where
  gone    : t.opOf o.id = none
  written : (t.queue o.q).written = (s.queue o.q).written + 1
  status  : (byteAt t.dmem.cells (s.recordSlot o + 5)).toNat % 128 = 1
  line    : ∀ a, a / 64 ≠ s.recordSlot o / 64 → t.readByte .dmem a = s.readByte .dmem a
  tickets : t.sch.tickets = s.sch.tickets
  seqs    : SameSeqs s t

section
variable {s : State} {o : Op}

theorem sameSeqs_recordDone (s : State) (q seq : Nat) (irq : Bool) : SameSeqs s (s.recordDone q seq irq) := by
  unfold State.recordDone
  extract_lets x r c t s1
  have h : SameSeqs s s1 := (sameSeqs_of_queues (s := s) (t := t) rfl).trans (sameSeqs_setQueue t q _ rfl)
  split
  · refine h.trans (sameSeqs_of_queues ?_)
    unfold State.raiseMsix
    split <;> rfl
  · exact h

theorem sameSeqs_dropOp (s : State) (o : Op) : SameSeqs s (s.dropOp o) := by
  refine sameSeqs_of_queues ?_
  unfold State.dropOp
  dsimp only
  split
  · rfl
  · change (State.logRec _ _).sch.queues = _
    rw [logRec_sch]

theorem queues_settledFor (hstatus : o.status = some .done) (hdef : o.deferred = []) :
    (s.settledFor o).sch.queues = s.sch.queues ∧ (s.settledFor o).sch.tickets = s.sch.tickets := by
  simp only [State.settledFor, State.settle, hstatus, hdef, if_true, List.foldl_nil]
  exact ⟨rfl, rfl⟩

/-- The status byte of a record that stands at address a. -/
theorem status_of_record (m : List Host.Cell) (a : Nat) : fieldAt (bytesAt m a 64) 5 1 = (byteAt m (a + 5)).toNat := by
  have h : bytesAt m a 64 = bytesAt m a 5 ++ (bytesAt m (a + 5) 1 ++ bytesAt m (a + 6) 58) := by
    rw [← bytesAt_add, ← bytesAt_add]
  have hlen : (bytesAt m a 5).length = 5 := by simp [bytesAt]
  rw [fieldAt, h, List.drop_left' hlen]
  simp [bytesAt, leNat]

/-- A bare operation's end writes its record, and the ledgers are checked. -/
theorem endOpCheck_takes (h : BareEnd s o) (hc : (s.queue o.q).cfg.cplHost = false)
    (hheld : s.linesHeld [s.recordSlot o / 64] = false) (hm : s.hrw.mode ≠ 1) (hlen : o.bytes.length = 64) :
    ∃ t, s.endOpCheck o.id o.q = t.checkLedgers ∧ RecordTaken s t o := by
  obtain ⟨hid, hq, -, hhost, hslot, hline, hwritten⟩ := afterSettle_record hc hheld
  obtain ⟨a, d, hset⟩ := afterSettle_eq o
  have hk := kept_settledFor (s := s) (o := o)
  obtain ⟨hqueues, htickets⟩ := queues_settledFor (s := s) h.status h.deferred
  have hmode : (s.settledFor o).hrw.mode ≠ 1 := hk.mode ▸ hm
  have hrec := recorded_putRecord (o := o.afterSettle) (by rw [hset]; exact hlen) hhost hmode hline
  rw [hslot] at hrec
  have hcount := hrec.written
  rw [hq, hwritten] at hcount
  have hended : ((s.settledFor o).putRecord o.afterSettle).ended s o.q = true := by simp [State.ended, hcount]
  refine ⟨(s.settledFor o).putRecord o.afterSettle, by rw [State.endOpCheck, endOp_bare h, State.checkEnd, if_pos hended],
    hid ▸ hrec.gone, hcount, ?_, fun i hi => ?_, hrec.tickets.trans htickets, ?_⟩
  · have hdone : o.afterSettle.status = some .done := by rw [hset]; exact h.status
    have hstatus := hrec.record.status
    rw [hdone, status_of_record] at hstatus
    exact hstatus
  · rw [hrec.line i hi]
    exact sameBytes_kept hk .dmem i
  · rw [putRecord_window hhost hmode hline]
    refine (sameSeqs_of_queues hqueues).trans ((sameSeqs_dropOp _ o.afterSettle).trans (SameSeqs.trans (sameSeqs_of_queues ?_)
      (sameSeqs_recordDone _ _ _ _)))
    rw [sch_writeRunAs_dispatcher]

end

end Sys2Proof
end

/-!
PROOFS. Tickets and fences (R236, R264 to R267): TICKET_WAIT, TICKET_SIGNAL, MARKER and HOST_FENCE at their turns (O26).
-/
section
namespace Sys2Proof
open Machine

section
variable {s u : State} {q : QueueId} {c : QCmd} {rest : List QCmd} {op : Nat} {o : Op}

/-! ## The operation of a command at its turn -/

/-- Operation o is that of command c of queue q at its turn on s: nothing of it is left to wait for but its record. -/
structure NewFor (s : State) (q : QueueId) (c : QCmd) (o : Op) : Prop where
  id       : o.id = s.sch.nextOp
  queue    : o.q = q.toNat
  seq      : o.seq = c.seq
  bytes    : o.bytes = c.bytes
  waiting  : o.waiting = []
  settled  : o.settled = false
  unread   : o.unread = false
  blk      : o.blk = []
  deferred : o.deferred = []
  signals  : o.sigDone + o.sigGone ≤ o.declared

/-- The operation that a command without a block begins as. -/
def beginOp (t : State) (q : QueueId) (c : QCmd) (kind : OpKind) : Op :=
  { t.newOp q.toNat c kind [] with tLaunch := t.tt.now }

/-- In u command c has left its queue for its operation o, and the ledgers balance. -/
structure Launched (s u : State) (q : QueueId) (c : QCmd) (rest : List QCmd) (o : Op) : Prop where
  new      : NewFor s q c o
  found    : u.opOf o.id = some o
  sole     : ∀ y ∈ u.sch.ops, y.id = o.id → y = o
  kept     : Kept (taken s q c) u
  seqs     : seqsOf u q.toNat = rest.map (·.seq)
  sec      : u.sec = s.sec
  ledger   : u.sch.ledger = false
  balanced : LedgersBalance u

theorem nextOp_taken : (taken s q c).sch.nextOp = s.sch.nextOp := by rw [looks_taken.sch]

theorem ops_fresh (h : Turn s q c rest op) : ∀ y ∈ (taken s q c).sch.ops, y.id ≠ s.sch.nextOp := by
  rw [looks_taken.sch]
  exact fun y hy => (h.fresh.1 y hy).ne

theorem xsigs_fresh (h : Turn s q c rest op) : ∀ y ∈ (taken s q c).sch.xsigs, y.op ≠ s.sch.nextOp := by
  rw [looks_taken.sch]
  exact fun y hy => (h.fresh.2 y hy).ne

theorem ticket_taken (k : Nat) : (taken s q c).ticket k = s.ticket k := by rw [State.ticket, looks_taken.sch, State.ticket]

theorem ticket_noteLedgers (t : State) (k : Nat) : t.noteLedgers.ticket k = t.ticket k := rfl

theorem ticket_addOp (t : State) (o : Op) (k : Nat) : (t.addOp o).ticket k = t.ticket k := rfl

theorem sec_taken : (taken s q c).sec = s.sec := by rw [looks_taken.only]

theorem newFor_beginOp (kind : OpKind) : NewFor s q c (beginOp (taken s q c) q c kind) :=
  ⟨nextOp_taken, rfl, rfl, rfl, rfl, rfl, rfl, rfl, rfl, Nat.zero_le _⟩

/-- An operation that has sent no signal, and applied no more than it declares, balances. -/
theorem opBalanced_of_unsent (hx : ∀ x ∈ u.sch.xsigs, x.op ≠ o.id) (hset : o.settled = false)
    (hsig : o.sigDone + o.sigGone ≤ o.declared) : u.opBalanced o = true := by
  have hnone : u.sch.xsigs.filter (fun x => x.op = o.id) = [] := List.filter_eq_nil_iff.2 (fun x hm => by simpa using hx x hm)
  simp [State.opBalanced, State.opPart, Op.deferredBalanced, hnone, hset, hsig]

theorem kept_addOp (t : State) (o : Op) : Kept t (t.addOp o) := kept_sch _ _ (fun _ => ⟨_, rfl⟩) rfl rfl rfl

theorem launched_addOp (h : Turn s q c rest op) (hn : NewFor s q c o) : Launched s ((taken s q c).addOp o) q c rest o := by
  have hfresh : ∀ y ∈ (taken s q c).sch.ops, y.id ≠ o.id := hn.id ▸ ops_fresh h
  have hledger : (taken s q c).sch.ledger = false := by
    rw [looks_taken.sch]
    exact (launching_runs h).1
  have hseqs : SameSeqs (taken s q c) ((taken s q c).addOp o) := sameSeqs_of_queues rfl
  refine ⟨hn, opOf_addOp hfresh, fun y hy => eq_of_mem_addOp hfresh hy, kept_addOp _ _, (hseqs _).trans (seqs_taken h), sec_taken,
    hledger, ?_⟩
  exact balanced_addOp (balanced_looks looks_taken h.balanced)
    (opBalanced_of_unsent (hn.id ▸ xsigs_fresh h) hn.settled hn.signals)

section
variable (h : Turn s q c rest op) (k : Launched s u q c rest o)
include h k

theorem Launched.unsent : ∀ y ∈ u.sch.xsigs, y.op ≠ o.id := by
  rw [k.kept.xsigs, k.new.id]
  exact xsigs_fresh h

theorem Launched.updOp {f : Op → Op} (hf : ∀ x : Op, (f x).id = x.id) (hn : NewFor s q c (f o)) :
    Launched s (u.updOp o.id f) q c rest (f o) := by
  refine ⟨hn, ?_, ?_, k.kept.trans (kept_updOp _ _ _), k.seqs, k.sec, k.ledger, ?_⟩
  · rw [hf]
    exact opOf_updOp hf k.found
  · intro y hy hid
    obtain ⟨z, hz, rfl⟩ := List.mem_map.1 hy
    split at hid
    case isTrue hzo => rw [if_pos hzo, k.sole z hz hzo]
    case isFalse hzo => exact absurd (hid.trans (hf o)) hzo
  · refine balanced_updOp k.balanced _ _ (fun y hy hid => ?_)
    rw [k.sole y hy hid]
    refine opBalanced_of_unsent ?_ hn.settled hn.signals
    rw [hf]
    exact k.unsent h

omit h in
theorem Launched.checked : u.checkLedgers = u.noteLedgers ∧ Launched s u.noteLedgers q c rest o :=
  ⟨checkLedgers_balanced k.balanced k.ledger, k.new, k.found, k.sole,
    k.kept.trans (kept_sch _ _ (fun _ => ⟨_, rfl⟩) rfl rfl rfl), k.seqs, k.sec, k.ledger, k.balanced.1, k.balanced.2, k.balanced.3⟩

omit h in
theorem Launched.increment (n : Nat) (v : Word32) : Launched s (u.increment n v) q c rest o := by
  have hops := ops_increment u n v
  have hlatch := looks_latch u
  have hlatch' := looks_latch (u.latch.addTicket n v)
  refine ⟨k.new, (opOf_congr hops _).trans k.found, ?_, k.kept.trans (kept_increment u n v), ?_, ?_, ?_,
    balanced_increment k.balanced n v⟩
  · rw [hops]
    exact k.sole
  · exact (((sameSeqs_latch u).trans (sameSeqs_of_queues rfl)).trans (sameSeqs_latch (u.latch.addTicket n v)) q.toNat).trans k.seqs
  · rw [State.increment, hlatch'.only]
    change u.latch.sec = s.sec
    rw [hlatch.only]
    exact k.sec
  · rw [State.increment, hlatch'.sch]
    change u.latch.sch.ledger = false
    rw [hlatch.sch]
    exact k.ledger

end

/-! ## Its record -/

/-- On t the record of command c of queue q stands, DONE, in its slot of the signal window, and the command has left its queue. -/
structure RecordStands (s t : State) (q : QueueId) (c : QCmd) (rest : List QCmd) (slot : Nat) : Prop where
  left    : (t.queue q.toNat).cmds.map (·.seq) = rest.map (·.seq)
  written : (t.queue q.toNat).written = (s.queue q.toNat).written + 1
  gone    : t.opOf s.sch.nextOp = none
  status  : (byteAt t.dmem.cells (slot + 5)).toNat % 128 = 1
  line    : ∀ a, a / 64 ≠ slot / 64 → t.readByte .dmem a = s.readByte .dmem a

/-- The slot of command c's record in the signal window (R268). -/
def slotOf (s : State) (q : QueueId) (c : QCmd) : Nat := dmemReserved + (s.queue q.toNat).cplSlot c.seq

/-- The record of command c can be written to the signal window in PCIe mode at once. -/
structure RingReady (s : State) (q : QueueId) (c : QCmd) : Prop where
  mode   : s.hrw.mode ≠ 1
  ring   : (s.queue q.toNat).cfg.cplHost = false
  held   : s.linesHeld [slotOf s q c / 64] = false
  length : c.bytes.length = 64

/-- An operation that is done has its record written, and the ledgers are checked. -/
theorem Launched.recorded (h : Turn s q c rest op) (hr : RingReady s q c) (k : Launched s u q c rest o)
    (hdone : o.status = some .done) : ∃ t, u.endOpCheck s.sch.nextOp q.toNat = t.checkLedgers ∧
      RecordStands s t q c rest (slotOf s q c) ∧ t.sch.tickets = u.sch.tickets := by
  obtain ⟨hid, hoq, hseq, hbytes, hwaiting, hset, hunread, hblk, hdef, -⟩ := k.new
  obtain ⟨cmds, firstAt, hq⟩ := (looks_taken (s := s) (q := q) (c := c)).queue q.toNat
  obtain ⟨cmds', hq'⟩ := k.kept.queue q.toNat
  have hlooks := looks_taken (s := s) (q := q) (c := c)
  have hslot : u.recordSlot o = slotOf s q c := by
    rw [State.recordSlot, hoq, hseq, hq', hq]
    rfl
  have halive : u.sec.state ≠ .fatal := by rw [k.sec, (launching_runs h).2]; decide
  have hbare : BareEnd u o := ⟨k.found, hwaiting, hdone, hset, hunread, hblk, hdef, halive, k.unsent h⟩
  have hmode : u.hrw.mode ≠ 1 := by
    rw [k.kept.mode, hlooks.hrw.1]
    exact hr.mode
  obtain ⟨t, ht, hgone, hwritten, hstatus, hline, htickets, hseqs⟩ := endOpCheck_takes hbare
    (by rw [hoq, hq', hq]; exact hr.ring) (by rw [hslot, k.kept.held, hlooks.held]; exact hr.held) hmode (hbytes ▸ hr.length)
  rw [hid, hoq] at ht
  refine ⟨t, ht, ⟨(hseqs q.toNat).trans k.seqs, ?_, hid ▸ hgone, hslot ▸ hstatus, fun a ha => ?_⟩, htickets⟩
  · rw [hoq, hq', hq] at hwritten
    exact hwritten
  · rw [hline a (hslot ▸ ha), sameBytes_kept k.kept, hlooks.sameBytes]

/-! ## TICKET_WAIT and TICKET_SIGNAL (R264 to R266) -/

theorem newFor_fix (hn : NewFor s q c o) : NewFor s q c (o.fix .done 0 0) := by
  unfold Op.fix
  split
  · exact hn
  · exact ⟨hn.id, hn.queue, hn.seq, hn.bytes, hn.waiting, hn.settled, hn.unread, hn.blk, hn.deferred, hn.signals⟩

theorem id_fix (st : OpStatus) (cause info : Nat) (x : Op) : (x.fix st cause info).id = x.id := by
  unfold Op.fix
  split <;> rfl

theorem ticketWait_recorded (h : Turn s q c rest 4) (hr : RingReady s q c) :
    CompletesChecked (.ticketWait q) s (RecordStands s · q c rest (slotOf s q c)) := by
  have hexec : exec (.ticketWait q) s = .next ((taken s q c).doneNow q.toNat c) :=
    congrArg Host.Outcome.next (turn_launches h (fun t c _ => t.doneNow q.toNat c) rfl rfl)
  have hnew := newFor_fix (newFor_beginOp (s := s) (q := q) (c := c) .unlaunched)
  have hl := launched_addOp h hnew
  obtain ⟨hcheck, hl⟩ := hl.checked
  obtain ⟨t, ht, hrec, -⟩ := hl.recorded h hr rfl
  refine ⟨t, ?_, hrec⟩
  rw [hexec, ← ht, ← hcheck, ← nextOp_taken (s := s) (q := q) (c := c)]
  rfl

/-- The increment of a TICKET_SIGNAL of a ticket here, applied for its operation. -/
def signalled (t : State) (q : QueueId) (c : QCmd) : State :=
  ((t.addOp (beginOp t q c .ticketSignal)).increment c.sig.ticket.toNat c.sig.value).updOp (beginOp t q c .ticketSignal).id
    (fun o => { o with sigDone := o.sigDone + 1 })

theorem launchSignal_here {t : State} (hdev : c.sig.remote = false)
    (hpend : (signalled t q c).checkLedgers.signalsPending (beginOp t q c .ticketSignal).id = false) :
    t.launchSignal q.toNat c = ((signalled t q c).checkLedgers.updOp (beginOp t q c .ticketSignal).id
      (fun x => x.fix .done 0 0)).endOpCheck t.sch.nextOp q.toNat := by
  have hsignal : (t.addOp (beginOp t q c .ticketSignal)).signal (beginOp t q c .ticketSignal).id c.sig = signalled t q c := by
    simp only [State.signal, hdev, Bool.not_false, Bool.true_or, if_true]
    rfl
  unfold State.launchSignal
  extract_lets n o t1
  have ht : t1 = (signalled t q c).checkLedgers := congrArg State.checkLedgers hsignal
  rw [ht]
  exact if_neg (Bool.eq_false_iff.1 hpend)

theorem leNat_lt (l : List Byte) : leNat l < 256 ^ l.length := by
  induction l with
  | nil => exact Nat.one_pos
  | cons b t ih =>
    have hb := b.isLt
    rw [leNat, List.length_cons, Nat.pow_succ]
    omega

theorem ticket_sig (c : QCmd) : c.sig.ticket.toNat = fieldAt c.bytes 8 2 := by
  have hlt := leNat_lt ((c.bytes.drop 8).take 2)
  have hlen : ((c.bytes.drop 8).take 2).length ≤ 2 := List.length_take_le ..
  have hpow : 256 ^ ((c.bytes.drop 8).take 2).length ≤ 256 ^ 2 := Nat.pow_le_pow_right (by decide) hlen
  exact (BitVec.toNat_ofNat _ _).trans (Nat.mod_eq_of_lt (lt_of_lt_of_le hlt hpow))

theorem ticketSignal_recorded (h : Turn s q c rest 5) (hhere : fieldAt c.bytes 10 2 = 0) (hr : RingReady s q c) :
    CompletesChecked (.ticketSignal q) s (fun t => RecordStands s t q c rest (slotOf s q c) ∧
      ∀ k, t.ticket k = if k = fieldAt c.bytes 8 2 then s.ticket k + BitVec.ofNat 32 (fieldAt c.bytes 12 4) else s.ticket k) := by
  have hexec : exec (.ticketSignal q) s = .next ((taken s q c).launchSignal q.toNat c) :=
    congrArg Host.Outcome.next (turn_launches h (fun t c _ => t.launchSignal q.toNat c) rfl rfl)
  have hnew := newFor_beginOp (s := s) (q := q) (c := c) .ticketSignal
  have hdev : c.sig.remote = false := by simp [QCmd.sig, hhere]
  have happlied : Launched s (signalled (taken s q c) q c) q c rest _ :=
    ((launched_addOp h hnew).increment c.sig.ticket.toNat c.sig.value).updOp h (f := fun o => { o with sigDone := o.sigDone + 1 })
    (fun _ => rfl) ⟨hnew.id, rfl, rfl, rfl, rfl, rfl, rfl, rfl, rfl, by exact le_refl 1⟩
  have htick (k : Nat) : (signalled (taken s q c) q c).ticket k =
      s.ticket k + if c.sig.ticket.toNat = k then c.sig.value else 0 := by
    rw [signalled, ticket_updOp, ticket_increment, ticket_addOp, ticket_taken]
  obtain ⟨hcheck, hnoted⟩ := happlied.checked
  have hpend : (signalled (taken s q c) q c).checkLedgers.signalsPending (beginOp (taken s q c) q c .ticketSignal).id = false := by
    rw [hcheck]
    simpa [State.signalsPending] using hnoted.unsent h
  have hfixed := hnoted.updOp h (f := fun x => x.fix .done 0 0) (id_fix _ _ _) (newFor_fix happlied.new)
  obtain ⟨t, ht, hrec, htickets⟩ := hfixed.recorded h hr rfl
  refine ⟨t, ?_, hrec, fun k => ?_⟩
  · rw [hexec, launchSignal_here hdev hpend, ← ht, hcheck, nextOp_taken]
  · have hk : t.ticket k = (signalled (taken s q c) q c).ticket k := by
      rw [State.ticket, htickets, ← State.ticket, ticket_updOp, ticket_noteLedgers]
    rw [hk, htick, ticket_sig]
    by_cases hkt : k = fieldAt c.bytes 8 2
    · rw [if_pos hkt.symm, if_pos hkt]
      rfl
    · rw [if_neg (Ne.symm hkt), if_neg hkt, add_zero]

/-! ## MARKER and HOST_FENCE (R236, R255) -/

/-- The new operation does not come before itself. -/
theorem allEarlierDone_addOp (hn : NewFor s q c o) :
    ((taken s q c).addOp o).allEarlierDone q.toNat c.seq = s.allEarlierDone q.toNat c.seq := by
  have hsnoops := (looks_taken (s := s) (q := q) (c := c)).hrw.2.2.2
  change (!((taken s q c).sch.ops ++ [o]).any _ && !(taken s q c).hrw.snoops.any _) = _
  rw [hsnoops, List.any_append, looks_taken.sch]
  simp [State.allEarlierDone, hn.seq]

theorem allEarlierDone_taken : (taken s q c).allEarlierDone q.toNat c.seq = s.allEarlierDone q.toNat c.seq := by
  rw [State.allEarlierDone, looks_taken.hrw.2.2.2, looks_taken.sch]
  rfl

/-- Behind an earlier command without its record, a MARKER or HOST_FENCE waits. -/
theorem afterEarlier_waits {t : State} (hfound : t.opOf o.id = some o) (hall : t.allEarlierDone o.q o.seq = false) :
    t.afterEarlier o.id = t := by
  simp [State.afterEarlier, hfound, hall]

theorem afterEarlier_marker {t : State} (hfound : t.opOf o.id = some o) (hall : t.allEarlierDone o.q o.seq = true)
    (hstatus : o.status = none) (hwait : o.waiting = []) (hkind : o.kind = .marker) :
    t.afterEarlier o.id = t.updOp o.id (fun x => x.fix .done 0 0) := by
  simp [State.afterEarlier, hfound, hall, hstatus, hwait, hkind]

/-- A host fence at its read: the read is sent, and awaited. -/
def fenceSent (t : State) (o : Op) : State :=
  (t.updOp o.id (fun x => { x with waiting := [0] })).emit (.hostRead t.hrw.apBase 0)

theorem afterEarlier_fence {t : State} (hfound : t.opOf o.id = some o) (hall : t.allEarlierDone o.q o.seq = true)
    (hstatus : o.status = none) (hwait : o.waiting = []) (hkind : o.kind = .hostFence) : t.afterEarlier o.id = fenceSent t o := by
  have hgo : (o.status.isSome || !o.waiting.isEmpty || !t.allEarlierDone o.q o.seq) = false := by
    rw [hstatus, hwait, hall]
    rfl
  unfold State.afterEarlier
  rw [hfound]
  dsimp only
  rw [hgo, hkind]
  rfl

theorem sameSeqs_fenceSent (t : State) (o : Op) : SameSeqs t (fenceSent t o) := sameSeqs_of_queues rfl

theorem sameBytes_fenceSent (t : State) (o : Op) : SameBytes t (fenceSent t o) := fun l _ => by cases l <;> rfl

theorem out_fenceSent (t : State) (o : Op) : (fenceSent t o).out = t.out ++ [.hostRead t.hrw.apBase 0] := rfl

theorem opOf_fenceSent {t : State} (h : t.opOf o.id = some o) : (fenceSent t o).opOf o.id = some { o with waiting := [0] } :=
  opOf_updOp (f := fun x => { x with waiting := [0] }) (fun _ => rfl) h

theorem launchAfter_eq (t : State) (kind : OpKind) : t.launchAfter kind q.toNat c =
    if kind = .marker ∧ t.allEarlierDone q.toNat c.seq = true then
      ((t.addOp (beginOp t q c kind)).afterEarlier (beginOp t q c kind).id).checkLedgers.endOpCheck t.sch.nextOp q.toNat
    else ((t.addOp (beginOp t q c kind)).afterEarlier (beginOp t q c kind).id).checkLedgers := by
  have hcond : (decide (kind = .marker) && t.allEarlierDone q.toNat c.seq) = true ↔
      kind = .marker ∧ t.allEarlierDone q.toNat c.seq = true := by simp
  by_cases hgo : kind = .marker ∧ t.allEarlierDone q.toNat c.seq = true
  · rw [if_pos hgo]
    exact if_pos (hcond.2 hgo)
  · rw [if_neg hgo]
    exact if_neg (mt hcond.1 hgo)

theorem marker_recorded (h : Turn s q c rest 6) (hr : RingReady s q c) (hall : s.allEarlierDone q.toNat c.seq = true) :
    CompletesChecked (.marker q) s (RecordStands s · q c rest (slotOf s q c)) := by
  have hexec : exec (.marker q) s = .next ((taken s q c).launchAfter .marker q.toNat c) :=
    congrArg Host.Outcome.next (turn_launches h (fun t c _ => t.launchAfter .marker q.toNat c) rfl rfl)
  have hnew := newFor_beginOp (s := s) (q := q) (c := c) .marker
  have hl := launched_addOp h hnew
  have hafter := afterEarlier_marker hl.found ((allEarlierDone_addOp hnew).trans hall) rfl rfl rfl
  obtain ⟨hcheck, hdone⟩ := (hl.updOp h (f := fun x => x.fix .done 0 0) (id_fix _ _ _) (newFor_fix hnew)).checked
  obtain ⟨t, ht, hrec, -⟩ := hdone.recorded h hr rfl
  refine ⟨t, ?_, hrec⟩
  rw [hexec, launchAfter_eq, if_pos ⟨rfl, allEarlierDone_taken.trans hall⟩, hafter, hcheck, nextOp_taken, ht]

theorem marker_waits (h : Turn s q c rest 6) (hall : s.allEarlierDone q.toNat c.seq = false) :
    CompletesChecked (.marker q) s (fun t => (t.queue q.toNat).cmds.map (·.seq) = rest.map (·.seq) ∧ SameBytes s t ∧
      (t.opOf s.sch.nextOp).map (fun o => (o.kind, o.status)) = some (.marker, none)) := by
  have hexec : exec (.marker q) s = .next ((taken s q c).launchAfter .marker q.toNat c) :=
    congrArg Host.Outcome.next (turn_launches h (fun t c _ => t.launchAfter .marker q.toNat c) rfl rfl)
  have hnew := newFor_beginOp (s := s) (q := q) (c := c) .marker
  have hl := launched_addOp h hnew
  have hafter := afterEarlier_waits hl.found ((allEarlierDone_addOp hnew).trans hall)
  have hnot : ¬ (OpKind.marker = .marker ∧ (taken s q c).allEarlierDone q.toNat c.seq = true) := by
    rw [allEarlierDone_taken, hall]
    simp
  refine ⟨_, ?_, hl.seqs, sameBytes_trans looks_taken.sameBytes (sameBytes_kept hl.kept), ?_⟩
  · rw [hexec, launchAfter_eq, if_neg hnot, hafter]
  · rw [← hnew.id, hl.found]
    rfl

theorem hostFence_sends (h : Turn s q c rest 7) :
    CompletesChecked (.hostFence q) s (fun t => (t.queue q.toNat).cmds.map (·.seq) = rest.map (·.seq) ∧ SameBytes s t ∧
      t.out = s.out ++ (if s.allEarlierDone q.toNat c.seq then [.hostRead s.hrw.apBase 0] else []) ∧
      (t.opOf s.sch.nextOp).map (fun o => (o.kind, o.waiting)) =
        some (.hostFence, if s.allEarlierDone q.toNat c.seq then [0] else [])) := by
  have hexec : exec (.hostFence q) s = .next ((taken s q c).launchAfter .hostFence q.toNat c) :=
    congrArg Host.Outcome.next (turn_launches h (fun t c _ => t.launchAfter .hostFence q.toNat c) rfl rfl)
  have hnew := newFor_beginOp (s := s) (q := q) (c := c) .hostFence
  have hl := launched_addOp h hnew
  have hearlier := allEarlierDone_addOp hnew
  have hbytes := sameBytes_trans looks_taken.sameBytes (sameBytes_kept hl.kept)
  have hout : (taken s q c).out = s.out := by rw [looks_taken.only]
  have hbase := (looks_taken (s := s) (q := q) (c := c)).hrw.2.2.1
  rw [CompletesChecked, hexec, launchAfter_eq, if_neg (by simp)]
  refine ⟨_, rfl, ?_⟩
  cases hall : s.allEarlierDone q.toNat c.seq with
  | false =>
    rw [afterEarlier_waits hl.found (hearlier.trans hall)]
    refine ⟨hl.seqs, hbytes, ?_, ?_⟩
    · exact hout.trans (List.append_nil _).symm
    · rw [← hnew.id, hl.found]
      rfl
  | true =>
    rw [afterEarlier_fence hl.found (hearlier.trans hall) rfl rfl rfl]
    refine ⟨(sameSeqs_fenceSent _ _ _).trans hl.seqs, sameBytes_trans hbytes (sameBytes_fenceSent _ _), ?_, ?_⟩
    · rw [out_fenceSent]
      change (taken s q c).out ++ [.hostRead (taken s q c).hrw.apBase 0] = _
      rw [hout, hbase]
      rfl
    · rw [← hnew.id, opOf_fenceSent hl.found]
      rfl

end
end Sys2Proof
end

/-!
PROOFS. COPY at its turn (R257): it starts on the core and channel that the row names (O26).
-/
section
namespace Sys2Proof
open Machine

section
variable {s : State} {q : QueueId} {c : QCmd} {rest : List QCmd} {b : List Byte} {g : Nat} {ch : Channel}

/-- The state in which a COPY's transfer begins: its operation awaits the core. -/
def copyNoted (t : State) (q g : Nat) (c : QCmd) (b : List Byte) : State :=
  let u := t.addOp { t.newOp q c .copy b with waiting := [g], tLaunch := t.tt.now }
  { u with sch := { u.sch with copies := u.sch.copies ++ [(g, q, c.seq)] } }

theorem sameSeqs_copyNoted (t : State) (q g : Nat) (c : QCmd) (b : List Byte) : SameSeqs t (copyNoted t q g c b) :=
  sameSeqs_of_queues rfl

theorem sameBytes_copyNoted (t : State) (q g : Nat) (c : QCmd) (b : List Byte) : SameBytes t (copyNoted t q g c b) :=
  fun l _ => by cases l <;> rfl

/-- The transfer of a COPY whose source is here, ready on its channel. -/
def copyExec (n : Nat) (b : List Byte) (ch : Channel) : FExec :=
  { cmd := copyCmdOf b ch, copyOf := some n, phase := .ready, rx := [], rxPoison := [], tags := [], pend := [], copyFlags := 0
    psn := false }

theorem launchCopy_local {t : State} {q : Nat} (hcode : ferCode (copyCmdOf b ch) = none) (hnear : t.isRemote (descAt b 0) = false)
    (hhost : isHost (descAt b 0) = false) :
    t.launchCopy q g ch c b = ((copyNoted t q g c b).putChan g (copyExec t.sch.nextOp b ch)).checkLedgers := by
  have hnear' : (copyNoted t q g c b).isRemote (copyCmdOf b ch).dsrc = false := hnear
  have hhost' : isHost (copyCmdOf b ch).dsrc = false := hhost
  have hstart : (copyNoted t q g c b).startFer g (copyCmdOf b ch) (some t.sch.nextOp) =
      (copyNoted t q g c b).putChan g (copyExec t.sch.nextOp b ch) := by
    simp only [State.startFer, hnear', hhost', Bool.false_eq_true, if_false]
    rfl
  unfold State.launchCopy
  dsimp only
  rw [hcode, ← hstart]
  rfl

theorem copy_starts (h : Turn s q c rest 2) (g : Gcn) (hcan : s.canCopy g.toNat (copyCmdOf (s.block c) ch) = true)
    (hap : s.hrw.apPend = none) (hcode : ferCode (copyCmdOf (s.block c) ch) = none)
    (hnear : s.isRemote (descAt (s.block c) 0) = false) (hhost : isHost (descAt (s.block c) 0) = false) :
    CompletesChecked (.copyCmd q g ch) s (fun t => (t.queue q.toNat).cmds.map (·.seq) = rest.map (·.seq) ∧ SameBytes s t ∧
      ∃ y, (t.core g.toNat).fer.chan ch.toNat = some y ∧ y.copyOf = some s.sch.nextOp ∧ y.cmd = copyCmdOf (s.block c) ch) := by
  have hblk : blkOf s c = s.block c := if_pos (by simp [QCmd.hasBlock, h.opcode])
  have hheld : s.copyApHeld (s.block c) = false := by simp [State.copyApHeld, hap]
  have hexec : exec (.copyCmd q g ch) s = .next ((taken s q c).launchCopy q.toNat g.toNat ch c (s.block c)) := by
    refine congrArg Host.Outcome.next ?_
    rw [turn_launches h (fun t c b => t.launchCopy q.toNat g.toNat ch c b) rfl (by rw [hblk, hcan, hheld]; rfl), hblk]
  have hnear' : (taken s q c).isRemote (descAt (s.block c) 0) = false := by
    rw [State.isRemote, looks_taken.only]
    exact hnear
  have hput := channelHolds_putChan (copyNoted (taken s q c) q.toNat g.toNat c (s.block c)) g.toNat
    (copyExec (taken s q c).sch.nextOp (s.block c) ch)
  rw [CompletesChecked, hexec, launchCopy_local hcode hnear' hhost]
  generalize (copyNoted (taken s q c) q.toNat g.toNat c (s.block c)).putChan _ _ = t at hput
  have hseqs : SameSeqs (taken s q c) t :=
    (sameSeqs_copyNoted _ _ _ _ _).trans (sameSeqs_of_queues (by rw [hput.only.1]))
  exact ⟨t, rfl, (hseqs q.toNat).trans (seqs_taken h),
    sameBytes_trans looks_taken.sameBytes (sameBytes_trans (sameBytes_copyNoted _ _ _ _ _) hput.bytes), _, hput.chan,
    congrArg some nextOp_taken, rfl⟩

end
end Sys2Proof
end

/-!
PROOFS. COLLECTIVE at its turn (R308, R309, R321): what its engine runs once its peers have been told (O26).
-/
section
namespace Sys2Proof
open Machine

/-! ## What a collective keeps of its plan -/

/-- From s to t no queue has changed, and engine e runs what it ran, failed perhaps, or runs nothing. -/
structure OnPlan (e : EngineId) (s t : State) : Prop where
  seqs : SameSeqs s t
  id   : (t.eng e).id = (s.eng e).id
  plan : ∀ r, (t.eng e).run = some r → ∃ c, (s.eng e).run = some c ∧ r.plan = c.plan

section
variable {s t u : State} {e : EngineId}

theorem OnPlan.refl (e : EngineId) (s : State) : OnPlan e s s := ⟨fun _ => rfl, rfl, fun r h => ⟨r, h, rfl⟩⟩

theorem OnPlan.trans (h : OnPlan e s t) (k : OnPlan e t u) : OnPlan e s u where
  seqs := h.seqs.trans k.seqs
  id := k.id.trans h.id
  plan r hr := by
    obtain ⟨c, hc, hrc⟩ := k.plan r hr
    obtain ⟨d, hd, hcd⟩ := h.plan c hc
    exact ⟨d, hd, hrc.trans hcd⟩

theorem onPlan_of_same (hq : SameSeqs s t) (he : SameRun (s.eng e) (t.eng e)) : OnPlan e s t := by
  refine ⟨hq, he.id, fun r hr => ?_⟩
  have hrun := he.run
  rw [hr] at hrun
  obtain ⟨c, hc, hrc⟩ := Option.map_eq_some_iff.1 hrun.symm
  exact ⟨c, hc, (congrArg Prod.fst hrc).symm⟩

theorem sameSeqs_sends (h : Sends s t) : SameSeqs s t := sameSeqs_of_queues (by rw [h.only])

theorem onPlan_sends (h : Sends s t) : OnPlan e s t := onPlan_of_same (sameSeqs_sends h) (h.engine e)

theorem onPlan_updOp (s : State) (id : Nat) (f : Op → Op) : OnPlan e s (s.updOp id f) :=
  onPlan_of_same (sameSeqs_of_queues rfl) (SameRun.refl _)

/-- The engine comes to run its collective with what else it notes, or nothing. -/
theorem onPlan_setEng (s : State) (x : ColEng) (hid : x.id = (s.eng e).id)
    (hrun : ∀ r, x.run = some r → ∃ c, (s.eng e).run = some c ∧ r.plan = c.plan) : OnPlan e s (s.setEng e x) := by
  refine ⟨sameSeqs_of_queues rfl, ?_, ?_⟩
  · rw [eng_setEng]
    exact hid
  · rw [eng_setEng]
    exact hrun

/-! ## Sailings that have gone by -/

theorem sameRun_catchUp (g : ColEng) (now : Nat) : SameRun g (g.catchUp now) := by
  unfold ColEng.catchUp
  split
  next => exact SameRun.refl g
  next c hc => exact ⟨rfl, by rw [hc]; rfl⟩

theorem engine_catchUp (s : State) (e : EngineId) : SameSeqs s (s.catchUp e) ∧ SameRun (s.eng e) ((s.catchUp e).eng e) ∧
    ∀ d, (s.catchUp e).route d = s.route d := by
  have hback := sends_foldl State.holdBack sends_holdBack allPorts s
  unfold State.catchUp
  generalize allPorts.foldl State.holdBack s = t at hback
  refine ⟨(sameSeqs_sends hback).trans (sameSeqs_of_queues rfl), ?_, fun d => ?_⟩
  · rw [eng_setEng]
    exact (hback.engine e).trans (sameRun_catchUp _ _)
  · exact (rfl : (t.setEng e _).route d = t.route d).trans (route_sends hback d)

/-! ## Failure and end (R320) -/

theorem sends_releaseHeld (s : State) (l : List RxBlk) : Sends s (s.releaseHeld l) := by
  refine sends_foldl _ (fun t r => ?_) l s
  dsimp only
  split
  · exact (sends_setLink _ _ _ _ (by rfl)).trans (sends_creditBack _ _ _ _ _)
  · exact Sends.refl t

theorem onPlan_lastCode (s : State) (e : EngineId) (v : Byte) : OnPlan e s (s.setEng e { s.eng e with lastCode := v }) :=
  onPlan_setEng s _ rfl (fun r hr => ⟨r, hr, rfl⟩)

theorem onPlan_collReport (s : State) (e : EngineId) : OnPlan e s (s.collReport e) := by
  unfold State.collReport
  split
  next => exact OnPlan.refl e s
  next c hc =>
    refine OnPlan.trans (onPlan_setEng s { s.eng e with run := none, holding := false } rfl (fun _ h => nomatch h)) ?_
    exact ((onPlan_sends (sends_releaseHeld _ _)).trans (onPlan_updOp _ _ _)).trans (onPlan_sends (sends_pump _))

theorem onPlan_collStopped (s : State) (e : EngineId) : OnPlan e s (s.collStopped e) := by
  unfold State.collStopped
  split
  · split
    · exact onPlan_collReport s e
    · exact OnPlan.refl e s
  · exact OnPlan.refl e s

theorem sends_trySend (s : State) (kind : Byte) (y : Txn) : Sends s ((s.sendTxn kind y).getD s) := by
  cases h : s.sendTxn kind y with
  | none => exact Sends.refl s
  | some t => exact sends_sendTxn h

theorem onPlan_withdrawBlocks (s : State) (id : Word32) : OnPlan e s (s.withdrawBlocks id) :=
  onPlan_of_same (sameSeqs_of_queues rfl) (SameRun.refl (s.eng e))

theorem onPlan_collHalt (s : State) (e : EngineId) : OnPlan e s (s.collHalt e) := by
  unfold State.collHalt
  split
  next => exact OnPlan.refl e s
  next c hc =>
    split
    case isTrue => exact OnPlan.refl e s
    case isFalse =>
      have hset := onPlan_setEng (e := e) s { s.eng e with run := some { c with failed := true } } rfl
        (fun r hr => ⟨c, hc, by rw [← Option.some.inj hr]; rfl⟩)
      refine (hset.trans (onPlan_withdrawBlocks _ c.collId)).trans ?_
      exact (onPlan_sends (sends_foldl _ (fun _ _ => sends_trySend _ _ _) _ _)).trans (onPlan_collStopped _ e)

theorem onPlan_collFail (s : State) (e : EngineId) (code step : Nat) : OnPlan e s (s.collFail e code step) := by
  unfold State.collFail
  split
  next => exact OnPlan.refl e s
  next c hc =>
    split
    case isTrue => exact OnPlan.refl e s
    case isFalse =>
      obtain ⟨hseqs, hrun, -⟩ := engine_catchUp s e
      refine (onPlan_of_same hseqs hrun).trans ?_
      refine (onPlan_lastCode (s.catchUp e) e (BitVec.ofNat 8 code)).trans ?_
      exact (onPlan_updOp _ _ _).trans (onPlan_collHalt _ e)

/-! ## Announcements (R308, R321) -/

theorem onPlan_announceAll (e : EngineId) (c : Coll) (l : List Nat) (s : State) : OnPlan e s (announceAll e c l s) := by
  induction l generalizing s with
  | nil => exact OnPlan.refl e s
  | cons p t ih =>
    unfold announceAll
    split
    next s1 hs => exact (onPlan_sends (sends_sendTxn hs)).trans (ih s1)
    next => exact onPlan_collFail s e _ _

/-- With a route to each peer every one is told, and nothing fails. -/
theorem sends_announceAll (e : EngineId) (c : Coll) (l : List Nat) (s : State)
    (h : ∀ p ∈ l, ∃ q, s.route (c.members.getD p 0) = .out q) : Sends s (announceAll e c l s) := by
  induction l generalizing s with
  | nil => exact Sends.refl s
  | cons p t ih =>
    unfold announceAll
    split
    next s1 hs =>
      have hsent := sends_sendTxn hs
      refine hsent.trans (ih s1 (fun r hr => ?_))
      rw [route_sends hsent]
      exact h r (List.mem_cons_of_mem p hr)
    next hs =>
      obtain ⟨q, hq⟩ := h p List.mem_cons_self
      have hroute : s.route (s.collTxn c p 0 0 false [] []).dst = .out q := hq
      rw [State.sendTxn, hroute] at hs
      cases hs

/-- The collective has started: engine e names it, and runs it as its block says unless it has ended. -/
structure CollStarted (s t : State) (e : EngineId) (op : Nat) (b : List Byte) (pos : Nat) : Prop where
  seqs : SameSeqs s t
  id   : (t.eng e).id = BitVec.ofNat 32 (fieldAt b 0 4)
  plan : ∀ r, (t.eng e).run = some r → r.plan = (op, pos, (s.entries b).map stepOf)

/-- The engine with its new collective, before what is due is settled and its peers are told. -/
def collSet (s : State) (e : EngineId) (op : Nat) (b : List Byte) (pos : Nat) : State :=
  let c := s.newColl e op b pos
  let s1 := { s with col := s.col.map (fun x : ColEng => { x with ann := x.ann.filter (fun a => a.1 ≠ c.collId) }) }
  s1.setEng e { s1.eng e with run := some c, id := c.collId }

theorem startColl_eq (s : State) (e : EngineId) (op : Nat) (b : List Byte) (pos : Nat) : s.startColl e op b pos =
    announceAll e (s.newColl e op b pos) ((s.newColl e op b pos).peers (·.recv)) ((collSet s e op b pos).catchUp e) := rfl

theorem eng_collSet (s : State) (e : EngineId) (op : Nat) (b : List Byte) (pos : Nat) :
    ((collSet s e op b pos).eng e).run = some (s.newColl e op b pos) ∧
      ((collSet s e op b pos).eng e).id = BitVec.ofNat 32 (fieldAt b 0 4) := by
  unfold collSet
  dsimp only
  rw [eng_setEng]
  exact ⟨rfl, rfl⟩

theorem collStarted_startColl (s : State) (e : EngineId) (op : Nat) (b : List Byte) (pos : Nat) :
    CollStarted s (s.startColl e op b pos) e op b pos := by
  obtain ⟨hseqs, hrun, -⟩ := engine_catchUp (collSet s e op b pos) e
  obtain ⟨hset, hid⟩ := eng_collSet s e op b pos
  have hq : SameSeqs s (collSet s e op b pos) := sameSeqs_of_queues rfl
  have hall := (onPlan_of_same hseqs hrun).trans
    (onPlan_announceAll e (s.newColl e op b pos) ((s.newColl e op b pos).peers (·.recv)) _)
  rw [← startColl_eq] at hall
  refine ⟨hq.trans hall.seqs, hall.id.trans hid, fun r hr => ?_⟩
  obtain ⟨c, hc, hrc⟩ := hall.plan r hr
  rw [hset] at hc
  rw [hrc, ← Option.some.inj hc]
  rfl

/-- With a route to each peer it runs on. -/
theorem startColl_runs (s : State) (e : EngineId) (op : Nat) (b : List Byte) (pos : Nat)
    (h : ∀ p ∈ (s.newColl e op b pos).peers (·.recv), ∃ q, s.route ((s.newColl e op b pos).members.getD p 0) = .out q) :
    (((s.startColl e op b pos).eng e).run).map (·.failed) = some false := by
  obtain ⟨-, hrun, hroute⟩ := engine_catchUp (collSet s e op b pos) e
  have hset := (eng_collSet s e op b pos).1
  have hsent := sends_announceAll e (s.newColl e op b pos) ((s.newColl e op b pos).peers (·.recv)) ((collSet s e op b pos).catchUp e)
    (fun p hp => by rw [hroute]; exact h p hp)
  rw [← startColl_eq] at hsent
  have hall := (hrun.trans (hsent.engine e)).run
  rw [hset] at hall
  have hfailed := congrArg (Option.map Prod.snd) hall
  rw [Option.map_map] at hfailed
  exact hfailed

end
end Sys2Proof
end

/-!
PROOFS. COLLECTIVE at its turn: the launch checks after the dispatcher's reading (R309), and what each command of a queue does at
its turn (O26).
-/
section
namespace Sys2Proof
open Machine

/-! ## The launch checks (R309) -/

/-- The launch checks and the plan of a block come out on t as on s. -/
structure SameChecks (s t : State) (b : List Byte) : Prop where
  bad     : t.collBad b = s.collBad b
  pos     : t.collPos b = s.collPos b
  entries : t.entries b = s.entries b
  engine  : ∀ n, t.collEngine n = s.collEngine n
  member  : ∀ p, t.memberAt b p = s.memberAt b p
  route   : ∀ d, t.route d = s.route d

theorem sameChecks_looks {s t : State} (h : Looks s t) (b : List Byte) : SameChecks s t b := by
  have hpos : t.collPos b = s.collPos b := by rw [h.only]; rfl
  have hentries : t.entries b = s.entries b := by rw [State.entries, h.cells, State.entries]
  have hfields : t.collFieldsOk b = s.collFieldsOk b := by rw [h.only]; rfl
  have hfenced (n : Nat) : t.engFenced n = s.engFenced n := by rw [h.only]; rfl
  have htt : t.tt = s.tt := by rw [h.only]
  refine ⟨?_, hpos, hentries, fun n => ?_, fun p => ?_, fun d => ?_⟩
  · simp only [State.collBad, hpos, hentries, hfields, hfenced, htt]
  · simp only [State.collEngine, hfenced]
  · rw [h.only]; rfl
  · rw [h.only]; rfl

theorem SameChecks.trans {s t u : State} {b : List Byte} (h : SameChecks s t b) (k : SameChecks t u b) : SameChecks s u b :=
  ⟨k.bad.trans h.bad, k.pos.trans h.pos, k.entries.trans h.entries, fun n => (k.engine n).trans (h.engine n),
    fun p => (k.member p).trans (h.member p), fun d => (k.route d).trans (h.route d)⟩

theorem sameChecks_addOp (s : State) (o : Op) (b : List Byte) : SameChecks s (s.addOp o) b :=
  ⟨rfl, rfl, rfl, fun _ => rfl, fun _ => rfl, fun _ => rfl⟩

/-- In a schedule that passes its checks every peer is a position of the group (Table 9-4). -/
theorem peer_lt_of_collBad {s : State} {b : List Byte} (h : s.collBad b = none) : ∀ y ∈ s.entries b, fieldAt y 10 2 < collN b := by
  have hsteps : firstBadStep (collN b) (fieldAt b 0x38 4) (s.collPos b) (s.entries b) = none := by
    unfold State.collBad at h
    dsimp only at h
    cases hstep : firstBadStep (collN b) (fieldAt b 0x38 4) (s.collPos b) (s.entries b) with
    | none => rfl
    | some k =>
      rw [hstep] at h
      split_ifs at h
  intro y hy
  have hok := List.findIdx?_eq_none_iff.1 hsteps y hy
  simp only [stepOk, Bool.not_eq_false', Bool.and_eq_true, decide_eq_true_eq] at hok
  obtain ⟨⟨⟨⟨⟨⟨-, hpeer⟩, -⟩, -⟩, -⟩, -⟩, -⟩ := hok
  exact hpeer

/-- The peers that a collective receives from are members that its schedule names. -/
theorem member_of_peer {s : State} {e : EngineId} {op pos : Nat} {b : List Byte} (h : s.collBad b = none) {p : Nat}
    (hp : p ∈ (s.newColl e op b pos).peers (·.recv)) : ∃ y ∈ s.entries b, fieldAt y 8 1 = 1 ∧
      (s.newColl e op b pos).members.getD p 0 = s.memberAt b (fieldAt y 10 2) := by
  obtain ⟨st, hst, rfl⟩ := List.mem_map.1 (List.mem_dedup.1 hp)
  obtain ⟨hmem, hrecv⟩ := List.mem_filter.1 hst
  obtain ⟨y, hy, rfl⟩ := List.mem_map.1 hmem
  have hlt : fieldAt y 10 2 < ((List.range (collN b)).map (s.memberAt b)).length := by simpa using peer_lt_of_collBad h y hy
  refine ⟨y, hy, of_decide_eq_true hrecv, ?_⟩
  change ((List.range (collN b)).map (s.memberAt b)).getD (fieldAt y 10 2) 0 = _
  rw [← List.getElem_eq_getD (h := hlt), List.getElem_map, List.getElem_range]

/-! ## The turn -/

section
variable {s : State} {q : QueueId} {c : QCmd} {rest : List QCmd} {b : List Byte}

/-- The operation of a COLLECTIVE: it waits for its engine. -/
def collOp (t : State) (q : Nat) (c : QCmd) (b : List Byte) : Op :=
  { t.newOp q c .collective b with waiting := [0], tLaunch := t.tt.now }

theorem launchColl_started {t u : State} {q pos : Nat} (hread : t.touchAll .dmem (t.schedLines b) = u) (hbad : u.collBad b = none)
    (hpos : u.collPos b = some pos) : t.launchColl q c b =
      ((u.addOp (collOp u q c b)).startColl (engineNum (u.collEngine (fieldAt b 6 1))) u.sch.nextOp b pos).checkLedgers := by
  unfold State.launchColl
  dsimp only
  rw [hread, hbad, hpos]
  rfl

theorem collective_runs (h : Turn s q c rest 3) {pos : Nat} (hbad : s.collBad (s.block c) = none)
    (hpos : s.collPos (s.block c) = some pos) (hheld : s.linesHeld (s.schedLines (s.block c)) = false) :
    CompletesChecked (.collective q) s (fun t => (t.queue q.toNat).cmds.map (·.seq) = rest.map (·.seq) ∧
      let e := t.eng (engineNum (s.collEngine (fieldAt (s.block c) 6 1)))
      e.id = BitVec.ofNat 32 (fieldAt (s.block c) 0 4) ∧
      (∀ r, e.run = some r → r.op = s.sch.nextOp ∧ r.pos = pos ∧ r.steps = (s.entries (s.block c)).map stepOf) ∧
      ((∀ y ∈ s.entries (s.block c), fieldAt y 8 1 = 1 → ∃ p, s.route (s.memberAt (s.block c) (fieldAt y 10 2)) = .out p) →
        e.run.map (·.failed) = some false)) := by
  have hblk : blkOf s c = s.block c := if_pos (by simp [QCmd.hasBlock, h.opcode])
  have hexec : exec (.collective q) s = .next ((taken s q c).launchColl q.toNat c (s.block c)) := by
    refine congrArg Host.Outcome.next ?_
    rw [turn_launches h (fun t c b => t.launchColl q.toNat c b) rfl (by rw [hblk, hheld]), hblk]
  obtain ⟨u, hu⟩ : ∃ u, (taken s q c).touchAll .dmem ((taken s q c).schedLines (s.block c)) = u := ⟨_, rfl⟩
  have hread : Looks (taken s q c) u := hu ▸ looks_touchAll _ _
  have hsch : u.sch = (taken s q c).sch := hu ▸ (finds_foldl _ finds_touchLine _ _).sch
  have hsame := sameChecks_looks (looks_taken.trans hread) (s.block c)
  have hnext : u.sch.nextOp = s.sch.nextOp := by rw [hsch, nextOp_taken]
  have hall := hsame.trans (sameChecks_addOp u (collOp u q.toNat c (s.block c)) (s.block c))
  have hseqs : SameSeqs (taken s q c) (u.addOp (collOp u q.toNat c (s.block c))) :=
    (sameSeqs_of_queues (congrArg Sch.queues hsch)).trans (sameSeqs_of_queues rfl)
  rw [CompletesChecked, hexec, launchColl_started hu (hsame.bad.trans hbad) (hsame.pos.trans hpos), hsame.engine, hnext]
  generalize u.addOp (collOp u q.toNat c (s.block c)) = v at hall hseqs
  have hstart := collStarted_startColl v (engineNum (s.collEngine (fieldAt (s.block c) 6 1))) s.sch.nextOp (s.block c) pos
  refine ⟨_, rfl, ((hseqs.trans hstart.seqs) q.toNat).trans (seqs_taken h), hstart.id, fun r hr => ?_, fun hroute => ?_⟩
  · have hplan := hstart.plan r hr
    rw [hall.entries] at hplan
    obtain ⟨hop, hrest⟩ := Prod.mk.inj hplan
    obtain ⟨hp, hsteps⟩ := Prod.mk.inj hrest
    exact ⟨hop, hp, hsteps⟩
  · refine startColl_runs _ _ _ _ _ (fun p hp => ?_)
    obtain ⟨y, hy, hrecv, hmember⟩ := member_of_peer (hall.bad.trans hbad) hp
    rw [hmember, hall.member, hall.route]
    exact hroute y (hall.entries ▸ hy) hrecv

end

end Sys2Proof
end

section
namespace Sys2Proof.Machine

/-- Settles O26: each command leaves its queue at its turn, and its effect follows by its opcode. -/
theorem otherCommandsTakeTheirTurns : Obligations.OtherCommandsTakeTheirTurns := by
  unfold Obligations.OtherCommandsTakeTheirTurns
  intro s q c rest g ch x b left slot ring recorded
  have hslot : slotOf s q c = slot := (Nat.add_assoc _ _ _).symm
  have hready : ring → RingReady s q c := fun ⟨hmode, hring, hheld, hlen⟩ => ⟨hmode, hring, hslot ▸ hheld, hlen⟩
  have hrecorded (t : State) (h : RecordStands s t q c rest (slotOf s q c)) : recorded t := by
    rw [hslot] at h
    exact ⟨h.left, h.written, h.gone, h.status, h.line⟩
  refine ⟨fun h hcan hap hcode hnear hhost => copy_starts h g hcan hap hcode hnear hhost,
    fun pos h hbad hpos hheld => collective_runs h hbad hpos hheld, fun h hhere hr => ?_, hostFence_sends, fun h hr => ?_,
    fun h => ⟨fun hr hall => ?_, marker_waits h⟩⟩
  · obtain ⟨t, ht, hrec, hticket⟩ := ticketSignal_recorded h hhere (hready hr)
    exact ⟨t, ht, hrecorded t hrec, hticket⟩
  · obtain ⟨t, ht, hrec⟩ := ticketWait_recorded h (hready hr)
    exact ⟨t, ht, hrecorded t hrec⟩
  · obtain ⟨t, ht, hrec⟩ := marker_recorded h (hready hr) hall
    exact ⟨t, ht, hrecorded t hrec⟩

end Sys2Proof.Machine
end

/-!
PROOFS. Doorbells (O23) and the reading of commands (O24).
-/
section
namespace Sys2Proof.Machine

/-! ## Doorbells (R250 to R253, R278) -/

section
variable {s : State} (hon : s.schedOn = true) (hup : s.hostUp = true) (hlock : s.hrw.locked = true)
include hon hup hlock

/-- A doorbell that no activation pauses is acted on. -/
theorem ring_acts (hrun : s.sch.paused = false) (sub : Bool) (q : Nat) (v : Word32) : s.ring sub q v = s.doorbell sub q v := by
  simp [State.ring, hon, hup, hlock, hrun]

/-- A doorbell that comes during an activation is kept. -/
theorem ring_kept (hpaused : s.sch.paused = true) (sub : Bool) (q : Nat) (v : Word32) :
    s.ring sub q v = { s with sch := { s.sch with kept := s.sch.kept ++ [(sub, q, v)] } } := by
  simp [State.ring, hon, hup, hlock, hpaused]

end

/-- A value that is not above the accepted count, or too far above it, is ignored. -/
theorem submit_ignored {s : State} {q : Nat} {v : Word32} (h : (v - BitVec.ofNat 32 (s.queue q).accepted).toNat = 0 ∨
    2 ^ 31 ≤ (v - BitVec.ofNat 32 (s.queue q).accepted).toNat) : s.submit q v = s := by
  have hc : (decide ((v - BitVec.ofNat 32 (s.queue q).accepted).toNat = 0) ||
      decide (2 ^ 31 ≤ (v - BitVec.ofNat 32 (s.queue q).accepted).toNat)) = true := by simpa using h
  exact if_pos hc

/-- The queue takes d further commands (R250, R253). -/
def State.hasRoom (s : State) (q d : Nat) : Prop :=
  (s.queue q).enabled = true ∧ s.sch.ledger = false ∧
    (s.queue q).accepted + d - (s.queue q).written ≤ min (s.queue q).depth (2 ^ (s.queue q).cfg.log2)

section
variable {s : State} {q d : Nat} {v : Word32} (hd : (v - BitVec.ofNat 32 (s.queue q).accepted).toNat = d) (hpos : 0 < d) (hlt : d < 2 ^ 31)
include hd hpos hlt

/-- A value above the accepted count is refused, or moves it there. -/
theorem submit_eq : s.submit q v =
    if (!(s.queue q).enabled || s.sch.ledger ||
        decide (min (s.queue q).depth (s.queue q).size < (s.queue q).accepted + d - (s.queue q).written)) = true then
      s.setQueue q { s.queue q with refused := true }
    else s.setQueue q { s.queue q with accepted := (s.queue q).accepted + d } := by
  have hnew : (decide (d = 0) || decide (2 ^ 31 ≤ d)) = false := by
    simp only [Bool.or_eq_false_iff, decide_eq_false_iff_not]
    omega
  simp only [State.submit, hd, hnew, Bool.false_eq_true, if_false]

omit hd hpos hlt in
theorem refuses_iff : (!(s.queue q).enabled || s.sch.ledger ||
    decide (min (s.queue q).depth (s.queue q).size < (s.queue q).accepted + d - (s.queue q).written)) = true ↔ ¬ s.hasRoom q d := by
  rw [State.hasRoom, ← Queue.size, Bool.or_eq_true, Bool.or_eq_true, decide_eq_true_eq, ← not_le, not_and_or, not_and_or, or_assoc]
  simp

theorem submit_accepts (h : s.hasRoom q d) : s.submit q v = s.setQueue q { s.queue q with accepted := (s.queue q).accepted + d } :=
  (submit_eq hd hpos hlt).trans (if_neg (fun hr => refuses_iff.1 hr h))

theorem submit_refuses (h : ¬ s.hasRoom q d) : s.submit q v = s.setQueue q { s.queue q with refused := true } :=
  (submit_eq hd hpos hlt).trans (if_pos (refuses_iff.2 h))

end

/-- Settles O23: a doorbell that no activation pauses is acted on, one that comes during an activation kept. -/
theorem doorbellsMoveTheCounts : Obligations.DoorbellsMoveTheCounts := by
  unfold Obligations.DoorbellsMoveTheCounts
  intro s q v x d e room hon hup hlock
  refine ⟨fun hrun => ?acts, fun hpaused => ⟨⟨_, rfl, ?_⟩, ⟨_, rfl, ?_⟩⟩⟩
  case acts =>
    have hsubmit : exec (.submitDoorbell q v) s = .next (s.submit q.toNat v) :=
      congrArg Host.Outcome.next (ring_acts hon hup hlock hrun true q.toNat v)
    have hconsume : exec (.completionDoorbell q v) s = .next (s.consume q.toNat v) :=
      congrArg Host.Outcome.next (ring_acts hon hup hlock hrun false q.toNat v)
    refine ⟨fun h => ?_, fun h => ?_, fun hpos hlt => ⟨fun h => ⟨_, hsubmit, ?_⟩, fun h => ⟨_, hsubmit, ?_⟩⟩, fun h => ⟨_, hconsume, ?_⟩⟩
    · rw [Idles, hsubmit, submit_ignored h]
    · rw [Idles, hconsume]
      exact congrArg Host.Outcome.next (if_pos h)
    · exact submit_accepts rfl hpos hlt h
    · exact submit_refuses rfl hpos hlt h
    · exact if_neg (not_le.2 h)
  · exact ring_kept hon hup hlock hpaused true q.toNat v
  · exact ring_kept hon hup hlock hpaused false q.toNat v

/-! ## Reading commands (R251, R375) -/

/-- A line's bytes, where no older value of it may still be returned, are read as they stand (R225). -/
theorem dispBytes_line {s : State} {ord k a : Nat} (ha : a % 64 = 0) (h : s.copies (readOfDispatcher ord) .dmem (a / 64) = []) :
    s.dispBytes ord k a 64 = bytesAt s.dmem.cells a 64 := by
  have hgran : granulesOf a 64 = [a / 64] := by
    have hone : (a + 64 + 63) / 64 - a / 64 = 1 := by omega
    simp [granulesOf, hone]
  have hpick : s.pick (readOfDispatcher ord) k .dmem (a / 64) = none := by rw [State.pick, h]
  have haddr : 64 * (a / 64) = a := by omega
  rw [State.dispBytes, hgran, List.flatMap_singleton, hpick, ha, haddr, List.drop_zero, List.take_of_length_le (by simp)]

/-- A look at the first commands' waits keeps what each command is. -/
theorem cmds_latch (s : State) (n : Nat) :
    (s.latch.queue n).cmds.map (fun c => (c.seq, c.bytes)) = (s.queue n).cmds.map (fun c => (c.seq, c.bytes)) := by
  have hcmd (t : State) (c : QCmd) : (t.latchCmd c).seq = c.seq ∧ (t.latchCmd c).bytes = c.bytes := by
    unfold State.latchCmd
    dsimp only
    split_ifs <;> exact ⟨rfl, rfl⟩
  rw [latch_eq]
  refine smGet_map_snd (latchQueue s _) (fun x => ?_) _ _ n
    (fun x y : Queue => y.cmds.map (fun c => (c.seq, c.bytes)) = x.cmds.map (fun c => (c.seq, c.bytes))) rfl (fun x => ?_)
  · unfold latchQueue
    split
    · rfl
    · split <;> rfl
  · unfold latchQueue
    split
    · rfl
    next c l h =>
      split
      · rfl
      · obtain ⟨hseq, hbytes⟩ := hcmd (s.heads.foldl State.touchBlock s) c
        rw [h, List.map_cons, List.map_cons, hseq, hbytes]

section
variable {s : State} {q : Nat}

/-- The state in which the next command of a queue has been read, and waits last among those not launched. -/
def State.cmdRead (s : State) (q : Nat) : State :=
  let t := s.touchLine ((s.queue q).slot (s.queue q).read / 64)
  t.setQueue q { s.queue q with
    read := (s.queue q).read + 1, dead := []
    cmds := (s.queue q).cmds ++ [⟨(s.queue q).read, t.dispBytes (s.queue q).read 1 ((s.queue q).slot (s.queue q).read) 64, []⟩]
    firstAt := if (s.queue q).cmds.isEmpty then s.wall else (s.queue q).firstAt }

/-- A command that is not marked, with no ledger fault, is placed last among those not launched. -/
theorem readCmd_eq (hdead : (s.queue q).dead = []) (hledger : s.sch.ledger = false) : s.readCmd q = (s.cmdRead q).latch := by
  simp only [State.readCmd, hdead, hledger, List.find?_nil, List.filter_nil, Bool.false_eq_true, if_false]
  rfl

theorem sameBytes_cmdRead : SameBytes s (s.cmdRead q) :=
  sameBytes_trans (looks_touchLine s _).sameBytes (sameBytes_of_store (fun l => by cases l <;> rfl))

/-- What the queue holds once its next command has been read. -/
theorem queue_readCmd (hdead : (s.queue q).dead = []) (hledger : s.sch.ledger = false) :
    ((s.readCmd q).queue q).read = (s.queue q).read + 1 ∧
      ((s.readCmd q).queue q).cmds.map (fun c => (c.seq, c.bytes)) = (s.queue q).cmds.map (fun c => (c.seq, c.bytes)) ++
        [((s.queue q).read, s.dispBytes (s.queue q).read 1 ((s.queue q).slot (s.queue q).read) 64)] := by
  have hlooks := looks_touchLine s ((s.queue q).slot (s.queue q).read / 64)
  obtain ⟨cmds, hq, -⟩ := queue_latch (s.cmdRead q) q
  rw [readCmd_eq hdead hledger]
  refine ⟨?_, ?_⟩
  · rw [hq, State.cmdRead, queue_setQueue]
  · rw [cmds_latch, State.cmdRead, queue_setQueue, List.map_append, hlooks.dispBytes]
    rfl

end

/-- Settles O24: in PCIe mode the command is read at once, in CXL mode its line is asked for first. -/
theorem commandReadTakesTheNextCommand : Obligations.CommandReadTakesTheNextCommand := by
  unfold Obligations.CommandReadTakesTheNextCommand
  intro s q x a hcan hheld
  have hgo : (!s.canRead q.toNat || s.linesHeld [x.slot x.read / 64]) = false := by
    have hheld' : s.linesHeld [x.slot x.read / 64] = false := hheld
    rw [hcan, hheld']
    rfl
  refine ⟨fun hmode hdead hledger => ?pcie, fun hmode hsnoops => ?cxl⟩
  case pcie =>
    have hexec : exec (.commandRead q) s = .next (s.readCmd q.toNat) := by
      refine congrArg Host.Outcome.next ?_
      simp only [State.commandRead, hgo, hmode, Bool.false_eq_true, if_false, x]
    obtain ⟨hread, hcmds⟩ := queue_readCmd hdead hledger
    refine ⟨_, hexec, ?_, hread, hcmds, dispBytes_line ?_⟩
    · rw [readCmd_eq hdead hledger]
      exact sameBytes_trans sameBytes_cmdRead (looks_latch _).sameBytes
    · omega
  case cxl =>
    have hexec : exec (.commandRead q) s = .next (s.snoop (a / 64) true (.cmd q.toNat x.read)) := by
      refine congrArg Host.Outcome.next ?_
      simp only [State.commandRead, hgo, hmode, hsnoops, List.any_nil, Bool.false_eq_true, if_false, if_true, x]
      rfl
    refine ⟨_, hexec, rfl, ?_, rfl, sameBytes_kept (quiet_snoop _ _ _ _).toKept⟩
    exact congrArg (· ++ [(a / 64, Snoop.cmd q.toNat x.read)]) hsnoops

end Sys2Proof.Machine
end

/-!
PROOFS. CANCEL_ALL on a queue of which every outstanding command is marked already (O29, refuted).
-/
section
namespace Sys2Proof.Machine

/-! ## Register writes that reach their register (R386 to R389, R470) -/

/-- A write that reaches its register, and whose value no range check fails, does what the register is for. -/
theorem regWrite_reaches {s : State} {off v rsv : Nat} (h : Reaches s off v rsv) (f : State → State) :
    s.regWrite off v rsv none f = f s := by
  have hgate : (decide (s.sec.state = .recovery) && !recoveryReg off) = false := by
    rcases h.answers with h | h <;> simp [h]
  simp [State.regWrite, h.on, h.locked, h.clean, hgate]

/-! ## CANCEL_ALL (R274, R275) -/

/-- Where nothing is left to cancel, CANCEL_ALL reports none, and whether a command awaits its record yet. -/
theorem cancelQueue_none {s : State} {q : Nat} (hcmds : (s.queue q).cmds = []) (hunread : (s.queue q).unread = [])
    (hops : s.sch.ops = []) : s.cancelQueue q = s.cancelResult 0 (if s.anyFixed q then 2 else 3) := by
  simp [State.cancelQueue, hcmds, hunread, hops, cancelReads]

/-- The module runs, its window answers the host, and the only command of queue 0 has been accepted and not read. -/
def unreadState : State :=
  { State.reset with
    pins := { State.reset.pins with perstLow := false }
    sec := { State.reset.sec with state := .running }
    hrw := { State.reset.hrw with alive := true, locked := true }
    sch := { State.reset.sch with queues := [(0, { Queue.reset 0 with enabled := true, accepted := 1 })] } }

theorem unreadState_reaches : Reaches unreadState 0x10010 (0x100 : Word64).toNat 0xFFFFFEC0 :=
  ⟨rfl, rfl, .inl (by decide), by decide⟩

/-- A first CANCEL_ALL has marked that command, to be ended when it is read. -/
def markedState : State := unreadState.cancelQueue 0

theorem cancelAll_unreadState : exec (.cancelAll 0x100) unreadState = .next markedState :=
  congrArg Host.Outcome.next (regWrite_reaches unreadState_reaches _)

theorem markedState_reaches : Reaches markedState 0x10010 (0x100 : Word64).toNat 0xFFFFFEC0 :=
  ⟨rfl, rfl, .inl (by decide), by decide⟩

/-- Nothing of its queue is left to cancel, the marked command aside, no operation runs, and no record awaits its line. -/
theorem markedState_idle : (markedState.queue 0).cmds = [] ∧ (markedState.queue 0).unread = [] ∧ markedState.sch.ops = [] ∧
    markedState.hrw.snoops = [] :=
  ⟨rfl, by decide, rfl, rfl⟩

theorem cancelAll_markedState : exec (.cancelAll 0x100) markedState = .next (markedState.cancelResult 0 2) := by
  obtain ⟨hcmds, hunread, hops, -⟩ := markedState_idle
  refine congrArg Host.Outcome.next ((regWrite_reaches markedState_reaches _).trans ?_)
  exact cancelQueue_none hcmds hunread hops

/-- Refutes O29: a second CANCEL_ALL finds the one outstanding command marked, and reports result 2, as all of those outstanding
have their status; the statement asks for result 3, none outstanding, where no operation and no record is left. -/
theorem not_cancellationsAndQueueControl : ¬ Obligations.CancellationsAndQueueControl := by
  unfold Obligations.CancellationsAndQueueControl
  intro h
  obtain ⟨hcancel, -⟩ := h markedState 0 0x100 0
  obtain ⟨-, -, hall⟩ := hcancel markedState_reaches rfl
  obtain ⟨t, ht, -, hresult, -⟩ := hall rfl
  obtain rfl : markedState.cancelResult 0 2 = t := Host.Outcome.next.inj (cancelAll_markedState.symm.trans ht)
  have htwo : (markedState.cancelResult 0 2).sch.canResult = 2 := rfl
  obtain ⟨hcmds, hunread, hops, hsnoops⟩ := markedState_idle
  simp [htwo, hcmds, hunread, hops, hsnoops] at hresult

end Sys2Proof.Machine
end

/-!
PROOFS. A ledger fault: what ends the commands that wait to be launched, and that none is left (O30).
-/
section
namespace Sys2Proof.Machine

/-! ## What keeps the queues and the ledger fault (R276, R279) -/

/-- From s to t a ledger fault has stayed, and so have its kinds. -/
structure FaultStays (s t : State) : Prop where
  ledger : s.sch.ledger = true → t.sch.ledger = true
  kind   : ∃ k, t.sch.kind = s.sch.kind ||| k

theorem FaultStays.refl (s : State) : FaultStays s s := ⟨id, 0, by simp⟩

theorem FaultStays.trans {s t u : State} (h : FaultStays s t) (k : FaultStays t u) : FaultStays s u := by
  obtain ⟨a, ha⟩ := h.kind
  obtain ⟨b, hb⟩ := k.kind
  exact ⟨k.ledger ∘ h.ledger, a ||| b, by rw [hb, ha, BitVec.or_assoc]⟩

theorem faultStays_looks {s t : State} (h : Looks s t) : FaultStays s t :=
  ⟨by rw [h.sch]; exact id, 0, by rw [h.sch]; simp⟩

/-- Besides, no queue has lost or got a command. -/
structure Stands (s t : State) : Prop where
  seqs  : SameSeqs s t
  fault : FaultStays s t

theorem Stands.refl (s : State) : Stands s s := ⟨fun _ => rfl, FaultStays.refl s⟩

theorem Stands.trans {s t u : State} (h : Stands s t) (k : Stands t u) : Stands s u :=
  ⟨h.seqs.trans k.seqs, h.fault.trans k.fault⟩

theorem stands_foldl {α : Type} (f : State → α → State) (h : ∀ t x, Stands t (f t x)) (l : List α) (s : State) :
    Stands s (l.foldl f s) := by
  induction l generalizing s with
  | nil => exact Stands.refl s
  | cons x t ih => exact (h s x).trans (ih (f s x))

/-- The dispatcher's queues and its fault are as they were. -/
theorem stands_of_eq {s t : State} (hq : t.sch.queues = s.sch.queues) (hl : t.sch.ledger = s.sch.ledger)
    (hk : t.sch.kind = s.sch.kind) : Stands s t :=
  ⟨sameSeqs_of_queues hq, fun h => hl.trans h, 0, by simp [hk]⟩

theorem stands_of_sch {s t : State} (h : t.sch = s.sch) : Stands s t :=
  stands_of_eq (congrArg Sch.queues h) (congrArg Sch.ledger h) (congrArg Sch.kind h)

theorem stands_updOp (s : State) (id : Nat) (f : Op → Op) : Stands s (s.updOp id f) := stands_of_eq rfl rfl rfl

theorem stands_addOp (s : State) (o : Op) : Stands s (s.addOp o) := stands_of_eq rfl rfl rfl

theorem stands_latch (s : State) : Stands s s.latch := ⟨sameSeqs_latch s, faultStays_looks (looks_latch s)⟩

theorem stands_increment (s : State) (t : Nat) (v : Word32) : Stands s (s.increment t v) :=
  ((stands_latch s).trans (u := s.latch.addTicket t v) (stands_of_eq rfl rfl rfl)).trans (stands_latch _)

theorem stands_ledgerFlag (s : State) (kind : Nat) (terms : List Byte) : Stands s (s.ledgerFlag kind terms) := by
  refine Stands.trans ?_ (stands_of_sch (logRec_sch _ _))
  exact ⟨sameSeqs_of_queues rfl, fun _ => rfl, _, rfl⟩

/-! ## The end of an operation (R268, R272) -/

theorem sch_poisonAs (s : State) (w : Writer) (l : Loc) (a len : Nat) : (s.poisonAs w l a len).sch = s.sch := by
  have hrange : (s.poisonRange l a len).sch = s.sch := by cases l <;> rfl
  unfold State.poisonAs
  refine List.foldlRecOn (motive := fun t : State => t.sch = s.sch) _ _ hrange (fun t ht n _ => ?_)
  rw [noted_eq]
  exact ht

theorem stands_poisonRegion (op : Nat) (set : List Nat) (s : State) (r : Region) : Stands s (State.poisonRegion op set s r) := by
  unfold State.poisonRegion
  split
  · exact Stands.refl s
  · split
    · exact stands_foldl _ (fun t g => stands_of_sch (sch_poisonAs t _ _ _ _)) set s
    · exact stands_of_sch (sch_poisonAs s _ _ _ _)
    · exact stands_of_sch (sch_poisonAs s _ _ _ _)
    · exact stands_of_sch (emit_sch s _)
    · exact Stands.refl s

theorem stands_settle (s : State) (o : Op) : Stands s (s.settle o) := by
  unfold State.settle
  dsimp only
  refine Stands.trans ?_ (stands_updOp _ _ _)
  split
  · exact (stands_foldl _ (fun t d => stands_increment t _ _) _ s).trans (stands_updOp _ _ _)
  · exact (stands_foldl _ (stands_poisonRegion _ _) _ s).trans (stands_updOp _ _ _)

theorem stands_signal (s : State) (id : Nat) (g : Sig) : Stands s (s.signal id g) := by
  unfold State.signal
  split
  · exact (stands_increment s _ _).trans (stands_updOp _ _ _)
  · extract_lets x
    refine Stands.trans ?_ (stands_of_sch (netOnly_sendTicket _ x).sch)
    exact stands_of_eq rfl rfl rfl

theorem stands_withdraw (s : State) (id : Nat) (g : Sig) : Stands s (s.withdraw id g) :=
  (stands_updOp s _ _).trans (stands_of_sch (logRec_sch _ _))

theorem stands_takeSignals (id : Nat) (done : Bool) (l : List Sig) (s : State) : Stands s (takeSignals id done l s) := by
  induction l generalizing s with
  | nil => exact Stands.refl s
  | cons g t ih =>
    rw [takeSignals]
    split
    · exact Stands.refl s
    · split
      · exact (stands_signal s id g).trans (ih _)
      · exact (stands_withdraw s id g).trans (ih _)

theorem stands_dropOp (s : State) (o : Op) : Stands s (s.dropOp o) := by
  unfold State.dropOp
  extract_lets t
  have ht : Stands s t := by
    dsimp only [t]
    split
    · exact Stands.refl s
    · exact stands_ledgerFlag s _ _
  exact ht.trans (stands_of_eq rfl rfl rfl)

theorem stands_recordDone (s : State) (q seq : Nat) (irq : Bool) : Stands s (s.recordDone q seq irq) := by
  refine ⟨sameSeqs_recordDone s q seq irq, ?_⟩
  unfold State.recordDone
  extract_lets x r c t s1
  have h : FaultStays s s1 := ⟨id, 0, (BitVec.or_zero).symm⟩
  split
  · unfold State.raiseMsix
    split <;> exact ⟨h.ledger, h.kind⟩
  · exact h

theorem stands_putRecord (s : State) (o : Op) : Stands s (s.putRecord o) := by
  have hdrop := stands_dropOp s o
  unfold State.putRecord
  dsimp only
  split_ifs
  · exact Stands.refl s
  · exact (hdrop.trans (stands_of_sch (emit_sch _ _))).trans (stands_recordDone _ _ _ _)
  · exact Stands.refl s
  · exact hdrop.trans (stands_of_eq rfl rfl rfl)
  · exact (hdrop.trans (stands_of_sch (sch_writeRunAs_dispatcher _ _ _ _ _))).trans (stands_recordDone _ _ _ _)

theorem stands_askInv (s : State) (l : List Nat) : Stands s (s.askInv l) := by
  refine stands_foldl _ (fun t n => ?_) _ s
  split
  · exact Stands.refl t
  · exact stands_of_eq rfl rfl rfl

/-- What follows an operation's signals. -/
theorem stands_signalled {s : State} (id : Nat) (t : State) (h : Stands s t) :
    Stands s (if t.signalsPending id then t else match t.opOf id with
      | some o => t.putRecord o
      | none => t) := by
  split
  · exact h
  · split
    · exact h.trans (stands_putRecord _ _)
    · exact h

theorem stands_endRead (s : State) (id : Nat) : Stands s (s.endRead id) := by
  unfold State.endRead
  split
  case h_1 => exact Stands.refl s
  case h_2 o _ =>
    split_ifs
    · exact Stands.refl s
    · exact Stands.refl s
    · exact stands_askInv s _
    · exact stands_signalled _ _ (stands_takeSignals _ _ _ _)
    · exact stands_signalled _ _ (((stands_settle s o).trans (u := (s.settle o).usedInv _) (stands_of_eq rfl rfl rfl)).trans
        (stands_takeSignals _ _ _ _))

theorem stands_readUnlaunched (s : State) (o : Op) : Stands s (s.readUnlaunched o) := by
  unfold State.readUnlaunched
  dsimp only
  split
  · exact Stands.refl s
  · split <;> exact (stands_of_sch (finds_touchBlock s _).sch).trans (stands_updOp _ _ _)

theorem stands_endOp (s : State) (id : Nat) : Stands s (s.endOp id) := by
  unfold State.endOp
  split
  · exact Stands.refl s
  · exact (stands_readUnlaunched s _).trans (stands_endRead _ _)

theorem stands_endUnlaunched (s : State) (q : Nat) (c : QCmd) (cause info : Nat) :
    Stands s (s.endUnlaunched q c cause info) := by
  unfold State.endUnlaunched
  dsimp only
  split
  · exact (stands_addOp s _).trans (stands_endOp _ _)
  · refine Stands.trans ?_ (stands_endOp _ _)
    split
    · exact (stands_addOp s _).trans (stands_withdraw _ _ _)
    · exact stands_addOp s _

theorem stands_judgeLedgers (s : State) : Stands s s.judgeLedgers := by
  unfold State.judgeLedgers
  extract_lets t u
  have ht : Stands s t := stands_of_eq rfl rfl rfl
  have hu : Stands s u := by
    dsimp only [u]
    split
    · exact ht
    · exact ht.trans (stands_ledgerFlag _ _ _)
  split
  · exact hu
  · exact hu.trans (stands_ledgerFlag _ _ _)

/-! ## The halt under a ledger fault (R279) -/

/-- From s to t only queue q has lost commands, and a ledger fault has stayed. -/
structure Empties (s t : State) (q : Nat) : Prop where
  others : ∀ n, n ≠ q → seqsOf t n = seqsOf s n
  fault  : FaultStays s t

theorem Empties.trans {s t u : State} {q : Nat} (h : Empties s t q) (k : Empties t u q) : Empties s u q :=
  ⟨fun n hn => (k.others n hn).trans (h.others n hn), h.fault.trans k.fault⟩

theorem Stands.empties {s t : State} (h : Stands s t) (q : Nat) : Empties s t q := ⟨fun n _ => h.seqs n, h.fault⟩

theorem empties_takeHead (s : State) (q : Nat) : Empties s (s.takeHead q) q := by
  refine ⟨fun n hn => ?_, faultStays_looks (looks_takeHead s q)⟩
  unfold State.takeHead
  extract_lets x s1
  rw [sameSeqs_latch]
  exact congrArg (fun y : Queue => y.cmds.map (·.seq)) (queue_setQueue_ne s _ hn)

/-- The first command of a queue ends under a ledger fault, with the check that comes last. -/
def State.haltFirst (s : State) (q : Nat) (c : QCmd) : State :=
  let t := (s.takeHead q).endUnlaunched q c 7 s.sch.kind.toNat
  if t.ended s q then t.judgeLedgers else t

theorem haltQueue_cons {s : State} {q : Nat} {c : QCmd} {l : List QCmd} (k : Nat) (h : (s.queue q).cmds = c :: l) :
    haltQueue q (k + 1) s = haltQueue q k (s.haltFirst q c) := by
  rw [haltQueue, h]
  rfl

theorem haltQueue_nil {s : State} {q : Nat} (k : Nat) (h : (s.queue q).cmds = []) : haltQueue q k s = s := by
  cases k with
  | zero => rfl
  | succ k => rw [haltQueue, h]

/-- The commands behind it stay. -/
theorem haltFirst_stands (s : State) (q : Nat) (c : QCmd) : Stands (s.takeHead q) (s.haltFirst q c) := by
  have h := stands_endUnlaunched (s.takeHead q) q c 7 s.sch.kind.toNat
  unfold State.haltFirst
  dsimp only
  split
  · exact h.trans (stands_judgeLedgers _)
  · exact h

theorem empties_haltQueue (q k : Nat) (s : State) : Empties s (haltQueue q k s) q := by
  induction k generalizing s with
  | zero => exact (Stands.refl s).empties q
  | succ k ih =>
    cases h : (s.queue q).cmds with
    | nil => rw [haltQueue_nil _ h]; exact (Stands.refl s).empties q
    | cons c l =>
      rw [haltQueue_cons k h]
      exact ((empties_takeHead s q).trans ((haltFirst_stands s q c).empties q)).trans (ih _)

/-- As many ends as there are commands leave none. -/
theorem seqs_haltQueue (q k : Nat) (s : State) (hk : (s.queue q).cmds.length ≤ k) : seqsOf (haltQueue q k s) q = [] := by
  induction k generalizing s with
  | zero =>
    have h := List.length_eq_zero_iff.1 (Nat.le_zero.1 hk)
    rw [haltQueue_nil 0 h, seqsOf, h, List.map_nil]
  | succ k ih =>
    cases h : (s.queue q).cmds with
    | nil => rw [haltQueue_nil _ h, seqsOf, h, List.map_nil]
    | cons c l =>
      rw [haltQueue_cons k h]
      refine ih _ ?_
      have hlen := congrArg List.length (((haltFirst_stands s q c).seqs q).trans (seqs_takeHead s q))
      rw [seqsOf, h, List.length_map, List.length_map, List.drop_one, List.tail_cons] at hlen
      rw [h, List.length_cons] at hk
      omega

/-- Every command of a queue that waits to be launched is ended. -/
def State.haltAll (s : State) (q : Nat) : State := haltQueue q (s.queue q).cmds.length s

theorem fault_haltAlls (l : List Nat) (s : State) : FaultStays s (l.foldl State.haltAll s) := by
  induction l generalizing s with
  | nil => exact FaultStays.refl s
  | cons q l ih => exact (empties_haltQueue q _ s).fault.trans (ih _)

/-- Halting queues one after the other leaves each without a command. -/
theorem seqs_haltAlls (l : List Nat) (s : State) (n : Nat) (h : n ∈ l ∨ seqsOf s n = []) : seqsOf (l.foldl State.haltAll s) n = [] := by
  induction l generalizing s with
  | nil => simpa using h
  | cons q l ih =>
    refine ih _ ?_
    by_cases hn : n = q
    · subst hn
      exact .inr (seqs_haltQueue n _ s le_rfl)
    · exact (h.imp_left (fun hm => (List.mem_cons.1 hm).resolve_left hn)).imp_right
        (fun hs => ((empties_haltQueue q _ s).others n hn).trans hs)

/-- With no command in a queue there is none to end. -/
theorem haltAlls_none (l : List Nat) {s : State} (h : ∀ q, (s.queue q).cmds = []) : l.foldl State.haltAll s = s :=
  List.foldlRecOn (motive := fun t => t = s) l _ rfl (fun t ht q _ => by rw [ht]; exact haltQueue_nil _ (h q))

theorem cmds_of_seqs {s : State} {n : Nat} (h : seqsOf s n = []) : (s.queue n).cmds = [] := List.map_eq_nil_iff.1 h

/-- A queue that the dispatcher holds nothing of has no command. -/
theorem seqs_of_no_key {s : State} {n : Nat} (h : n ∉ s.sch.queues.map Prod.fst) : seqsOf s n = [] := by
  have hq : s.queue n = Queue.reset n := smGet_of_no_key (fun x hx e => h (e ▸ List.mem_map_of_mem hx))
  rw [seqsOf, hq]
  rfl

theorem ledgerHalt_eq {s : State} (h : s.sch.ledger = true) : s.ledgerHalt = (s.sch.queues.map Prod.fst).foldl State.haltAll s :=
  if_pos h

/-! ## Raising a ledger fault (R279) -/

theorem or_or_and_self (a b c : BitVec 4) : (a ||| b ||| c) &&& b = b := by
  ext i
  simp only [BitVec.getElem_and, BitVec.getElem_or]
  cases b[i] <;> simp

/-- A ledger fault of a kind is raised, and no command waits to be launched any more. -/
structure Raised (s t : State) (bit : BitVec 4) : Prop where
  ledger : t.sch.ledger = true
  kind   : t.sch.kind &&& bit = bit
  empty  : ∀ q, (t.queue q).cmds = []
  only   : (∀ q, (s.queue q).cmds = []) → t.sch.kind = s.sch.kind ||| bit

section
variable (s : State) (kind : Nat) (terms : List Byte)

theorem ledgerFlag_sch : (s.ledgerFlag kind terms).sch =
    { s.sch with ledger := true, kind := s.sch.kind ||| BitVec.ofNat 4 kind } := logRec_sch _ _

theorem ledgerFault_eq : s.ledgerFault kind terms =
    ((s.ledgerFlag kind terms).sch.queues.map Prod.fst).foldl State.haltAll (s.ledgerFlag kind terms) :=
  ledgerHalt_eq (by rw [ledgerFlag_sch])

theorem raised_ledgerFault : Raised s (s.ledgerFault kind terms) (BitVec.ofNat 4 kind) := by
  have hsch := ledgerFlag_sch s kind terms
  rw [ledgerFault_eq]
  obtain ⟨hledger, k, hkind⟩ := fault_haltAlls ((s.ledgerFlag kind terms).sch.queues.map Prod.fst) (s.ledgerFlag kind terms)
  refine ⟨hledger (by rw [hsch]), ?_, fun q => cmds_of_seqs (seqs_haltAlls _ _ q ?_), fun hempty => ?_⟩
  · rw [hkind, hsch]
    exact or_or_and_self _ _ _
  · exact (em _).imp_right seqs_of_no_key
  · have hnone : ∀ q, ((s.ledgerFlag kind terms).queue q).cmds = [] := fun q => by
      rw [State.queue, hsch]
      exact hempty q
    rw [haltAlls_none _ hnone, hsch]

end

/-! ## Reports (R276, R331, R443) -/

/-- A report that is noted, and that raises a fault of its kind where it is out of balance, does what O30 says. -/
theorem report_checked {c : Instr} {s t : State} {P : Prop} [Decidable P] {kind : Nat} {terms : List Byte}
    (h : exec c s = .next (if P then t else t.ledgerFault kind terms)) (hqueue : ∀ q, t.queue q = s.queue q)
    (hkind : t.sch.kind = s.sch.kind) :
    (P → Completes c s (fun u => u = t)) ∧ (¬ P → Completes c s (fun u => Raised s u (BitVec.ofNat 4 kind))) := by
  refine ⟨fun hp => ⟨t, h.trans (by rw [if_pos hp]), rfl⟩, fun hp => ⟨_, h.trans (by rw [if_neg hp]), ?_⟩⟩
  obtain ⟨hledger, hbit, hempty, honly⟩ := raised_ledgerFault t kind terms
  exact ⟨hledger, hbit, hempty, fun hs => hkind ▸ honly (fun q => (hqueue q).symm ▸ hs q)⟩

theorem balanced_iff (k : Link) (held : List Nat) : k.balanced held = true ↔ ∀ c, c < 5 →
    k.granted.getD c 0 = held.getD c 0 + k.buffer.getD c 0 + k.ret.getD c 0 + k.park.getD c 0 := by
  simp only [Link.balanced, List.all_eq_true, List.mem_range, decide_eq_true_eq]

/-- Settles O30: a report in balance is noted, and every other raises the ledger fault of its kind. -/
theorem ledgerReportsAreChecked : Obligations.LedgerReportsAreChecked := by
  unfold Obligations.LedgerReportsAreChecked
  intro s p l held d n pool reserve transit k balanced total raised
  have hraised {c : Instr} {bit : BitVec 4} (h : Completes c s (fun u => Raised s u bit)) : raised c bit := by
    obtain ⟨u, hu, hr⟩ := h
    exact ⟨u, hu, hr.ledger, hr.kind, hr.empty, hr.only⟩
  have htotal : s.pwr.dies.toList.foldl (fun n d => n + d.hold) 0 = (s.pwr.dies.toList.map (·.hold)).sum := by
    rw [List.sum_eq_foldl, List.foldl_map]
  obtain ⟨hlink, hlink'⟩ := report_checked (c := .ledgerReport (.link p l held)) (s := s) (P := k.balanced held = true) rfl
    (fun _ => rfl) rfl
  obtain ⟨hpilot, hpilot'⟩ := report_checked (c := .ledgerReport (.pilot d n)) (s := s) (P := n = (s.die d).hold) rfl
    (fun _ => rfl) rfl
  obtain ⟨hkeeper, hkeeper'⟩ := report_checked (c := .ledgerReport (.lockkeeper pool reserve transit)) (s := s)
    (P := pool + reserve + transit + s.pwr.dies.toList.foldl (fun n d => n + d.hold) 0 = 4600) rfl (fun _ => rfl) rfl
  rw [htotal] at hkeeper hkeeper'
  have hk := balanced_iff k held
  exact ⟨fun h => hlink (hk.2 h), fun h => hraised (hlink' (mt hk.1 h)), hpilot, fun h => hraised (hpilot' h), hkeeper,
    fun h => hraised (hkeeper' h)⟩

end Sys2Proof.Machine
end

/-!
PROOFS. Gangway groups: commits, and what each group's safe point applies (O44).
-/
section
namespace Sys2Proof.Machine

/-! ## Groups -/

theorem groupPort_queue (n : Nat) : groupPort (0x40 + n) = none := by
  have h : 0x40 + n - 0x30 = n + 15 + 1 := by omega
  rw [groupPort, if_pos (by omega), h]
  rfl

/-- A group is pending once its snapshot is taken (R394). -/
theorem groupPending_groupSnap (s : State) (g : Nat) : (s.groupSnap g).groupPending g = true := by
  unfold State.groupSnap State.groupPending
  split_ifs
  · rfl
  · rfl
  · rfl
  · split
    · rw [port_setPort]
      rfl
    · rw [queue_setQueue]
      rfl

/-- Taking a snapshot changes no core, sends nothing and writes no memory. -/
theorem groupSnap_keeps (s : State) (g : Nat) :
    (s.groupSnap g).cores = s.cores ∧ (s.groupSnap g).out = s.out ∧ SameBytes s (s.groupSnap g) := by
  unfold State.groupSnap
  split_ifs
  · exact ⟨rfl, rfl, sameBytes_of_store (fun l => by cases l <;> rfl)⟩
  · exact ⟨rfl, rfl, sameBytes_of_store (fun l => by cases l <;> rfl)⟩
  · exact ⟨rfl, rfl, sameBytes_of_store (fun l => by cases l <;> rfl)⟩
  · split <;> exact ⟨rfl, rfl, sameBytes_of_store (fun l => by cases l <;> rfl)⟩

/-! ## Commits (R394, R395) -/

section
variable {s : State} {g : Nat}

theorem commit_noGroup (h : isGroup g = false) : s.commit g = s.gangway g 3 3 0 := by
  simp [State.commit, h]

variable (h : isGroup g = true)
include h

theorem commit_pending (hp : s.groupPending g = true) : s.commit g = s.gangway g 3 2 0 := by
  simp [State.commit, h, hp]

theorem commit_outOfRange (hp : s.groupPending g = false) {off : Nat} (hb : s.groupBad g = some off) :
    s.commit g = s.gangway g 3 1 off := by
  simp [State.commit, h, hp, hb]

theorem commit_taken (hp : s.groupPending g = false) (hb : s.groupBad g = none) :
    s.commit g = (s.groupSnap g).gangway g 1 0 0 := by
  simp [State.commit, h, hp, hb]

end

/-! ## The report at a safe point (R394) -/

/-- The report of a group's commit tells, from s to t, that it has been applied. -/
def Reported (s t : State) (g : Nat) : Prop := s.hrw.gGroup.toNat = g → s.hrw.gResult = 1 → t.hrw.gResult = 2

theorem applied_eq (s : State) (g : Nat) : s.applied g = { s with hrw := { s.hrw with gResult := (s.applied g).hrw.gResult } } := by
  unfold State.applied
  split <;> rfl

theorem reported_applied (s : State) (g : Nat) : Reported s (s.applied g) g := fun hg hr => by
  have hc : (decide (s.hrw.gGroup.toNat = g) && decide (s.hrw.gResult = 1)) = true := by simp [hg, hr]
  exact congrArg (fun t : State => t.hrw.gResult) (if_pos hc)

/-- What leaves the window as it was leaves the report to be told. -/
theorem Reported.of_hrw {s t u : State} {g : Nat} (h : Reported t u g) (hrw : t.hrw = s.hrw) : Reported s u g :=
  fun hg hr => h (hrw ▸ hg) (hrw ▸ hr)

/-! ## Slack water settings (R292, R322) -/

/-- Choosing the parent leaves the slack water settings, and all but the timetable. -/
theorem reparent_keeps (s : State) : s.reparent = { s with tt := s.reparent.tt } ∧
    s.reparent.tt.slack = s.tt.slack ∧ s.reparent.tt.pend = s.tt.pend := by
  unfold State.reparent
  extract_lets t
  split
  · exact ⟨rfl, rfl, rfl⟩
  · split
    · exact ⟨rfl, rfl, rfl⟩
    · split <;> exact ⟨rfl, rfl, rfl⟩

theorem applySlack_eq {s : State} {x : Slack} (hp : s.tt.pend = some x) (ht : s.periodTurned = true) :
    s.applySlack = (s.setTT { s.tt with slack := x, pend := none }).reparent.applied 0x10 := by
  simp [State.applySlack, hp, ht]

/-! ## The job block (R341) -/

/-- Computing the routing tables changes the tables alone. -/
theorem routes_eq (s : State) : s.routes = { s with lnk := { s.lnk with
    routeX := s.routes.lnk.routeX, routeY := s.routes.lnk.routeY, routeZ := s.routes.lnk.routeZ } } := by
  unfold State.routes
  split <;> rfl

theorem applyBlock_eq {s : State} {b : Coord × Nat × Nat × Nat} (hp : s.lnk.pend = some b) (htxns : s.lnk.txns = [])
    (hrun : ∀ e : EngineId, (s.eng e).run = none) : s.applyBlock =
      (State.routes { s with lnk := { s.lnk with
        origin := b.1, extX := b.2.1, extY := b.2.2.1, extZ := b.2.2.2, pend := none } }).applied 0x21 := by
  obtain ⟨o, x, y, z⟩ := b
  simp [State.applyBlock, hp, htxns, hrun]

/-! ## A port's credit limits (R330) -/

/-- From s to t no port's limits differ, and none is newly pending or applied. -/
def SameLimits (s t : State) : Prop := ∀ q, (t.port q).limits = (s.port q).limits ∧ (t.port q).pend = (s.port q).pend

theorem SameLimits.refl (s : State) : SameLimits s s := fun _ => ⟨rfl, rfl⟩

theorem SameLimits.trans {s t u : State} (h : SameLimits s t) (k : SameLimits t u) : SameLimits s u :=
  fun q => ⟨(k q).1.trans (h q).1, (k q).2.trans (h q).2⟩

theorem sameLimits_foldl {α : Type} (f : State → α → State) (h : ∀ t x, SameLimits t (f t x)) (l : List α) (s : State) :
    SameLimits s (l.foldl f s) := by
  induction l generalizing s with
  | nil => exact SameLimits.refl s
  | cons x t ih => exact (h s x).trans (ih (f s x))

theorem sameLimits_of_lnk {s t : State} (h : t.lnk = s.lnk) : SameLimits s t := fun q => by
  rw [State.port, h, State.port]
  exact ⟨rfl, rfl⟩

theorem sameLimits_setPort (s : State) (p : Port) (x : PortSt) (hl : x.limits = (s.port p).limits) (hp : x.pend = (s.port p).pend) :
    SameLimits s (s.setPort p x) := fun q => by
  rw [port_setPort_eq]
  split
  case isTrue h => rw [h]; exact ⟨hl, hp⟩
  case isFalse => exact ⟨rfl, rfl⟩

theorem sameLimits_setLink (s : State) (p : Port) (l : LinkId) (x : Link) : SameLimits s (s.setLink p l x) := by
  cases l <;> exact sameLimits_setPort s p _ rfl rfl

theorem sameLimits_frameOut (s : State) (p : Port) (l : LinkId) (ts : List OutTxn) : SameLimits s (s.frameOut p l ts) :=
  (sameLimits_setLink s p l _).trans (sameLimits_of_lnk rfl)

theorem sameLimits_creditBack (s : State) (p : Port) (l : LinkId) (c n : Nat) : SameLimits s (s.creditBack p l c n) := by
  unfold State.creditBack
  dsimp only
  split <;> exact sameLimits_setLink s p l _

theorem sameLimits_leaveBuffer (s : State) (t : OutTxn) : SameLimits s (s.leaveBuffer t) := by
  unfold State.leaveBuffer
  split
  · exact SameLimits.refl s
  · exact (sameLimits_setLink s _ _ _).trans (sameLimits_creditBack _ _ _ _ _)

theorem sameLimits_takeTxn (s : State) (p : Port) (l : LinkId) (t : OutTxn) : SameLimits s (s.takeTxn p l t).1 :=
  (sameLimits_setPort s p _ (by rfl) (by rfl)).trans (sameLimits_setLink _ p l _)

theorem sameLimits_loadFrame (p : Port) (l : LinkId) (k room : Nat) (s : State) (ts : List OutTxn) :
    SameLimits s (State.loadFrame p l k room s ts).1 := by
  induction k generalizing room s ts with
  | zero => exact SameLimits.refl s
  | succ k ih =>
    unfold State.loadFrame
    split
    · exact SameLimits.refl s
    · dsimp only
      split
      · exact (sameLimits_takeTxn s p l _).trans (ih _ _ _)
      · exact SameLimits.refl s

theorem sameLimits_pumpLink (p : Port) (l : LinkId) (k : Nat) (s : State) : SameLimits s (State.pumpLink p l k s) := by
  induction k generalizing s with
  | zero => exact SameLimits.refl s
  | succ k ih =>
    unfold State.pumpLink
    split
    case isTrue => exact SameLimits.refl s
    split
    next ts rest _ =>
      dsimp only
      split
      · exact (((sameLimits_setPort s p _ (by rfl) (by rfl)).trans (sameLimits_setLink _ p l _)).trans
          (sameLimits_frameOut _ p l _)).trans (ih _)
      · exact SameLimits.refl s
    next _ =>
      have h := sameLimits_loadFrame p l frameFlits frameFlits s []
      split
      · exact SameLimits.refl s
      · next _ heq =>
        rw [heq] at h
        exact ((h.trans (sameLimits_frameOut _ p l _)).trans (sameLimits_foldl _ sameLimits_leaveBuffer _ _)).trans (ih _)

theorem sameLimits_pumpPort (s : State) (p : Port) : SameLimits s (s.pumpPort p) := by
  have hold : SameLimits s (s.holdBack p) :=
    (sameLimits_setPort s p { s.port p with txq := (s.port p).txq.filter (fun t => !t.late s.tt.now) } rfl rfl).trans
      (sameLimits_foldl (fun t (b : OutTxn) => { t with col := t.col.map (fun g => g.takeBack b.x) })
        (fun _ _ => sameLimits_of_lnk rfl) _ _)
  exact (hold.trans (sameLimits_pumpLink p .a _ _)).trans (sameLimits_pumpLink p .b _ _)

theorem sameLimits_flushOwed (s : State) (p : Port) (l : LinkId) : SameLimits s (s.flushOwed p l) := by
  unfold State.flushOwed
  dsimp only
  split
  · exact sameLimits_frameOut s p l []
  · exact SameLimits.refl s

theorem sameLimits_pump (s : State) : SameLimits s s.pump :=
  (sameLimits_foldl _ sameLimits_pumpPort _ s).trans
    (sameLimits_foldl _ (fun _ p => (sameLimits_flushOwed _ p .a).trans (sameLimits_flushOwed _ p .b)) _ _)

/-- The state in which a port's committed limits are in force, with what they raise granted on its links. -/
def State.limited (s : State) (p : Port) (l : List Nat) : State :=
  s.setPort p { s.port p with limits := l, pend := none, la := (s.port p).la.raised l, lb := (s.port p).lb.raised l }

theorem applyCredit_eq {s : State} {p : Port} {l : List Nat} (hp : (s.port p).pend = some l) :
    s.applyCredit p = ((s.limited p l).applied (0x30 + (portNum p).val)).pump := by
  rw [State.applyCredit]
  simp only [hp]
  rfl

theorem applyCredit_limits {s : State} {p : Port} {l : List Nat} (hp : (s.port p).pend = some l) :
    ((s.applyCredit p).port p).limits = l ∧ ((s.applyCredit p).port p).pend = none ∧ SameBytes s (s.applyCredit p) ∧
      Reported s (s.applyCredit p) (0x30 + (portNum p).val) := by
  have hport : ((s.limited p l).applied (0x30 + (portNum p).val)).port p = (s.limited p l).port p := by
    rw [applied_eq]
    rfl
  have hbytes : SameBytes s ((s.limited p l).applied (0x30 + (portNum p).val)) := by
    rw [applied_eq]
    exact sameBytes_of_store (fun l => by cases l <;> rfl)
  have hrep := (reported_applied (s.limited p l) (0x30 + (portNum p).val)).of_hrw (s := s) rfl
  rw [applyCredit_eq hp]
  generalize (s.limited p l).applied (0x30 + (portNum p).val) = t at hport hbytes hrep
  have hsame := sameLimits_pump t p
  rw [hport, State.limited, port_setPort] at hsame
  refine ⟨hsame.1, hsame.2, sameBytes_trans hbytes (sameBytes_netOnly (netOnly_pump t)), fun hg hr => ?_⟩
  rw [portsOnly_pump t]
  exact hrep hg hr

/-! ## A queue's configuration (R254) -/

/-- A queue's pending configuration comes into force, and its commit's report tells. -/
theorem applyQueue_eq {s : State} {q : Nat} {c : QCfg} (hp : (s.queue q).pend = some c) :
    s.applyQueue q = (s.setQueue q { s.queue q with cfg := c, pend := none }).applied (0x40 + q) := by
  simp only [State.applyQueue, hp]
  rfl

theorem applyGroup_queue {s : State} {n : Nat} (hn : n < 64) (he : (s.queue n).enabled = false)
    (ho : (s.queue n).accepted ≤ (s.queue n).written) : s.applyGroup (0x40 + n) = s.applyQueue n := by
  have hsub : 0x40 + n - 0x40 = n := by omega
  have hout : (s.queue n).outstanding = 0 := Nat.sub_eq_zero_of_le ho
  have hlt : 0x40 + n < 0x80 := by omega
  rw [State.applyGroup, if_neg (by omega), if_neg (by omega), if_neg (by omega), groupPort_queue]
  simp [hsub, he, hout, hlt]

/-! ## The HOST aperture (R380) -/

/-- With no command held for the aperture's change, none goes on. -/
theorem releaseHost_none {s : State} (h : ∀ x ∈ s.cores, ∀ i, (s.core x.1).seq.cond ≠ .apertureHeld i) : s.releaseHost = s := by
  refine List.foldlRecOn (motive := fun t : State => t = s) s.cores _ rfl (fun t ht x hx => ?_)
  rw [ht]
  split
  · next i hi => exact absurd hi (h x hx i)
  · rfl

theorem applyAperture_eq {s : State} {b : Nat × Nat} (hp : s.hrw.apPend = some b) (hfree : ∀ x ∈ s.cores, x.2.fer.namesHost = false) :
    s.applyAperture =
      (State.applied { s with hrw := { s.hrw with apBase := b.1, apSize := b.2, apPend := none } } 0x80).releaseHost := by
  have hany : s.cores.any (fun x => x.2.fer.namesHost) = false := List.any_eq_false.2 (fun x hx => by rw [hfree x hx]; decide)
  simp [State.applyAperture, hp, hany]

/-! ## The statement -/

theorem applyGroup_port (s : State) (p : Port) : s.applyGroup (0x30 + (portNum p).val) = s.applyCredit p := by
  cases p <;> rfl

theorem toNat_portGroup (p : Port) : (0x30 + BitVec.ofNat 8 (portNum p).val : Byte).toNat = 0x30 + (portNum p).val := by
  cases p <;> rfl

theorem toNat_queueGroup (q : QueueId) : (0x40 + q.setWidth 8 : Byte).toNat = 0x40 + q.toNat := by
  have hq := q.isLt
  rw [BitVec.toNat_add, BitVec.toNat_setWidth]
  change (0x40 + q.toNat % 2 ^ 8) % 2 ^ 8 = 0x40 + q.toNat
  omega

/-- Settles O44: a commit by what it finds, and each safe point by the lemma of its group. -/
theorem gangwayGroupsCommitAndApply : Obligations.GangwayGroupsCommitAndApply := by
  unfold Obligations.GangwayGroupsCommitAndApply
  intro s w p q g told reported
  refine ⟨fun hreach => ?commit, fun x hp hturn => ?slack, fun b hp htxns hrun => ?block, fun l hp => ?port, fun c hp he ho => ?queue,
    fun b hp hfree hheld hcores => ?aperture⟩
  case commit =>
    have hexec : exec (.hrwGangwayCommit w) s = .next (s.commit g) := congrArg Host.Outcome.next (regWrite_reaches hreach _)
    refine ⟨fun hg => ⟨_, hexec, commit_noGroup hg⟩, fun hg hpend => ⟨_, hexec, commit_pending hg hpend⟩,
      fun off hg hpend hbad => ⟨_, hexec, commit_outOfRange hg hpend hbad⟩, fun hg hpend hbad => ?_⟩
    obtain ⟨hcores, hout, hbytes⟩ := groupSnap_keeps s g
    have hlt : g < 2 ^ 8 := Nat.mod_lt _ (by decide)
    rw [commit_taken hg hpend hbad] at hexec
    exact ⟨_, hexec, groupPending_groupSnap s g, (BitVec.toNat_ofNat _ _).trans (Nat.mod_eq_of_lt hlt), rfl,
      sameBytes_trans hbytes (sameBytes_of_store (fun l => by cases l <;> rfl)), hcores, hout⟩
  case slack =>
    obtain ⟨honly, hslack, hpend⟩ := reparent_keeps (s.setTT { s.tt with slack := x, pend := none })
    have hrep := reported_applied (s.setTT { s.tt with slack := x, pend := none }).reparent 0x10
    refine ⟨_, congrArg Host.Outcome.next (applySlack_eq hp hturn), ?_, ?_, ?_, hrep.of_hrw (by rw [honly]; rfl)⟩
    · rw [applied_eq]
      exact hslack
    · rw [applied_eq]
      exact hpend
    · rw [applied_eq, honly]
      rfl
  case block =>
    refine ⟨_, congrArg Host.Outcome.next (applyBlock_eq hp htxns hrun), ?_, ?_, ?_, ?_,
      (reported_applied _ 0x21).of_hrw (by rw [routes_eq])⟩
    all_goals
      rw [applied_eq, routes_eq]
  case port =>
    have hexec : exec (.gangwayApply (0x30 + BitVec.ofNat 8 (portNum p).val)) s = .next (s.applyCredit p) := by
      refine congrArg Host.Outcome.next ?_
      rw [toNat_portGroup, applyGroup_port]
    exact ⟨_, hexec, applyCredit_limits hp⟩
  case queue =>
    have hexec : exec (.gangwayApply (0x40 + q.setWidth 8)) s = .next (s.applyQueue q.toNat) := by
      refine congrArg Host.Outcome.next ?_
      rw [toNat_queueGroup, applyGroup_queue q.isLt he ho]
    rw [applyQueue_eq hp] at hexec
    refine ⟨_, hexec, ?_, ?_, (reported_applied _ _).of_hrw rfl⟩
    · rw [applied_eq]
      exact queue_setQueue s q.toNat _
    · rw [applied_eq]
      rfl
  case aperture =>
    have hexec : exec (.gangwayApply 0x80) s = .next s.applyAperture := rfl
    rw [applyAperture_eq hp hfree] at hexec
    have honly := applied_eq { s with hrw := { s.hrw with apBase := b.1, apSize := b.2, apPend := none } } 0x80
    have hrep := (reported_applied { s with hrw := { s.hrw with apBase := b.1, apSize := b.2, apPend := none } } 0x80)
    generalize State.applied { s with hrw := { s.hrw with apBase := b.1, apSize := b.2, apPend := none } } 0x80 = t at honly hrep hexec
    have hcore : t.cores = s.cores := by rw [honly]
    have hrelease : t.releaseHost = t := by
      refine releaseHost_none (fun x hx i => ?_)
      rw [hcore] at hx
      rw [State.core, hcore, ← State.core, hcores x hx]
      exact hheld x hx i
    rw [hrelease] at hexec
    refine ⟨t, hexec, ?_, ?_, hcore, hrep⟩
    · rw [honly]
    · rw [honly]

end Sys2Proof.Machine
end

/-!
PROOFS. The timetable's rows (O35): holdover, TT_SYNC and its loss, the exchange every 62.5 µs, and a message of the one neighbour
that offers tide time.
-/
section
namespace Sys2Proof.Machine

/-! ## Originating and TT_SYNC (R285 to R288, R516) -/

section
variable {s : State}

theorem exec_holdoverTimeout (hstate : s.tt.state = .holdover) (htime : s.tt.since + 10000000 ≤ s.wall) :
    exec .holdoverTimeout s = .next { s with tt := { s.tt with state := .unlocked, since := s.wall } } := by
  change Host.Outcome.next s.holdoverTimeout = _
  rw [State.holdoverTimeout, if_pos (by simp [hstate, htime])]
  rfl

/-- A master under BOARD without edges goes on under LINK_REF (R288). -/
theorem exec_boardSourceTimeout (hmaster : s.boardMaster = true) (hstate : s.tt.state = .acquire) (hoffer : bestOffer s = none)
    (hsync : ∀ w, s.tt.lastSync = some w → w < s.tt.since) (htime : s.tt.since + 2000000000 ≤ s.wall) :
    exec .boardSourceTimeout s = .next ((s.originate 0 1).logRec ⟨Config.boardEventType, 9, sNOTICE, 0, []⟩) := by
  have hall : s.tt.lastSync.all (· < s.tt.since) = true := by
    cases h : s.tt.lastSync with
    | none => rfl
    | some w => exact decide_eq_true (hsync w h)
  change Host.Outcome.next s.boardTimeout = _
  rw [State.boardTimeout, if_pos (by simp [hmaster, hstate, hoffer, hall, htime])]

/-- The first edge of TT_SYNC that a master takes tide time from (R286). -/
theorem exec_ttSyncEdge_originates (hmaster : s.boardMaster = true) (hstate : s.tt.state = .acquire) (hnone : s.noneOffers = true) :
    ∃ u : State, u.tt.runs = s.tt.runs ∧ u.tt.now = s.tt.now ∧ SameBytes s u ∧ ∃ n k,
      exec .ttSyncEdge s = .next { u.originate (n * 1000000000) 2 with freeCtr := k } := by
  let u : State := { s with pins := { s.pins with ttRef := true }, tt := { s.tt with lastSync := some s.wall } }
  refine ⟨u, rfl, rfl, sameBytes_of_store (fun l => by cases l <;> rfl), Config.syncSecond s.freeCtr, s.freeCtr + 1, ?_⟩
  have hstate' : u.tt.state = .acquire := hstate
  have hnone' : u.noneOffers = true := hnone
  change Host.Outcome.next s.syncEdge = _
  rw [State.syncEdge, if_neg (by simp [hmaster])]
  change Host.Outcome.next (if u.tt.state = .acquire then if u.noneOffers = true then _ else _ else _) = _
  rw [if_pos hstate', if_pos hnone']
  rfl

/-- A later edge only shows a master the offset to lose (R285, R287). -/
theorem exec_ttSyncEdge_notes (hmaster : s.boardMaster = true) (hstate : s.tt.state ≠ .acquire) :
    exec .ttSyncEdge s = .next { s with
      pins := { s.pins with ttRef := true }
      tt := { s.tt with
        src := 2, lastSync := some s.wall, refLost := s.tt.refLost && decide (2 < (secondOffset s.tt.now).natAbs)
        left := secondOffset s.tt.now * 1000000000 + s.tt.frac, leftAt := s.wall } } := by
  let u : State := { s with pins := { s.pins with ttRef := true }, tt := { s.tt with lastSync := some s.wall } }
  have hstate' : ¬ u.tt.state = .acquire := hstate
  have hnear : (!decide ((secondOffset s.tt.now).natAbs ≤ 2)) = decide (2 < (secondOffset s.tt.now).natAbs) := by
    rw [← decide_not, decide_eq_decide]
    omega
  rw [← hnear]
  change Host.Outcome.next s.syncEdge = _
  rw [State.syncEdge, if_neg (by simp [hmaster])]
  change Host.Outcome.next (if u.tt.state = .acquire then _ else _) = _
  rw [if_neg hstate']
  rfl

theorem exec_ttRefLoss (hmaster : s.boardMaster = true) (hruns : s.tt.runs = true) :
    exec .ttRefLoss s = .next { s with pins := { s.pins with ttRef := false }, tt := { s.tt with refLost := true } } := by
  change Host.Outcome.next s.refLoss = _
  rw [State.refLoss, if_pos (by simp [hmaster, hruns])]
  rfl

end

/-! ## The exchange (R287, R290) -/

theorem PortsOnly.tt {s t : State} (h : PortsOnly s t) : t.tt = s.tt := by rw [h]

theorem PortsOnly.wall {s t : State} (h : PortsOnly s t) : t.wall = s.wall := by rw [h]

/-- A place of every port of a list set to one value. -/
theorem getElem_foldl_set {α : Type} (x : α) (l : List Port) (v : Vector α 6) (q : Port) :
    (l.foldl (fun v p => v.set (portNum p) x) v)[portNum q] = if q ∈ l then x else v[portNum q] := by
  induction l generalizing v with
  | nil => rfl
  | cons p t ih =>
    rw [List.foldl_cons, ih]
    by_cases hqt : q ∈ t
    · simp [hqt]
    · by_cases hqp : q = p
      · subst hqp
        simp
      · have hne : (portNum p).val ≠ (portNum q).val := fun h => hqp (portNum_injective (Fin.ext h)).symm
        simp [hqt, hqp, Vector.getElem_set_ne _ _ hne]

/-- The ports whose neighbour is reached. -/
def State.reachedPorts (s : State) : List Port := allPorts.filter (fun p => (s.port p).up)

theorem mem_reachedPorts {s : State} {q : Port} : q ∈ s.reachedPorts ↔ (s.port q).up = true := by
  have hall : q ∈ allPorts := by cases q <;> decide
  simp [State.reachedPorts, hall]

/-- A master under BOARD that sees its edges takes a step. -/
theorem slew_sees {s : State} (hmaster : s.boardMaster = true) (hstate : s.tt.state ≠ .acquire) (hpins : s.pins.ttRef = true) :
    s.slew = s.setTT { s.tt with ppb := slewRate s.slewBound s.offsetLeft s.tt.ppb, left := s.offsetLeft, leftAt := s.wall } := by
  rw [State.slew, if_pos (by simp [hmaster, hstate, hpins])]

theorem slew_stands {s : State} (h : ¬ (s.boardMaster = true ∧ s.pins.ttRef = true)) : s.slew = s := by
  rw [State.slew, if_neg]
  simp only [Bool.and_eq_true]
  exact fun hc => h ⟨hc.1.1, hc.2⟩

/-- A step changes the rate and what is left, and no more. -/
theorem slew_only (s : State) :
    s.slew = s.setTT { s.tt with ppb := s.slew.tt.ppb, left := s.slew.tt.left, leftAt := s.slew.tt.leftAt } := by
  unfold State.slew
  split <;> rfl

section
variable {s : State}

theorem tryOriginate_running (hstate : s.tt.state ≠ .acquire) : s.tryOriginate = s := by
  rw [State.tryOriginate, if_neg (by simp [hstate])]

theorem exec_timetableExchange_early (hstate : s.tt.state ≠ .acquire) (htime : s.tt.lastExch.any (fun w => s.wall < w + 62500) = true) :
    exec .timetableExchange s = .next s := by
  change Host.Outcome.next s.exchange = _
  simp only [State.exchange, tryOriginate_running hstate, htime, if_true]

/-- What the messages of an exchange leave: they note that they were sent. -/
structure Exchanged (s t : State) : Prop where
  bytes  : SameBytes s t
  sentAt : ∀ q, t.tt.sentAt[portNum q] = if (s.port q).up then some s.wall else s.tt.sentAt[portNum q]
  tt     : t.tt = { s.slew.tt with
    lastExch := some s.wall, sentAt := t.tt.sentAt
    sent := if s.tt.parent.any (fun q => (s.port q).up) then s.tt.sent + 1 else s.tt.sent }

theorem exec_timetableExchange (hstate : s.tt.state ≠ .acquire) (htime : s.tt.lastExch.any (fun w => s.wall < w + 62500) = false) :
    Completes .timetableExchange s (Exchanged s) := by
  let u := s.reachedPorts.foldl (fun v p => v.post p 0x0C (v.timeTxn p) none) s.slew
  have hposts : PortsOnly s.slew u := portsOnly_foldl _ (fun v p => portsOnly_setPort v p _) _ _
  have htt : u.tt = s.slew.tt := hposts.tt
  have hwall : u.wall = s.wall := by rw [hposts.wall, slew_only]; rfl
  let v := u.setTT { u.tt with
    lastExch := some u.wall
    sentAt := s.reachedPorts.foldl (fun w p => w.set (portNum p) (some u.wall)) u.tt.sentAt
    sent := if u.tt.parent.any s.reachedPorts.contains then u.tt.sent + 1 else u.tt.sent }
  have hexec : exec .timetableExchange s = .next v.pump := by
    change Host.Outcome.next s.exchange = _
    simp only [State.exchange, tryOriginate_running hstate, htime, Bool.false_eq_true, if_false]
    rfl
  have hparent : s.slew.tt.parent = s.tt.parent ∧ s.slew.tt.sent = s.tt.sent ∧ s.slew.tt.sentAt = s.tt.sentAt := by
    rw [slew_only]
    exact ⟨rfl, rfl, rfl⟩
  have hreached : s.reachedPorts.contains = fun q => (s.port q).up := by
    funext q
    rw [Bool.eq_iff_iff, List.contains_iff_mem, mem_reachedPorts]
  have hpump : v.pump.tt = v.tt := (portsOnly_pump v).tt
  have hv : v.tt = { s.slew.tt with
      lastExch := some s.wall
      sentAt := s.reachedPorts.foldl (fun w p => w.set (portNum p) (some s.wall)) s.tt.sentAt
      sent := if s.tt.parent.any (fun q => (s.port q).up) then s.tt.sent + 1 else s.tt.sent } := by
    simp only [v, State.setTT, hwall, htt, hparent, hreached]
  refine ⟨v.pump, hexec, ?_, fun q => ?_, ?_⟩
  · have hslew : SameBytes s s.slew := sameBytes_of_store (fun l => by rw [slew_only]; cases l <;> rfl)
    have hset : SameBytes u v := sameBytes_of_store (fun l => by cases l <;> rfl)
    exact sameBytes_trans (sameBytes_trans (sameBytes_trans hslew (sameBytes_netOnly hposts.netOnly)) hset)
      (sameBytes_netOnly (netOnly_pump v))
  · rw [hpump, hv]
    simp only [getElem_foldl_set, mem_reachedPorts]
  · rw [hpump, hv]

end

/-! ## A message of the one neighbour that offers tide time (R286, R289, R290) -/

section
variable {s : State} {p : Port} {o : Offer}

theorem offerOf_single (h : s.tt.offers = [((portNum p).val, o)]) (q : Port) : s.offerOf q = if q = p then some o else none := by
  by_cases hq : q = p
  · simp [State.offerOf, h, hq]
  · have hne : ¬ portNum p = portNum q := fun e => hq (portNum_injective e).symm
    simp [State.offerOf, h, hq, Fin.val_inj, hne]

/-- The only offer is the best. -/
theorem bestOffer_single (h : s.tt.offers = [((portNum p).val, o)]) (hup : (s.port p).up = true) (ho : o.offers = true) :
    bestOffer s = some (p, o.depth) := by
  have hdepth (q : Port) : s.offeredDepth q = if q = p then some o.depth else none := by
    rw [State.offeredDepth, offerOf_single h]
    by_cases hq : q = p
    · simp [hq, hup, ho]
    · simp [hq]
  simp only [bestOffer, parentOrder, List.foldl_cons, List.foldl_nil, hdepth]
  cases p <;> rfl

theorem reparent_single (h : s.tt.offers = [((portNum p).val, o)]) (hup : (s.port p).up = true) (ho : o.offers = true)
    (hmaster : s.isMaster = false) (hstate : s.tt.state = .acquire ∨ s.tt.state = .locked) :
    s.reparent = s.setTT { s.tt with slackMM := s.slackClash, parent := some p, depth := o.depth + 1 } := by
  have hstays : (decide (s.tt.state = .holdover) || decide (s.tt.state = .unlocked)) = false := by
    rcases hstate with h | h <;> rw [h] <;> rfl
  simp only [State.reparent, hmaster, Bool.false_and, Bool.false_eq_true, if_false, bestOffer_single h hup ho, hstays, if_true]

end

section
variable {s : State}

theorem lock_lnk (s : State) : s.lock.lnk = s.lnk := by
  unfold State.lock
  split <;> rfl

theorem tryOriginate_lnk (s : State) : s.tryOriginate.lnk = s.lnk := by
  unfold State.tryOriginate
  split <;> rfl

theorem reparent_lnk (s : State) : s.reparent.lnk = s.lnk := by
  unfold State.reparent
  dsimp only
  split
  · rfl
  · split
    · rfl
    · split <;> rfl

theorem fromParent_lnk (s : State) (p : Port) (m : TimeMsg) (delay : Nat) : (s.fromParent p m delay).lnk = s.lnk := by
  unfold State.fromParent
  dsimp only
  split_ifs
  · rfl
  · rw [lock_lnk]
    rfl
  · rfl

/-- A message of the timetable changes nothing of the links. -/
theorem timeMessage_lnk (s : State) (p : Port) (m : TimeMsg) : (s.timeMessage p m).lnk = s.lnk := by
  unfold State.timeMessage
  dsimp only
  split_ifs
  · rw [fromParent_lnk, reparent_lnk]
    rfl
  · rw [tryOriginate_lnk, reparent_lnk]
    rfl

variable {p : Port} {m : TimeMsg}

/-- The unit once it has noted a message's offer and followed it, the only one. -/
def State.heard (s : State) (p : Port) (m : TimeMsg) : State :=
  let t := s.setTT { s.tt with
    offers := [((portNum p).val, ⟨true, m.offers, m.depth, m.slack⟩)]
    linkDly := s.tt.linkDly.set (portNum p) (BitVec.ofNat 32 (s.oneWay p m.turn)) }
  t.setTT { t.tt with slackMM := t.slackClash, parent := some p, depth := m.depth + 1 }

theorem timeMessage_heard (hothers : ∀ x ∈ s.tt.offers, x.1 = (portNum p).val) (hup : (s.port p).up = true)
    (ho : m.offers = true) (hmaster : s.isMaster = false) (hstate : s.tt.state = .acquire ∨ s.tt.state = .locked) :
    s.timeMessage p m = (s.heard p m).fromParent p m (s.oneWay p m.turn) := by
  have hnone : s.tt.offers.filter (fun x => x.1 ≠ (portNum p).val) = [] :=
    List.filter_eq_nil_iff.2 (fun x hx => by simp [hothers x hx])
  let t := s.setTT { s.tt with
    offers := [((portNum p).val, ⟨true, m.offers, m.depth, m.slack⟩)]
    linkDly := s.tt.linkDly.set (portNum p) (BitVec.ofNat 32 (s.oneWay p m.turn)) }
  have hreparent : t.reparent = s.heard p m := reparent_single (s := t) rfl hup ho hmaster hstate
  simp only [State.timeMessage, hnone, List.nil_append]
  rw [hreparent]
  exact if_pos rfl

/-- A message that comes in its turn goes to the timetable unit; the links then send what they can. -/
theorem arrive_time (hup : (s.port p).up = true) (hturn : m.num = (s.port p).rxNum.getD 0 0) (hearly : (s.port p).early = []) :
    PortsOnly ((s.took p 0).timeMessage p m) (s.arrive p (.time m)) := by
  let t := (s.took p 0).timeMessage p m
  let v := t.creditBack p m.link 0 1
  have hdeliver : s.deliver p (.time m) = v := rfl
  have hnone : (v.port p).early = [] := by
    rw [(early_creditBack t p m.link 0 1).1, State.port, timeMessage_lnk, ← State.port, State.took, port_setPort]
    exact hearly
  rw [arrive_in_turn (e := .time m) hup hturn (by simp [hearly]), hdeliver, drainEarly_none (by simp [hnone])]
  exact (portsOnly_creditBack t p m.link 0 1).trans (portsOnly_pump v)

/-- What a message that comes in its turn from the one neighbour that offers tide time does to the unit. -/
theorem exec_timetableMessage (hup : (s.port p).up = true) (hturn : m.num = (s.port p).rxNum.getD 0 0)
    (hearly : (s.port p).early = []) (ho : m.offers = true) (hmaster : s.isMaster = false)
    (hothers : ∀ x ∈ s.tt.offers, x.1 = (portNum p).val) (hstate : s.tt.state = .acquire ∨ s.tt.state = .locked) :
    Completes (.timetableMessage p m) s (fun t => t.tt = (((s.took p 0).heard p m).fromParent p m (s.oneWay p m.turn)).tt) := by
  have htook : ((s.took p 0).port p).up = true := by
    rw [State.took, port_setPort]
    exact hup
  have hheard := timeMessage_heard (s := s.took p 0) hothers htook ho hmaster hstate
  have harrive := (arrive_time hup hturn hearly).tt
  rw [hheard] at harrive
  exact ⟨_, rfl, harrive⟩

/-- The first message sets the time (R286). -/
theorem fromParent_sets (hstate : s.tt.state = .acquire) (hruns : s.tt.runs = false) (delay : Nat) :
    s.fromParent p m delay = s.setTT { s.tt with
      now := (m.now + delay) / 16, frac := (m.now + delay) % 16 * 62500000, ppb := 0, runs := true, lastOfs := none } := by
  rw [State.fromParent, if_pos (by simp [hstate, hruns])]

/-- A later message sets the rate, and locks a device near its parent (R290, R292). -/
theorem fromParent_follows (hruns : s.tt.runs = true) (hmaster : s.isMaster = false)
    (hstate : s.tt.state = .acquire ∨ s.tt.state = .locked) (delay : Nat) :
    ∃ rate lastOfs since, rate.natAbs ≤ 50000 ∧ (s.fromParent p m delay).tt = { s.tt with
      offset := BitVec.ofInt 32 (offsetOf s.tt m delay), ppb := rate, lastOfs := lastOfs, since := since
      state := if (offsetOf s.tt m delay).natAbs ≤ 16 then .locked else s.tt.state } := by
  let t := s.setTT { s.tt with offset := BitVec.ofInt 32 (offsetOf s.tt m delay) }
  let u := t.follow p (offsetOf s.tt m delay)
  have hmaster' : u.isMaster = false := hmaster
  have hbound : u.tt.ppb.natAbs ≤ 50000 := follow_bound t p _
  rw [State.fromParent, if_neg (by simp [hruns])]
  change ∃ rate lastOfs since, _ ∧ (if (decide (s.tt.state = .acquire) && decide ((offsetOf s.tt m delay).natAbs ≤ 16)) = true
    then u.lock else u).tt = _
  by_cases hnear : (offsetOf s.tt m delay).natAbs ≤ 16
  · rcases hstate with hstate | hstate
    · refine ⟨u.tt.ppb, u.tt.lastOfs, s.wall, hbound, ?_⟩
      rw [if_pos (by simp [hstate, hnear]), if_pos hnear, State.lock, if_neg (by simp [hmaster'])]
      rfl
    · refine ⟨u.tt.ppb, u.tt.lastOfs, s.tt.since, hbound, ?_⟩
      rw [if_neg (by simp [hstate]), if_pos hnear, ← hstate]
      rfl
  · refine ⟨u.tt.ppb, u.tt.lastOfs, s.tt.since, hbound, ?_⟩
    rw [if_neg (by simp [hnear]), if_neg hnear]
    rfl

end

/-! ## The claim -/

/-- A later message from a device's parent (R290 to R292). -/
theorem timetableMessage_follows {s : State} {p : Port} {m : TimeMsg} (hup : (s.port p).up = true)
    (hturn : m.num = (s.port p).rxNum.getD 0 0) (hearly : (s.port p).early = []) (ho : m.offers = true) (hmaster : s.isMaster = false)
    (hstate : s.tt.state = .acquire ∨ s.tt.state = .locked) (hruns : s.tt.runs = true)
    (hothers : ∀ x ∈ s.tt.offers, x.1 = (portNum p).val) :
    Completes (.timetableMessage p m) s (fun t => t.tt.now = s.tt.now ∧ t.tt.frac = s.tt.frac ∧ t.tt.parent = some p ∧
      t.tt.offset = BitVec.ofInt 32 (offsetOf s.tt m (s.oneWay p m.turn)) ∧ t.tt.ppb.natAbs ≤ 50000 ∧
      t.tt.state = if (offsetOf s.tt m (s.oneWay p m.turn)).natAbs ≤ 16 then .locked else s.tt.state) := by
  obtain ⟨t, hexec, htt⟩ := exec_timetableMessage hup hturn hearly ho hmaster hothers hstate
  obtain ⟨rate, lastOfs, since, hbound, hfollow⟩ :=
    fromParent_follows (s := (s.took p 0).heard p m) (p := p) (m := m) hruns hmaster hstate (s.oneWay p m.turn)
  rw [hfollow] at htt
  refine ⟨t, hexec, ?_⟩
  beta_reduce
  rw [htt]
  exact ⟨rfl, rfl, rfl, rfl, hbound, rfl⟩

/-- The rate of a master, and that of any other device, at an exchange (R287, R291). -/
theorem exchanged_rate {s t : State} (h : Exchanged s t) (hstate : s.tt.state ≠ .acquire) :
    if s.boardMaster = true ∧ s.pins.ttRef = true then
      (t.tt.ppb - s.tt.ppb).natAbs ≤ 20 ∧ (s.tt.ppb.natAbs ≤ s.slewBound → t.tt.ppb.natAbs ≤ s.slewBound) ∧
      t.tt.left = s.tt.left + s.tt.ppb * ((s.wall - s.tt.leftAt : Nat) : Int) ∧ t.tt.leftAt = s.wall
    else t.tt.ppb = s.tt.ppb ∧ t.tt.left = s.tt.left ∧ t.tt.leftAt = s.tt.leftAt := by
  rw [h.tt]
  split
  case isTrue hmaster =>
    obtain ⟨hstep, hbound⟩ := slewRate_step s.slewBound s.offsetLeft s.tt.ppb
    rw [slew_sees hmaster.1 hstate hmaster.2]
    exact ⟨hstep, hbound, rfl, rfl⟩
  case isFalse hmaster =>
    rw [slew_stands hmaster]
    exact ⟨rfl, rfl, rfl⟩

/-- Settles O35: each row by what it finds, the message by whether tide time runs already. -/
theorem tideTimeIsKept : Obligations.TideTimeIsKept := by
  unfold Obligations.TideTimeIsKept
  intro s p m off bound delay ofs
  refine ⟨fun hstate htime => ⟨_, exec_holdoverTimeout hstate htime, rfl⟩, fun hmaster hstate hoffer hsync htime => ?_,
    fun hmaster hstate hnone => ?_, fun hmaster hstate => ⟨_, exec_ttSyncEdge_notes hmaster hstate, rfl⟩,
    fun hmaster hruns => ⟨_, exec_ttRefLoss hmaster hruns, rfl⟩,
    fun hstate => ⟨fun htime => exec_timetableExchange_early hstate htime, fun htime => ?_⟩,
    fun hup hturn hearly ho hmaster => ⟨fun hstate hruns hoffers => ?_, fun hstate hruns _ hothers => ?_⟩⟩
  · refine ⟨_, exec_boardSourceTimeout hmaster hstate hoffer hsync htime, ?_⟩
    have hbytes : SameBytes s ((s.originate 0 1).logRec ⟨Config.boardEventType, 9, sNOTICE, 0, []⟩) :=
      sameBytes_of_store (fun l => (store_logRec _ _ l).trans (by cases l <;> rfl))
    beta_reduce
    rw [logRec_tt]
    exact ⟨rfl, rfl, rfl, rfl, rfl, hbytes⟩
  · obtain ⟨u, hruns, hnow, hbytes, n, k, hexec⟩ := exec_ttSyncEdge_originates hmaster hstate hnone
    have hset : SameBytes u { u.originate (n * 1000000000) 2 with freeCtr := k } :=
      sameBytes_of_store (fun l => by cases l <;> rfl)
    refine ⟨_, hexec, rfl, rfl, rfl, rfl, fun h => ?_, fun h => ?_, sameBytes_trans hbytes hset⟩
    · exact (if_pos (hruns.trans h)).trans hnow
    · have hfree : ({ u.originate (n * 1000000000) 2 with freeCtr := k } : State).tt.now = n * 1000000000 :=
        if_neg (by rw [hruns, h]; simp)
      rw [hfree]
      exact Nat.mul_mod_left _ _
  · obtain ⟨t, hexec, h⟩ := exec_timetableExchange hstate htime
    refine ⟨t, hexec, h.bytes, ?_, exchanged_rate h hstate, h.sentAt⟩
    rw [h.tt, slew_only]
    rfl
  · obtain ⟨t, hexec, htt⟩ := exec_timetableMessage hup hturn hearly ho hmaster (by simp [hoffers]) (.inl hstate)
    rw [fromParent_sets (s := (s.took p 0).heard p m) hstate hruns] at htt
    refine ⟨t, hexec, ?_⟩
    beta_reduce
    rw [htt]
    exact ⟨rfl, rfl, hstate, rfl, rfl, Vector.getElem_set_self _⟩
  · exact timetableMessage_follows hup hturn hearly ho hmaster hstate hruns hothers

end Sys2Proof.Machine
end

/-!
PROOFS. What the links' sending leaves of the collective engines (R295), and how a collective fails and ends (R320).
-/
section
namespace Sys2Proof.Machine

/-! ## Blocks that stay behind (R295) -/

/-- From g to h some of an engine's blocks have come back from its ports, unsent and missed; nothing else differs. -/
structure Recalls (g h : ColEng) : Prop where
  rest : h = { g with run := h.run, missed := h.missed }
  run  : h.run.map (fun c => { c with sent := [] }) = g.run.map (fun c => { c with sent := [] })

theorem Recalls.refl (g : ColEng) : Recalls g g := ⟨rfl, rfl⟩

theorem Recalls.trans {g h k : ColEng} (a : Recalls g h) (b : Recalls h k) : Recalls g k := by
  refine ⟨?_, b.run.trans a.run⟩
  rw [b.rest, a.rest]

theorem recalls_takeBack (g : ColEng) (x : Txn) : Recalls g (g.takeBack x) := by
  unfold ColEng.takeBack
  split
  next c hc =>
    split
    · exact ⟨rfl, by rw [hc]; rfl⟩
    · exact Recalls.refl g
  next => exact Recalls.refl g

/-- An engine that runs a collective still runs it, with other blocks unsent. -/
theorem Recalls.running {g h : ColEng} (k : Recalls g h) {c : Coll} (hc : g.run = some c) : ∃ l, h.run = some { c with sent := l } := by
  have hrun := k.run
  rw [hc] at hrun
  obtain ⟨d, hd, hdc⟩ := Option.map_eq_some_iff.1 hrun
  exact ⟨d.sent, hd.trans (congrArg (fun y : Coll => some { y with sent := d.sent }) hdc)⟩

theorem Recalls.idle {g h : ColEng} (k : Recalls g h) (hg : g.run = none) : h.run = none := by
  have hrun := k.run
  rw [hg] at hrun
  exact Option.map_eq_none_iff.1 hrun

theorem onTime_of_eq {s t : State} (h : OnTime s) (htt : t.tt = s.tt) (hports : t.lnk.ports = s.lnk.ports) : OnTime t := by
  intro p b hb
  rw [State.port, hports] at hb
  rw [htt]
  exact h p b hb

/-- From s to t ports may have let go of what they had queued, and of this device's collectives no more differs than what stays
behind at the end of a sailing. -/
structure Drains (s t : State) : Prop where
  tt  : t.tt = s.tt
  txq : ∀ q, ∀ z ∈ (t.port q).txq, z ∈ (s.port q).txq
  eng : ∀ e, Recalls (s.eng e) (t.eng e)
  col : OnTime s → t.col = s.col

theorem Drains.refl (s : State) : Drains s s := ⟨rfl, fun _ _ h => h, fun _ => Recalls.refl _, fun _ => rfl⟩

theorem Drains.onTime {s t : State} (h : Drains s t) (hs : OnTime s) : OnTime t := fun q z hz => by
  rw [h.tt]
  exact hs q z (h.txq q z hz)

theorem Drains.trans {s t u : State} (h : Drains s t) (k : Drains t u) : Drains s u :=
  ⟨k.tt.trans h.tt, fun q z hz => h.txq q z (k.txq q z hz), fun e => (h.eng e).trans (k.eng e),
    fun hs => (k.col (h.onTime hs)).trans (h.col hs)⟩

theorem drains_foldl {α : Type} (f : State → α → State) (h : ∀ t x, Drains t (f t x)) (l : List α) (s : State) :
    Drains s (l.foldl f s) := by
  induction l generalizing s with
  | nil => exact Drains.refl s
  | cons x t ih => exact (h s x).trans (ih (f s x))

theorem drains_setPort (s : State) (p : Port) (x : PortSt) (h : ∀ z ∈ x.txq, z ∈ (s.port p).txq) : Drains s (s.setPort p x) := by
  refine ⟨rfl, fun q z hz => ?_, fun _ => Recalls.refl _, fun _ => rfl⟩
  rw [port_setPort_eq] at hz
  split at hz
  case isTrue hq => rw [hq]; exact h z hz
  case isFalse => exact hz

theorem drains_setLink (s : State) (p : Port) (l : LinkId) (x : Link) : Drains s (s.setLink p l x) := by
  cases l <;> exact drains_setPort s p _ (fun _ h => h)

theorem drains_creditBack (s : State) (p : Port) (l : LinkId) (c n : Nat) : Drains s (s.creditBack p l c n) := by
  unfold State.creditBack
  dsimp only
  split <;> exact drains_setLink s p l _

theorem drains_leaveBuffer (s : State) (t : OutTxn) : Drains s (s.leaveBuffer t) := by
  unfold State.leaveBuffer
  split
  · exact Drains.refl s
  · exact (drains_setLink s _ _ _).trans (drains_creditBack _ _ _ _ _)

theorem drains_frameOut (s : State) (p : Port) (l : LinkId) (ts : List OutTxn) : Drains s (s.frameOut p l ts) :=
  (drains_setLink s p l _).trans ⟨rfl, fun _ _ h => h, fun _ => Recalls.refl _, fun _ => rfl⟩

theorem drains_loadFrame (p : Port) (l : LinkId) (k room : Nat) (s : State) (ts : List OutTxn) :
    Drains s (State.loadFrame p l k room s ts).1 := by
  induction k generalizing room s ts with
  | zero => exact Drains.refl s
  | succ k ih =>
    unfold State.loadFrame
    split
    · exact Drains.refl s
    · next t _ =>
      dsimp only
      split
      · have htake := drains_setPort s p { s.port p with
          txq := (s.port p).txq.erase t, txNum := onClass (s.port p).txNum (kindClass t.kind) (· + 1) } (fun _ => List.mem_of_mem_erase)
        exact (htake.trans (drains_setLink _ p l _)).trans (ih _ _ _)
      · exact Drains.refl s

theorem drains_pumpLink (p : Port) (l : LinkId) (k : Nat) (s : State) : Drains s (State.pumpLink p l k s) := by
  induction k generalizing s with
  | zero => exact Drains.refl s
  | succ k ih =>
    unfold State.pumpLink
    split
    case isTrue => exact Drains.refl s
    split
    next ts rest _ =>
      dsimp only
      split
      · have hset := drains_setPort s p { s.port p with resend := rest } (fun _ h => h)
        exact ((hset.trans (drains_setLink _ p l _)).trans (drains_frameOut _ p l _)).trans (ih _)
      · exact Drains.refl s
    next _ =>
      have h := drains_loadFrame p l frameFlits frameFlits s []
      split
      · exact Drains.refl s
      · next _ heq =>
        rw [heq] at h
        exact ((h.trans (drains_frameOut _ p l _)).trans (drains_foldl _ drains_leaveBuffer _ _)).trans (ih _)

theorem setPort_port (s : State) (p : Port) : s.setPort p (s.port p) = s := by
  have hports : s.lnk.ports.set (portNum p) s.lnk.ports[portNum p] = s.lnk.ports := Vector.set_getElem_self _
  rw [State.setPort, State.port, hports]

/-- Nothing stays behind of what is on time. -/
theorem holdBack_onTime {s : State} (h : OnTime s) (p : Port) : s.holdBack p = s := by
  have hnone : (s.port p).txq.filter (fun t => t.late s.tt.now) = [] := List.filter_eq_nil_iff.2 (fun b hb => by simp [h p b hb])
  have hall : (s.port p).txq.filter (fun t => !t.late s.tt.now) = (s.port p).txq :=
    List.filter_eq_self.2 (fun b hb => by simp [h p b hb])
  rw [State.holdBack]
  simp only [hnone, hall, List.foldl_nil]
  exact setPort_port s p

/-- Blocks taken back change no more than their engines. -/
theorem foldl_takeBack (l : List OutTxn) (s : State) :
    let t := l.foldl (fun (u : State) b => { u with col := u.col.map (fun g => g.takeBack b.x) }) s
    t.tt = s.tt ∧ t.lnk = s.lnk ∧ ∀ e, Recalls (s.eng e) (t.eng e) := by
  induction l generalizing s with
  | nil => exact ⟨rfl, rfl, fun _ => Recalls.refl _⟩
  | cons b l ih =>
    obtain ⟨htt, hlnk, heng⟩ := ih { s with col := s.col.map (fun g => g.takeBack b.x) }
    refine ⟨htt, hlnk, fun e => Recalls.trans ?_ (heng e)⟩
    have he : State.eng { s with col := s.col.map (fun g => g.takeBack b.x) } e = (s.eng e).takeBack b.x := Vector.getElem_map _ _
    rw [he]
    exact recalls_takeBack _ _

theorem drains_holdBack (s : State) (p : Port) : Drains s (s.holdBack p) := by
  have hset := drains_setPort s p { s.port p with txq := (s.port p).txq.filter (fun t => !t.late s.tt.now) }
    (fun _ h => List.mem_of_mem_filter h)
  obtain ⟨htt, hlnk, heng⟩ := foldl_takeBack ((s.port p).txq.filter (fun t => t.late s.tt.now))
    (s.setPort p { s.port p with txq := (s.port p).txq.filter (fun t => !t.late s.tt.now) })
  refine ⟨htt, fun q z hz => hset.txq q z ?_, fun e => (hset.eng e).trans (heng e), fun h => by rw [holdBack_onTime h]⟩
  have hq : (s.holdBack p).port q = _ := congrArg (fun k : Lnk => k.ports[portNum q]) hlnk
  rw [hq] at hz
  exact hz

theorem drains_flushOwed (s : State) (p : Port) (l : LinkId) : Drains s (s.flushOwed p l) := by
  unfold State.flushOwed
  dsimp only
  split
  · exact drains_frameOut s p l []
  · exact Drains.refl s

theorem drains_pump (s : State) : Drains s s.pump :=
  (drains_foldl _ (fun t p => ((drains_holdBack t p).trans (drains_pumpLink p .a _ _)).trans (drains_pumpLink p .b _ _)) _ s).trans
    (drains_foldl _ (fun _ p => (drains_flushOwed _ p .a).trans (drains_flushOwed _ p .b)) _ _)

theorem drains_releaseHeld (s : State) (l : List RxBlk) : Drains s (s.releaseHeld l) := by
  refine drains_foldl _ (fun t r => ?_) l s
  dsimp only
  split
  · exact (drains_setLink _ _ _ _).trans (drains_creditBack _ _ _ _ _)
  · exact Drains.refl t

/-- With nothing late only the engine's listed sailings that passed are settled. -/
theorem catchUp_onTime {s : State} (h : OnTime s) (e : EngineId) : s.catchUp e = s.setEng e ((s.eng e).catchUp s.tt.now) := by
  have hback (l : List Port) : l.foldl State.holdBack s = s := by
    induction l with
    | nil => rfl
    | cons p l ih => rw [List.foldl_cons, holdBack_onTime h, ih]
  rw [State.catchUp, hback]

/-! ## The running collective -/

theorem coll_eq_some {s : State} {e : EngineId} {c : Coll} : s.coll e = some c ↔ (s.eng e).run = some c ∧ c.failed = false := by
  unfold State.coll
  split
  next d hd =>
    rw [hd]
    by_cases hf : d.failed = true
    · simp only [hf, if_true, reduceCtorEq, false_iff, Option.some.injEq, not_and]
      rintro rfl
      simp [hf]
    · simp only [hf, Bool.false_eq_true, if_false, Option.some.injEq]
      exact ⟨fun h => ⟨h, by rw [← h]; simpa using hf⟩, fun h => h.1⟩
  next hn => simp [hn]

/-! ## Winding down (R320) -/

/-- From s to t an engine may have stopped sending and ended: no byte differs, no operation's status, no code of a failure, and
nothing that came to the ports. -/
structure Winds (e : EngineId) (s t : State) : Prop where
  bytes    : SameBytes s t
  lastCode : (t.eng e).lastCode = (s.eng e).lastCode
  inbox    : ∀ q, SameInbox (s.port q) (t.port q)
  status   : ∀ id o, s.opOf id = some o → ∃ o', t.opOf id = some o' ∧ o'.status = o.status

section
variable {e : EngineId} {s t u : State}

theorem Winds.refl (e : EngineId) (s : State) : Winds e s s :=
  ⟨sameBytes_refl s, rfl, fun _ => SameInbox.refl _, fun _ o h => ⟨o, h, rfl⟩⟩

theorem Winds.trans (h : Winds e s t) (k : Winds e t u) : Winds e s u where
  bytes := sameBytes_trans h.bytes k.bytes
  lastCode := k.lastCode.trans h.lastCode
  inbox q := (h.inbox q).trans (k.inbox q)
  status id o ho := by
    obtain ⟨o', ho', hst'⟩ := h.status id o ho
    obtain ⟨o'', ho'', hst''⟩ := k.status id o' ho'
    exact ⟨o'', ho'', hst''.trans hst'⟩

theorem winds_foldl {α : Type} (f : State → α → State) (h : ∀ t x, Winds e t (f t x)) (l : List α) (s : State) :
    Winds e s (l.foldl f s) := by
  induction l generalizing s with
  | nil => exact Winds.refl e s
  | cons x t ih => exact (h s x).trans (ih (f s x))

theorem winds_of_sends (h : Sends s t) (hcode : (t.eng e).lastCode = (s.eng e).lastCode) : Winds e s t :=
  ⟨sameBytes_netOnly h.only.netOnly, hcode, h.inbox, fun id o ho => ⟨o, (opOf_congr (by rw [h.only]) id).trans ho, rfl⟩⟩

theorem Drains.winds (hd : Drains s t) (h : Sends s t) : Winds e s t :=
  winds_of_sends h (by rw [(hd.eng e).rest])

theorem winds_pump (s : State) : Winds e s s.pump := (drains_pump s).winds (sends_pump s)

theorem winds_setEng (s : State) (x : ColEng) (h : x.lastCode = (s.eng e).lastCode) : Winds e s (s.setEng e x) := by
  refine ⟨sameBytes_of_store (fun l => by cases l <;> rfl), ?_, fun _ => SameInbox.refl _, fun _ o ho => ⟨o, ho, rfl⟩⟩
  rw [eng_setEng]
  exact h

theorem winds_setPort (s : State) (p : Port) (x : PortSt) (h : SameInbox (s.port p) x) : Winds e s (s.setPort p x) := by
  refine ⟨sameBytes_of_store (fun l => by cases l <;> rfl), rfl, fun q => ?_, fun _ o ho => ⟨o, ho, rfl⟩⟩
  rw [port_setPort_eq]
  split
  case isTrue hq => rw [hq]; exact h
  case isFalse => exact SameInbox.refl _

theorem winds_sendTxn (s : State) (kind : Byte) (y : Txn) : Winds e s ((s.sendTxn kind y).getD s) := by
  unfold State.sendTxn
  split
  · next p _ =>
    have hpost : Winds e s (s.post p kind y none) :=
      winds_setPort s p { s.port p with txq := (s.port p).txq ++ [⟨kind, y, none, none⟩] } ⟨rfl, rfl, rfl, rfl⟩
    rw [Option.getD_some]
    exact hpost.trans (winds_pump _)
  · exact Winds.refl e s

/-- A change of one operation that keeps its number changes no other. -/
theorem opOf_updOp_map {f : Op → Op} (hf : ∀ o, (f o).id = o.id) (s : State) (id k : Nat) :
    (s.updOp id f).opOf k = (s.opOf k).map (fun o => if o.id = id then f o else o) := by
  simp only [State.opOf, State.updOp, State.mapOps, List.find?_map]
  congr 2
  funext o
  simp only [Function.comp]
  split
  · rw [hf]
  · rfl

/-- What an operation awaits is no status of it. -/
theorem winds_noWaiting (s : State) (id : Nat) : Winds e s (s.updOp id (fun o => { o with waiting := [] })) := by
  refine ⟨sameBytes_of_store (fun l => by cases l <;> rfl), rfl, fun _ => SameInbox.refl _, fun k o ho => ?_⟩
  rw [opOf_updOp_map (f := fun o => { o with waiting := [] }) (fun _ => rfl), ho]
  refine ⟨_, rfl, ?_⟩
  dsimp only
  split <;> rfl

theorem winds_collReport (s : State) (e : EngineId) : Winds e s (s.collReport e) := by
  unfold State.collReport
  split
  next => exact Winds.refl e s
  next c _ =>
    have hset := winds_setEng (e := e) s { s.eng e with run := none, holding := false } rfl
    have hfree := (drains_releaseHeld (s.setEng e { s.eng e with run := none, holding := false }) c.rx).winds (e := e)
      (sends_releaseHeld _ _)
    exact ((hset.trans hfree).trans (winds_noWaiting _ _)).trans (winds_pump _)

/-- An engine that has reported runs nothing. -/
theorem run_collReport (s : State) (e : EngineId) : ((s.collReport e).eng e).run = none := by
  unfold State.collReport
  split
  next h => exact h
  next c _ =>
    have hfree := drains_releaseHeld (s.setEng e { s.eng e with run := none, holding := false }) c.rx
    have hpump := drains_pump (((s.setEng e { s.eng e with run := none, holding := false }).releaseHeld c.rx).updOp c.op
      (fun o => { o with waiting := [] }))
    exact (hpump.eng e).idle ((hfree.eng e).idle (by rw [eng_setEng]))

theorem winds_collStopped (s : State) (e : EngineId) : Winds e s (s.collStopped e) := by
  unfold State.collStopped
  split
  · split
    · exact winds_collReport s e
    · exact Winds.refl e s
  · exact Winds.refl e s

/-- Taking a collective's blocks back from the ports leaves what came to them. -/
theorem winds_withdrawBlocks (s : State) (id : Word32) : Winds e s (s.withdrawBlocks id) := by
  refine ⟨sameBytes_of_store (fun l => by cases l <;> rfl), rfl, fun q => ?_, fun _ o ho => ⟨o, ho, rfl⟩⟩
  have hport : (s.withdrawBlocks id).port q = { s.port q with
      txq := (s.port q).txq.filter (fun t => t.until_.isNone || txnColl t.x ≠ id) } := Vector.getElem_map _ _
  rw [hport]
  exact ⟨rfl, rfl, rfl, rfl⟩

theorem winds_collHalt (s : State) (e : EngineId) : Winds e s (s.collHalt e) := by
  unfold State.collHalt
  split
  next => exact Winds.refl e s
  next c _ =>
    split
    case isTrue => exact Winds.refl e s
    case isFalse =>
      have hset := winds_setEng (e := e) s { s.eng e with run := some { c with failed := true } } rfl
      exact ((hset.trans (winds_withdrawBlocks _ _)).trans (winds_foldl _ (fun _ _ => winds_sendTxn _ _ _) _ _)).trans
        (winds_collStopped _ e)

theorem winds_catchUp (s : State) (e : EngineId) : Winds e s (s.catchUp e) := by
  have hback : Winds e s (allPorts.foldl State.holdBack s) :=
    (drains_foldl State.holdBack drains_holdBack allPorts s).winds (sends_foldl State.holdBack sends_holdBack allPorts s)
  unfold State.catchUp
  generalize allPorts.foldl State.holdBack s = t at hback
  refine hback.trans (winds_setEng t _ ?_)
  unfold ColEng.catchUp
  split <;> rfl

end

/-! ## Failure (R320) -/

/-- From s to t the collective of engine e, of operation `op`, has failed with a code. -/
structure CollFailed (e : EngineId) (op : Nat) (code : Byte) (s t : State) : Prop where
  bytes    : SameBytes s t
  lastCode : (t.eng e).lastCode = code
  inbox    : ∀ q, SameInbox (s.port q) (t.port q)
  status   : ∀ o, s.opOf op = some o → o.status = none → (t.opOf op).map (·.status) = some (some .failed)

theorem status_fix {o : Op} (h : o.status = none) (st : OpStatus) (cause info : Nat) : (o.fix st cause info).status = some st := by
  rw [Op.fix, if_neg (by simp [h])]

theorem CollFailed.winds {e : EngineId} {op : Nat} {code : Byte} {s t u : State} (h : CollFailed e op code s t) (k : Winds e t u) :
    CollFailed e op code s u where
  bytes := sameBytes_trans h.bytes k.bytes
  lastCode := k.lastCode.trans h.lastCode
  inbox q := (h.inbox q).trans (k.inbox q)
  status o ho hst := by
    obtain ⟨o', ho', hst'⟩ := Option.map_eq_some_iff.1 (h.status o ho hst)
    obtain ⟨o'', ho'', hst''⟩ := k.status op o' ho'
    rw [ho'', Option.map_some, hst'', hst']

theorem collFailed_fixed {e : EngineId} {s s0 : State} (h : Winds e s s0) (op code info : Nat) :
    CollFailed e op (BitVec.ofNat 8 code) s
      ((s0.setEng e { s0.eng e with lastCode := BitVec.ofNat 8 code }).updOp op (fun o => o.fix .failed 9 info)) := by
  refine ⟨sameBytes_trans h.bytes (sameBytes_of_store (fun l => by cases l <;> rfl)), ?_, h.inbox, fun o ho hst => ?_⟩
  · exact congrArg ColEng.lastCode (eng_setEng s0 e _)
  · obtain ⟨o', ho', hst'⟩ := h.status _ o ho
    rw [opOf_updOp (fun _ => id_fix ..) (by exact ho'), Option.map_some, status_fix (hst'.trans hst)]

theorem collFailed_collFail {s : State} {e : EngineId} {c : Coll} (h : s.coll e = some c) (code step : Nat) :
    CollFailed e c.op (BitVec.ofNat 8 code) s (s.collFail e code step) := by
  obtain ⟨hrun, hfailed⟩ := coll_eq_some.1 h
  have hfixed := collFailed_fixed (winds_catchUp s e) c.op code (collInfo code step)
  simp only [State.collFail, hrun, hfailed, Bool.false_eq_true, if_false]
  exact hfixed.winds (winds_collHalt _ e)

end Sys2Proof.Machine
end

/-!
PROOFS. COLLECTIVE_BLOCK, COLLECTIVE_ANNOUNCEMENT and COLLECTIVE_ABORT as they reach their engine (O40).
-/
section
namespace Sys2Proof.Machine

/-! ## Arriving (R333) -/

section
variable {s u : State} {p : Port} {kind : Byte} {x : Txn}

theorem onTime_took (h : OnTime s) (p : Port) (c : Nat) : OnTime (s.took p c) :=
  (drains_setPort s p { s.port p with rxNum := onClass (s.port p).rxNum c (· + 1) } (fun _ h => h)).onTime h

/-- A transaction for this device acts in its turn, stays in its link's buffer or leaves it, and the links send what they can. -/
theorem arrive_drains {kept : Bool} (h : Comes s p kind x) (hact : (s.took p (kindClass kind)).act p kind x = (u, kept))
    (hin : SameInbox ((s.took p (kindClass kind)).port p) (u.port p)) :
    Drains u (s.arrive p (.txn kind x)) ∧ Sends u (s.arrive p (.txn kind x)) := by
  obtain ⟨v, hdeliver, hdrains, hsends⟩ : ∃ v, s.deliver p (.txn kind x) = v ∧ Drains u v ∧ Sends u v := by
    rw [deliver_txn h.here, hact]
    cases kept with
    | true => exact ⟨_, rfl, drains_setLink u p x.link _, sends_keepFlits u p x.link _ _⟩
    | false => exact ⟨_, rfl, drains_creditBack u p x.link _ _, sends_creditBack u p x.link _ _⟩
  have hall := hin.trans (hsends.inbox p)
  have hearly : ((s.took p (kindClass kind)).port p).early = (s.port p).early := by rw [State.took, port_setPort]
  rw [arrive_pumps h hdeliver (hall.early.trans hearly) hall.rxNum]
  exact ⟨hdrains.trans (drains_pump v), hsends.trans (sends_pump v)⟩

/-- What acts on the engines alone leaves them so, where nothing is late. -/
theorem arrive_engines {kept : Bool} {col : Vector ColEng 2} (h : Comes s p kind x) (hs : OnTime s)
    (hact : (s.took p (kindClass kind)).act p kind x = ({ s.took p (kindClass kind) with col := col }, kept)) :
    SameBytes s (s.arrive p (.txn kind x)) ∧ (s.arrive p (.txn kind x)).col = col := by
  obtain ⟨hdrains, hsends⟩ := arrive_drains h hact (SameInbox.refl _)
  have hbytes : SameBytes s { s.took p (kindClass kind) with col := col } := sameBytes_of_store (fun l => by cases l <;> rfl)
  exact ⟨sameBytes_trans hbytes (sameBytes_netOnly hsends.only.netOnly),
    hdrains.col (onTime_of_eq (onTime_took hs p (kindClass kind)) rfl rfl)⟩

end

/-! ## A collective that runs (R308, R314) -/

section
variable {s : State} {x : Txn} {e : EngineId} {c : Coll}

/-- What an expected block joins the receive buffer as. -/
def Coll.received (c : Coll) (x : Txn) (step : Nat) (via : Port × LinkId) : RxBlk :=
  ⟨step, txnBlock x, x.cover, x.poison, x.data, if rxLimit < rxBytes c.rx + x.data.length then some via else none⟩

theorem via_received (c : Coll) (x : Txn) (step : Nat) (via : Port × LinkId) :
    (c.received x step via).via.isSome = true ↔ rxLimit < rxBytes c.rx + x.data.length := by
  unfold Coll.received
  split
  case isTrue h => exact iff_of_true rfl h
  case isFalse h => exact iff_of_false Bool.false_ne_true h

theorem takeBlock_expected (he : s.engineOf (txnColl x) = some e) (hc : s.coll e = some c) {step : Nat}
    (hstep : c.stepFor x.src (txnBlock x) = some step) (via : Port × LinkId) :
    s.takeBlock x via = (s.setEng e { s.eng e with
        run := some { c with rx := c.rx ++ [c.received x step via] }
        holding := (s.eng e).holding || decide (rxLimit < rxBytes c.rx + x.data.length) },
      decide (rxLimit < rxBytes c.rx + x.data.length)) := by
  simp only [State.takeBlock, he, hc, hstep]
  rfl

/-- A member's announcement noted. -/
def Coll.told (c : Coll) (k : Nat) : Coll := { c with announced := if c.announced.contains k then c.announced else c.announced ++ [k] }

theorem mem_announced_told (c : Coll) (k : Nat) : k ∈ (c.told k).announced := by
  unfold Coll.told
  by_cases h : k ∈ c.announced <;> simp [h]

theorem takeAnnouncement_running (he : s.engineOf (txnColl x) = some e) (hc : s.coll e = some c) {k : Nat}
    (hk : c.members.findIdx? (· = x.src) = some k) : s.takeAnnouncement x = s.setColl e (c.told k) := by
  simp only [State.takeAnnouncement, he, hc, hk]
  rfl

end

/-! ## One that does not (R308, R314, R323) -/

section
variable {s : State} {x : Txn}

/-- The engine that a stray is counted on. -/
def State.strayEngine (s : State) (x : Txn) : EngineId := if (s.eng 1).id = txnColl x && (s.eng 0).id ≠ txnColl x then 1 else 0

theorem takeBlock_stray (he : s.engineOf (txnColl x) = none) (via : Port × LinkId) : s.takeBlock x via = (s.stray (txnColl x), false) := by
  simp only [State.takeBlock, he]

theorem takeAbort_stray (he : s.engineOf (txnColl x) = none) : s.takeAbort x = s.stray (txnColl x) := by
  simp only [State.takeAbort, he]

/-- An engine that keeps an announcement. -/
def ColEng.keeps (g : ColEng) (x : Txn) : ColEng :=
  if g.ann.contains (txnColl x, x.src) then g else { g with ann := g.ann ++ [(txnColl x, x.src)] }

theorem mem_ann_keeps (g : ColEng) (x : Txn) : (txnColl x, x.src) ∈ (g.keeps x).ann := by
  unfold ColEng.keeps
  by_cases h : (txnColl x, x.src) ∈ g.ann <;> simp [h]

theorem takeAnnouncement_kept (he : s.engineOf (txnColl x) = none) :
    s.takeAnnouncement x = { s with col := s.col.map (fun g => g.keeps x) } := by
  simp only [State.takeAnnouncement, he]
  rfl

/-- A stray that comes in its turn is counted, and does no more. -/
theorem arrive_stray {p : Port} {kind : Byte} (h : Comes s p kind x) (hs : OnTime s)
    (hact : (s.took p (kindClass kind)).act p kind x = ((s.took p (kindClass kind)).stray (txnColl x), false)) :
    SameBytes s (s.arrive p (.txn kind x)) ∧
      ((s.arrive p (.txn kind x)).eng (s.strayEngine x)).stray = satInc (s.eng (s.strayEngine x)).stray := by
  obtain ⟨hbytes, hcol⟩ := arrive_engines h hs hact
  refine ⟨hbytes, ?_⟩
  rw [State.eng, hcol]
  exact congrArg ColEng.stray (eng_setEng (s.took p (kindClass kind)) (s.strayEngine x) _)

end

/-! ## The claim -/

/-- Settles O40: each message by whether its collective runs. -/
theorem collectiveMessagesReachTheirCollective : Obligations.CollectiveMessagesReachTheirCollective := by
  unfold Obligations.CollectiveMessagesReachTheirCollective
  intro s p x hs
  refine ⟨fun e c step he hc => ⟨fun h hstep => ?_, fun k h hk => ?_, fun h => ?_⟩,
    fun he => ⟨fun h => ?_, fun h => ?_, fun h => ?_⟩⟩
  · have hact := takeBlock_expected (s := s.took p (kindClass 9)) he hc hstep (p, x.link)
    obtain ⟨hbytes, hcol⟩ := arrive_engines h hs hact
    refine ⟨_, rfl, hbytes, c.received x step (p, x.link), ?_, rfl, rfl, rfl, rfl, rfl, via_received c x step _⟩
    rw [State.eng, hcol]
    exact congrArg ColEng.run (eng_setEng (s.took p (kindClass 9)) e _)
  · have hact := takeAnnouncement_running (s := s.took p (kindClass 10)) he hc hk
    obtain ⟨hbytes, hcol⟩ := arrive_engines (kept := false) h hs (congrArg (·, false) hact)
    refine ⟨_, rfl, hbytes, c.told k, ?_, mem_announced_told c k, rfl⟩
    rw [State.eng, hcol]
    exact congrArg ColEng.run (eng_setEng (s.took p (kindClass 10)) e _)
  · let u := (s.took p (kindClass 11)).collFail e cPEER_FAILED noStep
    have hfail : CollFailed e c.op (BitVec.ofNat 8 cPEER_FAILED) (s.took p (kindClass 11)) u :=
      collFailed_collFail (s := s.took p (kindClass 11)) hc _ _
    have hact : (s.took p (kindClass 11)).act p 11 x = (u, false) := by
      have he' : (s.took p (kindClass 11)).engineOf (txnColl x) = some e := he
      change ((s.took p (kindClass 11)).takeAbort x, false) = _
      simp only [State.takeAbort, he']
      rfl
    obtain ⟨hdrains, hsends⟩ := arrive_drains h hact (hfail.inbox p)
    have hall := hfail.winds (hdrains.winds hsends)
    exact ⟨_, rfl, sameBytes_trans (sameBytes_took _) hall.bytes, hall.lastCode, hall.status⟩
  · exact ⟨_, rfl, arrive_stray h hs (takeBlock_stray (s := s.took p (kindClass 9)) he (p, x.link))⟩
  · have hact := takeAnnouncement_kept (s := s.took p (kindClass 10)) he
    obtain ⟨hbytes, hcol⟩ := arrive_engines (kept := false) h hs (congrArg (·, false) hact)
    refine ⟨_, rfl, hbytes, fun i => ?_⟩
    have heng : (s.arrive p (.txn 10 x)).eng i = (s.eng i).keeps x := by
      rw [State.eng, hcol]
      exact Vector.getElem_map _ _
    exact heng ▸ mem_ann_keeps _ _
  · exact ⟨_, rfl, arrive_stray h hs (congrArg (·, false) (takeAbort_stray (s := s.took p (kindClass 11)) he))⟩

end Sys2Proof.Machine
end

/-!
PROOFS. What an engine of a collective reads, and the departure of its due blocks (R295 to R299; O36).
-/
section
namespace Sys2Proof
open Machine

/-! ## Reading lines of device memory leaves all else (R361) -/

section
variable {s t : State}

theorem Looks.old (h : Looks s t) : t.old = s.old := by rw [h.only]

theorem Looks.col (h : Looks s t) : t.col = s.col := by rw [h.only]

theorem Looks.lnk (h : Looks s t) : t.lnk = s.lnk := by rw [h.only]

theorem Looks.tt (h : Looks s t) : t.tt = s.tt := by rw [h.only]

end
end Sys2Proof

namespace Sys2Proof.Machine

/-! ## An engine's reads (R237) -/

section
variable {s t : State}

/-- A read gets the same bytes where the bytes and the writes kept for readers are the same. -/
theorem seenByte_same (hold : t.old = s.old) (hbytes : SameBytes s t) (r : Reader) (k : Nat) (l : Loc) (a : Nat) :
    t.seenByte r k l a = s.seenByte r k l a := by
  simp only [State.seenByte, State.pick, State.copies, State.writesOf, hold, hbytes l a]

theorem looks_readDmem (s : State) (e : EngineId) (op k a len : Nat) : Looks s (s.readDmem e op k a len).1 := looks_touchAll s _

theorem readDmem_bytes (s : State) (e : EngineId) (op k a len : Nat) : (s.readDmem e op k a len).2.1 =
    (List.range len).map (fun i => s.seenByte ⟨collReader e.val, none, 0, some op, false⟩ k .dmem (a + i)) := by
  have h := looks_touchAll s (granulesOf a len)
  exact List.map_congr_left (fun i _ => seenByte_same h.old h.sameBytes _ _ _ _)

theorem readDmem_same (hold : t.old = s.old) (hbytes : SameBytes s t) (e : EngineId) (op k a len : Nat) :
    (t.readDmem e op k a len).2.1 = (s.readDmem e op k a len).2.1 := by
  rw [readDmem_bytes, readDmem_bytes]
  exact List.map_congr_left (fun i _ => seenByte_same hold hbytes _ _ _ _)

theorem linesHeld_append (s : State) (l m : List Nat) : s.linesHeld (l ++ m) = (s.linesHeld l || s.linesHeld m) := List.any_append

end

/-! ## Poison found in a block's value (R319) -/

theorem blk_setBlk (c : Coll) (b k : Nat) (x : Blk) : (c.setBlk b x).blk k = if k = b then x else c.blk k := smGet_smPut _ _ _ _ _

/-- Of d's blocks no more differs from those of c than poison. -/
def PoisonsOnly (c d : Coll) : Prop := ∀ k, ∃ p, d.blk k = { c.blk k with poison := p }

/-- A block's value has been read: the block is poisoned if the value came so. -/
def Coll.noting (c : Coll) (b : Nat) (bad : Bool) : Coll := if bad then c.setBlk b { c.blk b with poison := true } else c

theorem noting_only (c : Coll) (b : Nat) (bad : Bool) : c.noting b bad = { c with blocks := (c.noting b bad).blocks } := by
  cases bad <;> rfl

theorem poisonsOnly_noting (c : Coll) (b : Nat) (bad : Bool) : PoisonsOnly c (c.noting b bad) := by
  intro k
  cases bad with
  | false => exact ⟨(c.blk k).poison, rfl⟩
  | true =>
    have hblk := blk_setBlk c b k { c.blk b with poison := true }
    by_cases hk : k = b
    · subst hk
      rw [if_pos rfl] at hblk
      exact ⟨true, hblk⟩
    · rw [if_neg hk] at hblk
      exact ⟨(c.blk k).poison, hblk⟩

theorem PoisonsOnly.trans {c d f : Coll} (h : PoisonsOnly c d) (k : PoisonsOnly d f) : PoisonsOnly c f := fun b => by
  obtain ⟨p, hp⟩ := h b
  obtain ⟨q, hq⟩ := k b
  exact ⟨q, by rw [hq, hp]⟩

/-- Poison does not move a block's value. -/
theorem PoisonsOnly.blkSpan {c d : Coll} (h : PoisonsOnly c d) (hplace : (d.work, d.src, d.inFmt) = (c.work, c.src, c.inFmt))
    (b : Nat) : d.blkSpan b = c.blkSpan b := by
  obtain ⟨p, hp⟩ := h b
  simp only [Prod.mk.injEq] at hplace
  obtain ⟨hwork, hsrc, hfmt⟩ := hplace
  simp only [Coll.blkSpan, Coll.inSize, hp, hwork, hsrc, hfmt]

/-! ## What sending makes of a collective -/

/-- c has become d by sending blocks: more are sent, and some were found poisoned. -/
structure Coll.Advances (c d : Coll) : Prop where
  only : d = { c with blocks := d.blocks, sent := d.sent }
  blk  : PoisonsOnly c d
  sent : ∀ y ∈ c.sent, y ∈ d.sent

section
variable {c d f : Coll}

theorem Coll.Advances.refl (c : Coll) : c.Advances c := ⟨rfl, fun k => ⟨(c.blk k).poison, rfl⟩, fun _ h => h⟩

theorem Coll.Advances.trans (h : c.Advances d) (k : d.Advances f) : c.Advances f := by
  refine ⟨?_, h.blk.trans k.blk, fun y hy => k.sent y (h.sent y hy)⟩
  rw [k.only, h.only]

theorem Coll.Advances.blkSpan (h : c.Advances d) (b : Nat) : d.blkSpan b = c.blkSpan b := h.blk.blkSpan (by rw [h.only]) b

theorem Coll.Advances.ready (h : c.Advances d) (k : Nat) (st : Step) (b : Nat) : d.ready k st b = c.ready k st b := by
  obtain ⟨p, hp⟩ := h.blk b
  have happlied : (d.blk b).applied = (c.blk b).applied := by rw [hp]
  rw [Coll.ready, happlied, h.only]
  rfl

theorem Coll.Advances.wire (h : c.Advances d) (b : Nat) : d.wire b = c.wire b := by
  rw [Coll.wire, h.blkSpan, Coll.wire]

end

/-! ## Sending due blocks (R295, R297) -/

/-- From s to t engine e has sent blocks that must leave before tide time `till`. -/
structure Departs (e : EngineId) (till : Nat) (s t : State) : Prop where
  bytes  : SameBytes s t
  tt     : t.tt = s.tt
  held   : ∀ l, t.linesHeld l = s.linesHeld l
  engine : t.eng e = { s.eng e with run := (t.eng e).run }
  onTime : s.tt.now < till → OnTime s → OnTime t

section
variable {e : EngineId} {till : Nat} {s t u : State}

theorem Departs.refl (e : EngineId) (till : Nat) (s : State) : Departs e till s s :=
  ⟨sameBytes_refl s, rfl, fun _ => rfl, rfl, fun _ h => h⟩

theorem Departs.trans (h : Departs e till s t) (k : Departs e till t u) : Departs e till s u where
  bytes := sameBytes_trans h.bytes k.bytes
  tt := k.tt.trans h.tt
  held l := (k.held l).trans (h.held l)
  engine := by rw [k.engine, h.engine]
  onTime ht hs := k.onTime (by rw [h.tt]; exact ht) (h.onTime ht hs)

/-- A block queued till a later time is on time. -/
theorem onTime_postTill (h : OnTime s) (ht : s.tt.now < till) (p : Port) (kind : Byte) (y : Txn) (via : Option (Port × LinkId)) :
    OnTime (s.postTill p kind y via (some till)) := by
  intro q z hz
  rw [State.postTill, port_setPort_eq] at hz
  split at hz
  case isTrue hq =>
    rcases List.mem_append.1 hz with hz | hz
    · exact h p z hz
    · rw [List.mem_singleton.1 hz]
      exact decide_eq_false (Nat.not_le.2 ht)
  case isFalse => exact h q z hz

/-- The engine's collective is replaced. -/
theorem departs_setColl (s : State) (c : Coll) : Departs e till s (s.setColl e c) := by
  refine ⟨sameBytes_of_store (fun l => by cases l <;> rfl), rfl, fun _ => rfl, ?_, fun _ h => onTime_of_eq h rfl rfl⟩
  rw [State.setColl, eng_setEng]

theorem departs_looks (h : Looks s t) : Departs e till s t := by
  refine ⟨h.sameBytes, h.tt, h.held, ?_, fun _ hs => onTime_of_eq hs h.tt (by rw [h.lnk])⟩
  rw [State.eng, h.col, State.eng]

theorem departs_postTill (s : State) (p : Port) (kind : Byte) (y : Txn) (via : Option (Port × LinkId)) :
    Departs e till s (s.postTill p kind y via (some till)) :=
  ⟨sameBytes_of_store (fun l => by cases l <;> rfl), rfl, fun _ => rfl, rfl, fun ht h => onTime_postTill h ht p kind y via⟩

/-- One block sent: its value is read, and it is queued. -/
theorem sendBlock_sends (s : State) (e : EngineId) (p : Port) (c : Coll) (k : Nat) (st : Step) (b till : Nat) :
    ∃ t d, s.sendBlock e p c k st b till = (t, d) ∧ Departs e till s t ∧ (t.eng e).run = some d ∧ c.Advances d ∧
      (k, b) ∈ d.sent := by
  let r := s.readDmem e c.op k (c.blkSpan b).1 (c.blkSpan b).2
  let d : Coll := { c.noting b r.2.2 with sent := c.sent ++ [(k, b)] }
  let u := r.1.postTill p 0x09 (r.1.collTxn c st.peer b k (r.2.2 || (c.blk b).poison) (c.blk b).cover r.2.1) none (some till)
  have hread : Departs e till s r.1 := departs_looks (looks_readDmem s e c.op k _ _)
  refine ⟨u.setColl e d, d, rfl, (hread.trans (departs_postTill _ _ _ _ _)).trans (departs_setColl u d), ?_, ?_, ?_⟩
  · rw [State.setColl, eng_setEng]
  · refine ⟨?_, poisonsOnly_noting c b r.2.2, fun y hy => List.mem_append_left _ hy⟩
    simp only [d]
    rw [noting_only]
  · exact List.mem_append_right _ (List.mem_singleton_self _)

/-- With every block ready, its lines free and room for all, all are sent and none is missed. -/
theorem sendDue_all {p : Port} {cap : Nat} (l : List (Nat × Step × Nat)) (s : State) (c : Coll) (used missed : Nat)
    (hready : ∀ x ∈ l, c.ready x.1 x.2.1 x.2.2 = true ∧ s.linesHeld (granulesOf (c.blkSpan x.2.2).1 (c.blkSpan x.2.2).2) = false)
    (hcap : used + (l.map (fun x => c.wire x.2.2)).sum ≤ cap) (hrun : (s.eng e).run = some c) :
    ∃ t n d, sendDue e p cap till l s c used missed = (t, n, missed) ∧ Departs e till s t ∧ (t.eng e).run = some d ∧
      c.Advances d ∧ ∀ x ∈ l, (x.1, x.2.2) ∈ d.sent := by
  induction l generalizing s c used with
  | nil => exact ⟨s, used, c, rfl, Departs.refl e till s, hrun, Coll.Advances.refl c, fun _ h => nomatch h⟩
  | cons x l ih =>
    obtain ⟨k, st, b⟩ := x
    obtain ⟨hfirst, hfree⟩ := hready _ List.mem_cons_self
    rw [List.map_cons, List.sum_cons] at hcap
    dsimp only at hcap
    obtain ⟨u, f, hsend, hu, hurun, hf, hsent⟩ := sendBlock_sends s e p c k st b till
    obtain ⟨t, n, d, hrest, ht, htrun, hd, hall⟩ := ih u f (used + c.wire b)
      (fun y hy => by
        rw [hf.ready, hf.blkSpan, hu.held]
        exact hready y (List.mem_cons_of_mem _ hy))
      (by simp only [hf.wire]; omega) hurun
    refine ⟨t, n, d, ?_, hu.trans ht, htrun, hf.trans hd, fun y hy => ?_⟩
    · have hroom : used + c.wire b ≤ cap := by omega
      rw [sendDue, if_pos (by simp [hfirst, hroom, hfree]), hsend]
      exact hrest
    · rcases List.mem_cons.1 hy with rfl | hy
      · exact hd.sent _ hsent
      · exact hall y hy

end

/-! ## A departure (R295 to R299) -/

section
variable {s : State} {e : EngineId} {p : Port} {sail : Nat} {c : Coll}

/-- The bytes that a departure may send: the sailing's, less what overlapping ones of the other collective carried. -/
def State.sailRoom (s : State) (p : Port) (c : Coll) (sail : Nat) : Nat :=
  (2 ^ c.log2 - 64) * s.sailRate p (sail * 2 ^ c.log2) (sail * 2 ^ c.log2 + 2 ^ c.log2 - 1) -
    ((s.port p).sailed.filter (fun x => sail * 2 ^ c.log2 ≤ x.2.1)).foldl
      (fun n x => if x.1 ≤ sail * 2 ^ c.log2 + 2 ^ c.log2 - 1 then n + x.2.2 else n) 0

/-- It is a departure's time, its turn and its port's: blocks are due that have not left. -/
structure Departing (s : State) (e : EngineId) (p : Port) (sail : Nat) (c : Coll) : Prop where
  runs  : s.coll e = some c
  lo    : sail * 2 ^ c.log2 + 32 ≤ s.tt.now
  hi    : s.tt.now < sail * 2 ^ c.log2 + 34
  due   : c.due (portNum p).val sail ≠ []
  left  : ((portNum p).val, sail) ∉ c.left
  first : s.goesFirst e p (sail * 2 ^ c.log2) = true
  up    : (s.port p).up = true

/-- A sailing with room for a block is no shorter than 128 ns. -/
theorem length_of_room {x : Nat × Step × Nat} {l : List (Nat × Step × Nat)} (hx : x ∈ l)
    (h : (l.map (fun x => c.wire x.2.2)).sum ≤ s.sailRoom p c sail) : 128 ≤ 2 ^ c.log2 := by
  have hone : c.wire x.2.2 ≤ (l.map (fun x => c.wire x.2.2)).sum :=
    List.single_le_sum (fun _ _ => Nat.zero_le _) _ (List.mem_map.2 ⟨x, hx, rfl⟩)
  have hwire : 32 ≤ c.wire x.2.2 := Nat.le_add_right _ _
  have hlong : 2 ^ 6 < 2 ^ c.log2 := by
    by_contra hshort
    have hzero : 2 ^ c.log2 - 64 = 0 := by omega
    rw [State.sailRoom, hzero, Nat.zero_mul, Nat.zero_sub] at h
    omega
  exact Nat.pow_le_pow_right (n := 2) (by decide) ((Nat.pow_lt_pow_iff_right (by decide)).1 hlong)

/-- What a departure that sends all it has to leaves. -/
theorem depart_sends (h : Departing s e p sail c) (hs : OnTime s)
    (hready : ∀ x ∈ c.due (portNum p).val sail, c.ready x.1 x.2.1 x.2.2 = true ∧
      s.linesHeld (granulesOf (c.blkSpan x.2.2).1 (c.blkSpan x.2.2).2) = false)
    (hroom : ((c.due (portNum p).val sail).map (fun x => c.wire x.2.2)).sum ≤ s.sailRoom p c sail) :
    SameBytes s (s.depart e p sail) ∧ ((s.depart e p sail).eng e).missed = (s.eng e).missed ∧
      ∃ d, ((s.depart e p sail).eng e).run = some d ∧ ((portNum p).val, sail) ∈ d.left ∧
        ∀ x ∈ c.due (portNum p).val sail, (x.1, x.2.2) ∈ d.sent := by
  let c1 : Coll := { c with left := c.left ++ [((portNum p).val, sail)] }
  let till := sail * 2 ^ c.log2 + 2 ^ c.log2 - 32
  have hset : Departs e till s (s.setColl e c1) := departs_setColl s c1
  obtain ⟨t, n, d, hsend, ht, hrun, hd, hall⟩ := sendDue_all (till := till) (p := p) (cap := s.sailRoom p c sail)
    (c.due (portNum p).val sail) (s.setColl e c1) c1 0 0 hready (by rw [Nat.zero_add]; exact hroom)
    (by rw [State.setColl, eng_setEng])
  obtain ⟨half, sailed, hdepart⟩ : ∃ half sailed, s.depart e p sail =
      ((t.setEng e { t.eng e with missed := (t.eng e).missed + BitVec.ofNat 64 0, half := half }).setPort p
        { t.port p with sailed := sailed }).pump := by
    have hnow : (decide (s.tt.now < sail * 2 ^ c.log2 + 32) || decide (sail * 2 ^ c.log2 + 34 ≤ s.tt.now) ||
        (c.due (portNum p).val sail).isEmpty || c.left.contains ((portNum p).val, sail) ||
        !s.goesFirst e p (sail * 2 ^ c.log2)) = false := by
      have hlo := h.lo
      have hhi := h.hi
      simp [h.due, h.left, h.first]
      omega
    simp only [State.depart, h.runs]
    rw [if_neg (by rw [hnow]; decide), if_neg (by simp [h.up])]
    simp only [State.sailRoom, till, c1] at hsend
    rw [hsend]
    exact ⟨_, _, rfl⟩
  have hdeparts : Departs e till s t := hset.trans ht
  have htill : s.tt.now < till := by
    obtain ⟨x, l, hl⟩ := List.exists_cons_of_ne_nil h.due
    have hlen := length_of_room (hl ▸ List.mem_cons_self) hroom
    have hhi := h.hi
    simp only [till]
    omega
  let v := (t.setEng e { t.eng e with missed := (t.eng e).missed + BitVec.ofNat 64 0, half := half }).setPort p
    { t.port p with sailed := sailed }
  have hv : OnTime v := (drains_setPort _ p { t.port p with sailed := sailed } (fun _ h => h)).onTime
    (onTime_of_eq (hdeparts.onTime htill hs) rfl rfl)
  have heng : (s.depart e p sail).eng e = { t.eng e with missed := (t.eng e).missed + BitVec.ofNat 64 0, half := half } := by
    rw [hdepart, State.eng, (drains_pump v).col hv]
    exact eng_setEng t e _
  refine ⟨?_, ?_, d, ?_, ?_, hall⟩
  · rw [hdepart]
    have hbytes : SameBytes t v := sameBytes_of_store (fun l => by cases l <;> rfl)
    exact sameBytes_trans hdeparts.bytes (sameBytes_trans hbytes (sameBytes_netOnly (netOnly_pump v)))
  · rw [heng, hdeparts.engine]
    exact BitVec.add_zero _
  · rw [heng]
    exact hrun
  · rw [hd.only]
    exact List.mem_append_right _ (List.mem_singleton_self _)

/-- A collective whose listed sailings that passed are settled. -/
def Coll.settled (c : Coll) (now : Nat) : Coll := { c with left := c.left ++ c.passedAll now }

/-- A sailing at its departure's time has not passed. -/
theorem not_passed {now pn : Nat} (hhi : now < sail * 2 ^ c.log2 + 34) : (pn, sail) ∉ c.passedAll now := by
  intro h
  obtain ⟨st, -, hst⟩ := List.mem_flatMap.1 (List.mem_dedup.1 h)
  obtain ⟨k, hk, heq⟩ := List.mem_map.1 hst
  obtain ⟨-, rfl⟩ := Prod.mk.inj heq
  have hpassed := (List.mem_filter.1 hk).2
  simp only [Coll.passed, Bool.and_eq_true, decide_eq_true_eq] at hpassed
  omega

theorem eng_setEng_ne (s : State) {e i : EngineId} (x : ColEng) (h : i ≠ e) : (s.setEng e x).eng i = s.eng i :=
  Vector.getElem_set_ne e.isLt i.isLt (fun hv => h (Fin.ext hv.symm))

/-- Settling what has passed leaves a departure as it is. -/
theorem Departing.settled (h : Departing s e p sail c) (hs : OnTime s) : Departing (s.catchUp e) e p sail (c.settled s.tt.now) := by
  obtain ⟨hrun, hfailed⟩ := coll_eq_some.1 h.runs
  have heng : (s.eng e).catchUp s.tt.now = { s.eng e with
      run := some (c.settled s.tt.now)
      missed := (s.eng e).missed + BitVec.ofNat 64 ((c.passedAll s.tt.now).map (fun x => (c.due x.1 x.2).length)).sum } := by
    simp only [ColEng.catchUp, hrun]
    rfl
  rw [catchUp_onTime hs, heng]
  refine ⟨coll_eq_some.2 ⟨by rw [eng_setEng], hfailed⟩, h.lo, h.hi, h.due, ?_, ?_, h.up⟩
  · exact fun hm => (List.mem_append.1 hm).elim h.left (not_passed h.hi)
  · have hfirst := h.first
    by_cases he : e = 0
    · subst he
      rfl
    · have hcoll (x : ColEng) : (s.setEng e x).coll 0 = s.coll 0 := by
        rw [State.coll, eng_setEng_ne s x (Ne.symm he), State.coll]
      simp only [State.goesFirst, hcoll] at hfirst ⊢
      exact hfirst

theorem sailRoom_settled (hs : OnTime s) (e : EngineId) : (s.catchUp e).sailRoom p (c.settled s.tt.now) sail = s.sailRoom p c sail := by
  rw [catchUp_onTime hs]
  rfl

/-- A departure that sends all it has to, once what has passed is settled (R295, R297). -/
theorem departure_sends (h : Departing s e p sail c) (hs : OnTime s)
    (hready : ∀ x ∈ c.due (portNum p).val sail, c.ready x.1 x.2.1 x.2.2 = true ∧
      s.linesHeld (granulesOf (c.blkSpan x.2.2).1 (c.blkSpan x.2.2).2) = false)
    (hroom : ((c.due (portNum p).val sail).map (fun x => c.wire x.2.2)).sum ≤ s.sailRoom p c sail) :
    let u := (s.catchUp e).depart e p sail
    SameBytes s u ∧ (u.eng e).missed = ((s.catchUp e).eng e).missed ∧
      ∃ d, (u.eng e).run = some d ∧ ((portNum p).val, sail) ∈ d.left ∧ ∀ x ∈ c.due (portNum p).val sail, (x.1, x.2.2) ∈ d.sent := by
  have hcatch := catchUp_onTime hs e
  have hheld (m : List Nat) : (s.catchUp e).linesHeld m = s.linesHeld m := by
    rw [hcatch]
    rfl
  have htime : OnTime (s.catchUp e) := by
    rw [hcatch]
    exact onTime_of_eq hs rfl rfl
  obtain ⟨hbytes, hrest⟩ := depart_sends (h.settled hs) htime (fun x hx => ⟨(hready x hx).1, (hheld _).trans (hready x hx).2⟩)
    (by rw [sailRoom_settled hs]; exact hroom)
  exact ⟨sameBytes_trans (winds_catchUp s e).bytes hbytes, hrest⟩

end

end Sys2Proof.Machine
end

/-!
PROOFS. An addition of a received block (R311 to R315, R318, R319; O36).
-/
section
namespace Sys2Proof.Machine

/-! ## The bytes of sums -/

/-- Each value of a list lies at its place among their bytes. -/
theorem getD_flatMap_leBytes {α : Type} (n : Nat) (f : α → Nat) (l : List α) {i j : Nat} (hi : i < l.length) (hj : j < n) :
    (l.flatMap (fun v => leBytes n (f v))).getD (n * i + j) 0 = BitVec.ofNat 8 (f l[i] / 256 ^ j) := by
  induction l generalizing i with
  | nil => exact absurd hi (Nat.not_lt_zero i)
  | cons x l ih =>
    rw [List.flatMap_cons]
    cases i with
    | zero =>
      rw [Nat.mul_zero, Nat.zero_add, List.getD_append _ _ _ _ (by simpa using hj), List.getD_eq_getElem _ _ (by simpa using hj)]
      exact getElem_leBytes n (f x) j _
    | succ i =>
      have hge : (leBytes n (f x)).length ≤ n * (i + 1) + j := by
        rw [length_leBytes, Nat.mul_succ]
        omega
      have hrest : n * (i + 1) + j - (leBytes n (f x)).length = n * i + j := by
        rw [length_leBytes, Nat.mul_succ]
        omega
      rw [List.getD_append_right _ _ _ _ hge, hrest]
      exact ih (Nat.lt_of_succ_lt_succ hi)

@[simp] theorem length_blockNums (data : List Byte) : (blockNums data).length = 64 := by simp [blockNums]

/-- The 64 sums of two blocks of values, the operand order as the coverage gives it. -/
def blockSums (left : Bool) (own got : List Num) : List (Num × BitVec 5) :=
  List.zipWith (fun u v => if left then adderAdd u v else adderAdd v u) own got

/-- The bytes of sums in binary32. -/
def sumBytes (l : List (Num × BitVec 5)) : List Byte := l.flatMap (fun v => leBytes 4 (convert v.1 0xA 0 2 0).code)

theorem length_sumBytes (left : Bool) (a b : List Byte) : (sumBytes (blockSums left (blockNums a) (blockNums b))).length = 256 := by
  have hlen (l : List (Num × BitVec 5)) : (sumBytes l).length = l.length * 4 := by simp [sumBytes, List.length_flatMap]
  simp [hlen, blockSums]

theorem getD_sumBytes (left : Bool) (a b : List Byte) {i j : Nat} (hi : i < 64) (hj : j < 4) :
    (sumBytes (blockSums left (blockNums a) (blockNums b))).getD (4 * i + j) 0 =
      let own := (blockNums a).getD i .zero
      let got := (blockNums b).getD i .zero
      BitVec.ofNat 8 ((convert (if left then adderAdd own got else adderAdd got own).1 0xA 0 2 0).code / 256 ^ j) := by
  have hlen : i < (blockSums left (blockNums a) (blockNums b)).length := by simpa [blockSums] using hi
  rw [sumBytes, getD_flatMap_leBytes 4 _ _ hlen hj, List.getD_eq_getElem _ _ (by simpa using hi),
    List.getD_eq_getElem _ _ (by simpa using hi)]
  simp only [blockSums, List.getElem_zipWith]

/-! ## Blocks held back are let in (R314) -/

/-- Letting blocks in changes what the receive buffer holds, and credits of links. -/
theorem letIn_running {s : State} {e : EngineId} {c : Coll} (h : (s.eng e).run = some c) :
    ∃ rx hold, Drains (s.setEng e { s.eng e with run := some { c with rx := rx }, holding := hold }) (s.letIn e) ∧
      Sends (s.setEng e { s.eng e with run := some { c with rx := rx }, holding := hold }) (s.letIn e) := by
  simp only [State.letIn, h]
  exact ⟨_, _, drains_releaseHeld _ _, sends_releaseHeld _ _⟩

/-! ## COLLECTIVE_ADD -/

section
variable {s : State} {e : EngineId} {b : Nat} {c : Coll} {r : RxBlk} {left : Bool}

/-- An engine may add a block: it has received one whose coverage pairs, and nothing holds its lines. -/
structure Adding (s : State) (e : EngineId) (b : Nat) (c : Coll) (r : RxBlk) (left : Bool) : Prop where
  runs   : s.coll e = some c
  next   : c.nextRx b = some r
  pairs  : c.pairing (c.blk b).cover r.cover = some left
  work   : s.linesHeld (granulesOf (c.work + 256 * b) 256) = false
  value  : s.linesHeld (granulesOf (c.blkSpan b).1 (c.blkSpan b).2) = false
  droops : s.collDroops e = false
  window : s.windowReady (granulesOf (c.work + 256 * b) 256) = true

/-- The member's value of a block, as its engine reads it for its next check. -/
def State.ownValue (s : State) (e : EngineId) (c : Coll) (b : Nat) : State × List Byte × Bool :=
  s.readDmem e c.op (c.steps.length + (s.eng e).nextChk) (c.blkSpan b).1 (c.blkSpan b).2

/-- The block once r has been added to it. -/
def Coll.sumOf (c : Coll) (b : Nat) (r : RxBlk) (left bad : Bool) : Blk :=
  ⟨if left then (c.blk b).cover ++ r.cover else r.cover ++ (c.blk b).cover, true, (c.blk b).applied ++ [r.step],
    bad || (c.blk b).poison || r.poison⟩

/-- The state once the sums have been written to WORK. -/
def State.summed (s : State) (e : EngineId) (c : Coll) (b : Nat) (r : RxBlk) (left : Bool) : State :=
  let v := s.ownValue e c b
  (v.1.writeRunAs (some c.op) (.collective e) none .dmem (c.work + 256 * b)
    (sumBytes (blockSums left (blockNums v.2.1) (blockNums r.data))) (v.2.2 || (c.blk b).poison || r.poison)).usedInv
      (granulesOf (c.work + 256 * b) 256)

/-- What an addition comes to: the sums are written, the engine counts it, and blocks held back are let in. -/
theorem collAdd_adds (h : Adding s e b c r left) : ∃ flags checks,
    s.collAdd e b = (((s.summed e c b r left).setEng e { (s.summed e c b r left).eng e with
      run := some { c.setBlk b (c.sumOf b r left (s.ownValue e c b).2.2) with rx := c.rx.erase r, checks := checks }
      adds := ((s.summed e c b r left).eng e).adds + 1
      nextChk := ((s.summed e c b r left).eng e).nextChk + 1
      flags := flags }).letIn e).pump := by
  have hfree : (s.linesHeld (granulesOf (c.work + 256 * b) 256 ++ granulesOf (c.blkSpan b).1 (c.blkSpan b).2) ||
      s.collDroops e) = false := by
    rw [linesHeld_append, h.work, h.value, h.droops]
    rfl
  simp only [State.collAdd, h.runs, h.next, h.pairs, hfree, h.window, Bool.not_true, Bool.false_eq_true, if_false]
  exact ⟨_, _, rfl⟩

theorem usedInv_col (s : State) (l : List Nat) : (s.usedInv l).col = s.col := rfl

theorem sameBytes_usedInv (s : State) (l : List Nat) : SameBytes s (s.usedInv l) := sameBytes_of_store (fun k => by cases k <;> rfl)

theorem summed_col (s : State) (e : EngineId) (c : Coll) (b : Nat) (r : RxBlk) (left : Bool) : (s.summed e c b r left).col = s.col := by
  have hwrite (t : State) (a : Nat) (l : List Byte) (p : Bool) :
      (t.writeRunAs (some c.op) (.collective e) none .dmem a l p).col = t.col := by
    rw [memoryOnly_writeRunAs t (some c.op) (.collective e) none .dmem a l p]
  dsimp only [State.summed]
  rw [usedInv_col, hwrite]
  exact (looks_readDmem s e c.op _ _ _).col

/-- The bytes of device memory once the sums have been written: those of WORK that no other write outran. -/
theorem summed_readByte (s : State) (e : EngineId) (c : Coll) (b : Nat) (r : RxBlk) (left : Bool) (i : Nat) :
    (s.summed e c b r left).readByte .dmem i =
      if c.work + 256 * b ≤ i ∧ i < c.work + 256 * b + 256 ∧ s.lands (some c.op) (.collective e) (.dmem, i) = true then
        (sumBytes (blockSums left (blockNums (s.ownValue e c b).2.1) (blockNums r.data))).getD (i - (c.work + 256 * b)) 0
      else s.readByte .dmem i := by
  let v := s.ownValue e c b
  have hread : Looks s v.1 := looks_readDmem s e c.op _ _ _
  have hlater : SameLater (some c.op) (.collective e) s v.1 := sameLater_of_sameOrder ⟨hread.old, by rw [hread.only]⟩
  have hwrite := (readByte_writeRunAs v.1 (some c.op) (.collective e) none .dmem (c.work + 256 * b)
    (sumBytes (blockSums left (blockNums v.2.1) (blockNums r.data))) (v.2.2 || (c.blk b).poison || r.poison)).1 i
  rw [length_sumBytes, lands_sameLater hlater, hread.sameBytes] at hwrite
  dsimp only [State.summed]
  rw [sameBytes_usedInv]
  exact hwrite

/-- What an addition leaves in the engine and in device memory. -/
theorem collAdd_leaves (h : Adding s e b c r left) :
    ((s.collAdd e b).eng e).adds = (s.eng e).adds + 1 ∧ SameBytes (s.summed e c b r left) (s.collAdd e b) ∧
      ∃ d, ((s.collAdd e b).eng e).run = some d ∧ d.blk b = c.sumOf b r left (s.ownValue e c b).2.2 := by
  obtain ⟨flags, checks, heq⟩ := collAdd_adds h
  have hcol := summed_col s e c b r left
  generalize s.summed e c b r left = u at heq hcol
  let d : Coll := { c.setBlk b (c.sumOf b r left (s.ownValue e c b).2.2) with rx := c.rx.erase r, checks := checks }
  let g : ColEng := { u.eng e with run := some d, adds := (u.eng e).adds + 1, nextChk := (u.eng e).nextChk + 1, flags := flags }
  have heng : (u.setEng e g).eng e = g := eng_setEng u e g
  obtain ⟨rx, hold, hdrains, hsends⟩ := letIn_running (s := u.setEng e g) (e := e) (c := d) (by rw [heng])
  have hall := ((hdrains.trans (drains_pump _)).eng e)
  rw [heng, eng_setEng] at hall
  rw [heq]
  obtain ⟨sent, hrun⟩ := hall.running rfl
  refine ⟨?_, ?_, { d with rx := rx, sent := sent }, hrun, ?_⟩
  · rw [hall.rest]
    change (u.eng e).adds + 1 = _
    rw [State.eng, hcol, State.eng]
  · have hset (x : ColEng) (i : EngineId) (t : State) : SameBytes t (t.setEng i x) := sameBytes_of_store (fun l => by cases l <;> rfl)
    exact sameBytes_trans (sameBytes_trans (hset g e u) (hset _ e _))
      (sameBytes_netOnly (hsends.only.netOnly.trans (netOnly_pump _)))
  · exact (blk_setBlk c b b _).trans (if_pos rfl)

end

end Sys2Proof.Machine
end

/-!
PROOFS. The output of a collective in its two steps, and the claim (R316, R317, R319; O36).
-/
section
namespace Sys2Proof.Machine

/-! ## Converting the shard (R316) -/

section
variable {s t : State} {e : EngineId} {c d : Coll}

/-- The converted bytes of a block, read as the engine's check number n. -/
def State.shardBlock (s : State) (e : EngineId) (c : Coll) (n b : Nat) : Nat × List Byte :=
  (b, (c.outBlock b (s.readDmem e c.op (c.steps.length + n) (c.blkSpan b).1 (c.blkSpan b).2).2.1).1.flatMap
    (leBytes (collElem c.outFmt.toNat)))

/-- The bytes of a block's codes are those of its converted elements. -/
theorem flatMap_outBlock (c : Coll) (b n : Nat) (data : List Byte) : (c.outBlock b data).1.flatMap (leBytes n) =
    ((blockNums data).mapIdx (fun i v =>
      leBytes n (convert v c.outFmt c.outRnd c.outOvf (rand24 c.seed c.tag (64 * b + i))).code)).flatten := by
  simp only [Coll.outBlock, List.flatMap_def, List.mapIdx_eq_zipIdx_map, List.map_map]
  rfl

/-- c has become d by converting blocks: their bytes and checks are noted, and some were found poisoned. -/
structure Coll.Converts (c d : Coll) : Prop where
  only : d = { c with blocks := d.blocks, output := d.output, checks := d.checks }
  blk  : PoisonsOnly c d

theorem Coll.Converts.blkSpan (h : c.Converts d) (b : Nat) : d.blkSpan b = c.blkSpan b := h.blk.blkSpan (by rw [h.only]) b

theorem Coll.Converts.trans {f : Coll} (h : c.Converts d) (k : d.Converts f) : c.Converts f := by
  refine ⟨?_, h.blk.trans k.blk⟩
  rw [k.only, h.only]

/-- The engine runs d, which has come from c by conversions, its next check is n, and reads get what they got in s. -/
structure Converting (s t : State) (e : EngineId) (c d : Coll) (n : Nat) : Prop where
  old   : t.old = s.old
  bytes : SameBytes s t
  run   : (t.eng e).run = some d
  next  : (t.eng e).nextChk = n
  conv  : c.Converts d

/-- The bytes that an engine converts do not turn on the conversions before. -/
theorem Converting.shardBlock {n : Nat} (h : Converting s t e c d n) (b : Nat) : t.shardBlock e d n b = s.shardBlock e c n b := by
  have hread := readDmem_same h.old h.bytes e c.op (c.steps.length + n) (c.blkSpan b).1 (c.blkSpan b).2
  have honly := h.conv.only
  rw [State.shardBlock, h.conv.blkSpan, State.shardBlock, ← hread]
  rw [honly]
  rfl

theorem convertBlock_converts {n : Nat} (h : Converting s t e c d n) (b : Nat) :
    ∃ f, Converting s (t.convertBlock e b) e c f (n + 1) ∧ f.output = some (d.output.getD [] ++ [s.shardBlock e c n b]) := by
  have hread := looks_readDmem t e d.op (d.steps.length + n) (d.blkSpan b).1 (d.blkSpan b).2
  have hblock := h.shardBlock b
  let r := t.readDmem e d.op (d.steps.length + n) (d.blkSpan b).1 (d.blkSpan b).2
  obtain ⟨checks, flags, heq⟩ : ∃ checks flags, t.convertBlock e b = r.1.setEng e { r.1.eng e with
      run := some { d.noting b r.2.2 with output := some (d.output.getD [] ++ [t.shardBlock e d n b]), checks := checks }
      nextChk := (r.1.eng e).nextChk + 1, flags := flags } := by
    simp only [State.convertBlock, h.run, h.next]
    exact ⟨_, _, rfl⟩
  have heng : r.1.eng e = t.eng e := by rw [State.eng, hread.col, State.eng]
  let f : Coll := { d.noting b r.2.2 with output := some (d.output.getD [] ++ [t.shardBlock e d n b]), checks := checks }
  rw [heq]
  refine ⟨f, ⟨hread.old.trans h.old, ?_, by rw [eng_setEng], ?_, h.conv.trans ⟨?_, poisonsOnly_noting d b r.2.2⟩⟩, by rw [← hblock]⟩
  · exact sameBytes_trans (sameBytes_trans h.bytes hread.sameBytes) (sameBytes_of_store (fun l => by cases l <;> rfl))
  · rw [eng_setEng, heng, h.next]
  · simp only [f]
    rw [noting_only]

/-- A list of blocks is converted one after the other. -/
theorem convert_all {n : Nat} (h : Converting s t e c d n) (l : List Nat) :
    ∃ f, Converting s (l.foldl (fun u b => u.convertBlock e b) t) e c f (n + l.length) ∧
      (l ≠ [] ∨ d.output.isSome = true → f.output = some (d.output.getD [] ++ l.mapIdx (fun k x => s.shardBlock e c (n + k) x))) := by
  induction l generalizing t d n with
  | nil =>
    refine ⟨d, h, fun hsome => ?_⟩
    obtain ⟨o, ho⟩ := Option.isSome_iff_exists.1 (hsome.resolve_left (fun hne => hne rfl))
    simp [ho]
  | cons b l ih =>
    obtain ⟨d1, h1, hout1⟩ := convertBlock_converts h b
    obtain ⟨f, hf, hout⟩ := ih h1
    refine ⟨f, ?_, fun _ => ?_⟩
    · rw [List.foldl_cons, List.length_cons, show n + (l.length + 1) = n + 1 + l.length by omega]
      exact hf
    · rw [hout (.inr (by rw [hout1]; rfl)), hout1, List.mapIdx_cons, Option.getD_some, List.append_assoc]
      simp only [Nat.add_zero, List.singleton_append, show ∀ k, n + 1 + k = n + (k + 1) by omega]

/-- What converting a shard leaves. -/
theorem convertShard_converts (s : State) (e : EngineId) (c : Coll) : SameBytes s (s.convertShard e c) ∧
    ((s.convertShard e c).eng e).run.map (·.output) =
      some (some (c.shard.mapIdx (fun k x => s.shardBlock e c ((s.eng e).nextChk + k) x))) := by
  have hstart : Converting s (s.setColl e { c with output := some [] }) e c { c with output := some [] } (s.eng e).nextChk :=
    ⟨rfl, sameBytes_of_store (fun l => by cases l <;> rfl), by rw [State.setColl, eng_setEng], by rw [State.setColl, eng_setEng],
      rfl, fun k => ⟨(c.blk k).poison, rfl⟩⟩
  obtain ⟨f, hf, hout⟩ := convert_all hstart c.shard
  refine ⟨hf.bytes, ?_⟩
  rw [State.convertShard, hf.run, Option.map_some, hout (.inr rfl)]
  rfl

end

/-! ## Writing the shard (R226, R317) -/

theorem sameLater_writeRunAs (s : State) (op : Option Nat) (w : Writer) (after : Option Nat) (l : Loc) (a : Nat) (b : List Byte)
    (p : Bool) : SameLater op w s (s.writeRunAs op w after l a b p) :=
  sameLater_foldl _ (fun t (x : Nat × List (Nat × Byte)) => sameLater_orderGran t after l x.1 x.2 p []) _ s

/-- Runs written one after the other, each leaving what no later write covers. -/
theorem wrote_runs {α : Type} (op : Option Nat) (w : Writer) (after : Option Nat) (k : Loc) (addr : α → Nat) (data : α → List Byte)
    (bad : α → Bool) (l : List α) (s : State) :
    Wrote s (l.foldl (fun t x => t.writeRunAs op w after k (addr x) (data x) (bad x)) s)
      (l.flatMap (fun x => ((addressed (addr x) (data x)).filter (fun y => s.lands op w (k, y.1))).map (fun y => ((k, y.1), y.2)))) := by
  have hfrom (t : State) (h : SameLater op w s t) : Wrote t (l.foldl (fun t x => t.writeRunAs op w after k (addr x) (data x) (bad x)) t)
      (l.flatMap (fun x => ((addressed (addr x) (data x)).filter (fun y => s.lands op w (k, y.1))).map (fun y => ((k, y.1), y.2)))) := by
    induction l generalizing t with
    | nil => exact wrote_refl t
    | cons x l ih =>
      have hfirst := wrote_writeRunAs t op w after k (addr x) (data x) (bad x)
      simp only [lands_sameLater h] at hfirst
      rw [List.flatMap_cons]
      exact wrote_append hfirst (ih _ (h.trans (sameLater_writeRunAs t op w after k _ _ _)))
  exact hfrom s (sameLater_of_sameOrder (SameOrder.refl s))

section
variable {s : State} {e : EngineId} {c : Coll} {l : List (Nat × List Byte)}

/-- What a converted shard leaves in device memory. -/
def State.shardWrites (s : State) (e : EngineId) (c : Coll) (l : List (Nat × List Byte)) : List ((Loc × Nat) × Byte) :=
  l.flatMap (fun x => ((addressed (c.dst + c.outSize * (x.1 - c.shardLo)) x.2).filter
    (fun y => s.lands (some c.op) (.collective e) (.dmem, y.1))).map (fun y => ((.dmem, y.1), y.2)))

theorem wrote_writeShard (h : c.output = some l) : Wrote s (s.writeShard e c) (s.shardWrites e c l) := by
  rw [State.writeShard, h, Option.getD_some]
  exact wrote_runs (some c.op) (.collective e) none .dmem (fun x : Nat × List Byte => c.dst + c.outSize * (x.1 - c.shardLo)) Prod.snd
    (fun x => (c.blk x.1).poison) l s

/-- The state once the shard is written: no engine and no operation has changed. -/
theorem shard_written (h : c.output = some l) (lines : List Nat) : ∃ t, t = (s.writeShard e c).usedInv lines ∧
    Wrote s t (s.shardWrites e c l) ∧ t.col = s.col ∧ t.sch = s.sch := by
  have hmem : MemoryOnly s (s.writeShard e c) :=
    memoryOnly_foldl _ (fun t (x : Nat × List Byte) => memoryOnly_writeRunAs t _ _ _ _ _ _ _) _ s
  refine ⟨_, rfl, wrote_of_sameBytes (sameBytes_refl s) (wrote_writeShard h) (sameBytes_usedInv _ lines), ?_, ?_⟩
  · change (s.writeShard e c).col = s.col
    rw [hmem]
  · change (s.writeShard e c).sch = s.sch
    rw [hmem]

/-! ## COLLECTIVE_OUTPUT -/

/-- Every step is done, every verdict is in, and nothing holds the shard's lines. -/
structure Outputs (s : State) (e : EngineId) (c : Coll) : Prop where
  runs   : s.coll e = some c
  done   : c.stepsDone = true
  sent   : s.blocksWait c.collId = false
  checks : c.checks = []
  free   : ∀ x ∈ c.shard, s.linesHeld (granulesOf (c.blkSpan x).1 (c.blkSpan x).2) = false

theorem Outputs.goes (h : Outputs s e c) : (!c.stepsDone || s.blocksWait c.collId || !c.checks.isEmpty ||
    s.linesHeld (c.shard.flatMap (fun b => granulesOf (c.blkSpan b).1 (c.blkSpan b).2))) = false := by
  have hfree : s.linesHeld (c.shard.flatMap (fun b => granulesOf (c.blkSpan b).1 (c.blkSpan b).2)) = false := by
    rw [State.linesHeld, List.any_flatMap]
    exact List.any_eq_false.2 (fun x hx => by simpa [State.linesHeld] using h.free x hx)
  rw [h.done, h.sent, h.checks, hfree]
  rfl

theorem collOutput_converts (h : Outputs s e c) (hnone : c.output = none) (hcovers : c.shard.all c.covers = true) :
    s.collOutput e = s.convertShard e c := by
  simp only [State.collOutput, h.runs, h.goes, hnone, hcovers, Option.isNone_none, Bool.false_eq_true, if_false, if_true]

/-- The shard once converted is written, and the collective ends. -/
theorem collOutput_ends (h : Outputs s e c) (hout : c.output = some l)
    (hfree : s.linesHeld (granulesOf c.dst (c.outSize * c.shard.length)) = false)
    (hready : s.windowReady (granulesOf c.dst (c.outSize * c.shard.length)) = true) :
    s.collOutput e =
      let t := (s.writeShard e c).usedInv (granulesOf c.dst (c.outSize * c.shard.length))
      if c.poisoned then t.collFail e cCOLL_POISON noStep else (t.updOp c.op (fun o => o.fix .done 0 0)).collReport e := by
  simp only [State.collOutput, h.runs, h.goes, hout, hfree, hready, Option.isNone_some, Bool.not_true, Bool.false_eq_true, if_false]

/-- A collective without poison ends DONE (R317). -/
theorem collOutput_done (h : Outputs s e c) (hout : c.output = some l)
    (hfree : s.linesHeld (granulesOf c.dst (c.outSize * c.shard.length)) = false)
    (hready : s.windowReady (granulesOf c.dst (c.outSize * c.shard.length)) = true) (hclean : c.poisoned = false) :
    ((s.collOutput e).eng e).run = none ∧ Wrote s (s.collOutput e) (s.shardWrites e c l) ∧
      ∀ o, s.opOf c.op = some o → o.status = none → ((s.collOutput e).opOf c.op).map (·.status) = some (some .done) := by
  obtain ⟨t, ht, hwrote, -, hsch⟩ := shard_written (s := s) (e := e) hout (granulesOf c.dst (c.outSize * c.shard.length))
  have heq := collOutput_ends h hout hfree hready
  rw [hclean, ← ht] at heq
  rw [heq]
  let u := t.updOp c.op (fun o => o.fix .done 0 0)
  have hwinds : Winds e u (u.collReport e) := winds_collReport u e
  have hfix : SameBytes t u := sameBytes_of_store (fun l => by cases l <;> rfl)
  refine ⟨run_collReport u e, wrote_of_sameBytes (sameBytes_refl s) hwrote (sameBytes_trans hfix hwinds.bytes), fun o ho hst => ?_⟩
  have hfound : u.opOf c.op = some (o.fix .done 0 0) :=
    opOf_updOp (fun _ => id_fix ..) ((opOf_congr (by rw [hsch]) _).trans ho)
  obtain ⟨o', ho', hst'⟩ := hwinds.status _ _ hfound
  change ((u.collReport e).opOf c.op).map (·.status) = _
  rw [ho', Option.map_some, hst', status_fix hst]

/-- A poisoned one fails (R319). -/
theorem collOutput_poisoned (h : Outputs s e c) (hout : c.output = some l)
    (hfree : s.linesHeld (granulesOf c.dst (c.outSize * c.shard.length)) = false)
    (hready : s.windowReady (granulesOf c.dst (c.outSize * c.shard.length)) = true) (hbad : c.poisoned = true) :
    ((s.collOutput e).eng e).lastCode = 11 ∧ Wrote s (s.collOutput e) (s.shardWrites e c l) ∧
      ∀ o, s.opOf c.op = some o → o.status = none → ((s.collOutput e).opOf c.op).map (·.status) = some (some .failed) := by
  obtain ⟨t, ht, hwrote, hcol, hsch⟩ := shard_written (s := s) (e := e) hout (granulesOf c.dst (c.outSize * c.shard.length))
  have heq := collOutput_ends h hout hfree hready
  rw [hbad, ← ht] at heq
  rw [heq]
  have hruns : t.coll e = some c := by
    have hc := h.runs
    rw [State.coll, State.eng] at hc ⊢
    rw [hcol]
    exact hc
  have hfail := collFailed_collFail hruns cCOLL_POISON noStep
  exact ⟨hfail.lastCode, wrote_of_sameBytes (sameBytes_refl s) hwrote hfail.bytes,
    fun o ho hst => hfail.status o ((opOf_congr (by rw [hsch]) _).trans ho) hst⟩

end

/-! ## The claim -/

/-- A SEND or RECV step that has run out of sailings fails its collective (R298). -/
theorem exhaust_fails {s : State} {e : EngineId} {c : Coll} (hc : s.coll e = some c) {step : Nat} {st : Step}
    (hst : c.steps[step]? = some st) (h : c.exhausted s.tt.now step st = true) :
    CollFailed e c.op (BitVec.ofNat 8 cEXHAUSTED) s (s.exhaust e step) := by
  have hout : s.outOfSailings e step = true := by simp [State.outOfSailings, hc, hst, h]
  rw [State.exhaust, if_pos hout]
  exact collFailed_collFail hc _ _

/-- Settles O36: each row by what its lemma says of its engine and of device memory. -/
theorem collectivesSailAddAndFinish : Obligations.CollectivesSailAddAndFinish := by
  unfold Obligations.CollectivesSailAddAndFinish
  intro s e p sail b step c hc len lo hi pn due before free value sum shardBytes ends
  refine ⟨fun hlo hhi hs hdue hleft hfirst hup hready hroom => ?_, fun st hst hout => ?_,
    fun r left hnext hpairs hwork hvalue hdroops hwindow => ?_, fun hdone hsent hchecks hfree =>
      ⟨fun hnone hcovers => ?_, fun l hout hdst hwindow => ⟨fun hclean => ?_, fun hbad => ?_⟩⟩⟩
  · have hbefore : before = ((s.port p).sailed.filter (fun x => lo ≤ x.2.1)).foldl (fun n x => if x.1 ≤ hi then n + x.2.2 else n) 0 := by
      simp only [before, List.foldl_filter, decide_eq_true_eq]
    have hroom' : (due.map (fun x => c.wire x.2.2)).sum ≤ s.sailRoom p c sail := by
      rw [State.sailRoom, ← hbefore]
      exact hroom
    exact ⟨_, rfl, departure_sends ⟨hc, hlo, hhi, hdue, hleft, hfirst, hup⟩ hs hready hroom'⟩
  · have hfail := exhaust_fails hc hst hout
    exact ⟨_, rfl, hfail.lastCode, hfail.bytes, hfail.status⟩
  · have hadding : Adding s e b c r left := ⟨hc, hnext, hpairs, hwork, hvalue, hdroops, hwindow⟩
    obtain ⟨hadds, hbytes, d, hrun, hblk⟩ := collAdd_leaves hadding
    refine ⟨_, rfl, hadds, fun a ha => ?_, fun i hi' j hj => ?_, d, hrun, ?_, ?_, ?_⟩
    · rw [hbytes, summed_readByte, if_neg (by omega)]
    · have hin : c.work + 256 * b ≤ c.work + 256 * b + (4 * i + j) ∧ c.work + 256 * b + (4 * i + j) < c.work + 256 * b + 256 := by omega
      rw [hbytes, summed_readByte, Nat.add_sub_cancel_left, getD_sumBytes left _ _ hi' hj]
      simp only [hin, true_and]
      rfl
    · rw [hblk]
      rfl
    · rw [hblk]
      exact List.mem_append_right _ (List.mem_singleton_self _)
    · rw [hblk]
      rfl
  · have houtputs : Outputs s e c := ⟨hc, hdone, hsent, hchecks, hfree⟩
    obtain ⟨hbytes, hrun⟩ := convertShard_converts s e c
    rw [← collOutput_converts houtputs hnone hcovers] at hbytes hrun
    refine ⟨_, rfl, hbytes, hrun.trans ?_⟩
    simp only [State.shardBlock, flatMap_outBlock, ← Nat.add_assoc]
    rfl
  · exact ⟨_, rfl, collOutput_done ⟨hc, hdone, hsent, hchecks, hfree⟩ hout hdst hwindow hclean⟩
  · exact ⟨_, rfl, collOutput_poisoned ⟨hc, hdone, hsent, hchecks, hfree⟩ hout hdst hwindow hbad⟩

end Sys2Proof.Machine
end

/-!
PROOFS. What the links' sending leaves of the links themselves (R326 to R333): their training and what they have received, and
every frame to be sent again that has not left in a frame of a link that carries traffic.
-/
section
namespace Sys2Proof.Machine

/-! ## A link of a port -/

theorem link_setPort_ne (s : State) {p q : Port} (h : q ≠ p) (x : PortSt) (l : LinkId) : (s.setPort p x).link q l = s.link q l := by
  cases l <;> simp only [State.link, port_setPort_eq, if_neg h]

/-- A port that keeps its two links changes no link. -/
theorem link_setPort_same {s : State} {p : Port} {x : PortSt} (ha : x.la = (s.port p).la) (hb : x.lb = (s.port p).lb) (q : Port)
    (l : LinkId) : (s.setPort p x).link q l = s.link q l := by
  by_cases h : q = p
  · subst h
    cases l <;> simp only [State.link, port_setPort, ha, hb]
  · exact link_setPort_ne s h x l

theorem link_setLink (s : State) (p q : Port) (l m : LinkId) (x : Link) :
    (s.setLink p l x).link q m = if q = p ∧ m = l then x else s.link q m := by
  by_cases h : q = p
  · subst h
    cases l <;> cases m <;> simp [State.setLink, State.link]
  · rw [if_neg (fun hc => h hc.1)]
    cases l <;> exact link_setPort_ne s h _ m

@[simp] theorem link_setLink_self (s : State) (p : Port) (l : LinkId) (x : Link) : (s.setLink p l x).link p l = x := by
  rw [link_setLink, if_pos ⟨rfl, rfl⟩]

theorem otherLink_ne (l : LinkId) : otherLink l ≠ l := by
  cases l <;> decide

@[simp] theorem link_setLink_other (s : State) (p : Port) (l : LinkId) (x : Link) :
    (s.setLink p l x).link p (otherLink l) = s.link p (otherLink l) := by
  rw [link_setLink, if_neg (fun h => otherLink_ne l h.2)]

/-- What the link layer's own work leaves of a port: which of its links are disabled, and the lane that failed last. -/
def PortSt.settings (x : PortSt) : Bool × Bool × BitVec 4 := (x.disA, x.disB, x.failLane)

theorem settings_setPort {s : State} {p : Port} {x : PortSt} (h : x.settings = (s.port p).settings) (q : Port) :
    ((s.setPort p x).port q).settings = (s.port q).settings := by
  rw [port_setPort_eq]
  split
  case isTrue hq => rw [hq, h]
  case isFalse => rfl

theorem resend_setPort {s : State} {p : Port} {x : PortSt} (h : x.resend = (s.port p).resend) (q : Port) :
    ((s.setPort p x).port q).resend = (s.port q).resend := by
  rw [port_setPort_eq]
  split
  case isTrue hq => rw [hq, h]
  case isFalse => rfl

@[simp] theorem settings_setLink (s : State) (p q : Port) (l : LinkId) (x : Link) :
    ((s.setLink p l x).port q).settings = (s.port q).settings := by
  cases l <;> exact settings_setPort (by rfl) q

@[simp] theorem resend_setLink (s : State) (p q : Port) (l : LinkId) (x : Link) :
    ((s.setLink p l x).port q).resend = (s.port q).resend := by
  cases l <;> exact resend_setPort (by rfl) q

@[simp] theorem out_setLink (s : State) (p : Port) (l : LinkId) (x : Link) : (s.setLink p l x).out = s.out := by
  cases l <;> rfl

/-! ## What sending leaves of a link, and of the frames to be sent again -/

/-- From x to y a link has sent and been owed: its training and what it has accepted stand, and a link that does not carry
traffic has sent nothing. -/
structure LinkSends (x y : Link) : Prop where
  stands : y = { x with
    txSeq := y.txSeq, replay := y.replay, sentAt := y.sentAt, held := y.held
    granted := y.granted, buffer := y.buffer, ret := y.ret, owe := y.owe, park := y.park }
  shut   : x.state.carries = false → y.held = x.held ∧ y.replay = x.replay

theorem LinkSends.refl (x : Link) : LinkSends x x := ⟨rfl, fun _ => ⟨rfl, rfl⟩⟩

theorem LinkSends.state {x y : Link} (h : LinkSends x y) : y.state = x.state := by rw [h.stands]

theorem LinkSends.trans {x y z : Link} (h : LinkSends x y) (k : LinkSends y z) : LinkSends x z := by
  refine ⟨?_, fun hx => ?_⟩
  · rw [k.stands, h.stands]
  · obtain ⟨hheld, hreplay⟩ := h.shut hx
    obtain ⟨kheld, kreplay⟩ := k.shut (by rw [h.state, hx])
    exact ⟨kheld.trans hheld, kreplay.trans hreplay⟩

/-- A link that carries traffic may send. -/
theorem LinkSends.of_carries {x y : Link} (hc : x.state.carries = true) (h : y = { x with
    txSeq := y.txSeq, replay := y.replay, sentAt := y.sentAt, held := y.held
    granted := y.granted, buffer := y.buffer, ret := y.ret, owe := y.owe, park := y.park }) : LinkSends x y :=
  ⟨h, fun hx => by rw [hc] at hx; cases hx⟩

/-- From s to t frames to be sent again on port p have left, in order, each in a frame on a link that carries traffic. -/
def Resent (s t : State) (p : Port) : Prop :=
  ∃ sent new, (s.port p).resend = sent ++ (t.port p).resend ∧ t.out = s.out ++ new ∧
    ∀ ts ∈ sent, ∃ l d, (s.link p l).state.carries = true ∧
      Out.frame p l d (ts.map (fun y => { y with x := { y.x with link := l } })) ∈ new

/-- From s to t the links have sent: none is trained or taken down, and no port's settings have changed. -/
structure LinksSend (s t : State) : Prop where
  link     : ∀ q l, LinkSends (s.link q l) (t.link q l)
  settings : ∀ q, (t.port q).settings = (s.port q).settings

/-- Besides, no frame to be sent again is lost. -/
structure Emits (s t : State) : Prop extends LinksSend s t where
  resent : ∀ q, Resent s t q

section
variable {s t u : State}

theorem LinksSend.trans (h : LinksSend s t) (k : LinksSend t u) : LinksSend s u :=
  ⟨fun q l => (h.link q l).trans (k.link q l), fun q => (k.settings q).trans (h.settings q)⟩

/-- What waits to be sent again still waits. -/
theorem resent_none {p : Port} {new : List Out} (hwait : (t.port p).resend = (s.port p).resend) (hout : t.out = s.out ++ new) :
    Resent s t p := ⟨[], new, hwait.symm, hout, fun _ h => by cases h⟩

theorem LinksSend.emits {new : List Out} (h : LinksSend s t) (hwait : ∀ q, (t.port q).resend = (s.port q).resend)
    (hout : t.out = s.out ++ new) : Emits s t := ⟨h, fun q => resent_none (hwait q) hout⟩

/-- What leaves the ports as they are, and takes nothing back that was sent. -/
theorem emits_of_lnk {new : List Out} (hlnk : t.lnk = s.lnk) (hout : t.out = s.out ++ new) : Emits s t := by
  have hport (q : Port) : t.port q = s.port q := by rw [State.port, hlnk, State.port]
  refine LinksSend.emits ⟨fun q l => ?_, fun q => by rw [hport]⟩ (fun q => by rw [hport]) hout
  have hlink : t.link q l = s.link q l := by cases l <;> simp only [State.link, hport]
  rw [hlink]
  exact LinkSends.refl _

theorem Emits.refl (s : State) : Emits s s := emits_of_lnk (new := []) rfl (List.append_nil _).symm

theorem Emits.trans (h : Emits s t) (k : Emits t u) : Emits s u := by
  refine ⟨h.toLinksSend.trans k.toLinksSend, fun q => ?_⟩
  obtain ⟨a, new, hres, hout, hsent⟩ := h.resent q
  obtain ⟨b, new', kres, kout, ksent⟩ := k.resent q
  refine ⟨a ++ b, new ++ new', by rw [hres, kres, List.append_assoc], by rw [kout, hout, List.append_assoc], fun ts hts => ?_⟩
  rcases List.mem_append.1 hts with ha | hb
  · obtain ⟨l, d, hc, hin⟩ := hsent ts ha
    exact ⟨l, d, hc, List.mem_append_left _ hin⟩
  · obtain ⟨l, d, hc, hin⟩ := ksent ts hb
    rw [(h.link q l).state] at hc
    exact ⟨l, d, hc, List.mem_append_right _ hin⟩

theorem emits_foldl {α : Type} (f : State → α → State) (h : ∀ t x, Emits t (f t x)) (l : List α) (s : State) :
    Emits s (l.foldl f s) := by
  induction l generalizing s with
  | nil => exact Emits.refl s
  | cons x t ih => exact (h s x).trans (ih (f s x))

end

/-! ## Each step of sending (R326 to R333) -/

theorem linksSend_setPort {s : State} {p : Port} {x : PortSt} (ha : x.la = (s.port p).la) (hb : x.lb = (s.port p).lb)
    (hset : x.settings = (s.port p).settings) : LinksSend s (s.setPort p x) := by
  refine ⟨fun q l => ?_, settings_setPort hset⟩
  rw [link_setPort_same ha hb]
  exact LinkSends.refl _

theorem emits_setPort {s : State} {p : Port} {x : PortSt} (ha : x.la = (s.port p).la) (hb : x.lb = (s.port p).lb)
    (hset : x.settings = (s.port p).settings) (hres : x.resend = (s.port p).resend) : Emits s (s.setPort p x) :=
  (linksSend_setPort ha hb hset).emits (new := []) (resend_setPort hres) (List.append_nil _).symm

theorem emits_setLink {s : State} {p : Port} {l : LinkId} {x : Link} (h : LinkSends (s.link p l) x) : Emits s (s.setLink p l x) := by
  refine LinksSend.emits (new := []) ⟨fun q m => ?_, fun q => settings_setLink s p q l x⟩ (fun q => resend_setLink s p q l x)
    ((out_setLink s p l x).trans (List.append_nil _).symm)
  rw [link_setLink]
  split
  case isTrue hq => rw [hq.1, hq.2]; exact h
  case isFalse => exact LinkSends.refl _

theorem emits_creditBack (s : State) (p : Port) (l : LinkId) (c n : Nat) : Emits s (s.creditBack p l c n) := by
  unfold State.creditBack
  dsimp only
  split <;> exact emits_setLink ⟨rfl, fun _ => ⟨rfl, rfl⟩⟩

theorem emits_leaveBuffer (s : State) (t : OutTxn) : Emits s (s.leaveBuffer t) := by
  unfold State.leaveBuffer
  split
  · exact Emits.refl s
  · exact (emits_setLink ⟨by rfl, fun _ => ⟨by rfl, by rfl⟩⟩).trans (emits_creditBack _ _ _ _ _)

theorem emits_frameOut {s : State} {p : Port} {l : LinkId} (hc : (s.link p l).state.carries = true) (ts : List OutTxn) :
    Emits s (s.frameOut p l ts) :=
  (emits_setLink (LinkSends.of_carries hc rfl)).trans (emits_of_lnk rfl rfl)

/-- A frame sent again leaves on a link that carries traffic. -/
theorem emits_again {s : State} {p : Port} {l : LinkId} {ts : List OutTxn} {rest : List (List OutTxn)}
    (hc : (s.link p l).state.carries = true) (hres : (s.port p).resend = ts :: rest) :
    let t := s.setPort p { s.port p with resend := rest }
    Emits s ((t.setLink p l ((t.link p l).spend ts)).frameOut p l (ts.map (fun y => { y with x := { y.x with link := l } }))) := by
  intro t
  have hpop : LinksSend s t := linksSend_setPort rfl rfl rfl
  have hcarries : (t.link p l).state.carries = true := by rw [(hpop.link p l).state, hc]
  have hspend := emits_setLink (s := t) (p := p) (l := l) (x := (t.link p l).spend ts) (LinkSends.of_carries hcarries rfl)
  generalize hv : t.setLink p l ((t.link p l).spend ts) = v at hspend
  have hsend := emits_frameOut (s := v) (p := p) (l := l) (by rw [(hspend.link p l).state, hcarries])
    (ts.map (fun y => { y with x := { y.x with link := l } }))
  have hwait (q : Port) : ((v.frameOut p l (ts.map (fun y => { y with x := { y.x with link := l } }))).port q).resend =
      (t.port q).resend := by
    refine (resend_setLink v p q l _).trans ?_
    rw [← hv, resend_setLink]
  have hout : v.out = s.out := by
    rw [← hv, out_setLink]
    rfl
  refine ⟨(hpop.trans hspend.toLinksSend).trans hsend.toLinksSend, fun q => ?_⟩
  by_cases hq : q = p
  · subst hq
    refine ⟨[ts], _, ?_, congrArg₂ (· ++ ·) ((out_setLink v q l _).trans hout) rfl, fun x hx => ?_⟩
    · rw [hwait, hres, port_setPort]
      rfl
    · rw [List.mem_singleton.1 hx]
      exact ⟨l, _, hc, List.mem_singleton_self _⟩
  · refine resent_none ?_ (congrArg₂ (· ++ ·) ((out_setLink v p l _).trans hout) rfl)
    rw [hwait, port_setPort_eq, if_neg hq]

theorem emits_takeTxn {s : State} {p : Port} {l : LinkId} (hc : (s.link p l).state.carries = true) (t : OutTxn) :
    Emits s (s.takeTxn p l t).1 := by
  have hport : Emits s (s.setPort p { s.port p with
      txq := (s.port p).txq.erase t, txNum := onClass (s.port p).txNum (kindClass t.kind) (· + 1) }) := emits_setPort rfl rfl rfl rfl
  exact hport.trans (emits_setLink (LinkSends.of_carries (by rw [(hport.link p l).state, hc]) rfl))

theorem emits_loadFrame (p : Port) (l : LinkId) (k room : Nat) (s : State) (ts : List OutTxn) (hc : (s.link p l).state.carries = true) :
    Emits s (State.loadFrame p l k room s ts).1 := by
  induction k generalizing room s ts with
  | zero => exact Emits.refl s
  | succ k ih =>
    unfold State.loadFrame
    split
    · exact Emits.refl s
    · next t _ =>
      dsimp only
      split
      · have htake := emits_takeTxn hc t
        exact htake.trans (ih _ _ _ (by rw [(htake.link p l).state, hc]))
      · exact Emits.refl s

theorem carries_of_open {k : Link} (h : k.open_ = true) : k.state.carries = true := (Bool.and_eq_true_iff.1 h).1

theorem emits_pumpLink (p : Port) (l : LinkId) (k : Nat) (s : State) : Emits s (State.pumpLink p l k s) := by
  induction k generalizing s with
  | zero => exact Emits.refl s
  | succ k ih =>
    unfold State.pumpLink
    split
    case isTrue => exact Emits.refl s
    case isFalse hopen =>
      have hc := carries_of_open (k := s.link p l) (by simpa using hopen)
      split
      next ts rest hres =>
        dsimp only
        split
        · exact (emits_again hc hres).trans (ih _)
        · exact Emits.refl s
      next _ =>
        have h := emits_loadFrame p l frameFlits frameFlits s [] hc
        split
        · exact Emits.refl s
        · next _ heq =>
          rw [heq] at h
          exact ((h.trans (emits_frameOut (by rw [(h.link p l).state, hc]) _)).trans (emits_foldl _ emits_leaveBuffer _ _)).trans (ih _)

theorem emits_holdBack (s : State) (p : Port) : Emits s (s.holdBack p) :=
  (emits_setPort (p := p) (x := { s.port p with txq := (s.port p).txq.filter (fun t => !t.late s.tt.now) }) rfl rfl rfl rfl).trans
    (emits_foldl (fun t (b : OutTxn) => { t with col := t.col.map (fun g => g.takeBack b.x) })
      (fun _ _ => emits_of_lnk (new := []) rfl (List.append_nil _).symm) _ _)

theorem emits_pumpPort (s : State) (p : Port) : Emits s (s.pumpPort p) :=
  ((emits_holdBack s p).trans (emits_pumpLink p .a _ _)).trans (emits_pumpLink p .b _ _)

theorem emits_flushOwed (s : State) (p : Port) (l : LinkId) : Emits s (s.flushOwed p l) := by
  unfold State.flushOwed
  dsimp only
  split
  case isTrue h => exact emits_frameOut (carries_of_open (Bool.and_eq_true_iff.1 h).1) []
  case isFalse => exact Emits.refl s

/-- What the links send changes no link's training, and loses no frame to be sent again. -/
theorem emits_pump (s : State) : Emits s s.pump :=
  (emits_foldl _ emits_pumpPort _ s).trans
    (emits_foldl _ (fun _ p => (emits_flushOwed _ p .a).trans (emits_flushOwed _ p .b)) _ _)

end Sys2Proof.Machine
end

/-!
PROOFS. A link that goes down, and one that starts training (R332, R342, R346, R347, R350): what becomes of it, of its frames and
of its port's other link.
-/
section
namespace Sys2Proof.Machine

/-! ## The links' own work leaves the memories, the dispatcher and the pins -/

/-- From s to t links have failed, trained or sent: nothing differs but the ports, the timetable, the logbook, the blocks that
stayed behind, and what left the device. -/
def LinkWork (s t : State) : Prop :=
  t = { s with
    lnk := { s.lnk with ports := t.lnk.ports }, tt := t.tt, col := t.col, log := t.log, out := t.out, freeCtr := t.freeCtr }

theorem LinkWork.refl (s : State) : LinkWork s s := rfl

theorem LinkWork.trans {s t u : State} (h : LinkWork s t) (k : LinkWork t u) : LinkWork s u := by
  unfold LinkWork at h k ⊢
  rw [k, h]

theorem PortsOnly.linkWork {s t : State} (h : PortsOnly s t) : LinkWork s t := by
  unfold LinkWork
  rw [h]

theorem linkWork_setLink (s : State) (p : Port) (l : LinkId) (x : Link) : LinkWork s (s.setLink p l x) :=
  (portsOnly_setLink s p l x).linkWork

theorem linkWork_logRec (s : State) (r : LogRec) : LinkWork s (s.logRec r) := by
  unfold LinkWork
  rw [logRec_only]

theorem linkWork_reparent (s : State) : LinkWork s s.reparent := by
  unfold LinkWork
  rw [(reparent_keeps s).1]

theorem linkWork_pump (s : State) : LinkWork s s.pump := (portsOnly_pump s).linkWork

section
variable {s t : State} (h : LinkWork s t)
include h

theorem LinkWork.sameBytes : SameBytes s t := sameBytes_of_store (fun l => by rw [h]; cases l <;> rfl)

theorem LinkWork.wall : t.wall = s.wall := by rw [h]

theorem LinkWork.strapsOk : t.lnk.strapsOk = s.lnk.strapsOk := by rw [h]

theorem LinkWork.sch : t.sch = s.sch := by rw [h]

theorem LinkWork.cores : t.cores = s.cores := by rw [h]

end

/-! ## A change of reason (R355), and training (R342, R346) -/

@[simp] theorem setLink_setLink (s : State) (p : Port) (l : LinkId) (x y : Link) :
    (s.setLink p l x).setLink p l y = s.setLink p l y := by
  cases l <;> simp [State.setLink, State.setPort, State.port, Vector.set_set]

/-- A change of a link's reason is logged, and nothing else happens. -/
theorem setReason_eq (s : State) (p : Port) (l : LinkId) (st : LinkState) (r : BitVec 4) :
    ∃ g, s.setReason p l st r = { s.setLink p l { s.link p l with state := st, reason := r } with log := g } := by
  unfold State.setReason
  dsimp only
  split
  · exact ⟨_, rfl⟩
  · exact ⟨_, logRec_only _ _⟩

theorem link_setReason (s : State) (p : Port) (l : LinkId) (st : LinkState) (r : BitVec 4) :
    (s.setReason p l st r).link p l = { s.link p l with state := st, reason := r } := by
  obtain ⟨g, hg⟩ := setReason_eq s p l st r
  rw [hg]
  exact link_setLink_self s p l _

/-- What is put in a link's place after a change of its reason. -/
theorem setLink_setReason (s : State) (p : Port) (l : LinkId) (st : LinkState) (r : BitVec 4) (x : Link) :
    ∃ g, (s.setReason p l st r).setLink p l x = { s.setLink p l x with log := g } := by
  obtain ⟨g, hg⟩ := setReason_eq s p l st r
  refine ⟨g, ?_⟩
  rw [hg, ← setLink_setLink s p l { s.link p l with state := st, reason := r } x]
  cases l <;> rfl

/-- From s to t link l of port p alone has changed: it is x. -/
structure LinkPut (s t : State) (p : Port) (l : LinkId) (x : Link) : Prop where
  work     : LinkWork s t
  link     : t.link p l = x
  spare    : t.link p (otherLink l) = s.link p (otherLink l)
  settings : (t.port p).settings = (s.port p).settings
  resend   : (t.port p).resend = (s.port p).resend
  out      : t.out = s.out

theorem linkPut_setLink (s : State) (p : Port) (l : LinkId) (x : Link) : LinkPut s (s.setLink p l x) p l x :=
  ⟨linkWork_setLink s p l x, link_setLink_self s p l x, link_setLink_other s p l x, settings_setLink s p p l x,
    resend_setLink s p p l x, out_setLink s p l x⟩

theorem linkPut_setReason (s : State) (p : Port) (l : LinkId) (st : LinkState) (r : BitVec 4) (x : Link) :
    LinkPut s ((s.setReason p l st r).setLink p l x) p l x := by
  obtain ⟨g, hg⟩ := setLink_setReason s p l st r x
  obtain ⟨hwork, hlink, hspare, hset, hres, hout⟩ := linkPut_setLink s p l x
  rw [hg]
  exact ⟨hwork.trans rfl, hlink, hspare, hset, hres, hout⟩

/-- A link begins to train. -/
theorem linkPut_startTraining (s : State) (p : Port) (l : LinkId) : LinkPut s (s.startTraining p l) p l
    { s.link p l with state := .training, reason := 0, trainAt := s.wall } := by
  have h := linkPut_setReason s p l .training 0 { (s.setReason p l .training 0).link p l with trainAt := s.wall }
  rw [link_setReason] at h
  rw [State.startTraining, link_setReason]
  exact h

/-! ## Going down (R332, R346, R347, R350) -/

/-- A link that is not in use goes down, and no more. -/
theorem linkPut_linkDown {s : State} {p : Port} {l : LinkId} (h : (s.link p l).inUse = false) (st : LinkState) (r : BitVec 4) :
    LinkPut s (s.linkDown p l st r) p l { s.link p l with state := st, reason := r, downAt := s.wall } := by
  have hput := linkPut_setReason s p l st r { (s.setReason p l st r).link p l with downAt := s.wall }
  rw [link_setReason] at hput
  simp only [State.linkDown, h, link_setReason, Bool.not_false, if_true]
  exact hput

/-- From s to t a link in use has gone down, and the other has left its slack water; the links have not yet sent. -/
structure Fell (s t : State) (p : Port) (l : LinkId) (st : LinkState) (r : BitVec 4) : Prop where
  work     : LinkWork s t
  link     : t.link p l = { (s.link p l).parked with state := st, reason := r, downAt := s.wall }
  spare    : t.link p (otherLink l) = s.link p (otherLink l) ∨
    (s.link p (otherLink l)).state = .slack ∧ t.link p (otherLink l) = { s.link p (otherLink l) with state := .up }
  settings : (t.port p).settings = (s.port p).settings
  resend   : (t.port p).resend = (s.port p).resend ++ (s.link p l).unacked
  out      : t.out = s.out

theorem eq_otherLink {l m : LinkId} (h : m ≠ l) : m = otherLink l := by
  cases l <;> cases m <;> simp [otherLink] at h ⊢

theorem otherLink_otherLink (l : LinkId) : otherLink (otherLink l) = l := by
  cases l <;> rfl

/-- Frames come behind those that a port is to send again. -/
def State.queueAgain (s : State) (p : Port) (l : List (List OutTxn)) : State :=
  s.setPort p { s.port p with resend := (s.port p).resend ++ l }

/-- A link in its slack water is UP again. -/
def State.endSlack (s : State) (p : Port) (l : LinkId) : State :=
  if (s.link p l).state = .slack then s.setLink p l { s.link p l with state := .up } else s

/-- What a link's going down does before the timetable takes note and the links send. -/
def State.fallen (s : State) (p : Port) (l : LinkId) (st : LinkState) (r : BitVec 4) : State :=
  let t := s.setReason p l st r
  ((t.setLink p l { (t.link p l).parked with downAt := s.wall }).queueAgain p (s.link p l).unacked).endSlack p (otherLink l)

theorem linkDown_inUse {s : State} {p : Port} {l : LinkId} (h : (s.link p l).inUse = true) (st : LinkState) (r : BitVec 4) :
    s.linkDown p l st r = ((s.fallen p l st r).portChanged p).pump := by
  simp only [State.linkDown, h, Bool.not_true, Bool.false_eq_true, if_false]
  rfl

theorem link_queueAgain (s : State) (p : Port) (f : List (List OutTxn)) (l : LinkId) : (s.queueAgain p f).link p l = s.link p l :=
  link_setPort_same (by rfl) (by rfl) p l

theorem fell_fallen (s : State) (p : Port) (l : LinkId) (st : LinkState) (r : BitVec 4) : Fell s (s.fallen p l st r) p l st r := by
  have hput := linkPut_setReason s p l st r { ((s.setReason p l st r).link p l).parked with downAt := s.wall }
  rw [State.fallen]
  generalize (s.setReason p l st r).setLink p l { ((s.setReason p l st r).link p l).parked with downAt := s.wall } = t at hput
  rw [link_setReason] at hput
  have hqueue : Fell s (t.queueAgain p (s.link p l).unacked) p l st r := by
    refine ⟨hput.work.trans (portsOnly_setPort t p _).linkWork, by rw [link_queueAgain, hput.link]; rfl,
      .inl (by rw [link_queueAgain, hput.spare]), ?_, ?_, hput.out⟩
    · rw [State.queueAgain, port_setPort]
      exact hput.settings
    · rw [State.queueAgain, port_setPort, ← hput.resend]
  have hspare : (t.queueAgain p (s.link p l).unacked).link p (otherLink l) = s.link p (otherLink l) := by
    rw [link_queueAgain, hput.spare]
  generalize t.queueAgain p (s.link p l).unacked = u at hqueue hspare
  rw [State.endSlack, hspare]
  split
  case isTrue ho =>
    obtain ⟨hwork, hlink, hself, hset, hres, hout⟩ := linkPut_setLink u p (otherLink l) { s.link p (otherLink l) with state := .up }
    rw [otherLink_otherLink] at hself
    exact ⟨hqueue.work.trans hwork, hself.trans hqueue.link, .inr ⟨ho, hlink⟩, hset.trans hqueue.settings, hres.trans hqueue.resend,
      hout.trans hqueue.out⟩
  case isFalse => exact hqueue

/-- A port that has gained or lost its last link: only the timetable takes note. -/
theorem portChanged_only (s : State) (p : Port) : s.portChanged p = { s with tt := (s.portChanged p).tt } := by
  unfold State.portChanged
  split
  · rw [(reparent_keeps _).1]
  · rw [(reparent_keeps _).1]
    rfl

/-- What follows the fall of a link: the timetable takes note, and the links send. -/
theorem emits_portChanged_pump (s : State) (p : Port) : Emits s (s.portChanged p).pump := by
  have hlnk : (s.portChanged p).lnk = s.lnk := by rw [portChanged_only]
  have hout : (s.portChanged p).out = s.out := by rw [portChanged_only]
  exact (emits_of_lnk (new := []) hlnk (hout.trans (List.append_nil _).symm)).trans (emits_pump _)

theorem linkWork_portChanged_pump (s : State) (p : Port) : LinkWork s (s.portChanged p).pump := by
  refine LinkWork.trans (t := s.portChanged p) ?_ (linkWork_pump _)
  rw [portChanged_only]
  rfl

section
variable {s t : State} {p : Port} {l : LinkId}

/-- A port carries no traffic on a link that is down; what it sends, it sends on the other. -/
theorem resent_on_other (hl : (s.link p l).state.carries = false) (h : Resent s t p) :
    ∃ sent new, (s.port p).resend = sent ++ (t.port p).resend ∧ t.out = s.out ++ new ∧
      ∀ ts ∈ sent, ∃ d, Out.frame p (otherLink l) d
        (ts.map (fun y => { y with x := { y.x with link := otherLink l } })) ∈ new := by
  obtain ⟨sent, new, hres, hout, hsent⟩ := h
  refine ⟨sent, new, hres, hout, fun ts hts => ?_⟩
  obtain ⟨m, d, hm, hin⟩ := hsent ts hts
  have hne : m ≠ l := fun he => by rw [he, hl] at hm; cases hm
  rw [eq_otherLink hne] at hin
  exact ⟨d, hin⟩

theorem LinkPut.wentDown {st : LinkState} {r : BitVec 4} {x : Link} (h : LinkPut s t p l x) (huse : (s.link p l).inUse = false)
    (hst : x.state = st) (hr : x.reason = r) (hat : x.downAt = s.wall) : WentDown s t p l st r := by
  have hlink := h.link
  refine ⟨by rw [hlink, hst], by rw [hlink, hr], by rw [hlink, hat], h.work.sameBytes, fun hc => ?_⟩
  rw [huse] at hc
  cases hc

/-- A link goes down: its credits are parked, and what it has not had acknowledged leaves on the other link or waits (R332). -/
theorem wentDown_linkDown (s : State) (p : Port) (l : LinkId) {st : LinkState} (hst : st.carries = false) (r : BitVec 4) :
    WentDown s (s.linkDown p l st r) p l st r := by
  by_cases huse : (s.link p l).inUse = true
  · have hfell := fell_fallen s p l st r
    rw [linkDown_inUse huse]
    generalize s.fallen p l st r = t at hfell
    have hemits := emits_portChanged_pump t p
    have hwork := hfell.work.trans (linkWork_portChanged_pump t p)
    generalize (t.portChanged p).pump = u at hemits hwork
    have hsends := hemits.link p l
    rw [hfell.link] at hsends
    obtain ⟨hheld, hreplay⟩ := hsends.shut hst
    have hstands := hsends.stands
    obtain ⟨sent, new, hres, hout, hsent⟩ := resent_on_other (l := l) (by rw [hfell.link]; exact hst) (hemits.resent p)
    rw [hfell.resend] at hres
    rw [hfell.out] at hout
    exact ⟨by rw [hstands], by rw [hstands], by rw [hstands], hwork.sameBytes, fun _ => ⟨hheld, hreplay, sent, new, hres, hout, hsent⟩⟩
  · have huse : (s.link p l).inUse = false := by simpa using huse
    exact (linkPut_linkDown huse st r).wentDown huse rfl rfl rfl

/-- What a link's going down keeps of its port: its settings, and the other link's reason and, but for slack water, state. -/
theorem port_linkDown (s : State) (p : Port) (l : LinkId) (st : LinkState) (r : BitVec 4) :
    let t := s.linkDown p l st r
    let o := s.link p (otherLink l)
    LinkWork s t ∧ (t.port p).settings = (s.port p).settings ∧ (t.link p (otherLink l)).reason = o.reason ∧
      (o.state ≠ .slack → (t.link p (otherLink l)).state = o.state) := by
  intro t o
  by_cases huse : (s.link p l).inUse = true
  · have hfell := fell_fallen s p l st r
    have ht : t = ((s.fallen p l st r).portChanged p).pump := linkDown_inUse huse st r
    have hemits := emits_portChanged_pump (s.fallen p l st r) p
    have hwork := hfell.work.trans (linkWork_portChanged_pump _ p)
    rw [← ht] at hemits hwork
    have hspare := (hemits.link p (otherLink l)).stands
    refine ⟨hwork, (hemits.settings p).trans hfell.settings, ?_, fun ho => ?_⟩
    · rw [hspare]
      rcases hfell.spare with h | ⟨-, h⟩ <;> rw [h]
    · rw [hspare]
      rcases hfell.spare with h | ⟨h, -⟩
      · rw [h]
      · exact absurd h ho
  · obtain ⟨hwork, -, hspare, hset, -, -⟩ := linkPut_linkDown (by simpa using huse) st r
    exact ⟨hwork, hset, by rw [hspare], fun _ => by rw [hspare]⟩

end

end Sys2Proof.Machine
end

/-!
PROOFS. Frames, lanes that fail, training, its timers and its results (R326, R327, R342 to R346, R355; O41).
-/
section
namespace Sys2Proof.Machine

/-! ## What a link's going down turns on -/

/-- What becomes of a link that goes down is the same from s and from t. -/
structure Alike (s t : State) (p : Port) (l : LinkId) : Prop where
  work   : LinkWork s t
  out    : t.out = s.out
  resend : (t.port p).resend = (s.port p).resend
  state  : (t.link p l).state = (s.link p l).state
  replay : (t.link p l).replay = (s.link p l).replay

section
variable {s t u : State} {p : Port} {l : LinkId}

theorem LinkPut.alike {x : Link} (h : LinkPut s t p l x) (hstate : x.state = (s.link p l).state) (hreplay : x.replay = (s.link p l).replay) :
    Alike s t p l := ⟨h.work, h.out, h.resend, by rw [h.link, hstate], by rw [h.link, hreplay]⟩

theorem LinkPut.trans {x y : Link} (h : LinkPut s t p l x) (k : LinkPut t u p l y) : LinkPut s u p l y :=
  ⟨h.work.trans k.work, k.link, k.spare.trans h.spare, k.settings.trans h.settings, k.resend.trans h.resend, k.out.trans h.out⟩

theorem Alike.trans (h : Alike s t p l) (k : Alike t u p l) : Alike s u p l :=
  ⟨h.work.trans k.work, k.out.trans h.out, k.resend.trans h.resend, k.state.trans h.state, k.replay.trans h.replay⟩

theorem Alike.inUse (h : Alike s t p l) : (t.link p l).inUse = (s.link p l).inUse := by
  rw [Link.inUse, h.state, Link.inUse]

theorem WentDown.of_alike {st : LinkState} {r : BitVec 4} (h : Alike s t p l) (k : WentDown t u p l st r) : WentDown s u p l st r := by
  obtain ⟨hst, hr, hat, hbytes, hfrom⟩ := k
  refine ⟨hst, hr, hat.trans h.work.wall, sameBytes_trans h.work.sameBytes hbytes, fun huse => ?_⟩
  obtain ⟨hheld, hreplay, sent, new, hres, hout, hsent⟩ := hfrom (h.inUse.trans huse)
  rw [h.resend, Link.unacked, h.replay, ← Link.unacked] at hres
  rw [h.out] at hout
  exact ⟨hheld, hreplay, sent, new, hres, hout, hsent⟩

end

/-- What is noted of a port's health changes nothing of its links. -/
theorem wentDown_retryLimit (s : State) (p : Port) (l : LinkId) : WentDown s (s.retryLimit p l) p l .held rRETRY_LIMIT := by
  obtain ⟨hst, hr, hat, hbytes, hfrom⟩ := wentDown_linkDown s p l (st := .held) rfl rRETRY_LIMIT
  exact ⟨hst, hr, hat, sameBytes_trans hbytes (sameBytes_of_store (fun k => by cases k <;> rfl)), hfrom⟩

/-! ## A lane fails (R345, R346) -/

/-- From s to t a lane's failure has taken its link down, and on the third within an hour holds it. -/
def LaneFailed (s t : State) (p : Port) (l : LinkId) (lane : Lane16) : Prop :=
  let third := 2 ≤ ((s.link p l).laneDowns.filter (fun t => s.wall < t + hourNs)).length
  (t.port p).failLane = lane ∧ (third → WentDown s t p l .held rRETRY_LIMIT) ∧ (¬ third → WentDown s t p l .down rLANE)

section
variable {s : State} {p : Port} {l : LinkId}

theorem failLane_linkDown (s : State) (p : Port) (l : LinkId) (st : LinkState) (r : BitVec 4) :
    ((s.linkDown p l st r).port p).failLane = (s.port p).failLane := by
  obtain ⟨-, hset, -⟩ := port_linkDown s p l st r
  exact congrArg (fun x => x.2.2) hset

theorem laneFailed_laneFails {lane : Lane16} (hl : l = if lane.toNat < 8 then .a else .b) (huse : (s.link p l).inUse = true) :
    LaneFailed s (s.laneFails p lane) p l lane := by
  let u := (s.setPort p { s.port p with failLane := lane }).healthInc (portHealth (portNum p).val + 0x50) 4
  let downs := s.wall :: (s.link p l).laneDowns.filter (fun t => s.wall < t + hourNs)
  let v := u.setLink p l { u.link p l with laneDowns := downs }
  have hfails : s.laneFails p lane = if 3 ≤ downs.length then v.retryLimit p l else v.linkDown p l .down rLANE := by
    simp only [State.laneFails, ← hl, huse, Bool.not_true, Bool.false_eq_true, if_false]
    rfl
  have hport : u.port p = { s.port p with failLane := lane } := port_setPort s p _
  have hlink : u.link p l = s.link p l := link_setPort_same (x := { s.port p with failLane := lane }) rfl rfl p l
  have hnoted : Alike s u p l := ⟨rfl, rfl, by rw [hport], by rw [hlink], by rw [hlink]⟩
  have halike : Alike s v p l := hnoted.trans ((linkPut_setLink u p l _).alike rfl rfl)
  have hlane : (v.port p).failLane = lane := by
    have hset := settings_setLink u p p l { u.link p l with laneDowns := downs }
    rw [hport] at hset
    exact congrArg (fun x => x.2.2) hset
  have hthird : 3 ≤ downs.length ↔ 2 ≤ ((s.link p l).laneDowns.filter (fun t => s.wall < t + hourNs)).length := by
    rw [List.length_cons]
    omega
  rw [LaneFailed, hfails]
  split
  case isTrue h =>
    refine ⟨(failLane_linkDown v p l .held rRETRY_LIMIT).trans hlane, fun _ => WentDown.of_alike halike (wentDown_retryLimit v p l), fun hn => ?_⟩
    exact absurd (hthird.1 h) hn
  case isFalse h =>
    exact ⟨(failLane_linkDown v p l .down rLANE).trans hlane, fun hn => absurd (hthird.2 hn) h,
      fun _ => WentDown.of_alike halike (wentDown_linkDown v p l rfl rLANE)⟩

theorem LaneFailed.of_alike {t u : State} {lane : Lane16} (k : LaneFailed t u p l lane) (h : Alike s t p l)
    (hdowns : (t.link p l).laneDowns = (s.link p l).laneDowns) : LaneFailed s u p l lane := by
  rw [LaneFailed, hdowns, h.work.wall] at k
  obtain ⟨hlane, hheld, hdown⟩ := k
  exact ⟨hlane, fun h3 => WentDown.of_alike h (hheld h3), fun h3 => WentDown.of_alike h (hdown h3)⟩

/-! ## Frames (R326, R327) -/

/-- What a port counts and what it keeps for its health change no link. -/
theorem linkPut_setPort {x : PortSt} (ha : x.la = (s.port p).la) (hb : x.lb = (s.port p).lb)
    (hset : x.settings = (s.port p).settings) (hres : x.resend = (s.port p).resend) : LinkPut s (s.setPort p x) p l (s.link p l) := by
  exact ⟨rfl, link_setPort_same ha hb p l, link_setPort_same ha hb p _, settings_setPort hset p, resend_setPort hres p, rfl⟩

theorem LinkPut.logged {t : State} {x : Link} (h : LinkPut s t p l x) (g : LogSt) : LinkPut s { t with log := g } p l x :=
  ⟨h.work.trans rfl, h.link, h.spare, h.settings, h.resend, h.out⟩

theorem linkPut_countFrame (f : FrameIn) : LinkPut s (s.countFrame p l f) p l (s.link p l) := by
  unfold State.countFrame
  extract_lets x n d h t t1
  have ht : LinkPut s t p l (s.link p l) := by cases l <;> exact linkPut_setPort rfl rfl rfl rfl
  have ht1 : LinkPut s t1 p l (s.link p l) := by
    dsimp only [t1]
    split
    · exact ht
    · exact ht.logged _
  split
  · exact ht1
  · exact ht1.logged _

/-- A frame's errors are counted and remembered. -/
theorem linkPut_noteErrors (f : FrameIn) :
    ∃ x, LinkPut s ((s.countFrame p l f).noteErrors p l f) p l { s.link p l with recent := x } := by
  have hcount := linkPut_countFrame (s := s) (p := p) (l := l) f
  have hnote := linkPut_setLink (s.countFrame p l f) p l
  rw [State.noteErrors, hcount.link]
  exact ⟨_, hcount.trans (hnote _)⟩

/-- What is sent again leaves in frames with the numbers they had. -/
theorem emits_resendFrames (s : State) (p : Port) (l : LinkId) : Emits s (s.resendFrames p l) ∧ LinkWork s (s.resendFrames p l) := by
  have hframe (t : State) (f : SentFrame) : Emits t (State.resendFrame p l t f) ∧ LinkWork t (State.resendFrame p l t f) :=
    ⟨(emits_setLink (p := p) (l := l) (x := (t.link p l).sends f.txns t.wall) ⟨rfl, fun _ => ⟨rfl, rfl⟩⟩).trans (emits_of_lnk rfl rfl),
      (linkWork_setLink t p l _).trans rfl⟩
  have hall : Emits s ((s.link p l).replay.foldl (State.resendFrame p l) s) ∧
      LinkWork s ((s.link p l).replay.foldl (State.resendFrame p l) s) :=
    ⟨emits_foldl _ (fun t f => (hframe t f).1) _ s,
      List.foldlRecOn (motive := LinkWork s) _ _ (LinkWork.refl s) (fun t ht f _ => ht.trans (hframe t f).2)⟩
  exact ⟨hall.1.trans (emits_setPort rfl rfl rfl rfl), hall.2.trans (portsOnly_setPort _ p _).linkWork⟩

/-- A frame with the next number is accepted. -/
theorem takeFrame_good {f : FrameIn} (hfec : frameFecOk f = true) (hcrc : frameCrcOk f = true)
    (hseq : frameSeq f = (s.link p l).rxSeq + 1) :
    let t := s.takeFrame p l f
    (t.link p l).rxSeq = frameSeq f ∧ (t.link p l).nak = false ∧ LinkWork s t := by
  let u := s.setLink p l ((s.link p l).takeGranule f)
  let v := if frameNak f then u.resendFrames p l else u
  have hu : LinkPut s u p l ((s.link p l).takeGranule f) := linkPut_setLink s p l _
  have hv : Emits u v ∧ LinkWork u v := by
    dsimp only [v]
    split
    · exact emits_resendFrames u p l
    · exact ⟨Emits.refl u, LinkWork.refl u⟩
  have htake : s.takeFrame p l f = v.pump := by
    simp only [State.takeFrame, hfec, hcrc, hseq, decide_true, Bool.and_self, if_true]
    rfl
  have hstands := ((hv.1.trans (emits_pump v)).link p l).stands
  rw [htake]
  refine ⟨?_, ?_, hu.work.trans (hv.2.trans (linkWork_pump v))⟩
  · rw [hstands, hu.link]
    rfl
  · rw [hstands, hu.link]
    rfl

/-- Any other frame is asked for again. -/
theorem takeFrame_bad {f : FrameIn}
    (h : ¬ (frameFecOk f = true ∧ frameCrcOk f = true ∧ frameSeq f = (s.link p l).rxSeq + 1)) :
    let t := s.takeFrame p l f
    (t.link p l).rxSeq = (s.link p l).rxSeq ∧ (t.link p l).nak = true ∧ LinkWork s t := by
  let u := s.setLink p l { s.link p l with nak := true }
  let asks := !(s.link p l).nak && (s.link p l).open_
  have hu : LinkPut s u p l { s.link p l with nak := true } := linkPut_setLink s p l _
  have htake : s.takeFrame p l f = if asks then u.frameOut p l [] else u := by
    rw [State.takeFrame]
    dsimp only
    rw [if_neg (by simpa [and_assoc] using h)]
  rw [htake]
  split
  case isTrue hasks =>
    have hcarries : (u.link p l).state.carries = true := by
      rw [hu.link]
      exact carries_of_open (Bool.and_eq_true_iff.1 hasks).2
    have hstands := ((emits_frameOut hcarries []).link p l).stands
    refine ⟨?_, ?_, hu.work.trans (portsOnly_frameOut u p l []).linkWork⟩
    · rw [hstands, hu.link]
    · rw [hstands, hu.link]
  case isFalse => exact ⟨by rw [hu.link], by rw [hu.link], hu.work⟩

/-- The lane of eight that errors have failed (R345). -/
theorem badLane_lt {k : Link} {draw i : Nat} (h : k.badLane draw = some i) : i < 8 := by
  unfold Link.badLane at h
  split at h
  next j hj =>
    rw [← Option.some.inj h]
    exact List.mem_range.1 (List.mem_of_find?_eq_some hj)
  next =>
    split at h
    · rw [← Option.some.inj h]
      exact Nat.mod_lt _ (by decide)
    · cases h

theorem laneLink_eq {i : Nat} (hi : i < 8) (l : LinkId) :
    l = if (BitVec.ofNat 4 (i + 8 * linkBit l) : Lane16).toNat < 8 then .a else .b := by
  rw [BitVec.toNat_ofNat]
  cases l with
  | a => rw [if_pos (by simp only [linkBit]; omega)]
  | b => rw [if_neg (by simp only [linkBit]; omega)]

/-! ## Training (R342 to R346, R355) -/

/-- From s to t a training has failed: it is one more, the link goes down, and on the third it is held. -/
def NoSignal (s t : State) (p : Port) (l : LinkId) : Prop :=
  (t.link p l).trainFails = (s.link p l).trainFails + 1 ∧
    (2 ≤ (s.link p l).trainFails → WentDown s t p l .held rRETRY_LIMIT) ∧
    ((s.link p l).trainFails < 2 → WentDown s t p l .down rNO_SIGNAL)

theorem inUse_of_training {k : Link} (h : k.state = .training) : k.inUse = false := by
  rw [Link.inUse, h]
  rfl

theorem noSignal_trainTimeout (hstate : (s.link p l).state = .training)
    (htime : ¬ (s.wall < (s.link p l).trainAt + 100000000 ∧ s.pins.linkRef = true)) : NoSignal s (s.trainTimeout p l) p l := by
  let u := s.setLink p l { s.link p l with trainFails := (s.link p l).trainFails + 1 }
  have hput : LinkPut s u p l { s.link p l with trainFails := (s.link p l).trainFails + 1 } := linkPut_setLink s p l _
  have hdown (st : LinkState) (r : BitVec 4) := linkPut_linkDown (s := u) (p := p) (l := l) (inUse_of_training (by rw [hput.link, hstate])) st r
  have halike : Alike s u p l := hput.alike rfl rfl
  have hfails : s.trainTimeout p l =
      if 3 ≤ (s.link p l).trainFails + 1 then u.retryLimit p l else u.linkDown p l .down rNO_SIGNAL := by
    rw [State.trainTimeout]
    dsimp only
    rw [if_neg (by simpa [hstate] using htime)]
  rw [NoSignal, hfails]
  split
  case isTrue h =>
    refine ⟨?_, fun _ => WentDown.of_alike halike (wentDown_retryLimit u p l), fun hn => by omega⟩
    refine (congrArg Link.trainFails (hdown .held rRETRY_LIMIT).link).trans ?_
    rw [hput.link]
  case isFalse h =>
    refine ⟨?_, fun hn => by omega, fun _ => WentDown.of_alike halike (wentDown_linkDown u p l rfl rNO_SIGNAL)⟩
    rw [(hdown .down rNO_SIGNAL).link, hput.link]

/-- From s to t a link has started its first training step. -/
def Trains (s t : State) (p : Port) (l : LinkId) : Prop :=
  (t.link p l).state = .training ∧ (t.link p l).reason = 0 ∧ (t.link p l).trainAt = s.wall ∧ SameBytes s t

theorem trains_startTraining (s : State) (p : Port) (l : LinkId) : Trains s (s.startTraining p l) p l := by
  have h := linkPut_startTraining s p l
  exact ⟨by rw [h.link], by rw [h.link], by rw [h.link], h.work.sameBytes⟩

theorem retrainTimer_trains (hstate : (s.link p l).state = .down) (hreason : (s.link p l).reason = rLANE ∨ (s.link p l).reason = rNO_SIGNAL)
    (htime : (s.link p l).downAt + 1000000000 ≤ s.wall) : s.retrainTimer p l = s.startTraining p l := by
  rw [State.retrainTimer, if_pos (by simpa [hstate, secondNs, htime] using hreason)]

/-- The state in which the link reference is back (R515). -/
def State.refBack (s : State) : State := { s with pins := { s.pins with linkRef := true } }

theorem signalRegained_trains (hstate : (s.link p l).state = .down)
    (hreason : (s.link p l).reason = rRECORD_ID ∨ (s.link p l).reason = rCABLING ∨ (s.link p l).reason = rVERSION) :
    Trains s (s.signalRegained p l) p l := by
  have hlink : s.refBack.link p l = s.link p l := by cases l <;> rfl
  have hcheck : 5 ≤ (s.link p l).reason.toNat ∧ (s.link p l).reason.toNat ≤ 7 := by
    rcases hreason with h | h | h <;> rw [h] <;> decide
  have hgo : (decide ((s.refBack.link p l).state = .down) && decide (5 ≤ (s.refBack.link p l).reason.toNat) &&
      decide ((s.refBack.link p l).reason.toNat ≤ 7)) = true := by
    rw [hlink]
    simpa [hstate] using hcheck
  have heq : s.signalRegained p l = s.refBack.startTraining p l := if_pos hgo
  obtain ⟨hst, hr, hat, hbytes⟩ := trains_startTraining s.refBack p l
  rw [heq]
  exact ⟨hst, hr, hat, sameBytes_trans (sameBytes_of_store (fun k => by cases k <;> rfl)) hbytes⟩

theorem signalRegained_notes (h : ¬ ((s.link p l).state = .down ∧ 5 ≤ (s.link p l).reason.toNat ∧ (s.link p l).reason.toNat ≤ 7)) :
    s.signalRegained p l = s.refBack := by
  have hlink : s.refBack.link p l = s.link p l := by cases l <;> rfl
  have hgo : ¬ (decide ((s.refBack.link p l).state = .down) && decide (5 ≤ (s.refBack.link p l).reason.toNat) &&
      decide ((s.refBack.link p l).reason.toNat ≤ 7)) = true := by
    rw [hlink]
    simpa [and_assoc] using h
  exact if_neg hgo

section
variable {x : Partner} (hstate : (s.link p l).state = .training) (href : s.pins.linkRef = true)
include hstate href

/-- An exchange that ends too late is a training that has failed (R342). -/
theorem trained_late (htime : (s.link p l).trainAt + 100000000 < s.wall) : s.trained p l x = s.trainTimeout p l := by
  simp only [State.trained, hstate, href, htime, ne_eq, not_true_eq_false, decide_false, Bool.not_true, Bool.or_self, Bool.false_eq_true,
    if_false, if_true]

variable (htime : s.wall ≤ (s.link p l).trainAt + 100000000)
include htime

theorem trained_refused {r : BitVec 4} (hr : s.trainRefusal p l x = some r) :
    s.trained p l x = (s.sendLinkMsg p l).linkDown p l .down r := by
  simp only [State.trained, hstate, href, not_lt.2 htime, hr, ne_eq, not_true_eq_false, decide_false, Bool.not_true, Bool.or_self,
    Bool.false_eq_true, if_false]

/-- A link that has passed its checks is UP, with the version that both ends support. -/
theorem trained_up (hr : s.trainRefusal p l x = none) :
    let t := s.trained p l x
    (t.link p l).state = .up ∧ (t.link p l).reason = 0 ∧ commonVersion lnkVers x.vers.toNat = some (t.link p l).version ∧
      (t.link p l).trainFails = 0 ∧ SameBytes s t := by
  obtain ⟨v, hv⟩ : ∃ v, commonVersion lnkVers x.vers.toNat = some v := by
    cases h : commonVersion lnkVers x.vers.toNat with
    | none => simp [State.trainRefusal, h] at hr
    | some v => exact ⟨v, rfl⟩
  let u := s.setLink p l ((s.link p l).brought (s.port p).limits x.limits x.buffered v s.wall)
  obtain ⟨tt, htrained⟩ : ∃ tt, s.trained p l x = (((u.setTT tt).sendLinkMsg p l).reparent).pump := by
    apply Exists.intro
    simp only [State.trained, hstate, href, not_lt.2 htime, hr, hv, ne_eq, not_true_eq_false, decide_false, Bool.not_true, Bool.or_self,
      Bool.false_eq_true, if_false, Option.getD_some]
    rfl
  have hput : LinkPut s u p l _ := linkPut_setLink s p l _
  have hlink : (((u.setTT tt).sendLinkMsg p l).reparent).link p l = u.link p l := by
    rw [(reparent_keeps _).1]
    cases l <;> rfl
  have hwork : LinkWork s (((u.setTT tt).sendLinkMsg p l).reparent).pump :=
    (hput.work.trans (LinkWork.trans (by exact rfl) (linkWork_reparent _))).trans (linkWork_pump _)
  have hstands := ((emits_pump (((u.setTT tt).sendLinkMsg p l).reparent)).link p l).stands
  rw [hlink, hput.link] at hstands
  intro t
  have ht : t = (((u.setTT tt).sendLinkMsg p l).reparent).pump := htrained
  rw [← ht] at hstands hwork
  refine ⟨?_, ?_, ?_, ?_, hwork.sameBytes⟩
  · rw [hstands]
    rfl
  · rw [hstands]
    rfl
  · rw [hv, hstands]
    rfl
  · rw [hstands]
    rfl

end

end

/-! ## The claim -/

/-- Settles O41: a frame by whether it fails a lane, and each event of training by its lemma. -/
theorem linksFailAndTrain : Obligations.LinksFailAndTrain := by
  unfold Obligations.LinksFailAndTrain
  intro s p l k trains noSignal third failed
  refine ⟨fun f huse => ?frame, fun lane hl huse => ⟨_, rfl, laneFailed_laneFails hl huse⟩, fun hstate hreason htime => ?timer,
    fun m hm => ⟨fun hstate hreason => ⟨_, rfl, signalRegained_trains hstate hreason⟩, fun h => ⟨_, rfl, ?_⟩⟩,
    fun hstate htime => ⟨_, rfl, noSignal_trainTimeout hstate ?_⟩, fun x hstate href htime => ?late,
    fun x hstate href htime => ⟨fun hr => ⟨_, rfl, trained_up hstate href htime hr⟩, fun r hr => ?refused⟩⟩
  case frame =>
    intro u good
    obtain ⟨x, hput⟩ := linkPut_noteErrors (s := s) (p := p) (l := l) f
    have hrx : (u.link p l).rxSeq = k.rxSeq := by rw [hput.link]
    have halike : Alike s u p l := hput.alike rfl rfl
    have hin (y : State) (h : s.frameIn p l f = y) : exec (.frameReceived p l f) s = .next y := congrArg Host.Outcome.next h
    have hframe : s.frameIn p l f = match (u.link p l).badLane u.freeCtr with
        | none => u.takeFrame p l f
        | some i => { u with freeCtr := u.freeCtr + 1 }.laneFails p (BitVec.ofNat 4 (i + 8 * linkBit l)) := by
      have huse' : (s.link p l).inUse = true := huse
      simp only [State.frameIn, huse', Bool.not_true, Bool.false_eq_true, if_false]
      rfl
    refine ⟨fun hlane => ?_, fun i hlane => ?_⟩
    · rw [hlane] at hframe
      refine ⟨fun ⟨hfec, hcrc, hseq⟩ => ?_, fun hbad => ?_⟩
      · obtain ⟨hnum, hnak, hwork⟩ := takeFrame_good (s := u) (p := p) (l := l) hfec hcrc (by rw [hrx, hseq])
        have hall := halike.work.trans hwork
        exact ⟨_, hin _ hframe, hnum, hall.sameBytes, hall.sch, hall.cores, hnak⟩
      · obtain ⟨hnum, hnak, hwork⟩ := takeFrame_bad (s := u) (p := p) (l := l) (f := f) (by rw [hrx]; exact hbad)
        have hall := halike.work.trans hwork
        exact ⟨_, hin _ hframe, hnum.trans hrx, hnak, hall.sameBytes, hall.sch, hall.cores⟩
    · rw [hlane] at hframe
      have hdraw : Alike s { u with freeCtr := u.freeCtr + 1 } p l :=
        ⟨halike.work.trans rfl, halike.out, halike.resend, halike.state, halike.replay⟩
      have hfails := laneFailed_laneFails (s := { u with freeCtr := u.freeCtr + 1 }) (laneLink_eq (badLane_lt hlane) l)
        (hdraw.inUse.trans huse)
      have hdowns : (u.link p l).laneDowns = (s.link p l).laneDowns := by rw [hput.link]
      exact ⟨_, hin _ hframe, hfails.of_alike hdraw hdowns⟩
  case timer =>
    exact ⟨_, congrArg Host.Outcome.next (retrainTimer_trains hstate hreason htime), trains_startTraining s p l⟩
  · rw [hm]
    exact signalRegained_notes h
  · rintro ⟨hlt, href⟩
    rcases htime with h | h
    · exact absurd hlt (not_lt.2 h)
    · rw [href] at h
      cases h
  case late =>
    exact ⟨_, congrArg Host.Outcome.next (trained_late hstate href htime), noSignal_trainTimeout hstate (fun h => absurd h.1 (not_lt.2 htime.le))⟩
  case refused =>
    refine ⟨_, congrArg Host.Outcome.next (trained_refused hstate href htime hr), ?_⟩
    obtain ⟨hst, hre, hat, hbytes, -⟩ := wentDown_linkDown (s.sendLinkMsg p l) p l (st := .down) rfl r
    refine ⟨hst, hre, hat, sameBytes_trans (sameBytes_of_store (fun k => by cases k <;> rfl)) hbytes, fun huse => ?_⟩
    rw [inUse_of_training hstate] at huse
    cases huse

end Sys2Proof.Machine
end

/-!
PROOFS. LNK_Pp_CTRL, slack water and the retraining of a stack (R332, R346, R349, R355, R366; O42).
-/
section
namespace Sys2Proof.Machine

/-! ## What an act on one link keeps of the other -/

/-- A link is disabled (Table 10-15). -/
def State.disabled (s : State) (p : Port) : LinkId → Bool
  | .a => (s.port p).disA
  | .b => (s.port p).disB

/-- The state in which DISABLE of a link has a value, before anything follows from it. -/
def State.setDisabled (s : State) (p : Port) (l : LinkId) (on : Bool) : State :=
  s.setPort p (match l with | .a => { s.port p with disA := on } | .b => { s.port p with disB := on })

/-- From s to t link l of port p has been acted on. Of the other, DISABLE, the reason and, outside slack water, the state are
the same. -/
structure ActsOn (s t : State) (p : Port) (l : LinkId) : Prop where
  work     : LinkWork s t
  disabled : t.disabled p (otherLink l) = s.disabled p (otherLink l)
  reason   : (t.link p (otherLink l)).reason = (s.link p (otherLink l)).reason
  state    : (s.link p (otherLink l)).state ≠ .slack → (t.link p (otherLink l)).state = (s.link p (otherLink l)).state

theorem disabled_of_settings {s t : State} {p : Port} (h : (t.port p).settings = (s.port p).settings) (l : LinkId) :
    t.disabled p l = s.disabled p l := by
  cases l with
  | a => exact congrArg (fun x => x.1) h
  | b => exact congrArg (fun x => x.2.1) h

section
variable {s t u : State} {p : Port} {l : LinkId}

theorem ActsOn.refl (s : State) (p : Port) (l : LinkId) : ActsOn s s p l := ⟨LinkWork.refl s, rfl, rfl, fun _ => rfl⟩

theorem ActsOn.trans (h : ActsOn s t p l) (k : ActsOn t u p l) : ActsOn s u p l :=
  ⟨h.work.trans k.work, k.disabled.trans h.disabled, k.reason.trans h.reason,
    fun ho => (k.state (by rw [h.state ho]; exact ho)).trans (h.state ho)⟩

theorem LinkPut.actsOn {x : Link} (h : LinkPut s t p l x) : ActsOn s t p l :=
  ⟨h.work, disabled_of_settings h.settings _, by rw [h.spare], fun _ => by rw [h.spare]⟩

theorem actsOn_linkDown (s : State) (p : Port) (l : LinkId) (st : LinkState) (r : BitVec 4) : ActsOn s (s.linkDown p l st r) p l := by
  obtain ⟨hwork, hset, hreason, hstate⟩ := port_linkDown s p l st r
  exact ⟨hwork, disabled_of_settings hset _, hreason, hstate⟩

@[simp] theorem link_setDisabled (s : State) (p : Port) (l m : LinkId) (on : Bool) :
    (s.setDisabled p l on).link p m = s.link p m := by
  cases l <;> cases m <;> simp [State.setDisabled, State.link]

@[simp] theorem disabled_setDisabled (s : State) (p : Port) (l : LinkId) (on : Bool) : (s.setDisabled p l on).disabled p l = on := by
  cases l <;> simp [State.setDisabled, State.disabled]

theorem alike_setDisabled (s : State) (p : Port) (l : LinkId) (on : Bool) : Alike s (s.setDisabled p l on) p l := by
  refine ⟨rfl, rfl, ?_, by rw [link_setDisabled], by rw [link_setDisabled]⟩
  cases l <;> rw [State.setDisabled, port_setPort]

theorem actsOn_setDisabled (s : State) (p : Port) (l : LinkId) (on : Bool) : ActsOn s (s.setDisabled p l on) p l := by
  refine ⟨rfl, ?_, by rw [link_setDisabled], fun _ => by rw [link_setDisabled]⟩
  cases l <;> simp [State.setDisabled, State.disabled, otherLink]

/-! ## DISABLE (R355, Table 10-15) -/

/-- DISABLE that keeps its value does nothing. -/
theorem disableLink_same (s : State) (p : Port) (l : LinkId) : s.disableLink p l (s.disabled p l) = s := by
  cases l <;> simp only [State.disableLink, State.disabled, decide_true, Bool.true_or, if_true] <;> exact setPort_port s p

/-- DISABLE that changes, of a link not held for its port. -/
theorem disableLink_changes {on : Bool} (hwas : s.disabled p l = !on) (hfree : (s.link p l).portHeld = false) :
    s.disableLink p l on =
      if on then (s.setDisabled p l on).linkDown p l .held rDISABLED
      else if !s.lnk.strapsOk then (s.setDisabled p l on).setReason p l .down 0
      else (s.setDisabled p l on).startTraining p l := by
  have hnew : on ≠ s.disabled p l := by
    rw [hwas]
    cases on <;> decide
  have hgo : (decide (on = s.disabled p l) || (s.link p l).portHeld) = false := by simp [hnew, hfree]
  cases l <;> exact if_neg (fun h => Bool.false_ne_true (hgo.symm.trans h))

/-- A link that is disabled is held. -/
theorem disableLink_holds (hwas : s.disabled p l = false) (hfree : (s.link p l).portHeld = false) :
    let t := s.disableLink p l true
    WentDown s t p l .held rDISABLED ∧ t.disabled p l = true ∧ ActsOn s t p l := by
  have hdown := wentDown_linkDown (s.setDisabled p l true) p l (st := .held) rfl rDISABLED
  obtain ⟨-, hset, -⟩ := port_linkDown (s.setDisabled p l true) p l .held rDISABLED
  rw [disableLink_changes hwas hfree, if_pos rfl]
  exact ⟨WentDown.of_alike (alike_setDisabled s p l true) hdown, (disabled_of_settings hset l).trans (disabled_setDisabled s p l true),
    (actsOn_setDisabled s p l true).trans (actsOn_linkDown _ p l _ _)⟩

section
variable (hwas : s.disabled p l = true) (hfree : (s.link p l).portHeld = false)
include hwas hfree

/-- A link that is enabled trains. -/
theorem disableLink_trains (hstraps : s.lnk.strapsOk = true) :
    let t := s.disableLink p l false
    (t.link p l).state = .training ∧ (t.link p l).reason = 0 ∧ t.disabled p l = false ∧ ActsOn s t p l := by
  have hput := linkPut_startTraining (s.setDisabled p l false) p l
  rw [disableLink_changes hwas hfree, if_neg Bool.false_ne_true, if_neg (by simp [hstraps])]
  exact ⟨by rw [hput.link], by rw [hput.link], (disabled_of_settings hput.settings l).trans (disabled_setDisabled s p l false),
    (actsOn_setDisabled s p l false).trans hput.actsOn⟩

/-- Before the strap samples are valid it stays down. -/
theorem disableLink_waits (hstraps : s.lnk.strapsOk = false) :
    let t := s.disableLink p l false
    (t.link p l).state = .down ∧ (t.link p l).reason = 0 ∧ t.disabled p l = false ∧ ActsOn s t p l := by
  obtain ⟨g, hg⟩ := setReason_eq (s.setDisabled p l false) p l .down 0
  have hput := (linkPut_setLink (s.setDisabled p l false) p l { (s.setDisabled p l false).link p l with state := .down, reason := 0 }).logged g
  rw [disableLink_changes hwas hfree, if_neg Bool.false_ne_true, if_pos (by simp [hstraps]), hg]
  exact ⟨by rw [hput.link], by rw [hput.link], (disabled_of_settings hput.settings l).trans (disabled_setDisabled s p l false),
    (actsOn_setDisabled s p l false).trans hput.actsOn⟩

end

/-! ## RETRAIN (R332, R346) -/

theorem retrain_early (hstraps : s.lnk.strapsOk = false) : s.retrain p l = s := by
  simp [State.retrain, hstraps]

/-- A link trains again with its failures forgotten; one in use goes down first. -/
theorem retrain_trains (hfree : (s.link p l).portHeld = false) (hreason : (s.link p l).reason ≠ rDISABLED) (hstraps : s.lnk.strapsOk = true) :
    let t := s.retrain p l
    (t.link p l).state = .training ∧ (t.link p l).reason = 0 ∧ (t.link p l).laneDowns = [] ∧ (t.link p l).trainFails = 0 ∧
      ActsOn s t p l := by
  let u := if (s.link p l).inUse then s.linkDown p l .down (s.link p l).reason else s
  have hu : ActsOn s u p l := by
    dsimp only [u]
    split
    · exact actsOn_linkDown s p l _ _
    · exact ActsOn.refl s p l
  have hput := linkPut_setLink u p l { u.link p l with laneDowns := [], trainFails := 0 }
  have hretrain : s.retrain p l = (u.setLink p l { u.link p l with laneDowns := [], trainFails := 0 }).startTraining p l := by
    rw [State.retrain]
    exact if_neg (by simp [hfree, hreason, hstraps])
  have hstart := linkPut_startTraining (u.setLink p l { u.link p l with laneDowns := [], trainFails := 0 }) p l
  rw [hput.link] at hstart
  rw [hretrain]
  exact ⟨by rw [hstart.link], by rw [hstart.link], by rw [hstart.link], by rw [hstart.link], hu.trans (hput.actsOn.trans hstart.actsOn)⟩

/-! ## A write of LNK_Pp_CTRL -/

/-- A write that acts on one link. -/
theorem writeLinkCtrl_one {v : Word32} (hreach : Reaches s (0x31000 + 0x100 * (portNum p).val) v.toNat 0xFFFFFFCC)
    (hother : v.getLsbD (linkBit (otherLink l)) = s.disabled p (otherLink l)) (hretrain : v.getLsbD (4 + linkBit (otherLink l)) = false)
    (hacts : ActsOn s (s.disableLink p l (v.getLsbD (linkBit l))) p l) :
    s.writeLinkCtrl p v =
      let t := s.disableLink p l (v.getLsbD (linkBit l))
      if v.getLsbD (4 + linkBit l) then t.retrain p l else t := by
  have hspare : (s.disableLink p l (v.getLsbD (linkBit l))).disableLink p (otherLink l) (v.getLsbD (linkBit (otherLink l))) =
      s.disableLink p l (v.getLsbD (linkBit l)) := by
    rw [hother, ← hacts.disabled, disableLink_same]
  rw [State.writeLinkCtrl, regWrite_reaches hreach]
  cases l with
  | a =>
    simp only [linkBit, otherLink] at hspare hretrain ⊢
    rw [hspare, hretrain]
    rfl
  | b =>
    simp only [linkBit, otherLink] at hother hretrain ⊢
    rw [hother, disableLink_same, hretrain]
    rfl

/-- What holds of a link and of the other holds of both. -/
theorem forall_link {P : LinkId → Prop} (l : LinkId) (h : P l) (ho : P (otherLink l)) (i : LinkId) : P i := by
  cases l <;> cases i <;> assumption

theorem portHeld_congr {x y : Link} (h : y.reason = x.reason) : y.portHeld = x.portHeld := by
  rw [Link.portHeld, h, Link.portHeld]

/-- A link that an act on the port's link a has left for good is left so by the same act on link b. -/
theorem both_links {st : LinkState} {r : BitVec 4} (hne : st ≠ .slack) (ha : (t.link p .a).state = st ∧ (t.link p .a).reason = r)
    (h : ActsOn t u p .b) (hb : (u.link p .b).state = st ∧ (u.link p .b).reason = r) (i : LinkId) :
    (u.link p i).state = st ∧ (u.link p i).reason = r := by
  obtain ⟨hst, hr⟩ := ha
  have hstate : (u.link p .a).state = (t.link p .a).state := h.state (by rw [otherLink, hst]; exact hne)
  exact forall_link (P := fun i => (u.link p i).state = st ∧ (u.link p i).reason = r) .b hb ⟨hstate.trans hst, h.reason.trans hr⟩ i

section
variable {v : Word32} (hreach : Reaches s (0x31000 + 0x100 * (portNum p).val) v.toNat 0xFFFFFFCC)
include hreach

/-- DISABLE of both links changes. -/
theorem writeLinkCtrl_disables {on : Bool} (ha : v.getLsbD 0 = on) (hb : v.getLsbD 1 = on) (h4 : v.getLsbD 4 = false)
    (h5 : v.getLsbD 5 = false) : s.writeLinkCtrl p v = (s.disableLink p .a on).disableLink p .b on := by
  rw [State.writeLinkCtrl, regWrite_reaches hreach]
  simp only [ha, hb, h4, h5, Bool.false_eq_true, if_false]

theorem disables_both {on : Bool} (hwas : ∀ i, s.disabled p i = !on) (hfree : ∀ i, (s.link p i).portHeld = false)
    (hstraps : s.lnk.strapsOk = true) (ha : v.getLsbD 0 = on) (hb : v.getLsbD 1 = on) (h4 : v.getLsbD 4 = false)
    (h5 : v.getLsbD 5 = false) :
    let t := s.writeLinkCtrl p v
    SameBytes s t ∧ ∀ i, t.disabled p i = on ∧ (t.link p i).state = (if on then .held else .training) ∧
      (t.link p i).reason = if on then rDISABLED else 0 := by
  rw [writeLinkCtrl_disables hreach ha hb h4 h5]
  have hact (x : State) (l : LinkId) (hx : x.disabled p l = !on) (hf : (x.link p l).portHeld = false) (hs : x.lnk.strapsOk = true) :
      ((x.disableLink p l on).link p l).state = (if on then .held else .training) ∧
        ((x.disableLink p l on).link p l).reason = (if on then rDISABLED else 0) ∧
        (x.disableLink p l on).disabled p l = on ∧ ActsOn x (x.disableLink p l on) p l := by
    cases on with
    | true =>
      obtain ⟨⟨hst, hr, -⟩, hdis, hacts⟩ := disableLink_holds hx hf
      exact ⟨hst, hr, hdis, hacts⟩
    | false => exact disableLink_trains hx hf hs
  obtain ⟨hst, hr, hdis, hacts⟩ := hact s .a (hwas .a) (hfree .a) hstraps
  generalize s.disableLink p .a on = t at hst hr hdis hacts
  obtain ⟨hst', hr', hdis', hacts'⟩ := hact t .b (hacts.disabled.trans (hwas .b))
    ((portHeld_congr hacts.reason).trans (hfree .b)) (hacts.work.strapsOk.trans hstraps)
  have hlinks := both_links (by cases on <;> decide) ⟨hst, hr⟩ hacts' ⟨hst', hr'⟩
  have hboth : ∀ i, (t.disableLink p .b on).disabled p i = on := forall_link .b hdis' (hacts'.disabled.trans hdis)
  exact ⟨(hacts.work.trans hacts'.work).sameBytes, fun i => ⟨hboth i, hlinks i⟩⟩

theorem retrains_both (hwas : ∀ i, s.disabled p i = false) (hfree : ∀ i, (s.link p i).portHeld = false)
    (hreason : ∀ i, (s.link p i).reason ≠ rDISABLED) (hstraps : s.lnk.strapsOk = true) (h0 : v.getLsbD 0 = false)
    (h1 : v.getLsbD 1 = false) (h4 : v.getLsbD 4 = true) (h5 : v.getLsbD 5 = true) :
    let t := s.writeLinkCtrl p v
    SameBytes s t ∧ ∀ i, (t.link p i).state = .training ∧ (t.link p i).reason = 0 := by
  have ha : s.disableLink p .a false = s := by rw [← hwas .a, disableLink_same]
  have hb : s.disableLink p .b false = s := by rw [← hwas .b, disableLink_same]
  rw [State.writeLinkCtrl, regWrite_reaches hreach]
  simp only [h0, h1, h4, h5, ha, hb, if_true]
  obtain ⟨hst, hr, -, -, hacts⟩ := retrain_trains (hfree .a) (hreason .a) hstraps
  generalize s.retrain p .a = t at hst hr hacts
  have hsame : (t.link p .b).reason = (s.link p .b).reason := hacts.reason
  obtain ⟨hst', hr', -, -, hacts'⟩ := retrain_trains ((portHeld_congr hsame).trans (hfree .b)) (by rw [hsame]; exact hreason .b)
    (hacts.work.strapsOk.trans hstraps)
  exact ⟨(hacts.work.trans hacts'.work).sameBytes, both_links (by decide) ⟨hst, hr⟩ hacts' ⟨hst', hr'⟩⟩

end

/-! ## Slack water (R349 to R351) -/

theorem LinkPut.refl (s : State) (p : Port) (l : LinkId) : LinkPut s s p l (s.link p l) :=
  ⟨LinkWork.refl s, rfl, rfl, rfl, rfl, rfl⟩

theorem LinkPut.healthSet {x : Link} (h : LinkPut s t p l x) (o w v : Nat) : LinkPut s (t.healthSet o w v) p l x := h.logged _

theorem LinkPut.logRec {x : Link} (h : LinkPut s t p l x) (r : LogRec) : LinkPut s (t.logRec r) p l x := by
  rw [logRec_only]
  exact h.logged _

/-- A scan notes margins, and no more. -/
theorem linkPut_scanned (s : State) (p : Port) (l : LinkId) (lane : Nat) (v h : Byte) :
    LinkPut s (s.scanned p lane v h) p l (s.link p l) := by
  have hbase : LinkPut s (s.eyeBase (16 * (portNum p).val + lane) v h) p l (s.link p l) := by
    unfold State.eyeBase
    dsimp only
    split
    · exact LinkPut.refl s p l
    · exact (LinkPut.refl s p l).logged _
  unfold State.scanned
  extract_lets n x t a t1
  have hport : LinkPut s t p l (s.link p l) := by
    have hport : (s.eyeBase (16 * n + lane) v h).port p = s.port p := by
      unfold State.eyeBase
      dsimp only
      split <;> rfl
    have hset := linkPut_setPort (s := s.eyeBase (16 * n + lane) v h) (p := p) (l := l)
      (x := { x with eyes := x.eyes.filter (fun e => e.1 ≠ lane) ++ [(lane, v, h)] })
    rw [hport, hbase.link] at hset
    exact hbase.trans (hset rfl rfl rfl rfl)
  exact ((((hport.healthSet _ _ _).healthSet _ _ _).healthSet _ _ _).healthSet _ _ _).logRec _

/-- Scans leave a link's state, and the other link. -/
theorem linkPut_scanLanes (p : Port) (l : LinkId) (k : Nat) (eyes : List Eye) (s : State) :
    ∃ x, LinkPut s (scanLanes p l k eyes s) p l x ∧ x.state = (s.link p l).state := by
  induction k generalizing eyes s with
  | zero =>
    unfold scanLanes
    exact ⟨_, LinkPut.refl s p l, rfl⟩
  | succ k ih =>
    cases eyes with
    | nil =>
      unfold scanLanes
      exact ⟨_, LinkPut.refl s p l, rfl⟩
    | cons e t =>
      rw [scanLanes]
      split
      · have hturn := linkPut_setLink s p l { s.link p l with scan := ((s.link p l).scan % 8 + 1) % 8 }
        have hscan := hturn.trans (linkPut_scanned _ p l ((s.link p l).scan % 8 + 8 * linkBit l) e.v e.h)
        obtain ⟨x, hput, hstate⟩ := ih t _
        refine ⟨x, hscan.trans hput, hstate.trans ?_⟩
        rw [hscan.link, hturn.link]
      · exact ⟨_, LinkPut.refl s p l, rfl⟩

/-- A link goes quiet while its window is open and the other is UP (R349). -/
theorem slackStart_quiet {eyes : List Eye} (hstate : (s.link p l).state = .up) (hwindow : s.inSlack p l = true)
    (hother : (s.link p (otherLink l)).state = .up) :
    ∃ x, LinkPut s (s.slackStart p l eyes) p l x ∧ x.state = .slack := by
  have hput := linkPut_setLink s p l { (s.link p l).acked (s.link p l).replay [] with state := .slack }
  obtain ⟨x, hscans, hquiet⟩ := linkPut_scanLanes p l (scanRoom s.tt.slack.len) eyes
    (s.setLink p l { (s.link p l).acked (s.link p l).replay [] with state := .slack })
  rw [hput.link] at hquiet
  simp only [State.slackStart, hstate, hwindow, hother, ne_eq, not_true_eq_false, decide_false, Bool.not_true, Bool.or_self,
    Bool.false_eq_true, if_false]
  exact ⟨x, hput.trans hscans, hquiet⟩

theorem slackStart_skips {eyes : List Eye} (hstate : (s.link p l).state = .up) (hwindow : s.inSlack p l = true)
    (hother : (s.link p (otherLink l)).state ≠ .up) :
    s.slackStart p l eyes = s.setPort p { s.port p with slackSkip := satInc (s.port p).slackSkip } := by
  simp only [State.slackStart, hstate, hwindow, hother, ne_eq, not_true_eq_false, not_false_eq_true, decide_false, Bool.not_true, Bool.or_self,
    Bool.false_eq_true, if_false, if_true]

/-- A link resumes when its window has closed. -/
theorem slackEnd_resumes (hstate : (s.link p l).state = .slack) (hwindow : s.inSlack p l = false) :
    ((s.slackEnd p l).link p l).state = .up ∧ LinkWork s (s.slackEnd p l) := by
  let u := (s.setLink p l { s.link p l with state := .up }).remeasure p
  have hput := linkPut_setLink s p l { s.link p l with state := .up }
  have hlink : u.link p l = { s.link p l with state := .up } := Eq.trans (by cases l <;> rfl) hput.link
  have hend : s.slackEnd p l = u.pump := by
    simp only [State.slackEnd, hstate, hwindow, ne_eq, not_true_eq_false, decide_false, Bool.or_self, Bool.false_eq_true, if_false]
    rfl
  have hkeeps := ((emits_pump u).link p l).state
  rw [hend]
  refine ⟨by rw [hkeeps, hlink], (hput.work.trans (u := u) rfl).trans (linkWork_pump u)⟩

end

/-! ## The claim -/

/-- Settles O42: a write of LNK_Pp_CTRL by the link or links it acts on, and each window by its lemma. -/
theorem linkControlAndSlackWater : Obligations.LinkControlAndSlackWater := by
  unfold Obligations.LinkControlAndSlackWater
  intro s p l v n eyes k o dis trains
  have hdis (t : State) (i : LinkId) : dis t i = t.disabled p i := by cases i <;> rfl
  refine ⟨fun hreach hother hspare hfree => ?one, fun hreach hstraps hfree hofree => ?both, fun hstate hwindow =>
    ⟨fun ho => ?quiet, fun ho => ⟨_, rfl, slackStart_skips hstate hwindow ho⟩⟩, fun hstate hwindow => ?resumes,
    fun hwindow => ⟨_, rfl, if_pos hwindow⟩, fun hwindow => ⟨_, rfl, if_neg (by simp [hwindow])⟩⟩
  case one =>
    rw [hdis] at hother
    simp only [hdis]
    have hone := writeLinkCtrl_one (l := l) hreach hother hspare
    refine ⟨fun hkeep hbit hreason => ?retrain, fun hset hwas hbit => ?disable, fun hset hwas hbit => ?enable⟩
    case retrain =>
      rw [hkeep, disableLink_same, hbit] at hone
      have hexec : exec (.linkRetrain p v) s = .next (s.retrain p l) := congrArg Host.Outcome.next (hone (ActsOn.refl s p l))
      refine ⟨fun hstraps => ⟨_, hexec, ?_⟩, fun hstraps => ⟨_, hexec, ?_⟩⟩
      · obtain ⟨hst, hr, hdowns, hfails, hacts⟩ := retrain_trains hfree hreason hstraps
        exact ⟨⟨hst, hr, hacts.work.sameBytes⟩, hdowns, hfails⟩
      · rw [retrain_early hstraps]
        exact ⟨rfl, sameBytes_refl s⟩
    case disable =>
      obtain ⟨hdown, hdisabled, hacts⟩ := disableLink_holds hwas hfree
      rw [hset, hbit] at hone
      exact ⟨_, congrArg Host.Outcome.next (hone hacts), hdown, hdisabled⟩
    case enable =>
      rw [hset, hbit] at hone
      by_cases hstraps : s.lnk.strapsOk = true
      · obtain ⟨hst, hr, hdisabled, hacts⟩ := disableLink_trains hwas hfree hstraps
        refine ⟨_, congrArg Host.Outcome.next (hone hacts), hdisabled, fun _ => ⟨hst, hr, hacts.work.sameBytes⟩, fun hn => ?_⟩
        rw [hstraps] at hn
        cases hn
      · obtain ⟨hst, hr, hdisabled, hacts⟩ := disableLink_waits hwas hfree (by simpa using hstraps)
        exact ⟨_, congrArg Host.Outcome.next (hone hacts), hdisabled, fun hn => absurd hn hstraps, fun _ => ⟨hst, hr, hacts.work.sameBytes⟩⟩
  case both =>
    have hfrees : ∀ i, (s.link p i).portHeld = false := forall_link l hfree hofree
    simp only [hdis]
    refine ⟨fun b ha hb hwasA hwasB h4 h5 => ?_, fun h0 h1 hwasA hwasB h4 h5 hreason horeason => ?_⟩
    · obtain ⟨hbytes, hboth⟩ := disables_both hreach (forall_link .a hwasA hwasB) hfrees hstraps ha hb h4 h5
      refine ⟨s.writeLinkCtrl p v, by cases b <;> rfl, hbytes, fun i => ?_⟩
      obtain ⟨hdisabled, hst, hr⟩ := hboth i
      refine ⟨hdisabled, fun hon => ?_, fun hoff => ?_⟩
      · rw [hon] at hst hr
        exact ⟨hst, hr⟩
      · rw [hoff] at hst hr
        exact ⟨hst, hr⟩
    · exact ⟨_, rfl, retrains_both hreach (forall_link .a hwasA hwasB) hfrees (forall_link l hreason horeason) hstraps h0 h1 h4 h5⟩
  case quiet =>
    obtain ⟨x, hput, hx⟩ := slackStart_quiet (eyes := eyes) hstate hwindow ho
    exact ⟨_, rfl, by rw [hput.link, hx], by rw [hput.spare]; exact ho, hput.work.sameBytes, hput.work.sch⟩
  case resumes =>
    obtain ⟨hup, hwork⟩ := slackEnd_resumes hstate hwindow
    exact ⟨_, rfl, hup, hwork.sameBytes, hwork.sch⟩

end Sys2Proof.Machine
end

/-!
PROOFS. Register writes that have no row of their own, those of one register, and a staged installation record (R354, R381, R386,
R390, R444, R457, R485, R500; O43).
-/
section
namespace Sys2Proof
open Machine

/-- Reading lines of device memory leaves what the flash holds (R361, R462). -/
theorem Looks.sec {s t : State} (h : Looks s t) : t.sec = s.sec := by rw [h.only]

end Sys2Proof

namespace Sys2Proof.Machine

/-! ## Checks of a write (R386 to R389) -/

/-- A failed access is recorded: the first is kept, a later one noted. -/
theorem hrwErr_eq (s : State) (off reason : Nat) : s.hrwErr off reason = { s with hrw :=
    if s.hrw.errValid then { s.hrw with errMulti := true }
    else { s.hrw with errValid := true, errOff := BitVec.ofNat 32 off, errReason := BitVec.ofNat 8 reason } } := by
  unfold State.hrwErr
  split <;> rfl

section
variable {s : State} {off v rsv : Nat} {f : State → State}

/-- A write that reaches its register with a value that its range check refuses. -/
theorem regWrite_refused (h : Reaches s off v rsv) (k : Nat) : s.regWrite off v rsv (some k) f = s.hrwErr off k := by
  have hgate : (decide (s.sec.state = .recovery) && !recoveryReg off) = false := by
    rcases h.answers with h | h <;> simp [h]
  simp [State.regWrite, h.on, h.locked, h.clean, hgate]

/-- A write before an interface version is selected. -/
theorem regWrite_unselected (hon : s.hrwOn = true) (hlocked : s.hrw.locked = false) (hearly : earlyReg off = false) (bad : Option Nat) :
    s.regWrite off v rsv bad f = s.hrwErr off eUNSELECTED := by
  simp [State.regWrite, hon, hlocked, hearly]

/-- A write with a reserved bit set. -/
theorem regWrite_reserved (hon : s.hrwOn = true) (hlocked : s.hrw.locked = true) (hstate : s.sec.state ≠ .recovery) (hrsv : v &&& rsv ≠ 0)
    (bad : Option Nat) : s.regWrite off v rsv bad f = s.hrwErr off eRSVD := by
  simp [State.regWrite, hon, hlocked, hstate, hrsv]

theorem rangeIf_false {b : Bool} (h : b = false) : rangeIf b = none := by rw [h]; rfl

theorem rangeIf_true {b : Bool} (h : b = true) : rangeIf b = some eRANGE := by rw [h]; rfl

end

/-! ## Writes through BAR0 (R385 to R387) -/

section
variable {s : State} {off rsv : Nat} {v : Word64}

/-- A register of 32 bits without a row of its own, at an offset outside the windows. -/
structure PlainReg (off rsv : Nat) : Prop where
  aligned : off % 4 = 0
  core    : inCoreWindow off = false
  log     : inLogWindow off = false
  info    : regInfo off = some ⟨off, false, rsv⟩
  cancel  : off ≠ 0x10010
  noRow   : ∀ (s : State) (v : Word64), s.ownRow off v = none

theorem writeBar0_plain (hon : s.hrwOn = true) (h : PlainReg off rsv) :
    s.writeBar0 off 32 v = s.regWrite off (v.toNat % 2 ^ 32) rsv (rangeIf (s.regBad off (v.toNat % 2 ^ 32)))
      (fun t => t.regPut off (v.toNat % 2 ^ 32)) := by
  simp [State.writeBar0, hon, h.aligned, h.core, h.log, h.info, State.writeReg, h.cancel, h.noRow]

theorem writeBar0_none (hon : s.hrwOn = true) (haligned : off % 4 = 0) (hcore : inCoreWindow off = false) (hlog : inLogWindow off = false)
    (hinfo : regInfo off = none) : s.writeBar0 off 32 v = s.hrwErr off eNOREG := by
  simp [State.writeBar0, hon, haligned, hcore, hlog, hinfo]

theorem plainReg_intMode : PlainReg 0x80000 0xFFFFFFFE := ⟨rfl, rfl, rfl, rfl, by decide, fun _ _ => rfl⟩

theorem plainReg_intPatrol : PlainReg 0x80008 0xFFFE0000 := ⟨rfl, rfl, rfl, rfl, by decide, fun _ _ => rfl⟩

theorem plainReg_hrwCore : PlainReg 0x300 0xFFFFF000 := ⟨rfl, rfl, rfl, rfl, by decide, fun _ _ => rfl⟩

theorem plainReg_ttSlack : PlainReg 0x20020 0xFF000000 := ⟨rfl, rfl, rfl, rfl, by decide, fun _ _ => rfl⟩

/-- A write of a plain register that passes its range check. -/
theorem exec_registerWrite_puts (h : PlainReg off rsv) (hreach : Reaches s off (v.toNat % 2 ^ 32) rsv)
    (hrange : s.regBad off (v.toNat % 2 ^ 32) = false) :
    exec (.registerWrite (.bar0 off) 32 v) s = .next (s.regPut off (v.toNat % 2 ^ 32)) := by
  refine congrArg Host.Outcome.next ((writeBar0_plain hreach.on h).trans ?_)
  rw [rangeIf_false hrange]
  exact regWrite_reaches hreach _

theorem testBit_low (v : Word64) {i : Nat} (hi : i < 32) : (v.toNat % 2 ^ 32).testBit i = v.getLsbD i := by
  rw [Nat.testBit_mod_two_pow, BitVec.testBit_toNat]
  simp [hi]

theorem ofNat_low (v : Word64) {n : Nat} (hn : n ≤ 32) : BitVec.ofNat n (v.toNat % 2 ^ 32) = v.setWidth n := by
  refine BitVec.eq_of_toNat_eq ?_
  rw [BitVec.toNat_ofNat, BitVec.toNat_setWidth, Nat.mod_mod_of_dvd _ (Nat.pow_dvd_pow 2 hn)]

end

/-! ## Doorbells (R381) -/

section
variable {s : State} {q : QueueId} {v : Word64}

theorem writeBar2_doorbell {off : Nat} (hlow : off < 0x200) (haligned : off % 4 = 0) :
    s.writeBar2 off 32 v = s.ring (off % 8 = 0) (off / 8) (v.setWidth 32) := by
  by_cases hup : s.hostUp = true
  · simp [State.writeBar2, hup, hlow, haligned]
  · simp [State.writeBar2, hup, State.ring]

theorem writeBar2_otherSize {off bits : Nat} (hlow : off < 0x200) (hbits : bits ≠ 32) : s.writeBar2 off bits v = s := by
  simp [State.writeBar2, hlow, hbits]

end

/-! ## Writes with a row of their own (R390, R444, R457, R485) -/

section
variable {s : State} {w : Word32}

/-- The first choice of an interface version (R390). -/
theorem selectIntf_first (hon : s.hrwOn = true) (hlocked : s.hrw.locked = false) (hstate : s.sec.state ≠ .recovery) (hone : w.toNat % 256 = 1)
    (hrsv : w.toNat &&& 0xFFFFFE00 = 0) : s.selectIntf w = { s with hrw := { s.hrw with version := 1, locked := true } } := by
  have hearly : earlyReg 0x0C = true := rfl
  have hfirst : intfVersions.testBit (1 - 1) = true := by decide
  simp only [State.selectIntf, hone, State.regWrite, hon, hlocked, hearly, hstate, hrsv, hfirst, Bool.not_true, Bool.not_false, Bool.and_false,
    Bool.false_eq_true, if_false, decide_false, Bool.false_and, ne_eq, not_true_eq_false, Bool.or_false, one_ne_zero]
  rfl

theorem writeHdmh_takes (hreach : Reaches s 0x320 w.toNat 0xFFFFF000) (hrange : w.toNat % 4096 ≤ 2299)
    (hfree : s.hrw.dec1.committed = true → s.hrw.dec1.size ≤ w.toNat % 4096 * 0x10000000) :
    s.writeHdmh w = { s with hrw := { s.hrw with hdmh := w.toNat % 4096 } } := by
  have hfree' : (s.hrw.dec1.committed && decide (w.toNat % 4096 * hdmUnit < s.hrw.dec1.size)) = false := by
    rw [Bool.and_eq_false_imp]
    exact fun hc => decide_eq_false (not_lt.2 (hfree hc))
  simp only [State.writeHdmh, not_lt.2 hrange, hfree', Bool.false_eq_true, if_false]
  exact regWrite_reaches hreach _

theorem writeCap_takes (hreach : Reaches s 0x60004 w.toNat 0xFFFEE000) (hrange : w.toNat % 8192 ≤ 4600) :
    let mw := w.toNat % 8192
    s.writeCap w = { s with pwr := { s.pwr with
      cap := if 1 ≤ mw ∧ mw < 400 then 400 else mw, clamped := decide (1 ≤ mw ∧ mw < 400)
      capMiss := s.pwr.capMiss && decide (mw ≠ 0) } } := by
  simp only [State.writeCap, rangeIf_false (decide_eq_false (not_lt.2 hrange))]
  rw [regWrite_reaches hreach]
  simp only [Bool.and_eq_true, decide_eq_true_eq, Bool.decide_and]

theorem writeMax_takes {d : ComputeDie} (hreach : Reaches s (0x70040 + 4 * d.val) w.toNat 0xFFFFF000) (hstep : w.toNat % 4096 % 25 = 0)
    (hlow : 600 ≤ w.toNat % 4096) (hhigh : w.toNat % 4096 ≤ 2700) :
    s.writeMax d w = s.setDie d { s.die d with maxMhz := w.toNat % 4096 } := by
  have hrange : (decide (w.toNat % 4096 % 25 ≠ 0) || decide (w.toNat % 4096 < 600) || decide (2700 < w.toNat % 4096)) = false := by
    simp [hstep, hlow, hhigh]
  rw [State.writeMax, rangeIf_false hrange]
  exact regWrite_reaches hreach _

theorem exec_secReset (hreach : Reaches s 0x90060 w.toNat 0xFFFF0000) :
    exec (.secReset w) s = .next (if w = 0xB007 then { s with sec := { s.sec with resetReq := some s.wall } } else s.hrwErr 0x90060 eRANGE) := by
  have hkey : w = 0xB007 ↔ w.toNat = 0xB007 := BitVec.toNat_inj.symm
  refine congrArg Host.Outcome.next ?_
  split
  case isTrue h =>
    rw [rangeIf_false (by simpa using hkey.1 h)]
    exact regWrite_reaches hreach _
  case isFalse h =>
    rw [rangeIf_true (by simpa using fun hw => h (hkey.2 hw))]
    exact regWrite_refused hreach _

/-! ## LOG_MARK (R490, R500) -/

/-- A record above INFO is taken while the queue has room. -/
theorem logRec_takes {r : LogRec} (hon : s.log.accepting = true) (hsev : r.sev ≠ 0) (hroom : s.log.queue.length < 4096) :
    s.logRec r = s.takeRec r := by
  rw [State.logRec, if_neg (by simp [hon]), if_neg (fun h => hsev h.1), if_neg (not_le.2 hroom)]

/-- It waits while the queue is full. -/
theorem logRec_waits {r : LogRec} (hon : s.log.accepting = true) (hsev : r.sev ≠ 0) (hfull : 4096 ≤ s.log.queue.length) :
    s.logRec r = { s with log := { s.log with waiting := s.log.waiting ++ [r] } } := by
  rw [State.logRec, if_neg (by simp [hon]), if_neg (fun h => hsev h.1), if_pos hfull]

theorem exec_logMark (hreach : Reaches s 0x100030 w.toNat 0) :
    exec (.logMark w) s = .next (s.logRec ⟨0x0060, 0xFF, sNOTICE, 0, leBytes 4 w.toNat⟩) :=
  congrArg Host.Outcome.next (regWrite_reaches hreach _)

/-! ## LNK_IREC_CMD (R354) -/

/-- A command to write a staged record. -/
theorem exec_irecWrite (hreach : Reaches s 0x30020 w.toNat 0xFFFFFFFE) (hbit : w.getLsbD 0 = true) :
    exec (.irecWrite w) s = .next s.writeIrec := by
  refine congrArg Host.Outcome.next ((regWrite_reaches hreach _).trans ?_)
  rw [if_pos hbit]

theorem writeIrec_misplaced (h : s.lnk.irecAddr.toNat % 64 ≠ 0 ∨ s.lnk.irecAddr.toNat < 0x40000000 ∨ 0x9000000000 ≤ s.lnk.irecAddr.toNat) :
    s.writeIrec = { s with lnk := { s.lnk with cmdRes := 5 } } := by
  refine if_pos ?_
  simp only [Bool.or_eq_true, decide_eq_true_eq, or_assoc]
  exact h

/-- The place of a staged record is usable device memory (R222). -/
structure Staged (s : State) : Prop where
  aligned : s.lnk.irecAddr.toNat % 64 = 0
  low     : 0x40000000 ≤ s.lnk.irecAddr.toNat
  high    : s.lnk.irecAddr.toNat < 0x9000000000

section
variable (h : Staged s)
include h

theorem writeIrec_staged : s.writeIrec = if s.linesHeld (granulesOf s.lnk.irecAddr.toNat recordMax) = true then
    ({ s with lnk := { s.lnk with irecHeld := some s.lnk.irecAddr.toNat } } : State).irecResult 1 else s.takeIrec s.lnk.irecAddr.toNat := by
  obtain ⟨haligned, hlow, hhigh⟩ := h
  refine if_neg ?_
  simp only [Bool.or_eq_true, decide_eq_true_eq, not_or]
  exact ⟨⟨fun h => h haligned, not_lt.2 hlow⟩, not_le.2 hhigh⟩

/-- A command whose record a retraining stack holds is busy (R366). -/
theorem writeIrec_waits (hheld : s.linesHeld (granulesOf s.lnk.irecAddr.toNat recordMax) = true) :
    s.writeIrec = { s with lnk := { s.lnk with cmdRes := 1, irecHeld := some s.lnk.irecAddr.toNat } } :=
  (writeIrec_staged h).trans (if_pos hheld)

theorem writeIrec_reads (hfree : s.linesHeld (granulesOf s.lnk.irecAddr.toNat recordMax) = false) :
    s.writeIrec = s.takeIrec s.lnk.irecAddr.toNat :=
  (writeIrec_staged h).trans (if_neg (fun hheld => Bool.false_ne_true (hfree.symm.trans hheld)))

end

/-- The bytes of a staged record as they are written, of generation g. -/
def stagedBody (l : List Byte) (g : Nat) : List Byte := l.take 0x14 ++ leBytes 4 g ++ (l.drop 0x18).take (recordLen l - 0x18)

theorem sameBytes_irecResult (t : State) (m : List Host.Cell) (k : Nat) : SameBytes t ((t.setFlash m).irecResult k) :=
  sameBytes_of_store (fun l => by cases l <;> rfl)

section
variable {a : Nat} {l : List Byte} (hl : bytesAt s.dmem.cells a recordMax = l)
include hl

/-- A staged record is read, and then judged by its fields and its digest. -/
theorem takeIrec_looks : ∃ t, Looks s t ∧
    (recordFields l = false → s.takeIrec a = (t.setFlash t.sec.flash).irecResult 3) ∧
    (recordFields l = true → recordDigestOk l = false → s.takeIrec a = (t.setFlash t.sec.flash).irecResult 4) ∧
    ∀ r, s.lnk.irec = some r → recordFields l = true → recordDigestOk l = true →
      s.takeIrec a = (t.setFlash (flashPut t.sec.flash (recordAt (!s.lnk.irecCopy))
        (stagedBody l (r.gen + 1) ++ shake (stagedBody l (r.gen + 1))))).irecResult 2 := by
  refine ⟨s.touchAll .dmem (granulesOf a (if recordDims l then recordLen l + 64 else 0x20)), looks_touchAll s _,
    fun hfields => ?_, fun hfields hdigest => ?_, fun r hr hfields hdigest => ?_⟩
  · simp only [State.takeIrec, hl, hfields, Bool.not_false, if_true, State.setFlash]
  · simp only [State.takeIrec, hl, hfields, hdigest, Bool.not_true, Bool.not_false, Bool.false_eq_true, if_false, if_true, State.setFlash]
  · simp only [State.takeIrec, hl, hfields, hdigest, hr, Bool.not_true, Bool.false_eq_true, if_false, Option.isSome_some, Bool.true_and,
      stagedBody]

/-- A staged record with a field that is wrong is read and not written. -/
theorem takeIrec_badFields (hfields : recordFields l = false) :
    let t := s.takeIrec a
    SameBytes s t ∧ t.lnk = { s.lnk with cmdRes := 3 } ∧ t.sec.flash = s.sec.flash := by
  obtain ⟨u, hlooks, hbad, -⟩ := takeIrec_looks hl
  rw [hbad hfields, ← hlooks.lnk, ← hlooks.sec]
  exact ⟨sameBytes_trans hlooks.sameBytes (sameBytes_irecResult u _ _), rfl, rfl⟩

/-- One whose fields are right is written to the copy not in use, if its digest is right too. -/
theorem takeIrec_takes {r : IRec} (hfields : recordFields l = true) (hr : s.lnk.irec = some r) :
    let body := stagedBody l (r.gen + 1)
    let t := s.takeIrec a
    SameBytes s t ∧ t.lnk = { s.lnk with cmdRes := if recordDigestOk l then 2 else 4 } ∧
      t.sec.flash = if recordDigestOk l then flashPut s.sec.flash (recordAt (!s.lnk.irecCopy)) (body ++ shake body) else s.sec.flash := by
  obtain ⟨u, hlooks, -, hbad, hgood⟩ := takeIrec_looks hl
  by_cases hdigest : recordDigestOk l = true
  · rw [hgood r hr hfields hdigest, ← hlooks.lnk, ← hlooks.sec]
    simp only [hdigest, if_true]
    exact ⟨sameBytes_trans hlooks.sameBytes (sameBytes_irecResult u _ _), rfl, rfl⟩
  · rw [hbad hfields (by simpa using hdigest), ← hlooks.lnk, ← hlooks.sec]
    simp only [hdigest, Bool.false_eq_true, if_false]
    exact ⟨sameBytes_trans hlooks.sameBytes (sameBytes_irecResult u _ _), rfl, rfl⟩

end

end

/-! ## The claim -/

/-- Settles O43: each write by the lemma of its register or row, a failed one by the check that it fails. -/
theorem registerWritesReachTheirRegister : Obligations.RegisterWritesReachTheirRegister := by
  unfold Obligations.RegisterWritesReachTheirRegister
  intro s v w d
  refine ⟨fun q => ⟨?sub, ?cons⟩, fun off bits hoff hbits => congrArg Host.Outcome.next (writeBar2_otherSize hoff hbits), ?_⟩
  case sub =>
    have hq := q.isLt
    refine congrArg Host.Outcome.next ((writeBar2_doorbell (by omega) (by omega)).trans ?_)
    rw [decide_eq_true (by omega : 8 * q.toNat % 8 = 0), show 8 * q.toNat / 8 = q.toNat by omega]
  case cons =>
    have hq := q.isLt
    refine congrArg Host.Outcome.next ((writeBar2_doorbell (by omega) (by omega)).trans ?_)
    rw [decide_eq_false (by omega : ¬ (8 * q.toNat + 4) % 8 = 0), show (8 * q.toNat + 4) / 8 = q.toNat by omega]
  intro mw m alone failed low
  have hfails {c : Instr} {off k : Nat} (h : exec c s = .next (s.hrwErr off k)) : failed c off k := ⟨_, h, hrwErr_eq s off k⟩
  refine ⟨fun hreach => ?mode, fun hreach => ⟨fun hrange => ?patrol, fun hrange => ?range⟩, fun hreach => ?core, fun hreach => ?slack,
    fun hon => ⟨fun hlocked => hfails ?unselected, fun hlocked hstate hrsv => hfails ?reserved,
      fun off haligned hcore hlog hinfo => hfails (congrArg Host.Outcome.next (writeBar0_none hon haligned hcore hlog hinfo)),
      fun hlocked hstate hone hrsv => ⟨_, rfl, selectIntf_first hon hlocked hstate hone hrsv⟩⟩,
    fun hreach hrange hfree => ⟨_, rfl, writeHdmh_takes hreach hrange hfree⟩, fun hreach hrange => ⟨_, rfl, writeCap_takes hreach hrange⟩,
    fun hreach hstep hlow hhigh => ⟨_, rfl, writeMax_takes hreach hstep hlow hhigh⟩,
    fun hreach => ⟨fun hkey => ?key, fun hkey => hfails ?noKey⟩, fun hreach hon => ?mark, fun hreach hbit => ?record⟩
  case mode =>
    refine ⟨_, exec_registerWrite_puts plainReg_intMode hreach rfl, ?_⟩
    rw [← testBit_low v (by decide)]
    rfl
  case patrol =>
    refine ⟨_, exec_registerWrite_puts plainReg_intPatrol hreach (decide_eq_false (not_lt.2 hrange)), ?_⟩
    rw [← testBit_low v (by decide), ← ofNat_low v (by decide)]
    rfl
  case range =>
    refine hfails (congrArg Host.Outcome.next ((writeBar0_plain hreach.on plainReg_intPatrol).trans ?_))
    rw [rangeIf_true (show s.regBad 0x80008 (v.toNat % 2 ^ 32) = true from decide_eq_true hrange)]
    exact regWrite_refused hreach _
  case core =>
    refine ⟨_, exec_registerWrite_puts plainReg_hrwCore hreach rfl, ?_⟩
    rw [← ofNat_low v (by decide)]
    rfl
  case slack => exact ⟨_, exec_registerWrite_puts plainReg_ttSlack hreach rfl, rfl⟩
  case unselected =>
    exact congrArg Host.Outcome.next ((writeBar0_plain hon plainReg_hrwCore).trans (regWrite_unselected hon hlocked rfl _))
  case reserved =>
    exact congrArg Host.Outcome.next ((writeBar0_plain hon plainReg_hrwCore).trans (regWrite_reserved hon hlocked hstate hrsv _))
  case key => exact ⟨_, exec_secReset hreach, if_pos hkey⟩
  case noKey => exact (exec_secReset hreach).trans (congrArg Host.Outcome.next (if_neg hkey))
  case mark =>
    have hsev : sNOTICE ≠ 0 := by decide
    refine ⟨fun hroom => ⟨_, exec_logMark hreach, ?_⟩, fun hfull => ⟨_, exec_logMark hreach, logRec_waits hon hsev hfull⟩⟩
    rw [logRec_takes hon hsev hroom]
    exact ⟨rfl, rfl, rfl, rfl⟩
  case record =>
    have hexec := exec_irecWrite hreach hbit
    refine ⟨fun hplace => ⟨_, hexec, writeIrec_misplaced hplace⟩, fun haligned hlow hhigh hheld =>
      ⟨_, hexec, writeIrec_waits ⟨haligned, hlow, hhigh⟩ hheld⟩,
      fun haligned hlow hhigh hfree hfields => ⟨_, hexec, ?_⟩, fun haligned hlow hhigh hfree hfields r hr => ⟨_, hexec, ?_⟩⟩
    · rw [writeIrec_reads ⟨haligned, hlow, hhigh⟩ hfree]
      exact takeIrec_badFields rfl hfields
    · rw [writeIrec_reads ⟨haligned, hlow, hhigh⟩ hfree]
      exact takeIrec_takes rfl hfields hr

end Sys2Proof.Machine
end

/-!
PROOFS. What the host reads of a core through the core window, and what DOE and the mailbox answer it (R369, R370, R384, R388, R467,
R474, R475; O46).
-/
section
namespace Sys2Proof.Machine

/-! ## Fields of a byte list (R7) -/

theorem leNat_leBytes (n v : Nat) : leNat (leBytes n v) = v % 256 ^ n := by
  induction n generalizing v with
  | zero => simp [leBytes, leNat, Nat.mod_one]
  | succ n ih => rw [leBytes, leNat, ih, BitVec.toNat_ofNat, pow_succ' 256, Nat.mod_mul]

/-- The field that stands behind as many bytes as its offset says. -/
theorem fieldAt_append_leBytes (pre post : List Byte) (n v : Nat) : fieldAt (pre ++ (leBytes n v ++ post)) pre.length n = v % 256 ^ n := by
  rw [fieldAt, List.drop_left, List.take_left' (length_leBytes n v), leNat_leBytes]

@[simp] theorem length_pad (n : Nat) (l : List Byte) : (pad n l).length = n := by
  simp [pad]

theorem pad_of_length {n : Nat} {l : List Byte} (h : l.length = n) : pad n l = l := by
  rw [pad, List.take_left' h]

/-! ## The core window (R387, R388) -/

/-- Where the register starts that a read of the core window names: one of 64 bits is named by either half. -/
def windowBase (off : Nat) : Nat := if csrWide (off / 8 * 8) then off / 8 * 8 else off

/-- What a read of so many bits answers of a register that holds v. -/
def windowValue (off bits v : Nat) : Nat :=
  if bits = 64 then (if csrWide off then v else 0) else if windowBase off = off then v % 2 ^ 32 else v / 2 ^ 32

/-- The harbour master serves the core window (R389, R470). -/
structure WindowOpen (s : State) : Prop where
  alive  : s.hrw.alive = true
  locked : s.hrw.locked = true
  state  : s.sec.state ≠ .recovery

/-- A read of 32 or 64 bits that is naturally aligned (R387). -/
structure NaturalRead (off bits : Nat) : Prop where
  size    : bits = 32 ∨ bits = 64
  aligned : off % (bits / 8) = 0

theorem naturalRead_b32 {off : Nat} (h : off % 4 = 0) : NaturalRead off ReadSize.b32.bits := ⟨.inl rfl, h⟩

theorem naturalRead_b64 {off : Nat} (h : off % 8 = 0) : NaturalRead off ReadSize.b64.bits := ⟨.inr rfl, h⟩

section
variable {s : State} {off bits : Nat}

theorem exec_coreWindowRead (hup : s.hostUp = true) (hoff : off < 0x4000) (z : ReadSize) :
    exec (.coreWindowRead (.bar0 (0xC0000 + off)) z) s = .next (s.windowRead off z.bits) := by
  have hin : inCoreWindow (0xC0000 + off) = true := by simp [inCoreWindow, within_]; omega
  refine congrArg Host.Outcome.next ?_
  simp [State.readReg, hup, hin]

/-- A read of another size, or one that is not aligned. -/
theorem windowRead_unnatural (h : ¬ NaturalRead off bits) : s.windowRead off bits = s.answer 0 [] false := by
  refine if_pos ?_
  by_cases hsize : bits = 32 ∨ bits = 64
  · have haligned : off % (bits / 8) ≠ 0 := fun h0 => h ⟨hsize, h0⟩
    simp [haligned]
  · simp [not_or.1 hsize]

/-- A read that finds no register. -/
theorem windowRead_noRegister (h : s.coreReg s.hrw.coreSel.toNat (windowBase off) = none) :
    s.windowRead off bits = s.answer 0 [] false := by
  unfold windowBase at h
  simp only [State.windowRead, h, ite_self]

/-- A read that finds its register, of a core fenced or not. -/
theorem windowRead_register (hopen : WindowOpen s) (hnat : NaturalRead off bits) {v : Nat}
    (h : s.coreReg s.hrw.coreSel.toNat (windowBase off) = some v) :
    s.windowRead off bits = if s.hrw.coreSel.toNat ∈ s.int.fenced then (s.hrwErr (0xC0000 + off) eFENCED).answer 0 [] false
      else s.answer (windowValue off bits v) [] false := by
  obtain ⟨halive, hlocked, hstate⟩ := hopen
  have hgate : (!s.hrw.alive || !s.hrw.locked || decide (s.sec.state = .recovery) || !(decide (bits = 32) || decide (bits = 64)) ||
      decide (off % (bits / 8) ≠ 0)) = false := by
    simpa [halive, hlocked, hstate, hnat.aligned, ← or_iff_not_imp_left] using hnat.size
  unfold windowBase at h
  simp only [State.windowRead, hgate, h, List.contains_iff_mem, Bool.false_eq_true, if_false]
  rfl

end

/-! ## DOE (R384, R467, R474, R475) -/

section
variable {s : State} (hup : s.hostUp = true) (hstate : s.sec.state = .running ∨ s.sec.state = .recovery)
include hstate

theorem doeOn_of_state : s.doeOn = true := by
  rcases hstate with h | h <;> simp [State.doeOn, h]

include hup

/-- An answer through DOE, and the request noted. -/
theorem doeReply_answers (d : Doe) (l : List Byte) :
    s.doeReply d l = { s with reply := ⟨0, l, false, 0⟩, hrw := { s.hrw with doe := some d } } := by
  refine if_pos ?_
  rw [doeOn_of_state hstate, hup]
  rfl

/-- A report asked for while there is no identity to sign it (R474). -/
theorem exec_getReport_noIdentity (hid : s.hasIdentity = false) (nonce : List Byte) (mask : Byte) :
    exec (.getReport nonce mask) s = .next { s with
      reply := ⟨0, [Config.statusNoIdentity], false, 0⟩, hrw := { s.hrw with doe := some (.report nonce mask) } } := by
  refine congrArg Host.Outcome.next ?_
  rw [hid, ← doeReply_answers hup hstate]
  rfl

/-- A report: the Keccak unit takes the key that signs it (R466, R475). -/
theorem exec_getReport_signs (hid : s.hasIdentity = true) (nonce : List Byte) (mask : Byte) :
    exec (.getReport nonce mask) s = .next { s with
      reply := ⟨0, s.report nonce mask, false, 0⟩, freeCtr := s.freeCtr + 1
      hrw := { s.hrw with doe := some (.report nonce mask) }
      sec := { s.sec with secrets := { s.sec.secrets with keccak := s.sec.secrets.seed } } } := by
  refine congrArg Host.Outcome.next ?_
  rw [hid, doeOn_of_state hstate]
  exact doeReply_answers (s := s.loadKey) hup hstate _ _

end

/-! ## The report (Table 14-8) -/

section
variable (s : State) (nonce : List Byte) (mask : Byte)

theorem length_measurement (i : Nat) : (s.measurement i).length = 64 := length_pad _ _

theorem length_reportBody : (s.reportBody nonce mask).length = 1104 := by
  have hmaps : ((List.range 64).flatMap (fun k => leBytes 8 (s.coreMap k))).length = 512 := by
    simp [List.length_flatMap]
  have hmeasured : ((List.range 8).flatMap (fun i => if mask.getLsbD i then s.measurement i else List.replicate 64 0)).length = 512 := by
    have hone (i : Nat) : (if mask.getLsbD i then s.measurement i else List.replicate 64 0).length = 64 := by
      split
      · exact length_measurement s i
      · exact List.length_replicate
    simp only [List.length_flatMap, hone, List.map_const', List.length_range, List.sum_replicate, smul_eq_mul]
  simp only [State.reportBody, List.length_append, length_leBytes, length_pad, List.length_replicate, List.length_cons, List.length_nil,
    hmaps, hmeasured]

theorem body_report : ((s.report nonce mask).drop 1).take 1104 = s.reportBody nonce mask :=
  List.take_left' (length_reportBody s nonce mask)

/-- The nonce stands behind the status, the magic number and the length. -/
theorem nonce_report (h : nonce.length = 32) : ((s.report nonce mask).drop 9).take 32 = nonce := by
  simp only [State.report, State.reportBody, pad_of_length h, List.append_assoc]
  rw [← List.append_assoc, ← List.append_assoc, List.drop_left' (by simp), List.take_left' h]

/-- The signature of the report stands behind it. -/
theorem signature_report : (s.report nonce mask).drop 1105 = slhSign s.sec.secrets.seed ((List.range 32).map (Config.sigRandom s.freeCtr))
    (((s.report nonce mask).drop 1).take 1104) := by
  rw [body_report]
  exact List.drop_left' (by rw [List.length_append, length_reportBody]; rfl)

end

/-! ## The mailbox (R369, R370) -/

theorem mailbox_answers {s : State} (h : s.hrw.mode = 1) (c v : Nat) (l : List Byte) : s.mailbox c v l = s.answer v l false := if_pos h

section
variable (s : State)

theorem length_healthInfo : s.healthInfo.length = 18 := by simp [State.healthInfo]

theorem temperature_healthInfo : fieldAt s.healthInfo 4 2 = s.memTemp % 65536 := by
  simp only [State.healthInfo, List.append_assoc]
  exact fieldAt_append_leBytes _ _ 2 _

theorem corrected_healthInfo : fieldAt s.healthInfo 10 4 = min 0xFFFFFFFF (s.hbm.stk.toList.map (·.ce.toNat)).sum := by
  have hlt : min 0xFFFFFFFF (s.hbm.stk.toList.map (·.ce.toNat)).sum < 256 ^ 4 := by omega
  rw [← Nat.mod_eq_of_lt hlt, State.healthInfo, List.append_assoc _ (leBytes 4 (min _ _))]
  exact fieldAt_append_leBytes _ _ 4 _

theorem badPages_healthInfo : (fieldAt s.healthInfo 0 1).testBit 3 = !s.hbm.pages.isEmpty := by
  have hbyte (m : Nat) (b : Bool) : ((BitVec.ofNat 8 (m % 8 + 8 * ofBool b)).toNat + 256 * 0).testBit 3 = b := by
    have hflag : ofBool b ≤ 1 := by cases b <;> decide
    have hbit : ((m % 8 + 8 * ofBool b) % 2 ^ 8 + 256 * 0) / 2 ^ 3 % 2 = ofBool b := by omega
    rw [Nat.testBit_eq_decide_div_mod_eq, BitVec.toNat_ofNat, hbit]
    cases b <;> rfl
  exact hbyte _ _

theorem length_poisonList (dpa len : Nat) : (s.poisonList dpa len).length =
    (s.dmem.poison.filter (fun k => 0x40000000 + dpa ≤ k * 64 && k * 64 < 0x40000000 + dpa + len)).length := by
  rw [State.poisonList, List.length_map, dpaAddr, dmemReserved, Nat.add_comm dpa]

end

/-! ## The claim -/

/-- Settles O46: a read of the core window by what it finds, a DOE request by whether there is an identity, and each command of the mailbox
by its answer. -/
theorem hostRequestsAreAnswered : Obligations.HostRequestsAreAnswered := by
  unfold Obligations.HostRequestsAreAnswered
  intro s off n len nonce mask g answers doe base read zero fenced
  refine ⟨fun hon hlocked hstate hoff => ?window, fun hup hstate => ⟨?discovery, ?cdat, ?cert, fun hid => ?noIdentity,
    fun hid hnonce => ?report⟩, fun hdoe => ?abort, fun hmode => ?mailbox⟩
  case window =>
    obtain ⟨halive, hup⟩ := Bool.and_eq_true_iff.1 hon
    have hopen : WindowOpen s := ⟨halive, hlocked, hstate⟩
    have hexec (z : ReadSize) {t : State} (h : s.windowRead off z.bits = t) : exec (read z) s = .next t :=
      (exec_coreWindowRead hup hoff z).trans (congrArg Host.Outcome.next h)
    have hzero (z : ReadSize) (h : s.windowRead off z.bits = s.answer 0 [] false) : zero z := ⟨_, hexec z h, rfl⟩
    have hunnatural (z : ReadSize) (h : ¬ NaturalRead off z.bits) : zero z := hzero z (windowRead_unnatural h)
    have hvalue (z : ReadSize) (hnat : NaturalRead off z.bits) (v : Nat) (hreg : s.coreReg g base = some v) (hfree : g ∉ s.int.fenced) :
        answers (read z) (fun r => r.value = BitVec.ofNat 64 (windowValue off z.bits v)) :=
      ⟨_, hexec z ((windowRead_register hopen hnat hreg).trans (if_neg hfree)), rfl⟩
    have hfenced (z : ReadSize) (hnat : NaturalRead off z.bits) (v : Nat) (hreg : s.coreReg g base = some v) (hin : g ∈ s.int.fenced)
        (herr : s.hrw.errValid = false) : fenced z := by
      refine ⟨_, hexec z ((windowRead_register hopen hnat hreg).trans (if_pos hin)), ?_⟩
      rw [hrwErr_eq, herr]
      rfl
    refine ⟨⟨hunnatural .b8 (fun hnat => absurd hnat.size (by decide)), hunnatural .b16 (fun hnat => absurd hnat.size (by decide)),
      fun h => hunnatural .b32 (fun hnat => h hnat.aligned), fun h => hunnatural .b64 (fun hnat => h hnat.aligned),
      fun hnone => ⟨hzero .b32 (windowRead_noRegister hnone), hzero .b64 (windowRead_noRegister hnone)⟩⟩,
      fun v hreg hfree => ⟨fun h => hvalue .b32 (naturalRead_b32 h) v hreg hfree, fun h => ?_⟩,
      fun v hreg hin herr => ⟨fun h => hfenced .b32 (naturalRead_b32 h) v hreg hin herr,
        fun h => hfenced .b64 (naturalRead_b64 h) v hreg hin herr⟩⟩
    obtain ⟨r, hr, hv⟩ := hvalue .b64 (naturalRead_b64 h) v hreg hfree
    exact ⟨r, hr, hv.trans (apply_ite (BitVec.ofNat 64) _ v 0)⟩
  case discovery => exact ⟨_, _, congrArg Host.Outcome.next (doeReply_answers hup hstate _ _), rfl, rfl⟩
  case cdat =>
    exact ⟨_, _, congrArg Host.Outcome.next (doeReply_answers hup hstate _ _), List.drop_left' (by simp), rfl⟩
  case cert => exact ⟨_, _, congrArg Host.Outcome.next (doeReply_answers hup hstate _ _), rfl, rfl⟩
  case noIdentity => exact ⟨_, _, exec_getReport_noIdentity hup hstate hid nonce mask, rfl, rfl⟩
  case report =>
    exact ⟨_, exec_getReport_signs hup hstate hid nonce mask, rfl, rfl, nonce_report s nonce mask hnonce, signature_report s nonce mask⟩
  case abort => exact ⟨_, congrArg Host.Outcome.next (if_pos hdoe), rfl⟩
  case mailbox =>
    have hanswer (c v : Nat) (l : List Byte) : (.next (s.mailbox c v l) : Res) = .next (s.answer v l false) :=
      congrArg Host.Outcome.next (mailbox_answers hmode c v l)
    refine ⟨⟨_, hanswer _ _ _, rfl⟩,
      ⟨_, hanswer _ _ _, length_healthInfo s, temperature_healthInfo s, corrected_healthInfo s, badPages_healthInfo s⟩,
      ⟨_, hanswer _ _ _, rfl⟩, ⟨_, hanswer _ _ _, ?_⟩, ⟨_, hanswer _ _ _, rfl⟩, ⟨_, hanswer _ _ _, rfl⟩,
      ⟨_, congrArg Host.Outcome.next (if_pos hmode), rfl⟩⟩
    exact congrArg (BitVec.ofNat 64) (by simpa using length_poisonList s n len)

end Sys2Proof.Machine
end

/-!
PROOFS. Fencing and suspicion, and what they leave of arbitrations, of patrol and of the memories (R412, R417 to R419).
-/
section
namespace Sys2Proof.Machine

/-! ## Fences and suspects -/

/-- From s to t cores or adders may have been fenced or suspected, with their records: what else the integrity monitor holds, the
confirmed faults and the memories stand. -/
structure FencesOnly (s t : State) : Prop where
  int     : t.int = { s.int with
    fenced := t.int.fenced, suspects := t.int.suspects, clearing := t.int.clearing, adders := t.int.adders }
  history : t.log.history = s.log.history
  cores   : t.cores = s.cores
  quays   : t.quays = s.quays
  dmem    : t.dmem = s.dmem

section
variable {s t u : State}

theorem FencesOnly.refl (s : State) : FencesOnly s s := ⟨rfl, rfl, rfl, rfl, rfl⟩

theorem FencesOnly.trans (h : FencesOnly s t) (k : FencesOnly t u) : FencesOnly s u :=
  ⟨by rw [k.int, h.int], k.history.trans h.history, k.cores.trans h.cores, k.quays.trans h.quays, k.dmem.trans h.dmem⟩

theorem FencesOnly.sameBytes (h : FencesOnly s t) : SameBytes s t := fun l b => by
  rw [State.readByte, store_congr h.cores h.quays h.dmem, State.readByte]

theorem FencesOnly.ite {c : Prop} [Decidable c] (h : FencesOnly s t) (k : FencesOnly s u) : FencesOnly s (if c then t else u) := by
  split
  · exact h
  · exact k

theorem FencesOnly.foldl {α : Type} {f : State → α → State} {l : List α} (h : FencesOnly s t)
    (hf : ∀ u x, FencesOnly u (f u x)) : FencesOnly s (l.foldl f t) := by
  induction l generalizing t with
  | nil => exact h
  | cons x l ih => exact ih (h.trans (hf t x))

theorem history_logRec (s : State) (r : LogRec) : (s.logRec r).log.history = s.log.history := by
  unfold State.logRec
  split_ifs <;> rfl

theorem FencesOnly.logRec (h : FencesOnly s t) (r : LogRec) : FencesOnly s (t.logRec r) :=
  h.trans ⟨by rw [logRec_int], history_logRec t r, logRec_cores t r, logRec_quays t r, logRec_dmem t r⟩

theorem fencesOnly_logFence (s : State) (who die unit cause kind : Nat) : FencesOnly s (s.logFence who die unit cause kind) := by
  unfold State.logFence
  refine FencesOnly.logRec ?_ _
  exact ⟨rfl, rfl, rfl, rfl, rfl⟩

theorem fencesOnly_fenceCore (s : State) (g cause kind : Nat) : FencesOnly s (s.fenceCore g cause kind) := by
  unfold State.fenceCore
  refine .ite (.refl s) (FencesOnly.trans ?_ (fencesOnly_logFence _ _ _ _ _ _))
  exact .ite ⟨rfl, rfl, rfl, rfl, rfl⟩ ⟨rfl, rfl, rfl, rfl, rfl⟩

theorem fencesOnly_fenceAdder (s : State) (e a cause kind : Nat) : FencesOnly s (s.fenceAdder e a cause kind) := by
  unfold State.fenceAdder
  refine .ite (.refl s) (FencesOnly.trans ?_ (fencesOnly_logFence _ _ _ _ _ _))
  exact ⟨rfl, rfl, rfl, rfl, rfl⟩

theorem fencesOnly_suspectCore (s : State) (g : Nat) : FencesOnly s (s.suspectCore g) := by
  unfold State.suspectCore
  refine .ite (.refl s) (FencesOnly.logRec ?_ _)
  exact ⟨rfl, rfl, rfl, rfl, rfl⟩

theorem fencesOnly_suspects (s : State) (g : Nat) (l : List Nat) :
    FencesOnly s (l.foldl (fun t w => t.suspectCore w) (s.suspectCore g)) :=
  (fencesOnly_suspectCore s g).foldl (fun u w => fencesOnly_suspectCore u w)

theorem fencesOnly_fenceUnit (s : State) (u : FaultUnit) : FencesOnly s (s.fenceUnit u) := by
  cases u with
  | quadrant | lanes | checker => exact fencesOnly_fenceCore ..
  | adder => exact fencesOnly_fenceAdder ..
  | collChecker => exact (FencesOnly.refl s).foldl (fun u _ => fencesOnly_fenceAdder u ..)

/-! ## The end of an arbitration (R410, R412, R415) -/

/-- The confirmed faults that an outcome adds to the history. -/
def State.charges (s : State) (u : FaultUnit) (n : Nat) : List (FaultUnit × Nat) := List.replicate n (u, s.log.pot)

theorem history_chargeUnit (s : State) (u : FaultUnit) (n : Nat) :
    (s.chargeUnit u n).log.history = s.log.history ++ s.charges u n := by
  unfold State.chargeUnit
  split
  · next h => rw [h, State.charges, List.replicate_zero, List.append_nil]
  · rfl

/-- What an arbitration's end adds to the counters of outcomes. -/
def Integ.counted (i : Integ) (o : ArbOutcome) : Integ :=
  match o with
  | .checker => { i with nChecker := i.nChecker + 1 }
  | .transient => { i with nTransient := i.nTransient + 1 }
  | .persistent => { i with nPersistent := i.nPersistent + 1 }
  | _ => { i with nUnresolved := i.nUnresolved + 1 }

/-- From s to t an arbitration has ended with an outcome: it is counted, charged and removed, and what else differs is fences,
suspects and the operands freed. -/
structure ArbEnded (a : Arb) (o : ArbOutcome) (s t : State) : Prop where
  int     : t.int = { s.int.counted o with
    arbs := s.int.arbs.erase a, arbLast := t.int.arbLast
    fenced := t.int.fenced, suspects := t.int.suspects, clearing := t.int.clearing, adders := t.int.adders }
  history : t.log.history = s.log.history ++ s.charges (chargedUnit o a) (outcomeCharge o)
  bytes   : SameBytes s t

theorem ArbEnded.fences {a : Arb} {o : ArbOutcome} (h : ArbEnded a o s t) (k : FencesOnly t u) : ArbEnded a o s u :=
  ⟨by rw [k.int, h.int], k.history.trans h.history, sameBytes_trans h.bytes k.sameBytes⟩

theorem int_countOutcome (s : State) (o : ArbOutcome) (die : Nat) : (s.countOutcome o die).int = s.int.counted o := by
  cases o <;> rfl

theorem log_countOutcome (s : State) (o : ArbOutcome) (die : Nat) :
    (s.countOutcome o die).log.history = s.log.history ∧ (s.countOutcome o die).log.pot = s.log.pot := ⟨rfl, rfl⟩

theorem arbs_counted (i : Integ) (o : ArbOutcome) : (i.counted o).arbs = i.arbs := by cases o <;> rfl

theorem int_freeRetained (s : State) (a : Arb) : (s.freeRetained a).int = s.int := by
  unfold State.freeRetained
  split <;> rfl

theorem log_freeRetained (s : State) (a : Arb) : (s.freeRetained a).log = s.log := by
  unfold State.freeRetained
  split <;> rfl

theorem sameBytes_freeRetained (s : State) (a : Arb) : SameBytes s (s.freeRetained a) := by
  unfold State.freeRetained
  split
  · exact sameBytes_setCore s _ _ rfl
  · exact sameBytes_of_store (fun l => by cases l <;> rfl)

theorem int_chargeUnit (s : State) (u : FaultUnit) (n : Nat) : (s.chargeUnit u n).int = s.int := by
  unfold State.chargeUnit
  split <;> rfl

theorem sameBytes_chargeUnit (s : State) (u : FaultUnit) (n : Nat) : SameBytes s (s.chargeUnit u n) := by
  unfold State.chargeUnit
  split
  · exact sameBytes_refl s
  · exact sameBytes_of_store (fun l => by cases l <;> rfl)

/-- The state once an arbitration's outcome is counted and charged, its operands freed and INT_ARB_LAST written. -/
def State.arbCharged (s : State) (a : Arb) (o : ArbOutcome) (v : Word64) : State :=
  let s1 := (s.countOutcome o (arbDie a.who)).freeRetained a
  let s2 := ({ s1 with int := { s1.int with arbs := s1.int.arbs.erase a } }).chargeUnit (chargedUnit o a) (outcomeCharge o)
  { s2 with int := { s2.int with arbLast := v } }

theorem arbEnded_arbCharged (s : State) (a : Arb) (o : ArbOutcome) (v : Word64) : ArbEnded a o s (s.arbCharged a o v) := by
  have hint : ((s.countOutcome o (arbDie a.who)).freeRetained a).int = s.int.counted o := by
    rw [int_freeRetained, int_countOutcome]
  have hlog : ((s.countOutcome o (arbDie a.who)).freeRetained a).log = (s.countOutcome o (arbDie a.who)).log :=
    log_freeRetained _ a
  refine ⟨?_, ?_, ?_⟩
  · simp only [State.arbCharged, int_chargeUnit, hint, arbs_counted]
  · simp only [State.arbCharged, history_chargeUnit, State.charges, hlog, log_countOutcome]
  · have hcount : SameBytes s (s.countOutcome o (arbDie a.who)) := sameBytes_of_store (fun l => by cases l <;> rfl)
    refine sameBytes_trans (sameBytes_trans hcount (sameBytes_freeRetained _ a)) ?_
    exact sameBytes_chargeUnit _ _ _

theorem arbEnded_arbEnd (s : State) (a : Arb) (o : ArbOutcome) (rdiff pweq pres wres : Bool) :
    ArbEnded a o s (s.arbEnd a o rdiff pweq pres wres) := by
  have hfence (v : Word64) (r : LogRec) (p : Bool) : ArbEnded a o s
      (if p then ((s.arbCharged a o v).logRec r).fenceUnit (chargedUnit o a) else (s.arbCharged a o v).logRec r) := by
    have hrec : FencesOnly (s.arbCharged a o v) ((s.arbCharged a o v).logRec r) := (FencesOnly.refl _).logRec r
    exact (arbEnded_arbCharged s a o v).fences (.ite (hrec.trans (fencesOnly_fenceUnit _ _)) hrec)
  unfold State.arbEnd
  dsimp only
  split
  · exact (hfence _ _ _).fences (fencesOnly_suspects _ _ _)
  · exact (hfence _ _ _).fences (fencesOnly_suspects _ _ _)
  · exact hfence _ _ _

end

end Sys2Proof.Machine
end

/-!
PROOFS. The steps of an arbitration and its outcome (Table 12-4, R410, R412, R415; O32).
-/
section
namespace Sys2Proof.Machine

section
variable {s : State} {u : Checker} {a : Arb} {rdiff pres : Bool}

/-! ## The outcome (Table 12-4) -/

theorem arbOutcome_unresolved {rdiff pweq pres wres : Bool} (hc : ¬ (rdiff = false ∧ pweq = true ∧ wres = true))
    (ht : ¬ (rdiff = true ∧ pweq = true ∧ pres = true ∧ wres = true))
    (hp : ¬ (rdiff = false ∧ pweq = false ∧ pres = false ∧ wres = true)) :
    arbOutcome rdiff pweq pres wres = .unresolved := by
  unfold arbOutcome
  rw [if_neg (by simpa using hc), if_neg (by simpa using ht), if_neg (by simpa using hp)]

/-! ## The replay (R410 step 1) -/

theorem arbReplay_eq (ha : s.arbOf u = some a) (hnone : a.replay = none)
    (hrest : ∀ g, u = .core g → s.coreAtRest g.toNat = true) :
    s.arbReplay u rdiff pres = s.setArb a { a with replay := some (rdiff, pres) } := by
  cases u with
  | core g => simp [State.arbReplay, ha, hnone, hrest g rfl]
  | coll e => simp [State.arbReplay, ha, hnone]

/-! ## The witness (R410 steps 2 to 4) -/

theorem arbWitness_core {g : Gcn} {w : Nat} {pweq wres : Bool} (ha : s.arbOf (.core g) = some a)
    (hr : a.replay = some (rdiff, pres))
    (hw : a.witness = some w) (hg : s.coreAtRest g.toNat = true) (hrest : s.coreAtRest w = true) :
    s.arbWitness (.core g) pweq wres = s.arbEnd a (arbOutcome rdiff pweq pres wres) rdiff pweq pres wres := by
  simp [State.arbWitness, ha, hr, hw, hg, hrest]

theorem arbWitness_alone {g : Gcn} {pweq wres : Bool} (ha : s.arbOf (.core g) = some a) (hr : a.replay = some (rdiff, pres))
    (hw : a.witness = none) : s.arbWitness (.core g) pweq wres = s.arbEnd a .unresolved rdiff false pres false := by
  simp [State.arbWitness, ha, hr, hw]

theorem arbWitness_coll {e : EngineId} {n : Nat} {pweq wres : Bool} (ha : s.arbOf (.coll e) = some a)
    (hr : a.replay = some (rdiff, pres)) (hu : a.unit = .adder e.val n) :
    s.arbWitness (.coll e) pweq wres =
      if s.int.adders.getLsbD (adderCode (1 - e.val) n) then s.arbEnd a .unresolved rdiff false pres false
      else s.arbEnd a (arbOutcome rdiff pweq pres wres) rdiff pweq pres wres := by
  simp [State.arbWitness, ha, hr, hu]

end

/-! ## What an outcome counts and charges -/

theorem counters_counted (i : Integ) {o : ArbOutcome} (ho : o ≠ .interrupted) :
    (i.counted o).nChecker = i.nChecker + (if o = .checker then 1 else 0) ∧
      (i.counted o).nTransient = i.nTransient + (if o = .transient then 1 else 0) ∧
      (i.counted o).nPersistent = i.nPersistent + (if o = .persistent then 1 else 0) ∧
      (i.counted o).nUnresolved = i.nUnresolved + (if o = .unresolved then 1 else 0) := by
  cases o with
  | interrupted => exact absurd rfl ho
  | _ => simp [Integ.counted]

theorem arbOutcome_ne_interrupted (rdiff pweq pres wres : Bool) : arbOutcome rdiff pweq pres wres ≠ .interrupted := by
  unfold arbOutcome
  split_ifs <;> simp

/-- The unit that CHECKER charges is the checker (R412). -/
theorem chargedUnit_core {a : Arb} {g : Gcn} (h : a.who = .core g) : chargedUnit .checker a = .checker g.toNat := by
  simp only [chargedUnit, h]

theorem chargedUnit_coll {a : Arb} {e : EngineId} (h : a.who = .coll e) : chargedUnit .checker a = .collChecker e.val := by
  simp only [chargedUnit, h]

/-! ## The claim -/

/-- Settles O32: the end of an arbitration by what it leaves, and each outcome by its row of Table 12-4. -/
theorem arbitrationFollowsItsTable : Obligations.ArbitrationFollowsItsTable := by
  unfold Obligations.ArbitrationFollowsItsTable
  intro s u a rdiff pres pweq wres ha hwho idle ends table
  have hends (o : ArbOutcome) (ho : o ≠ .interrupted) (r p q w : Bool)
      (h : s.arbWitness u pweq wres = s.arbEnd a o r p q w) : ends o := by
    obtain ⟨hint, hhistory, hbytes⟩ := arbEnded_arbEnd s a o r p q w
    obtain ⟨hc, ht, hp, hu⟩ := counters_counted s.int ho
    refine ⟨_, congrArg Host.Outcome.next h, by rw [hint], hbytes, by rw [hint]; exact hc, by rw [hint]; exact ht,
      by rw [hint]; exact hp, by rw [hint]; exact hu, hhistory.trans (congrArg _ ?_)⟩
    cases o with
    | checker =>
      cases u with
      | core g => rw [chargedUnit_core hwho]; rfl
      | coll e => rw [chargedUnit_coll hwho]; rfl
    | interrupted => exact absurd rfl ho
    | transient | persistent | unresolved => rfl
  have htable (h : s.arbWitness u pweq wres = s.arbEnd a (arbOutcome rdiff pweq pres wres) rdiff pweq pres wres) : table := by
    have hrow (o : ArbOutcome) (ho : arbOutcome rdiff pweq pres wres = o) : ends o :=
      hends o (ho ▸ arbOutcome_ne_interrupted _ _ _ _) _ _ _ _ (ho ▸ h)
    refine ⟨?_, ?_, ?_, fun hc ht hp => hrow _ (arbOutcome_unresolved hc ht hp)⟩
    · rintro rfl rfl rfl
      exact hrow _ rfl
    · rintro rfl rfl rfl rfl
      exact hrow _ rfl
    · rintro rfl rfl rfl rfl
      exact hrow _ rfl
  refine ⟨fun hnone hrest => ⟨_, congrArg Host.Outcome.next (arbReplay_eq ha hnone hrest), rfl⟩,
    fun hreplay => ⟨?pair, ?alone, ?coll⟩⟩
  case pair =>
    rintro g w rfl hw hg hrest
    exact htable (arbWitness_core ha hreplay hw hg hrest)
  case alone =>
    rintro g rfl hw
    exact hends _ (by simp) _ _ _ _ (arbWitness_alone ha hreplay hw)
  case coll =>
    rintro e n rfl hunit
    have heq := arbWitness_coll (pweq := pweq) (wres := wres) ha hreplay hunit
    exact ⟨fun hfree => htable (heq.trans (if_neg (by simp [hfree]))),
      fun hfenced => hends _ (by simp) _ _ _ _ (heq.trans (if_pos hfenced))⟩

end Sys2Proof.Machine
end

/-!
PROOFS. What no command undoes (R417, R418, R489), and the canonical form of the memories: the rules of one update.
-/
section
namespace Sys2Proof.Machine

-- One declaration after another: a default proof (`:= by …`) waits for the check of all that stands before it, which side by
-- side would hold one thread each.
set_option Elab.async false

/-! ## What lasts in a block of the state -/

/-- From i to j no core's and no adder's fence is lifted (R417, R418). -/
structure IntKept (i j : Integ) : Prop where
  fenced : ∀ g ∈ i.fenced, g ∈ j.fenced
  adders : ∀ n, i.adders.getLsbD n = true → j.adders.getLsbD n = true

/-- From c to d the fused SVN has not fallen, the keys and revocations stand, and the flash keeps its form. -/
structure SecKept (c d : Sec) : Prop where
  svn   : c.otp.svn ≤ d.otp.svn
  keys  : c.otp.keys = d.otp.keys ∧ c.otp.revoked = d.otp.revoked
  flash : smWf (0xFF : Byte) c.flash = true → smWf (0xFF : Byte) d.flash = true

/-- From l to m no sequence number comes back (R489), and the MRAM keeps its form. -/
structure LogKept (l m : LogSt) : Prop where
  seq  : l.seqNext ≤ m.seqNext
  mram : Memory.wf l.mram = true → Memory.wf m.mram = true

theorem IntKept.of_eq {i j : Integ} (hf : j.fenced = i.fenced) (ha : j.adders = i.adders) : IntKept i j :=
  ⟨fun _ h => hf ▸ h, fun _ h => ha ▸ h⟩

theorem SecKept.of_eq {c d : Sec} (ho : d.otp = c.otp) (hf : d.flash = c.flash) : SecKept c d :=
  ⟨ho ▸ le_rfl, ho ▸ ⟨rfl, rfl⟩, fun h => hf ▸ h⟩

theorem LogKept.of_eq {l m : LogSt} (hs : m.seqNext = l.seqNext) (hm : m.mram = l.mram) : LogKept l m :=
  ⟨hs ▸ le_rfl, fun h => hm ▸ h⟩

theorem LogKept.refl (l : LogSt) : LogKept l l := .of_eq rfl rfl

theorem LogKept.trans {k l m : LogSt} (h : LogKept k l) (h' : LogKept l m) : LogKept k m :=
  ⟨h.seq.trans h'.seq, fun w => h'.mram (h.mram w)⟩

/-- The two memories of a core. -/
abbrev Core.mems (c : Core) : Store × List Host.Cell := (c.lsp, c.imem)

theorem mems_issueFault (c : Core) (cause detail : Nat) : (c.issueFault cause detail).mems = c.mems := rfl

theorem mems_advance (c : Core) (len : Nat) : (c.advance len).mems = c.mems := by
  unfold Core.advance
  dsimp only
  split <;> rfl

theorem mems_enqueue (c : Core) (i : EngineIssue) : (c.enqueue i).mems = c.mems := by
  cases i <;> rfl

theorem mems_csrPut (c : Core) (num v : Nat) : (c.csrPut num v).mems = c.mems := by
  unfold Core.csrPut
  split <;> rfl

theorem mems_settleEntry (c : Core) (i : Nat) : (c.settleEntry i).mems = c.mems := by
  unfold Core.settleEntry
  dsimp only
  split <;> rfl

theorem mems_vecDone (c : Core) : c.vecDone.mems = c.mems := by
  unfold Core.vecDone
  split <;> rfl

theorem mems_addVecCheck (c : Core) (k : VCmd) (l : List Elem) (now : Nat) : (c.addVecCheck k l now).1.mems = c.mems := by
  unfold Core.addVecCheck
  split <;> rfl

/-- The memories of a core are in canonical form. -/
def Core.memWf (c : Core) : Prop := c.lsp.wf = true ∧ Memory.wf c.imem = true

theorem Core.memWf_congr {c d : Core} (h : c.memWf) (e : d.mems = c.mems) : d.memWf := by
  obtain ⟨hl, hi⟩ := Prod.mk.inj e
  exact ⟨hl ▸ h.1, hi ▸ h.2⟩

theorem memWf_poisonMarked {c : Core} (h : c.memWf) : c.poisonMarked.memWf := by
  obtain ⟨hc, hp, he⟩ := (wf_iff _).1 h.1
  exact ⟨(wf_iff _).2 ⟨hc, rising_setUnion _ _ hp, he⟩, h.2⟩

/-! ## From one state to a later one -/

/-- From s to t what no command undoes stands, and where the memories were in canonical form they are. -/
structure Keeps (s t : State) : Prop where
  lasting : s.Lasting t
  memWf   : s.memWf = true → t.memWf = true

section
variable {s t u : State}

theorem State.Lasting.trans (h : s.Lasting t) (h' : t.Lasting u) : s.Lasting u :=
  ⟨fun g x => h'.fenced g (h.fenced g x), fun i x => h'.adders i (h.adders i x), h.seq.trans h'.seq, h.svn.trans h'.svn,
    h.keys.1.trans h'.keys.1, h.keys.2.trans h'.keys.2⟩

theorem Keeps.refl (s : State) : Keeps s s := ⟨⟨fun _ h => h, fun _ h => h, le_rfl, le_rfl, rfl, rfl⟩, id⟩

theorem Keeps.trans (h : Keeps s t) (h' : Keeps t u) : Keeps s u :=
  ⟨h.lasting.trans h'.lasting, fun w => h'.memWf (h.memWf w)⟩

/-- A change of other blocks, in which the harbour master's, the logbook's and the integrity monitor's keep what lasts. -/
theorem Keeps.blocks (h : Keeps s t) (hi : IntKept t.int u.int) (hs : SecKept t.sec u.sec) (hl : LogKept t.log u.log)
    (hm : (u.dmem, u.quays, u.cores) = (t.dmem, t.quays, t.cores)) : Keeps s u := by
  simp only [Prod.mk.injEq] at hm
  obtain ⟨hd, hq, hc⟩ := hm
  refine h.trans ⟨⟨hi.fenced, hi.adders, hl.seq, hs.svn, hs.keys⟩, fun w => ?_⟩
  rw [memWf_iff] at w ⊢
  obtain ⟨wd, wq, wf, wm, wc⟩ := w
  exact ⟨hd ▸ wd, hq ▸ wq, hs.flash wf, hl.mram wm, hc ▸ wc⟩

/-- The parts of a state that what lasts and the canonical form speak of. -/
abbrev State.durable (s : State) :=
  ((s.dmem, s.quays, s.cores), (s.int.fenced, s.int.adders), (s.sec.otp, s.sec.flash), s.log.seqNext, s.log.mram)

/-- A change of nothing that lasts, and of no memory. -/
theorem Keeps.upd (h : Keeps s t) (e : u.durable = t.durable := by rfl) : Keeps s u := by
  simp only [State.durable, Prod.mk.injEq] at e
  obtain ⟨hm, ⟨hf, ha⟩, ⟨ho, hfl⟩, hs, hr⟩ := e
  exact h.blocks (.of_eq hf ha) (.of_eq ho hfl) (.of_eq hs hr) (by simp only [hm])

/-- A change in the integrity monitor that lifts no fence. -/
theorem Keeps.setInt {i : Integ} (h : Keeps s t) (hi : IntKept t.int i := by exact .of_eq rfl rfl) :
    Keeps s { t with int := i } := h.blocks hi (.of_eq rfl rfl) (.of_eq rfl rfl) rfl

theorem Keeps.ite {c : Prop} [Decidable c] (ht : Keeps s t) (hu : Keeps s u) : Keeps s (if c then t else u) := by
  split
  · exact ht
  · exact hu

theorem Keeps.dite {c : Prop} [Decidable c] {f : c → State} {g : ¬ c → State} (hf : ∀ x, Keeps s (f x))
    (hg : ∀ x, Keeps s (g x)) : Keeps s (dite c f g) := by
  split
  · exact hf _
  · exact hg _

theorem Keeps.foldl {α : Type} {f : State → α → State} {l : List α} (h : Keeps s t)
    (hf : ∀ u x, Keeps s u → Keeps s (f u x)) : Keeps s (l.foldl f t) := by
  induction l generalizing t with
  | nil => exact h
  | cons x l ih => exact ih (hf t x h)

/-! ## The memories -/

theorem Keeps.coreWf (h : Keeps s t) (w : s.memWf = true) (g : Nat) : (t.core g).memWf := memWf_core (h.memWf w) g

theorem Keeps.setCoreWf {g : Nat} {c : Core} (h : Keeps s t) (hc : s.memWf = true → c.memWf) : Keeps s (t.setCore g c) :=
  ⟨⟨h.lasting.fenced, h.lasting.adders, h.lasting.seq, h.lasting.svn, h.lasting.keys⟩,
    fun w => memWf_setCore (h.memWf w) g c (hc w).1 (hc w).2⟩

/-- A core is stored with the memories that a core had in an earlier state. -/
theorem Keeps.setCoreOf {g h' : Nat} {c : Core} (h : Keeps s t) (hu : Keeps s u) (e : c.mems = (u.core h').mems := by rfl) :
    Keeps s (t.setCore g c) := h.setCoreWf (fun w => Core.memWf_congr (hu.coreWf w h') e)

/-- A core is stored with its memories as they were. -/
theorem Keeps.setCore {g : Nat} {c : Core} (h : Keeps s t) (e : c.mems = (t.core g).mems := by rfl) : Keeps s (t.setCore g c) :=
  h.setCoreOf h e

theorem Keeps.setStore {l : Loc} {st : Store} (h : Keeps s t) (hs : (t.store l).wf = true → st.wf = true) :
    Keeps s (t.setStore l st) :=
  ⟨by
    obtain ⟨hf, ha, hq, hv, hk⟩ := h.lasting
    cases l <;> exact ⟨hf, ha, hq, hv, hk⟩, fun w => memWf_setStore (h.memWf w) l st (hs (memWf_store (h.memWf w) l))⟩

end

end Sys2Proof.Machine
end

/-!
PROOFS. What no command undoes: records, MRAM, fences, and what a read of a memory changes (R227, R417, R418, R489).
-/
section
namespace Sys2Proof.Machine

set_option Elab.async false

section
variable {s t u : State}

theorem Keeps.healthInc {off w : Nat} (h : Keeps s t) : Keeps s (t.healthInc off w) := h.upd

theorem Keeps.setDie {d : Fin 8} {x : DiePwr} (h : Keeps s t) : Keeps s (t.setDie d x) := h.upd

/-! ## The logbook's front end, and MRAM -/

theorem Keeps.takeRec {r : LogRec} (h : Keeps s t) : Keeps s (t.takeRec r) :=
  h.blocks (.of_eq rfl rfl) (.of_eq rfl rfl) ⟨Nat.le_succ _, id⟩ rfl

theorem Keeps.logRec {r : LogRec} (h : Keeps s t) : Keeps s (t.logRec r) := .ite h (.ite h.upd (.ite h.upd h.takeRec))

theorem Keeps.setLog {l : LogSt} (h : Keeps s t) (hl : LogKept t.log l := by exact .of_eq rfl rfl) : Keeps s (t.setLog l) :=
  h.blocks (.of_eq rfl rfl) (.of_eq rfl rfl) hl rfl

theorem LogKept.put {l m : LogSt} (h : LogKept l m) (w : JWrite) : LogKept l (m.put w) := by
  cases w with
  | bytes a d => exact h.trans ⟨le_rfl, smWf_putBytes _ a d⟩
  | baselines | scalars | ledgers | history => exact h.trans (.of_eq rfl rfl)

theorem LogKept.jput {l m : LogSt} (h : LogKept l m) (a : Nat) (b : List Byte) : LogKept l (m.jput a b) :=
  (h.put (.bytes a b)).trans (.of_eq rfl rfl)

theorem Keeps.mramPut {a : Nat} {l : List Byte} (h : Keeps s t) : Keeps s (t.mramPut a l) :=
  h.setLog ((LogKept.refl _).jput a l)

theorem Keeps.logFence {who die unit cause kind : Nat} (h : Keeps s t) : Keeps s (t.logFence who die unit cause kind) :=
  h.mramPut.upd.healthInc.logRec

theorem Keeps.suspectCore {g : Nat} (h : Keeps s t) : Keeps s (t.suspectCore g) := .ite h h.upd.healthInc.logRec

theorem mem_setAdd_of_mem {x z : Nat} {l : List Nat} (h : z ∈ l) : z ∈ setAdd x l := by
  induction l with
  | nil => cases h
  | cons y l ih =>
    unfold setAdd
    split
    · exact List.mem_cons_of_mem _ h
    · split
      · exact h
      · exact (List.mem_cons.1 h).elim (fun e => e ▸ List.mem_cons_self ..) (fun h => List.mem_cons_of_mem _ (ih h))

theorem Keeps.fenceCore {g cause kind : Nat} (h : Keeps s t) : Keeps s (t.fenceCore g cause kind) := by
  have hf := h.blocks (u := { t with int := { t.int with fenced := setAdd g t.int.fenced } })
    ⟨fun _ => mem_setAdd_of_mem, fun _ => id⟩ (.of_eq rfl rfl) (.of_eq rfl rfl) rfl
  exact .ite h (Keeps.ite hf.upd hf.upd).logFence

theorem Keeps.fenceAdder {e a cause kind : Nat} (h : Keeps s t) : Keeps s (t.fenceAdder e a cause kind) := by
  have hf := h.blocks (u := { t with int := { t.int with adders := t.int.adders ||| BitVec.ofNat 8 (2 ^ adderCode e a) } })
    ⟨fun _ => id, fun n hn => by simp [hn]⟩ (.of_eq rfl rfl) (.of_eq rfl rfl) rfl
  exact .ite h hf.logFence

/-! ## Reads -/

theorem Keeps.setDmem {d : Store} (h : Keeps s t) (hd : t.dmem.wf = true → d.wf = true) : Keeps s { t with dmem := d } :=
  h.setStore (l := .dmem) hd

theorem Store.wf_found {st : Store} (h : st.wf = true) (n : Nat) :
    ({ st with errs := smDel n st.errs } : Store).wf = true := by
  rw [wf_iff] at h ⊢
  exact ⟨h.1, h.2.1, smWf_smDel _ _ n h.2.2⟩

theorem Store.wf_poisoned {st : Store} (h : st.wf = true) (n : Nat) :
    ({ st with poison := setAdd n st.poison } : Store).wf = true := by
  rw [wf_iff] at h ⊢
  exact ⟨h.1, rising_setAdd n _ h.2.1, h.2.2⟩

theorem Keeps.listPage {page : Nat} {why : PageReason} (h : Keeps s t) : Keeps s (t.listPage page why) := by
  unfold State.listPage
  exact .ite h (.ite (h.mramPut.upd).logRec h.logRec)

theorem Keeps.onDieEcc {line : Nat} (h : Keeps s t) : Keeps s (t.onDieEcc line) := .ite h.upd.healthInc h

theorem Keeps.lineUe {line : Nat} (h : Keeps s t) : Keeps s (t.lineUe line) := by
  have hd := h.setDmem (fun w => Store.wf_poisoned (Store.wf_found w line) line)
  exact hd.upd.logRec.healthInc.listPage

theorem Keeps.lineCe {line : Nat} (h : Keeps s t) : Keeps s (t.lineCe line) := by
  have hd := h.setDmem (fun w => Store.wf_found w line)
  unfold State.lineCe
  exact .ite hd.upd.listPage hd.upd

theorem Keeps.touchLine {line : Nat} (h : Keeps s t) : Keeps s (t.touchLine line) := by
  unfold State.touchLine
  split
  · exact h.onDieEcc
  · exact h.onDieEcc.lineCe
  · exact h.onDieEcc.lineUe

theorem Keeps.touchWord {l : Loc} {w : Nat} (h : Keeps s t) : Keeps s (t.touchWord l w) := by
  unfold State.touchWord
  dsimp only
  split
  · exact h
  · exact (h.setStore (fun k => Store.wf_found k w)).upd
  · exact ((h.setStore (fun k => Store.wf_poisoned k (w / 8))).upd).logRec

theorem Keeps.touch {l : Loc} {gran : Nat} (h : Keeps s t) : Keeps s (t.touch l gran) := by
  unfold State.touch
  split
  · exact h.touchLine
  · exact h.foldl (fun _ _ k => k.touchWord)

theorem Keeps.touchAll {l : Loc} {grans : List Nat} (h : Keeps s t) : Keeps s (t.touchAll l grans) :=
  h.foldl (fun _ _ k => k.touch)

theorem Keeps.preWrite {l : Loc} {gran : Nat} {bytes : List (Nat × Byte)} (h : Keeps s t) :
    Keeps s (t.preWrite l gran bytes) := by
  unfold State.preWrite
  split
  · exact h
  · split
    · exact h.touchLine
    · exact h.foldl (fun _ _ k => .ite k.touchWord k)

theorem Keeps.touchDesc {g : Nat} {d : Desc} {ixs : List (List Nat)} (h : Keeps s t) : Keeps s (t.touchDesc g d ixs) :=
  h.foldl (fun _ _ k => k.touch)

theorem Keeps.touchBlock {c : QCmd} (h : Keeps s t) : Keeps s (t.touchBlock c) := h.touchAll

end

end Sys2Proof.Machine
end

/-!
PROOFS. What no command undoes: writes of a memory, and the sequencer's instructions.
-/
section
namespace Sys2Proof.Machine

set_option Elab.async false

section
variable {s t u : State}

/-! ## Writes -/

theorem Keeps.writeGran {l : Loc} {n : Nat} {b : List (Nat × Byte)} {p : Bool} {m : List Nat} (h : Keeps s t) :
    Keeps s (t.writeGran l n b p m) := by
  have hp : Keeps s (t.preWrite l n b) := h.preWrite
  unfold State.writeGran
  cases l with
  | lsp g => exact hp.setCoreWf (fun w => ⟨wf_storeWrite _ _ _ _ _ (hp.coreWf w g).1, (hp.coreWf w g).2⟩)
  | quay d => exact hp.setStore (wf_storeWrite _ _ _ _ _)
  | dmem => exact hp.setStore (l := .dmem) (wf_storeWrite _ _ _ _ _)

theorem Keeps.poisonRange {l : Loc} {a n : Nat} (h : Keeps s t) : Keeps s (t.poisonRange l a n) := by
  refine h.setStore (fun w => ?_)
  have hs := (wf_iff _).1 w
  refine (wf_iff _).2 ⟨hs.1, ?_, hs.2.2⟩
  exact List.foldlRecOn (motive := fun q => rising q = true) _ _ hs.2.1 (fun _ hr _ _ => rising_setAdd _ _ hr)

theorem Keeps.setGran {l : Loc} {n : Nat} {live : List (Nat × Byte)} {p : Bool} {m : List Nat} (h : Keeps s t) :
    Keeps s (t.setGran l n live p m) := by
  have hs : Keeps s (t.setStore l
      { cells := putCells (t.store l).cells live
        poison := if p then setAdd n (t.store l).poison else setDel n (t.store l).poison
        errs := (t.store l).errs.filter (fun x =>
          !(if l ≠ .dmem then touchesWord live x.1 else live.any (fun b => b.1 / 64 = x.1))) }) := by
    refine h.setStore (fun w => ?_)
    obtain ⟨hc, hp, he⟩ := (wf_iff _).1 w
    refine (wf_iff _).2 ⟨smWf_putCells _ _ hc, ?_, smWf_filter _ _ _ he⟩
    show rising (if _ then _ else _) = true
    split
    · exact rising_setAdd _ _ hp
    · exact rising_setDel _ _ hp
  unfold State.setGran
  cases l with
  | lsp g => exact hs.setCore
  | quay | dmem => exact hs

theorem Keeps.noted {op : Option Nat} {w : Writer} {after : Option Nat} {l : Loc} {n : Nat} {p : GranPut}
    {later : List OldGran} (h : Keeps s t) : Keeps s (t.noted u op w after l n p later) := .ite h h.upd

theorem Keeps.orderGran {op : Option Nat} {w : Writer} {after : Option Nat} {l : Loc} {n : Nat} {b : List (Nat × Byte)}
    {p : Bool} {m : List Nat} (h : Keeps s t) : Keeps s (t.orderGran op w after l n b p m) := by
  unfold State.orderGran
  refine .noted ?_
  split
  · exact h.writeGran
  · exact h.preWrite.setGran

theorem Keeps.writeRunAs {op : Option Nat} {w : Writer} {after : Option Nat} {l : Loc} {a : Nat} {bytes : List Byte} {poison : Bool}
    (h : Keeps s t) :
    Keeps s (t.writeRunAs op w after l a bytes poison) :=
  h.foldl (fun _ _ k => k.orderGran)

theorem Keeps.poisonAs {w : Writer} {l : Loc} {a len : Nat} (h : Keeps s t) : Keeps s (t.poisonAs w l a len) :=
  h.poisonRange.foldl (fun _ _ k => k.noted)

theorem Keeps.writePendGran {op : Option Nat} {w : Writer} {l : Loc} {n : Nat} {bs : List PendByte} (h : Keeps s t) :
    Keeps s (t.writePendGran op w l n bs) :=
  h.orderGran

theorem Keeps.writeDesc {op : Option Nat} {w : Writer} {g : Nat} {d : Desc} {bs : List PendByte} (h : Keeps s t) :
    Keeps s (t.writeDesc op w g d bs) := by
  unfold State.writeDesc
  refine h.foldl (fun _ _ k => ?_)
  split
  · exact k.writePendGran
  · exact k

theorem Keeps.writeAs {op : Option Nat} {w : Writer} {g : Nat} {d : Desc} {l : List (List PendByte)} (h : Keeps s t) :
    Keeps s (t.writeAs op w g d l) :=
  h.foldl (fun _ _ k => k.writeDesc)

theorem Keeps.raise {g cause detail : Nat} {pc : Half} {ord : Nat} (h : Keeps s t) : Keeps s (t.raise g cause detail pc ord) :=
  h.setCore

/-! ## The sequencer -/

/-- What an instruction's effect may hold: a core with its memories as they were, or a state that keeps. -/
def SeqRes.Keeps (s t : State) (g : Nat) : SeqRes → Prop
  | .core c | .jump c _ | .stall c _ => c.mems = (t.core g).mems
  | .all u | .halt u => Machine.Keeps s u
  | .fault _ _ => True

theorem Keeps.finish {g len : Nat} {r : SeqRes} (h : Keeps s t) (hr : r.Keeps s t g) : Keeps s (t.finish g len r) := by
  cases r with
  | core c => exact h.setCore ((mems_advance c len).trans hr)
  | all u => exact Keeps.setCore (t := u) hr (mems_advance _ len)
  | jump c pc => exact h.setCore hr
  | fault cause detail => exact h.setCore
  | stall c x => exact h.setCore hr
  | halt u => exact hr

theorem Keeps.issue {g : Nat} {w : Word0} {ok ok1 : Bool} {r : SeqRes} (h : Keeps s t) (hr : r.Keeps s t g) :
    Keeps s (t.issue g w ok ok1 r) := by
  have hf {cause detail : Nat} : Keeps s (t.finish g 0 (.fault cause detail)) := h.finish trivial
  unfold State.issue
  exact .ite h (.ite (h.setCore) (.ite hf (.ite hf (.ite hf (.ite (h.finish rfl) (h.finish hr))))))

theorem Keeps.issue1 {g : Nat} {f : Form} {w : Word0} {ok : Bool} {eff : Core → SeqRes} (h : Keeps s t)
    (hr : (eff (t.core g)).Keeps s t g) : Keeps s (t.issue1 g f w ok eff) := h.issue hr

theorem Keeps.seqRead {g : Nat} {l : Loc} {a n : Nat} {acc : ScalarAccess} {w : Word0} {k : State → Nat → SeqRes}
    (h : Keeps s t) (hk : ∀ u v, Keeps s u → (k u v).Keeps s t g) : (t.seqRead g l a n acc w k).Keeps s t g := by
  unfold State.seqRead
  dsimp only
  split
  · rfl
  · split
    · exact Keeps.setCore (t := t.touch l (a / 64)) h.touch rfl
    · exact hk _ _ h.touch

theorem Keeps.scalarAccess {g : Nat} {acc : ScalarAccess} {w : Word0} (h : Keeps s t) :
    (t.scalarAccess g acc w).Keeps s t g := by
  have hput (u : State) (f : Seq → Seq) (k : Keeps s u) : SeqRes.Keeps s t g (.all (u.setCore g ((u.core g).upd f))) :=
    k.setCore
  have hw (a : Nat) (v : List Byte) : SeqRes.Keeps s t g (.all (t.seqWrite g a v)) := h.orderGran
  unfold State.scalarAccess
  cases acc with
  | load =>
    dsimp only
    split
    · trivial
    · exact h.seqRead (fun u _ k => hput u _ k)
  | dld =>
    dsimp only
    split
    · trivial
    · exact h.seqRead (fun u _ k => hput u _ k)
  | store | dst =>
    dsimp only
    split
    · trivial
    · split
      · rfl
      · exact hw _ _

theorem Keeps.access {g : Nat} {w : Word0} {acc : ScalarAccess} (h : Keeps s t) : Keeps s (t.access g w acc) :=
  h.issue h.scalarAccess

theorem keeps_engineIssue (g : Nat) (i : EngineIssue) : (t.engineIssue g i).Keeps s t g := by
  unfold State.engineIssue
  dsimp only
  split
  · rfl
  · split
    · trivial
    · split
      · rfl
      · exact mems_enqueue _ i

theorem Keeps.issueEngine {g : Nat} {ok : Bool} {i : EngineIssue} (h : Keeps s t) : Keeps s (t.issueEngine g ok i) :=
  h.issue (keeps_engineIssue g i)

theorem Keeps.reissue {g : Nat} {i : EngineIssue} (h : Keeps s t) : Keeps s (t.reissue g i) :=
  Keeps.finish (t := t.setCore g ((t.core g).withCond .running)) (h.setCore) (keeps_engineIssue g i)

theorem Keeps.settleMarks {g : Nat} (h : Keeps s t) : Keeps s (t.settleMarks g) :=
  .ite (h.setCoreWf fun w => memWf_poisonMarked (h.coreWf w g)) h

theorem Keeps.waitEng {g : Nat} {w : Word0} {e : Eng} (h : Keeps s t) : Keeps s (t.waitEng g w e) := by
  refine h.issue1 ?_
  dsimp only
  split
  · trivial
  · split
    · exact h.upd
    · rfl

theorem Keeps.waitOutEng {g : Nat} {w : Word0} {e : Eng} (h : Keeps s t) : Keeps s (t.waitOutEng g w e) := by
  refine h.issue1 ?_
  dsimp only
  split
  · trivial
  · split
    · exact h.upd
    · rfl

theorem Keeps.waitEnds {g : Nat} {x2 : SeqCond} (h : Keeps s t) : Keeps s (t.waitEnds g x2) := by
  unfold State.waitEnds
  split
  · exact h.upd
  · exact h.upd
  · exact h.upd
  · exact h

theorem keeps_recordIncrement (g : Nat) (v : Half) (n : Word32) : (recordIncrement (t.core g) v n).Keeps s t g := by
  unfold recordIncrement
  dsimp only
  split
  · rfl
  · split
    · trivial
    · rfl

theorem keeps_branchTo {g : Nat} {c : Core} (hc : c.mems = (t.core g).mems) (a : Option Nat) :
    (branchTo c a).Keeps s t g := by
  cases a with
  | none => trivial
  | some x => exact hc

end

end Sys2Proof.Machine
end

/-!
PROOFS. What no command undoes: the matrix engine, the links' sending, and the ferry engine.
-/
section
namespace Sys2Proof.Machine

set_option Elab.async false

section
variable {s t u : State}

/-! ## The matrix engine -/

theorem Keeps.setMat {g : Nat} {m : Mat} (h : Keeps s t) : Keeps s (t.setMat g m) := h.setCore

theorem Keeps.matFault {g : Nat} {c : MCmd} {code : Nat} (h : Keeps s t) : Keeps s (t.matFault g c code) := h.raise

theorem Keeps.matBegin {g : Nat} (h : Keeps s t) : Keeps s (t.matBegin g) := by
  unfold State.matBegin
  dsimp only
  split
  · exact h
  · split
    · exact h
    · split
      · exact .ite h.setMat.setCore h.setMat.setMat
      · split
        · exact h.setMat.matFault
        · exact h.setMat.touchDesc.setMat
      · split
        · exact h.setMat.matFault
        · split
          · exact h.setMat.setCore
          · exact h.setMat

theorem Keeps.streamRow {g : Nat} {x : MExec} {o : MTileOp} {lost : Bool} (h : Keeps s t) :
    Keeps s (t.streamRow g x o lost).1 := by
  unfold State.streamRow
  refine Keeps.setCore (.ite ?_ (.touchDesc ?_))
  all_goals exact .ite h.touchDesc h.touchDesc.touchDesc

theorem Keeps.drainGran {g : Nat} {x : MExec} {n : Nat} (h : Keeps s t) : Keeps s (t.drainGran g x n) :=
  .ite h.setMat (.ite h h.writePendGran.setMat)

theorem Keeps.drainLoop {g : Nat} {o : MTileOp} {k : Nat} {x : MExec} (h : Keeps s t) :
    Keeps s (drainLoop g o k t x) := by
  induction k generalizing t x with
  | zero => exact h
  | succ k ih =>
    unfold Machine.drainLoop
    split
    · exact h.drainGran
    · split
      · exact h
      · split
        · exact h.setMat
        · exact ih h.streamRow

theorem Keeps.streamRows {g : Nat} {o : MTileOp} {bad : Bool} {k : Nat} {x : MExec} (h : Keeps s t) :
    Keeps s (streamRows g o bad k t x).1 := by
  induction k generalizing t x with
  | zero => exact h
  | succ k ih => exact ih h.streamRow

theorem Keeps.j3Record {g : Nat} {x : MExec} {outcome : Nat} {quadrant : Lane4} (h : Keeps s t) :
    Keeps s (t.j3Record g x outcome quadrant) :=
  h.upd.logRec

theorem Keeps.j3Outcome {g : Nat} {x : MExec} {j : Repetition} (h : Keeps s t) : Keeps s (t.j3Outcome g x j) := by
  unfold State.j3Outcome
  split
  · exact h
  · exact h.j3Record
  · exact h.j3Record.raise.setCore.fenceCore

theorem Keeps.drainJ3 {g : Nat} {x2 : MTileOp} {x : MExec} {j : Repetition} (h : Keeps s t) : Keeps s (t.drainJ3 g x2 x j) := by
  unfold State.drainJ3
  split
  · exact h.drainGran
  · split
    · exact h
    · split
      · exact h.setMat
      · dsimp only
        split
        · exact h.streamRows.j3Outcome.drainGran
        · exact h.streamRows.j3Outcome

theorem Keeps.matDrain {g : Nat} {n : Word32} {j : Repetition} (h : Keeps s t) : Keeps s (t.matDrain g n j) := by
  unfold State.matDrain
  dsimp only
  split
  · split
    · split
      · exact h
      · split
        · split
          · exact h.drainGran
          · exact h
        · exact .ite h (.ite h.drainJ3 h.drainLoop)
    · exact h
  · exact h

theorem Keeps.completeTile {g : Nat} {x : MExec} (h : Keeps s t) : Keeps s (t.completeTile g x) := by
  have hc (c : Core) (e : c.mems = (t.core g).mems) : Keeps s (t.setCore g (c.settleEntry x.dlog)) :=
    h.setCore ((mems_settleEntry c _).trans e)
  unfold State.completeTile
  refine .ite (.raise (hc _ ?_)) (hc _ ?_)
  all_goals rfl

theorem Keeps.completeLoad {g : Nat} {k : MCmd} {b : Bool} (h : Keeps s t) : Keeps s (t.completeLoad g k b) := by
  unfold State.completeLoad
  exact .ite h.setCore.raise h.setCore

theorem Keeps.completeMode {g : Nat} {k : MCmd} (h : Keeps s t) : Keeps s (t.completeMode g k) := h.setCore

theorem Keeps.matComplete {g : Nat} {n : Word32} (h : Keeps s t) : Keeps s (t.matComplete g n) := by
  unfold State.matComplete
  dsimp only
  split
  · split
    · exact .ite h.completeTile h
    · exact h
  · exact .ite h h.completeLoad
  · exact .ite h.completeMode h
  · exact h

theorem Keeps.matResume {g : Nat} {n : Word32} (h : Keeps s t) : Keeps s (t.matResume g n) := by
  unfold State.matResume
  dsimp only
  split
  · split
    · exact .ite h.setMat h
    · exact h
  · exact h

/-! ## The network -/

theorem Keeps.setLink {p : Port} {l : LinkId} {x : Link} (h : Keeps s t) : Keeps s (t.setLink p l x) := by
  unfold State.setLink
  split
  · exact h.upd
  · exact h.upd

theorem Keeps.emit {o : Out} (h : Keeps s t) : Keeps s (t.emit o) := h.upd

theorem Keeps.setPort {p : Port} {x : PortSt} (h : Keeps s t) : Keeps s (t.setPort p x) := h.upd

theorem Keeps.frameOut {p : Port} {l : LinkId} {ts : List OutTxn} (h : Keeps s t) : Keeps s (t.frameOut p l ts) := h.setLink.upd

theorem Keeps.creditBack {p : Port} {l : LinkId} {c n : Nat} (h : Keeps s t) : Keeps s (t.creditBack p l c n) :=
  .ite h.setLink h.setLink

theorem Keeps.keepFlits {p : Port} {l : LinkId} {c n : Nat} (h : Keeps s t) : Keeps s (t.keepFlits p l c n) := h.setLink

theorem Keeps.freeFlits {p : Port} {l : LinkId} {c n : Nat} (h : Keeps s t) : Keeps s (t.freeFlits p l c n) :=
  h.setLink.creditBack

theorem Keeps.leaveBuffer {x1 : OutTxn} (h : Keeps s t) : Keeps s (t.leaveBuffer x1) := by
  unfold State.leaveBuffer
  split
  · exact h
  · exact h.freeFlits

theorem Keeps.takeTxn {p : Port} {l : LinkId} {x : OutTxn} (h : Keeps s t) : Keeps s (t.takeTxn p l x).1 := h.setPort.setLink

theorem Keeps.loadFrame {p : Port} {l : LinkId} {k room : Nat} {ts : List OutTxn} (h : Keeps s t) :
    Keeps s (t.loadFrame p l k room ts).1 := by
  induction k generalizing t room ts with
  | zero => exact h
  | succ k ih =>
    unfold State.loadFrame
    split
    · exact h
    · dsimp only
      split
      · exact ih h.takeTxn
      · exact h

theorem Keeps.pumpLink {p : Port} {l : LinkId} {k : Nat} (h : Keeps s t) : Keeps s (State.pumpLink p l k t) := by
  induction k generalizing t with
  | zero => exact h
  | succ k ih =>
    unfold State.pumpLink
    split
    · exact h
    · split
      · split
        · exact ih h.setPort.setLink.frameOut
        · exact h
      · have hf : Keeps s (t.loadFrame p l frameFlits frameFlits []).1 := h.loadFrame
        split
        · exact h
        · next hs =>
          rw [hs] at hf
          exact ih (hf.frameOut.foldl (fun _ _ k => k.leaveBuffer))

theorem Keeps.flushOwed {p : Port} {l : LinkId} (h : Keeps s t) : Keeps s (t.flushOwed p l) := .ite h.frameOut h

theorem Keeps.holdBack {p : Port} (h : Keeps s t) : Keeps s (t.holdBack p) := h.setPort.foldl (fun _ _ k => k.upd)

theorem Keeps.pumpPort {p : Port} (h : Keeps s t) : Keeps s (t.pumpPort p) := h.holdBack.pumpLink.pumpLink

theorem Keeps.pump (h : Keeps s t) : Keeps s t.pump :=
  (h.foldl (fun _ _ k => k.pumpPort)).foldl (fun _ _ k => k.flushOwed.flushOwed)

theorem Keeps.postTill {p : Port} {kind : Byte} {x : Txn} {via : Option (Port × LinkId)} {till : Option Nat} (h : Keeps s t) :
    Keeps s (t.postTill p kind x via till) :=
  h.setPort

theorem Keeps.post {p : Port} {kind : Byte} {x : Txn} {via : Option (Port × LinkId)} (h : Keeps s t) :
    Keeps s (t.post p kind x via) :=
  h.postTill

theorem Keeps.of_sendTxn {kind : Byte} {x : Txn} (h : Keeps s t) (e : t.sendTxn kind x = some u) : Keeps s u := by
  unfold State.sendTxn at e
  split at e
  · obtain rfl := Option.some.inj e
    exact h.post.pump
  · cases e

theorem Keeps.sendAnswer {kind : Byte} {x : Txn} (h : Keeps s t) : Keeps s (t.sendAnswer kind x) := by
  unfold State.sendAnswer
  split
  · next e => exact h.of_sendTxn e
  · exact h.upd

theorem Keeps.passOn {p : Port} {l : LinkId} {kind : Byte} {x : Txn} (h : Keeps s t) : Keeps s (t.passOn p l kind x) := by
  unfold State.passOn
  dsimp only
  split
  · exact h.keepFlits.post
  · exact .ite h.creditBack.upd h.creditBack.sendAnswer

theorem Keeps.snoop {line : Nat} {data : Bool} {why : Snoop} (h : Keeps s t) : Keeps s (t.snoop line data why) := h.upd.emit

theorem Keeps.askInv {lines : List Nat} (h : Keeps s t) : Keeps s (t.askInv lines) := h.foldl (fun _ _ k => .ite k k.snoop)

theorem Keeps.usedInv {lines : List Nat} (h : Keeps s t) : Keeps s (t.usedInv lines) := h.upd

/-! ## The ferry engine -/

theorem Keeps.setFer {g : Nat} {f : Fer} (h : Keeps s t) : Keeps s (t.setFer g f) := h.setCore

theorem Keeps.copyReport {id : Nat} {fail : Option Nat} {flags : BitVec 5} (h : Keeps s t) :
    Keeps s (t.copyReport id fail flags) :=
  h.upd

theorem Keeps.putChan {g : Nat} {x : FExec} (h : Keeps s t) : Keeps s (t.putChan g x) := h.setFer

theorem Keeps.ferSettle {g : Nat} {x : FExec} {code : Nat} (h : Keeps s t) : Keeps s (t.ferSettle g x code) := by
  unfold State.ferSettle
  split
  · dsimp only
    split
    · exact h.setFer.settleMarks.copyReport
    · exact h.setFer.settleMarks
  · exact h.putChan

theorem Keeps.ferFail {g : Nat} {x : FExec} {cause code : Nat} (h : Keeps s t) : Keeps s (t.ferFail g x cause code) := by
  unfold State.ferFail
  split
  · exact h.ferSettle
  · dsimp only
    split
    · exact h.ferSettle
    · exact h.ferSettle.raise

theorem Keeps.of_sendRemote {g : Nat} {ch : Channel} {kind : Byte} {x : Txn} (h : Keeps s t)
    (e : t.sendRemote g ch kind x = some u) : Keeps s u := by
  unfold State.sendRemote at e
  exact Keeps.of_sendTxn h.upd e

theorem Keeps.askPeer {g : Nat} {l : List Nat} {x : FExec} (h : Keeps s t) : Keeps s (askPeer g l t x) := by
  induction l generalizing t x with
  | nil => exact h.putChan
  | cons n l ih =>
    unfold Machine.askPeer
    dsimp only
    split
    · next e => exact ih (h.of_sendRemote e)
    · exact h.ferFail

theorem Keeps.askHost {l : List Nat} (h : Keeps s t) : Keeps s (t.askHost l) := h.foldl (fun _ _ k => k.emit)

theorem Keeps.startFer {g : Nat} {c : FCmd} {copyOf : Option Nat} (h : Keeps s t) : Keeps s (t.startFer g c copyOf) :=
  .ite h.askPeer (.ite h.askHost.putChan h.putChan)

theorem Keeps.ferBegin {g : Nat} (h : Keeps s t) : Keeps s (t.ferBegin g) := by
  unfold State.ferBegin
  dsimp only
  split
  · exact h
  · split
    · exact h
    · split
      · exact h.setFer.raise
      · exact h.setFer.startFer

theorem Keeps.sendRuns {g : Nat} {l : List (Nat × List Byte × Bool)} {x : FExec} (h : Keeps s t) :
    Keeps s (sendRuns g l t x) := by
  induction l generalizing t x with
  | nil => exact h.putChan
  | cons r l ih =>
    unfold Machine.sendRuns
    dsimp only
    split
    · next e => exact ih ((h.of_sendRemote e).setCore)
    · exact h.ferFail

theorem Keeps.hostRuns {g : Nat} {x : FExec} {l : List (Nat × List Byte × Bool)} (h : Keeps s t) :
    Keeps s (t.hostRuns g x l) := (h.foldl (fun _ _ k => k.emit)).emit.putChan

theorem Keeps.ferNote {g : Nat} {x : FExec} {p : Plan} {flags : BitVec 5} {n : Nat} (h : Keeps s t) :
    Keeps s (t.ferNote g x p flags n) := by
  unfold State.ferNote
  dsimp only
  split
  · exact h.setCore
  · exact h.setCore

theorem Keeps.ferFinish {g : Nat} {x : FExec} (h : Keeps s t) : Keeps s (t.ferFinish g x) := by
  unfold State.ferFinish
  split
  · exact h.setFer.copyReport
  · exact (Keeps.ite h.setCore.raise h.setCore).settleMarks

theorem Keeps.ferPerform {g : Nat} {x : FExec} {p : Plan} {done : State → FExec → State} (h : Keeps s t)
    (hd : ∀ u y, Keeps s u → Keeps s (done u y)) : Keeps s (t.ferPerform g x p done) := by
  have ht := h.foldl (f := fun t (y : Loc × Nat) => t.touch y.1 y.2) (l := t.ferTouched g x.cmd p) (fun _ _ k => k.touch)
  unfold State.ferPerform
  dsimp only
  split
  · exact h.ferFail
  · split
    · exact h
    · split
      · exact h.askInv
      · split
        · exact ht.ferNote.sendRuns
        · split
          · exact ht.ferNote.hostRuns
          · exact hd _ _ ht.ferNote.writeAs.upd

theorem Keeps.idxTouch {g : Nat} {x : FExec} (h : Keeps s t) : Keeps s (t.idxTouch g x) := .ite h.touchDesc h

theorem Keeps.ferComplete {g : Nat} {ch : Channel} (h : Keeps s t) : Keeps s (t.ferComplete g ch) := by
  unfold State.ferComplete
  split
  · exact h
  · split
    · exact .ite h (h.idxTouch.ferPerform (fun _ _ k => k.ferFinish))
    · exact .ite h.ferFinish h
    · exact h

theorem Keeps.ferIndexFault {g : Nat} {ch : Channel} (h : Keeps s t) : Keeps s (t.ferIndexFault g ch) := by
  unfold State.ferIndexFault
  split
  · exact h
  · dsimp only
    split
    · exact h.idxTouch.ferPerform (fun _ _ k => .ite k.setFer.ferFail k.setFer.ferFail)
    · exact h

end

end Sys2Proof.Machine
end

/-!
PROOFS. What no command undoes: the dispatcher, collectives, verdicts, arbitration and reports.
-/
section
namespace Sys2Proof.Machine

set_option Elab.async false

section
variable {s t u : State}

/-! ## The dispatcher -/

theorem Keeps.sendTxn_getD {kind : Byte} {x : Txn} (h : Keeps s t) : Keeps s ((t.sendTxn kind x).getD t) := by
  cases e : t.sendTxn kind x with
  | none => exact h
  | some u => exact h.of_sendTxn e

theorem Keeps.updOp {id : Nat} {f : Op → Op} (h : Keeps s t) : Keeps s (t.updOp id f) := h.upd

theorem Keeps.addOp {o : Op} (h : Keeps s t) : Keeps s (t.addOp o) := h.upd

theorem Keeps.setQueue {n : Nat} {q : Queue} (h : Keeps s t) : Keeps s (t.setQueue n q) := h.upd

theorem Keeps.setEng {e : Fin 2} {x : ColEng} (h : Keeps s t) : Keeps s (t.setEng e x) := h.upd

theorem Keeps.setColl {e : EngineId} {c : Coll} (h : Keeps s t) : Keeps s (t.setColl e c) := h.setEng

theorem Keeps.endReads {op : Nat} (h : Keeps s t) : Keeps s (t.endReads op) := h.upd

theorem Keeps.addTicket {x1 : Nat} {v : Word32} (h : Keeps s t) : Keeps s (t.addTicket x1 v) := h.upd

theorem Keeps.latch (h : Keeps s t) : Keeps s t.latch := (h.foldl (fun _ _ k => k.touchBlock)).upd

theorem Keeps.increment {n : Nat} {v : Word32} (h : Keeps s t) : Keeps s (t.increment n v) := h.latch.addTicket.latch

theorem Keeps.takeHead {q : Nat} (h : Keeps s t) : Keeps s (t.takeHead q) := h.upd.latch

theorem Keeps.raiseMsix {v : Nat} (h : Keeps s t) : Keeps s (t.raiseMsix v) := .ite h.upd h.upd

theorem Keeps.recordDone {q seq : Nat} {irq : Bool} (h : Keeps s t) : Keeps s (t.recordDone q seq irq) :=
  .ite h.upd.setQueue.raiseMsix h.upd.setQueue

theorem Keeps.ledgerFlag {kind : Nat} {terms : List Byte} (h : Keeps s t) : Keeps s (t.ledgerFlag kind terms) :=
  h.upd.logRec

theorem Keeps.dropOp {o : Op} (h : Keeps s t) : Keeps s (t.dropOp o) := ((Keeps.ite h h.ledgerFlag).upd).endReads

theorem Keeps.poisonRegion {op : Nat} {set : List Nat} {r : Region} (h : Keeps s t) :
    Keeps s (State.poisonRegion op set t r) := by
  unfold State.poisonRegion
  split
  · exact h
  · split
    · exact h.foldl (fun _ _ k => k.poisonAs)
    · exact h.poisonAs
    · exact h.poisonAs
    · exact h.emit
    · exact h

theorem Keeps.logWithdrawn {dst : Coord} {m : Word32} {x3 : Half} {v : Word32} (h : Keeps s t) :
    Keeps s (t.logWithdrawn dst m x3 v) :=
  h.logRec

theorem Keeps.sendTicket {x : XSig} (h : Keeps s t) : Keeps s (t.sendTicket x) := h.sendTxn_getD

theorem Keeps.signal {id : Nat} {sg : Sig} (h : Keeps s t) : Keeps s (t.signal id sg) :=
  .ite h.increment.updOp h.upd.sendTicket

theorem Keeps.withdraw {id : Nat} {sg : Sig} (h : Keeps s t) : Keeps s (t.withdraw id sg) := h.updOp.logWithdrawn

theorem Keeps.settle {o : Op} (h : Keeps s t) : Keeps s (t.settle o) :=
  (Keeps.ite ((h.foldl (fun _ _ k => k.increment)).updOp) ((h.foldl (fun _ _ k => k.poisonRegion)).updOp)).updOp

theorem Keeps.takeSignals {id : Nat} {done : Bool} {l : List Sig} (h : Keeps s t) : Keeps s (takeSignals id done l t) := by
  induction l generalizing t with
  | nil => exact h
  | cons x l ih => exact .ite h (ih (.ite h.signal h.withdraw))

theorem Keeps.putRecord {o : Op} (h : Keeps s t) : Keeps s (t.putRecord o) :=
  .ite (.ite h h.dropOp.emit.recordDone) (.ite h (.ite h.dropOp.snoop h.dropOp.writeRunAs.recordDone))

theorem Keeps.readUnlaunched {o : Op} (h : Keeps s t) : Keeps s (t.readUnlaunched o) := by
  unfold State.readUnlaunched
  dsimp only
  split
  · exact h
  · split
    · exact h.touchBlock.updOp
    · exact h.touchBlock.updOp

theorem Keeps.endRead {id : Nat} (h : Keeps s t) : Keeps s (t.endRead id) := by
  unfold State.endRead
  split
  · exact h
  · split
    · exact h
    · split
      · exact h
      · split
        · exact h.askInv
        · dsimp only
          split
          · split
            · exact h.takeSignals
            · split
              · exact h.takeSignals.putRecord
              · exact h.takeSignals
          · split
            · exact h.settle.usedInv.takeSignals
            · split
              · exact h.settle.usedInv.takeSignals.putRecord
              · exact h.settle.usedInv.takeSignals

theorem Keeps.endOp {id : Nat} (h : Keeps s t) : Keeps s (t.endOp id) := by
  unfold State.endOp
  split
  · exact h
  · exact h.readUnlaunched.endRead

theorem Keeps.judgeLedgers (h : Keeps s t) : Keeps s t.judgeLedgers :=
  .ite (.ite h.upd h.upd.ledgerFlag) ((Keeps.ite h.upd h.upd.ledgerFlag).ledgerFlag)

theorem Keeps.endUnlaunched {q : Nat} {c : QCmd} {cause info : Nat} (h : Keeps s t) :
    Keeps s (t.endUnlaunched q c cause info) := by
  unfold State.endUnlaunched
  dsimp only
  split
  · exact h.addOp.endOp
  · exact (Keeps.ite h.addOp.withdraw h.addOp).endOp

theorem Keeps.haltQueue {q k : Nat} (h : Keeps s t) : Keeps s (haltQueue q k t) := by
  induction k generalizing t with
  | zero => exact h
  | succ k ih =>
    unfold Machine.haltQueue
    split
    · exact h
    · exact ih (.ite h.takeHead.endUnlaunched.judgeLedgers h.takeHead.endUnlaunched)

theorem Keeps.ledgerHalt (h : Keeps s t) : Keeps s t.ledgerHalt := .ite (h.foldl (fun _ _ k => k.haltQueue)) h

theorem Keeps.ledgerFault {kind : Nat} {terms : List Byte} (h : Keeps s t) : Keeps s (t.ledgerFault kind terms) :=
  h.ledgerFlag.ledgerHalt

theorem Keeps.checkLedgers (h : Keeps s t) : Keeps s t.checkLedgers := h.judgeLedgers.ledgerHalt

theorem Keeps.checkEnd {q : Nat} (h : Keeps s t) : Keeps s (t.checkEnd u q) := .ite h.checkLedgers h

theorem Keeps.endOpCheck {id q : Nat} (h : Keeps s t) : Keeps s (t.endOpCheck id q) := h.endOp.checkEnd

theorem Keeps.endUnlaunchedCheck {q : Nat} {c : QCmd} {cause info : Nat} (h : Keeps s t) :
    Keeps s (t.endUnlaunchedCheck q c cause info) :=
  h.endUnlaunched.checkEnd

/-! ## Collectives -/

theorem Keeps.catchUp {e : EngineId} (h : Keeps s t) : Keeps s (t.catchUp e) := (h.foldl (fun _ _ k => k.holdBack)).setEng

theorem Keeps.releaseHeld {l : List RxBlk} (h : Keeps s t) : Keeps s (t.releaseHeld l) := by
  unfold State.releaseHeld
  refine h.foldl (fun _ _ k => ?_)
  split
  · exact k.setLink.creditBack
  · exact k

theorem Keeps.collReport {e : EngineId} (h : Keeps s t) : Keeps s (t.collReport e) := by
  unfold State.collReport
  split
  · exact h
  · exact h.setEng.releaseHeld.updOp.pump

theorem Keeps.collStopped {e : EngineId} (h : Keeps s t) : Keeps s (t.collStopped e) := by
  unfold State.collStopped
  split
  · exact .ite h.collReport h
  · exact h

theorem Keeps.collHalt {e : EngineId} (h : Keeps s t) : Keeps s (t.collHalt e) := by
  unfold State.collHalt
  split
  · exact h
  · exact .ite h (h.upd.foldl (fun _ _ k => k.sendTxn_getD)).collStopped

theorem Keeps.collFail {e : EngineId} {code step : Nat} (h : Keeps s t) : Keeps s (t.collFail e code step) := by
  unfold State.collFail
  split
  · exact h
  · exact .ite h h.catchUp.setEng.updOp.collHalt

theorem Keeps.announceAll {e : EngineId} {c : Coll} {l : List Nat} (h : Keeps s t) : Keeps s (announceAll e c l t) := by
  induction l generalizing t with
  | nil => exact h
  | cons p l ih =>
    unfold Machine.announceAll
    split
    · next e => exact ih (h.of_sendTxn e)
    · exact h.collFail

theorem Keeps.startColl {e : EngineId} {op : Nat} {b : List Byte} {pos : Nat} (h : Keeps s t) :
    Keeps s (t.startColl e op b pos) :=
  h.upd.setEng.catchUp.announceAll

theorem Keeps.sendBlock {e : EngineId} {p : Port} {c : Coll} {k : Nat} {st : Step} {b till : Nat} (h : Keeps s t) :
    Keeps s (t.sendBlock e p c k st b till).1 := h.touchAll.postTill.setColl

theorem Keeps.sendDue {e : EngineId} {p : Port} {cap till : Nat} {l : List (Nat × Step × Nat)} {c : Coll} {used missed : Nat}
    (h : Keeps s t) : Keeps s (sendDue e p cap till l t c used missed).1 := by
  induction l generalizing t c used missed with
  | nil => exact h
  | cons x l ih =>
    obtain ⟨k, st, b⟩ := x
    unfold Machine.sendDue
    dsimp only
    split
    · exact ih h.sendBlock
    · exact ih h

theorem Keeps.depart {e : EngineId} {p : Port} {sail : Nat} (h : Keeps s t) : Keeps s (t.depart e p sail) := by
  unfold State.depart
  split
  · exact h
  · exact .ite h (.ite h.collFail h.setColl.sendDue.setEng.setPort.pump)

theorem Keeps.exhaust {e : EngineId} {k : Nat} (h : Keeps s t) : Keeps s (t.exhaust e k) :=
  .ite h.collFail (.ite h.catchUp.collFail h.catchUp)

theorem Keeps.stray {id : Word32} (h : Keeps s t) : Keeps s (t.stray id) := h.setEng

theorem Keeps.exhaustSends {e : EngineId} (h : Keeps s t) : Keeps s (t.exhaustSends e) := by
  unfold State.exhaustSends
  split
  · exact h
  · split
    · exact h.exhaust
    · exact h

theorem Keeps.takeBlock {x : Txn} {via : Port × LinkId} (h : Keeps s t) : Keeps s (t.takeBlock x via).1 := by
  unfold State.takeBlock
  split
  · exact h.upd
  · split
    · exact h
    · split
      · exact h
      · exact h.upd

theorem Keeps.letIn {e : EngineId} (h : Keeps s t) : Keeps s (t.letIn e) := by
  unfold State.letIn
  split
  · exact h
  · exact h.setEng.releaseHeld

theorem Keeps.takeAnnouncement {x : Txn} (h : Keeps s t) : Keeps s (t.takeAnnouncement x) := by
  unfold State.takeAnnouncement
  split
  · split
    · split
      · exact h.setColl
      · exact h
    · exact h
  · exact h.upd

theorem Keeps.takeAbort {x : Txn} (h : Keeps s t) : Keeps s (t.takeAbort x) := by
  unfold State.takeAbort
  split
  · exact h.collFail
  · exact h.stray

theorem Keeps.collAdd {e : EngineId} {b : Nat} (h : Keeps s t) : Keeps s (t.collAdd e b) := by
  unfold State.collAdd
  split
  · exact h
  · split
    · exact h
    · dsimp only
      split
      · exact h.collFail
      · exact .ite h (.ite h.askInv h.touchAll.writeRunAs.usedInv.setEng.letIn.pump)

theorem Keeps.convertBlock {e : EngineId} {b : Nat} (h : Keeps s t) : Keeps s (t.convertBlock e b) := by
  unfold State.convertBlock
  split
  · exact h
  · exact h.touchAll.setEng

theorem Keeps.convertShard {e : EngineId} {c : Coll} (h : Keeps s t) : Keeps s (t.convertShard e c) :=
  h.setColl.foldl (fun _ _ k => k.convertBlock)

theorem Keeps.writeShard {e : EngineId} {c : Coll} (h : Keeps s t) : Keeps s (t.writeShard e c) :=
  h.foldl (fun _ _ k => k.writeRunAs)

theorem Keeps.collOutput {e : EngineId} (h : Keeps s t) : Keeps s (t.collOutput e) := by
  unfold State.collOutput
  split
  · exact h
  · exact .ite h (.ite (.ite h.convertShard h.collFail) (.ite h (.ite h.askInv
      (.ite h.writeShard.usedInv.collFail h.writeShard.usedInv.updOp.collReport))))

/-! ## Verdicts, arbitration and reports -/

theorem Keeps.releaseLoad {g id : Nat} (h : Keeps s t) : Keeps s (t.releaseLoad g id) := by
  unfold State.releaseLoad
  dsimp only
  split
  · exact .ite h.setCore h
  · exact .ite h.setCore h
  · exact h

theorem Keeps.failCheck {g : Nat} {k : Check} {n : Lane4} (h : Keeps s t) : Keeps s (t.failCheck g k n) :=
  h.setCore.releaseLoad.healthInc.setInt.raise.settleMarks

theorem Keeps.failColl {e : EngineId} {k : CollChk} (h : Keeps s t) : Keeps s (t.failColl e k) := by
  unfold State.failColl
  split
  · exact h
  · exact h.setColl.setEng.healthInc.setInt.collFail.collStopped

theorem Keeps.clearOld {g id : Nat} (h : Keeps s t) : Keeps s (t.clearOld g id) := h.upd

theorem Keeps.coreVerdict {g id : Nat} {bad : Option Lane4} (h : Keeps s t) : Keeps s (t.coreVerdict g id bad) := by
  have hc (c : Core) (k : Check) (e : c.mems = (t.core g).mems := by rfl) :
      (if k.eng = .matrix then c.settleEntry k.dlog else c).mems = (t.core g).mems := by
    split
    · exact (mems_settleEntry c _).trans e
    · exact e
  unfold State.coreVerdict
  split
  · exact h
  · split
    · exact h
    · split
      · exact h.failCheck
      · exact (h.setCore (hc _ _)).clearOld

theorem Keeps.collVerdict {e : EngineId} {id : Nat} {bad : Bool} (h : Keeps s t) : Keeps s (t.collVerdict e id bad) := by
  unfold State.collVerdict
  split
  · exact .ite h (.ite h.failColl h.setColl.collStopped)
  · exact h

theorem Keeps.countLate {die : Nat} (h : Keeps s t) : Keeps s (t.countLate die) := h.upd.healthInc

theorem Keeps.lateVerdict {u : Checker} {id : Nat} (h : Keeps s t) : Keeps s (t.lateVerdict u id) := by
  unfold State.lateVerdict
  split
  · split
    · exact .ite h.upd.countLate.failCheck h
    · exact h
  · split
    · exact .ite h.countLate.failColl h
    · exact h

theorem Keeps.chargeUnit {u : FaultUnit} {n : Nat} (h : Keeps s t) : Keeps s (t.chargeUnit u n) := .ite h h.upd

theorem Keeps.countOutcome {o : ArbOutcome} {die : Nat} (h : Keeps s t) : Keeps s (t.countOutcome o die) := by
  cases o <;> exact h.setInt.healthInc

theorem Keeps.fenceUnit {u : FaultUnit} (h : Keeps s t) : Keeps s (t.fenceUnit u) := by
  unfold State.fenceUnit
  split
  · exact h.fenceCore
  · exact h.fenceCore
  · exact h.fenceCore
  · exact h.fenceAdder
  · exact h.foldl (fun _ _ k => k.fenceAdder)

theorem Keeps.freeRetained {a : Arb} (h : Keeps s t) : Keeps s (t.freeRetained a) := by
  unfold State.freeRetained
  split
  · exact h.setCore
  · exact h.setEng

theorem Keeps.arbEnd {a : Arb} {o : ArbOutcome} {rdiff pweq pres wres : Bool} (h : Keeps s t) :
    Keeps s (t.arbEnd a o rdiff pweq pres wres) := by
  unfold State.arbEnd
  dsimp only
  split
  · refine Keeps.foldl (.suspectCore (.ite (.fenceUnit ?_) ?_)) (fun _ _ k => k.suspectCore)
    all_goals exact h.countOutcome.freeRetained.setInt.chargeUnit.setInt.logRec
  · refine Keeps.foldl (.suspectCore (.ite (.fenceUnit ?_) ?_)) (fun _ _ k => k.suspectCore)
    all_goals exact h.countOutcome.freeRetained.setInt.chargeUnit.setInt.logRec
  · refine .ite (.fenceUnit ?_) ?_
    all_goals exact h.countOutcome.freeRetained.setInt.chargeUnit.setInt.logRec

theorem Keeps.arbReplay {u : Checker} {rdiff pres : Bool} (h : Keeps s t) : Keeps s (t.arbReplay u rdiff pres) := by
  unfold State.arbReplay
  split
  · exact h
  · exact .ite h h.upd

theorem Keeps.arbWitness {u : Checker} {pweq wres : Bool} (h : Keeps s t) : Keeps s (t.arbWitness u pweq wres) := by
  unfold State.arbWitness
  split
  · exact h
  · split
    · exact h
    · split
      · exact .ite h.arbEnd h
      · exact .ite h.arbEnd h.arbEnd
      · exact h.arbEnd

theorem Keeps.stopCancelled {g : Nat} (h : Keeps s t) : Keeps s (t.stopCancelled g) := by
  unfold State.stopCancelled
  dsimp only
  split
  · exact h
  · exact h
  · exact h.setCore
  · exact h

theorem Keeps.cancelCores {o : Op} (h : Keeps s t) : Keeps s (t.cancelCores o) := h.foldl (fun _ _ k => .ite k.setCore k)

theorem Keeps.coreReport {g : Nat} (h : Keeps s t) : Keeps s (t.coreReport g) := by
  have hm {c : Core} (e : c.mems = (t.core g).poisonMarked.mems := by rfl) : Keeps s (t.setCore g c) :=
    h.setCoreWf (fun w => Core.memWf_congr (memWf_poisonMarked (h.coreWf w g)) e)
  unfold State.coreReport
  dsimp only
  split
  · exact h
  · split
    · exact h
    · split
      · exact .ite (Keeps.updOp hm).cancelCores (.updOp hm)
      · exact .updOp hm

end

end Sys2Proof.Machine
end

/-!
PROOFS. What no command undoes: queues, kernels, the timetable, the installation record and the links' training.
-/
section
namespace Sys2Proof.Machine

set_option Elab.async false

section
variable {s t u : State}

/-! ## Registers, queues and kernels -/

theorem Keeps.hrwErr {off reason : Nat} (h : Keeps s t) : Keeps s (t.hrwErr off reason) := .ite h.upd h.upd

/-- What a register's write does, it does only when nothing refuses it. -/
theorem Keeps.regWriteIf {off v rsv : Nat} {bad : Option Nat} {f : State → State} (h : Keeps s t)
    (hf : bad = none → Keeps s (f t)) : Keeps s (t.regWrite off v rsv bad f) := by
  unfold State.regWrite
  refine .ite h (.ite h.hrwErr (.ite h.hrwErr (.ite h.hrwErr ?_)))
  split
  · exact h.hrwErr
  · exact hf rfl

theorem Keeps.regWrite {off v rsv : Nat} {bad : Option Nat} {f : State → State} (h : Keeps s t) (hf : Keeps s (f t)) :
    Keeps s (t.regWrite off v rsv bad f) := h.regWriteIf (fun _ => hf)

theorem Keeps.submit {q : Nat} {v : Word32} (h : Keeps s t) : Keeps s (t.submit q v) := .ite h (.ite h.setQueue h.setQueue)

theorem Keeps.consume {q : Nat} {v : Word32} (h : Keeps s t) : Keeps s (t.consume q v) := .ite h h.setQueue

theorem Keeps.doorbell {sub : Bool} {q : Nat} {v : Word32} (h : Keeps s t) : Keeps s (t.doorbell sub q v) :=
  .ite h.submit h.consume

theorem Keeps.ring {sub : Bool} {q : Nat} {v : Word32} (h : Keeps s t) : Keeps s (t.ring sub q v) :=
  .ite h (.ite h.upd h.doorbell)

theorem Keeps.ringKept (h : Keeps s t) : Keeps s t.ringKept := h.upd.foldl (fun _ _ k => k.doorbell)

theorem Keeps.readCmd {q : Nat} (h : Keeps s t) : Keeps s (t.readCmd q) := by
  unfold State.readCmd
  dsimp only
  split
  · exact h.touchLine.setQueue.endUnlaunchedCheck
  · exact .ite h.touchLine.setQueue.endUnlaunchedCheck h.touchLine.setQueue.latch

theorem Keeps.commandRead {q : Nat} (h : Keeps s t) : Keeps s (t.commandRead q) := .ite h (.ite (.ite h h.snoop) h.readCmd)

theorem Keeps.endCmd {q : Nat} {c : QCmd} {st : OpStatus} {cause info : Nat} {blk : List Byte} {set : List Nat} {settled : Bool}
    (h : Keeps s t) :
    Keeps s (t.endCmd q c st cause info blk set settled) :=
  h.addOp.endOpCheck

theorem Keeps.turn {q : Nat} {ops : Nat → Bool} {hold : QCmd → List Byte → Bool} {f : State → QCmd → List Byte → State}
    (h : Keeps s t) (hf : ∀ u c b, Keeps s u → Keeps s (f u c b)) : Keeps s (t.turn q ops hold f) := by
  unfold State.turn
  split
  · exact h
  · split
    · exact h
    · split
      · exact h
      · split
        · exact h.takeHead.endCmd
        · dsimp only
          split
          · exact h.touchBlock.takeHead.endCmd
          · exact .ite h (hf _ _ _ h.touchBlock.takeHead)

theorem Keeps.doneNow {q : Nat} {c : QCmd} (h : Keeps s t) : Keeps s (t.doneNow q c) := h.addOp.checkLedgers.endOpCheck

theorem Keeps.loadArgs {op g arg off len : Nat} (h : Keeps s t) : Keeps s (t.loadArgs op g arg off len) :=
  h.foldl (fun _ _ k => k.orderGran)

theorem Keeps.startCore {op g : Nat} {b : List Byte} {set : List Nat} (h : Keeps s t) : Keeps s (t.startCore op b set g) := by
  refine Keeps.setCoreWf h.loadArgs (fun w => ?_)
  obtain ⟨hl, hi⟩ := Keeps.coreWf (h.loadArgs (op := op) (g := g)) w g
  exact ⟨hl, smWf_putBytes _ _ _ hi⟩

theorem Keeps.launchKernel {q : Nat} {c : QCmd} {b : List Byte} (h : Keeps s t) : Keeps s (t.launchKernel q c b) :=
  .ite h.endCmd ((h.addOp.touchAll.foldl (fun _ _ k => k.startCore)).checkLedgers)

theorem Keeps.launchCopy {q g : Nat} {ch : Channel} {c : QCmd} {b : List Byte} (h : Keeps s t) :
    Keeps s (t.launchCopy q g ch c b) := by
  unfold State.launchCopy
  refine Keeps.checkLedgers ?_
  split
  · exact h.upd.copyReport
  · exact h.upd.startFer

theorem Keeps.launchColl {q : Nat} {c : QCmd} {b : List Byte} (h : Keeps s t) : Keeps s (t.launchColl q c b) := by
  unfold State.launchColl
  dsimp only
  split
  · exact h.touchAll.addOp.startColl.checkLedgers
  · exact h.touchAll.setEng.endCmd
  · exact h.touchAll.endCmd

theorem Keeps.launchSignal {q : Nat} {c : QCmd} (h : Keeps s t) : Keeps s (t.launchSignal q c) :=
  .ite h.addOp.signal.checkLedgers h.addOp.signal.checkLedgers.updOp.endOpCheck

theorem Keeps.afterEarlier {id : Nat} (h : Keeps s t) : Keeps s (t.afterEarlier id) := by
  unfold State.afterEarlier
  split
  · exact h
  · split
    · exact h
    · split
      · exact h.updOp
      · exact h.updOp.emit
      · exact h

theorem Keeps.launchAfter {kind : OpKind} {q : Nat} {c : QCmd} (h : Keeps s t) : Keeps s (t.launchAfter kind q c) :=
  .ite h.addOp.afterEarlier.checkLedgers.endOpCheck h.addOp.afterEarlier.checkLedgers

theorem Keeps.waitTimeout {q : Nat} (h : Keeps s t) : Keeps s (t.waitTimeout q) := by
  unfold State.waitTimeout
  dsimp only
  split
  · exact h
  · exact .ite h.takeHead.setQueue.endCmd h

theorem Keeps.stopOp {o : Op} (h : Keeps s t) : Keeps s (t.stopOp o) := h.cancelCores.foldl (fun _ _ k => .ite k.collHalt k)

theorem Keeps.watchdog {id : Nat} (h : Keeps s t) : Keeps s (t.watchdog id) := by
  unfold State.watchdog
  split
  · exact h
  · exact .ite h.updOp.stopOp h

theorem Keeps.cancelResult {count result : Nat} (h : Keeps s t) : Keeps s (t.cancelResult count result) := h.upd

theorem Keeps.cancelUnread {q n : Nat} (h : Keeps s t) : Keeps s (t.cancelUnread q n) := h.setQueue

theorem Keeps.cancelRead {q : Nat} {c : QCmd} (h : Keeps s t) : Keeps s (t.cancelRead q c) :=
  h.setQueue.latch.endUnlaunchedCheck

theorem Keeps.cancelOp {o : Op} (h : Keeps s t) : Keeps s (t.cancelOp o) := h.updOp.stopOp

theorem Keeps.cancelOne {q seq : Nat} (h : Keeps s t) : Keeps s (t.cancelOne q seq) := by
  unfold State.cancelOne
  dsimp only
  split
  · exact h.cancelRead.cancelResult
  · exact .ite h.cancelResult h.cancelOp.cancelResult
  · exact h.cancelUnread.cancelResult
  · exact h.cancelResult

theorem Keeps.cancelReads {q : Nat} {l : List QCmd} (h : Keeps s t) : Keeps s (cancelReads q l t).1 := by
  induction l generalizing t with
  | nil => exact h
  | cons c l ih =>
    unfold Machine.cancelReads
    split
    · exact ih h.cancelRead
    · exact ih h

theorem Keeps.cancelQueue {q : Nat} (h : Keeps s t) : Keeps s (t.cancelQueue q) :=
  (((h.foldl (fun _ _ k => k.cancelUnread)).cancelReads).foldl (fun _ _ k => k.cancelOp)).cancelResult

theorem Keeps.writeCancel {v : Word64} (h : Keeps s t) : Keeps s (t.writeCancel v) := by
  unfold State.writeCancel
  exact h.regWrite (.ite h.cancelQueue h.cancelOne)

theorem Keeps.applyQueue {q : Nat} (h : Keeps s t) : Keeps s (t.applyQueue q) := by
  unfold State.applyQueue
  dsimp only
  split
  · exact h
  · exact .ite h.upd h.setQueue

theorem Keeps.enableQueue {q : Nat} (h : Keeps s t) : Keeps s (t.enableQueue q) := .ite h.setQueue h.applyQueue.setQueue

theorem Keeps.disableQueue {q : Nat} (h : Keeps s t) : Keeps s (t.disableQueue q) := .ite h.setQueue.applyQueue h.setQueue

theorem Keeps.writeQCtrl {q : Nat} {v : Word32} (h : Keeps s t) : Keeps s (t.writeQCtrl q v) := by
  unfold State.writeQCtrl
  exact h.regWrite (.ite h.setQueue.enableQueue (.ite h.setQueue.disableQueue h.setQueue))

theorem Keeps.takeReport {x1 : LedgerReport} (h : Keeps s t) : Keeps s (t.takeReport x1) := by
  unfold State.takeReport
  split
  · exact .ite h.upd h.upd.ledgerFault
  · exact .ite h.upd h.upd.ledgerFault
  · exact .ite h.upd h.upd.ledgerFault

theorem Keeps.withdrawSent {x : XSig} (h : Keeps s t) : Keeps s (t.withdrawSent x) := by
  unfold State.withdrawSent
  dsimp only
  split
  · exact h.upd.logWithdrawn
  · exact (Keeps.ite h.upd.logWithdrawn.updOp.updOp h.upd.logWithdrawn.updOp).endOpCheck

/-! ## The timetable -/
theorem Keeps.setTT {x1 : TT} (h : Keeps s t) : Keeps s (t.setTT x1) := h.upd

theorem Keeps.reparent (h : Keeps s t) : Keeps s t.reparent := by
  unfold State.reparent
  dsimp only
  split
  · exact h.setTT
  · split
    · exact h.setTT
    · exact .ite h.setTT h.setTT

theorem Keeps.portChanged {p : Port} (h : Keeps s t) : Keeps s (t.portChanged p) := .ite h.reparent h.setTT.reparent

theorem Keeps.originate {now src : Nat} (h : Keeps s t) : Keeps s (t.originate now src) := h.setTT

theorem Keeps.tryOriginate (h : Keeps s t) : Keeps s t.tryOriginate := .ite h.originate h

theorem Keeps.lock (h : Keeps s t) : Keeps s t.lock := .ite h.setTT h.setTT

theorem Keeps.slew (h : Keeps s t) : Keeps s t.slew := .ite h.setTT h

theorem Keeps.exchange (h : Keeps s t) : Keeps s t.exchange :=
  .ite h.tryOriginate (((h.tryOriginate.slew.foldl (fun _ _ k => k.post)).setTT).pump)

theorem Keeps.fromParent {p : Port} {m : TimeMsg} {delay : Nat} (h : Keeps s t) : Keeps s (t.fromParent p m delay) :=
  .ite h.setTT (.ite h.upd.lock h.upd)

theorem Keeps.timeMessage {p : Port} {m : TimeMsg} (h : Keeps s t) : Keeps s (t.timeMessage p m) :=
  .ite h.setTT.reparent.fromParent h.setTT.reparent.tryOriginate

theorem Keeps.syncEdge (h : Keeps s t) : Keeps s t.syncEdge := .ite h.upd (.ite (.ite h.upd h.upd.setTT) h.upd.setTT.setTT)

theorem Keeps.refLoss (h : Keeps s t) : Keeps s t.refLoss := .ite h.upd.setTT h.upd

theorem Keeps.boardTimeout (h : Keeps s t) : Keeps s t.boardTimeout := .ite h.originate.logRec h

theorem Keeps.holdoverTimeout (h : Keeps s t) : Keeps s t.holdoverTimeout := .ite h.setTT h

/-! ## The installation record -/

theorem Keeps.setSec {c : Sec} (h : Keeps s t) (hc : SecKept t.sec c := by exact .of_eq rfl rfl) : Keeps s (t.setSec c) :=
  h.blocks (.of_eq rfl rfl) hc (.of_eq rfl rfl) rfl

theorem Keeps.setFlash {m : List Host.Cell} (h : Keeps s t)
    (hm : smWf (0xFF : Byte) t.sec.flash = true → smWf (0xFF : Byte) m = true) : Keeps s (t.setFlash m) :=
  h.setSec ⟨le_rfl, ⟨rfl, rfl⟩, hm⟩

theorem Keeps.irecResult {r : Nat} (h : Keeps s t) : Keeps s (t.irecResult r) := h.upd

theorem Keeps.takeIrec {a : Nat} (h : Keeps s t) : Keeps s (t.takeIrec a) := by
  unfold State.takeIrec
  exact .ite h.touchAll.irecResult (.ite h.touchAll.irecResult (h.touchAll.setFlash (smWf_flashPut _ _ _)).irecResult)

theorem Keeps.writeIrec (h : Keeps s t) : Keeps s t.writeIrec := .ite h.irecResult (.ite h.upd.irecResult h.takeIrec)

theorem Keeps.routes (h : Keeps s t) : Keeps s t.routes := by
  unfold State.routes
  split
  · exact h.upd
  · exact h.upd

/-! ## Links -/

theorem Keeps.setReason {p : Port} {l : LinkId} {st : LinkState} {r : BitVec 4} (h : Keeps s t) :
    Keeps s (t.setReason p l st r) :=
  .ite h.setLink h.setLink.logRec

theorem Keeps.linkDown {p : Port} {l : LinkId} {st : LinkState} {r : BitVec 4} (h : Keeps s t) :
    Keeps s (t.linkDown p l st r) :=
  .ite h.setReason.setLink (((Keeps.ite h.setReason.setLink.setPort.setLink h.setReason.setLink.setPort).portChanged).pump)

theorem Keeps.retryLimit {p : Port} {l : LinkId} (h : Keeps s t) : Keeps s (t.retryLimit p l) := h.linkDown.healthInc

theorem Keeps.laneFails {p : Port} {lane : Lane16} (h : Keeps s t) : Keeps s (t.laneFails p lane) :=
  .ite h (.ite h.setPort.healthInc.setLink.retryLimit h.setPort.healthInc.setLink.linkDown)

theorem Keeps.startTraining {p : Port} {l : LinkId} (h : Keeps s t) : Keeps s (t.startTraining p l) := h.setReason.setLink

theorem Keeps.trainTimeout {p : Port} {l : LinkId} (h : Keeps s t) : Keeps s (t.trainTimeout p l) :=
  .ite h (.ite h.setLink.retryLimit h.setLink.linkDown)

theorem Keeps.retrainTimer {p : Port} {l : LinkId} (h : Keeps s t) : Keeps s (t.retrainTimer p l) := .ite h.startTraining h

theorem Keeps.sendLinkMsg {p : Port} {l : LinkId} (h : Keeps s t) : Keeps s (t.sendLinkMsg p l) := h.emit

theorem Keeps.trained {p : Port} {l : LinkId} {x3 : Partner} (h : Keeps s t) : Keeps s (t.trained p l x3) := by
  unfold State.trained
  dsimp only
  split
  · exact h
  · split
    · exact h.trainTimeout
    · split
      · exact h.sendLinkMsg.linkDown
      · exact h.setLink.setTT.sendLinkMsg.reparent.pump

theorem Keeps.signalRegained {p : Port} {l : LinkId} (h : Keeps s t) : Keeps s (t.signalRegained p l) :=
  .ite h.upd.startTraining h.upd

theorem Keeps.retrain {p : Port} {l : LinkId} (h : Keeps s t) : Keeps s (t.retrain p l) :=
  .ite h (((Keeps.ite h.linkDown h).setLink).startTraining)

theorem Keeps.disableLink {p : Port} {l : LinkId} {on : Bool} (h : Keeps s t) : Keeps s (t.disableLink p l on) :=
  .ite h.setPort (.ite h.setPort.linkDown (.ite h.setPort.setReason h.setPort.startTraining))

theorem Keeps.writeLinkCtrl {p : Port} {v : Word32} (h : Keeps s t) : Keeps s (t.writeLinkCtrl p v) := by
  unfold State.writeLinkCtrl
  exact h.regWrite (.ite ((Keeps.ite h.disableLink.disableLink.retrain h.disableLink.disableLink).retrain)
    (.ite h.disableLink.disableLink.retrain h.disableLink.disableLink))

theorem Keeps.healthSet {off w v : Nat} (h : Keeps s t) : Keeps s (t.healthSet off w v) := h.upd

theorem Keeps.healthLow {off w v : Nat} (h : Keeps s t) : Keeps s (t.healthLow off w v) := h.healthSet

theorem Keeps.countFrame {p : Port} {l : LinkId} {f : FrameIn} (h : Keeps s t) : Keeps s (t.countFrame p l f) :=
  .ite (.ite h.setPort h.setPort.healthSet) ((Keeps.ite h.setPort h.setPort.healthSet).healthInc)

theorem Keeps.noteErrors {p : Port} {l : LinkId} {f : FrameIn} (h : Keeps s t) : Keeps s (t.noteErrors p l f) := h.setLink

theorem Keeps.resendFrame {p : Port} {l : LinkId} {f : SentFrame} (h : Keeps s t) : Keeps s (State.resendFrame p l t f) :=
  h.setLink.upd.emit

theorem Keeps.resendFrames {p : Port} {l : LinkId} (h : Keeps s t) : Keeps s (t.resendFrames p l) :=
  (h.foldl (fun _ _ k => k.resendFrame)).setPort

theorem Keeps.takeFrame {p : Port} {l : LinkId} {f : FrameIn} (h : Keeps s t) : Keeps s (t.takeFrame p l f) :=
  .ite ((Keeps.ite h.setLink.resendFrames h.setLink).pump) (.ite h.setLink.frameOut h.setLink)

theorem Keeps.frameIn {p : Port} {l : LinkId} {f : FrameIn} (h : Keeps s t) : Keeps s (t.frameIn p l f) := by
  unfold State.frameIn
  split
  · exact h
  · dsimp only
    split
    · exact h.countFrame.noteErrors.takeFrame
    · exact h.countFrame.noteErrors.upd.laneFails

theorem Keeps.eyeBase {lane : Nat} {v x3 : Byte} (h : Keeps s t) : Keeps s (t.eyeBase lane v x3) := .ite h h.upd

theorem Keeps.scanned {p : Port} {lane : Nat} {v x4 : Byte} (h : Keeps s t) : Keeps s (t.scanned p lane v x4) :=
  h.eyeBase.setPort.healthSet.healthSet.healthLow.healthLow.logRec

theorem Keeps.scanLanes {p : Port} {l : LinkId} {k : Nat} {eyes : List Eye} (h : Keeps s t) : Keeps s (scanLanes p l k eyes t) := by
  induction k generalizing t eyes with
  | zero => exact h
  | succ k ih =>
    cases eyes with
    | nil => exact h
    | cons e eyes => exact .ite (ih h.setLink.scanned) h

theorem Keeps.slackStart {p : Port} {l : LinkId} {eyes : List Eye} (h : Keeps s t) : Keeps s (t.slackStart p l eyes) :=
  .ite h (.ite h.setPort h.setLink.scanLanes)

theorem Keeps.slackEnd {p : Port} {l : LinkId} (h : Keeps s t) : Keeps s (t.slackEnd p l) := .ite h h.setLink.upd.pump

theorem Keeps.retrainStart {n : StackId} (h : Keeps s t) : Keeps s (t.retrainStart n) := .ite h.upd h

theorem Keeps.retrainEnd {n : StackId} (h : Keeps s t) : Keeps s (t.retrainEnd n) := .ite h h.upd

end

end Sys2Proof.Machine
end

/-!
PROOFS. What no command undoes: remote traffic, the gangway, and the host's link.
-/
section
namespace Sys2Proof.Machine

set_option Elab.async false

section
variable {s t u : State}

/-! ## Remote traffic -/

theorem Keeps.remoteStore {x : Txn} (h : Keeps s t) : Keeps s (t.remoteStore x) := h.writeRunAs.usedInv.sendAnswer

theorem Keeps.remoteWrite {x : Txn} (h : Keeps s t) : Keeps s (t.remoteWrite x) :=
  .ite h.sendAnswer (.ite h.remoteStore (h.foldl (fun _ _ k => .ite k k.snoop)))

theorem Keeps.remoteRead {x : Txn} (h : Keeps s t) : Keeps s (t.remoteRead x) :=
  .ite h.sendAnswer ((h.foldl (fun _ _ k => k.touch)).sendAnswer)

theorem Keeps.remoteAccess {kind : Byte} {x : Txn} (h : Keeps s t) : Keeps s (t.remoteAccess kind x) :=
  .ite h.remoteWrite h.remoteRead

theorem Keeps.dropTxn {tag : Word32} (h : Keeps s t) : Keeps s (t.dropTxn tag) := h.upd

theorem Keeps.answered {x : Txn} {f : State → RTxn → FExec → State} (h : Keeps s t)
    (hf : ∀ u r k, Keeps s u → Keeps s (f u r k)) :
    Keeps s (t.answered x f) := by
  unfold State.answered
  split
  · exact h.upd
  · dsimp only
    split
    · exact hf _ _ _ h.dropTxn
    · exact h.dropTxn

theorem Keeps.takeAck {r : RTxn} {k : FExec} (h : Keeps s t) : Keeps s (t.takeAck r k) := by
  unfold State.takeAck
  split
  · exact h.ferSettle
  · exact h.putChan

theorem Keeps.takeData {x : Txn} {r : RTxn} {k : FExec} (h : Keeps s t) : Keeps s (State.takeData x t r k) := h.putChan

theorem Keeps.collUnroutable {x : Txn} (h : Keeps s t) : Keeps s (t.collUnroutable x) := by
  unfold State.collUnroutable
  split
  · exact h.upd
  · split
    · exact h
    · exact h.collFail

theorem Keeps.takeUnroutable {x : Txn} (h : Keeps s t) : Keeps s (t.takeUnroutable x) := by
  unfold State.takeUnroutable
  split
  · exact .ite (h.answered (fun _ _ _ k => k.ferFail)) h.collUnroutable
  · exact .ite h h.collUnroutable

theorem Keeps.txnTimeout {tag : Word32} (h : Keeps s t) : Keeps s (t.txnTimeout tag) := by
  unfold State.txnTimeout
  split
  · exact h
  · split
    · exact h
    · dsimp only
      split
      · exact h.dropTxn.ferFail
      · exact h.dropTxn

theorem Keeps.ticketAck {x : Txn} {r : Nat} (h : Keeps s t) : Keeps s (t.ticketAck x r) := h.sendAnswer

theorem Keeps.takeTicket {x : Txn} (h : Keeps s t) : Keeps s (t.takeTicket x) :=
  .ite h (.ite h.ticketAck (.ite h.upd.ticketAck (.ite h h.upd.increment.logRec.ticketAck)))

theorem Keeps.signalApplied {y : XSig} (h : Keeps s t) : Keeps s (t.signalApplied y) := by
  unfold State.signalApplied
  dsimp only
  split
  · exact h.upd
  · exact (Keeps.ite h.upd.updOp.updOp h.upd.updOp).endOpCheck

theorem Keeps.takeTicketAck {x : Txn} (h : Keeps s t) : Keeps s (t.takeTicketAck x) := by
  unfold State.takeTicketAck
  split
  · exact h
  · exact .ite h h.signalApplied

theorem Keeps.actAccess {p : Port} {kind : Byte} {x : Txn} (h : Keeps s t) : Keeps s (t.actAccess p kind x).1 := by
  unfold State.actAccess
  split
  · exact h.remoteAccess
  · exact h.setPort

theorem Keeps.act {p : Port} {kind : Byte} {x : Txn} (h : Keeps s t) : Keeps s (t.act p kind x).1 := by
  unfold State.act
  split
  · exact h.actAccess
  · exact h.actAccess
  · exact h.answered (fun _ _ _ k => k.takeAck)
  · exact h.answered (fun _ _ _ k => k.takeData)
  · exact Keeps.answered (f := fun u r k => u.ferFail r.core k cENGINE 8) h (fun _ _ _ k => k.ferFail)
  · exact h.takeUnroutable
  · exact h.takeTicket
  · exact h.takeTicketAck
  · exact h.takeBlock
  · exact h.takeAnnouncement
  · exact h.takeAbort
  · exact h

theorem Keeps.deliver {p : Port} {e : Early} (h : Keeps s t) : Keeps s (t.deliver p e) := by
  unfold State.deliver
  dsimp only
  split
  · exact h.setPort.timeMessage.creditBack
  · exact .ite (.ite h.setPort.act.keepFlits h.setPort.act.creditBack) h.setPort.passOn

theorem Keeps.dropEntry {src : Coord} {m : Word32} (h : Keeps s t) : Keeps s (t.dropEntry src m) := h.upd

theorem Keeps.drainEarly {p : Port} {k : Nat} (h : Keeps s t) : Keeps s (State.drainEarly p k t) := by
  induction k generalizing t with
  | zero => exact h
  | succ k ih =>
    unfold State.drainEarly
    split
    · exact h
    · exact ih h.setLink.setPort.deliver

theorem Keeps.arrive {p : Port} {e : Early} (h : Keeps s t) : Keeps s (t.arrive p e) :=
  .ite h (.ite h.creditBack.pump (.ite h.deliver.drainEarly.pump h.setPort.keepFlits))

theorem Keeps.wakePort {p : Port} {k : Nat} (h : Keeps s t) : Keeps s (State.wakePort p k t) := by
  induction k generalizing t with
  | zero => exact h
  | succ k ih =>
    unfold State.wakePort
    split
    · exact h
    · exact .ite h (ih h.setPort.remoteAccess.freeFlits)

theorem Keeps.wakeRemote (h : Keeps s t) : Keeps s t.wakeRemote := .ite h ((h.foldl (fun _ _ k => k.wakePort)).pump)

/-! ## The gangway -/

theorem Keeps.groupSnap {g : Nat} (h : Keeps s t) : Keeps s (t.groupSnap g) := by
  unfold State.groupSnap
  split
  · exact h.setTT
  · split
    · exact h.upd
    · split
      · exact h.upd
      · split
        · exact h.setPort
        · exact h.setQueue

theorem Keeps.commit {g : Nat} (h : Keeps s t) : Keeps s (t.commit g) := by
  unfold State.commit
  split
  · exact h.upd
  · split
    · exact h.upd
    · split
      · exact h.upd
      · exact h.groupSnap.upd

theorem Keeps.applied {g : Nat} (h : Keeps s t) : Keeps s (t.applied g) := .ite h.upd h

theorem Keeps.applySlack (h : Keeps s t) : Keeps s t.applySlack := by
  unfold State.applySlack
  split
  · exact .ite h.setTT.reparent.applied h
  · exact h

theorem Keeps.applyBlock (h : Keeps s t) : Keeps s t.applyBlock := by
  unfold State.applyBlock
  split
  · exact .ite h.upd.routes.applied h
  · exact h

theorem Keeps.applyCredit {p : Port} (h : Keeps s t) : Keeps s (t.applyCredit p) := by
  unfold State.applyCredit
  dsimp only
  split
  · exact h.setPort.applied.pump
  · exact h

theorem Keeps.releaseHost (h : Keeps s t) : Keeps s t.releaseHost := by
  unfold State.releaseHost
  refine h.foldl (fun _ _ k => ?_)
  split
  · exact k.reissue
  · exact k

theorem Keeps.applyAperture (h : Keeps s t) : Keeps s t.applyAperture := by
  unfold State.applyAperture
  split
  · exact .ite h h.upd.applied.releaseHost
  · exact h

theorem Keeps.applyGroup {g : Nat} (h : Keeps s t) : Keeps s (t.applyGroup g) := by
  unfold State.applyGroup
  split
  · exact h.applySlack
  · split
    · exact h.applyBlock
    · split
      · exact h.applyAperture
      · split
        · exact h.applyCredit
        · exact .ite h.applyQueue h

/-! ## The host's link -/

theorem Keeps.setStack {n : Fin 12} {x : Stack} (h : Keeps s t) : Keeps s (t.setStack n x) := h.upd

theorem Keeps.setHbm {x : Hbm} (h : Keeps s t) : Keeps s { t with hbm := x } := h.upd

theorem Keeps.noteAer {bit : Nat} (h : Keeps s t) : Keeps s (t.noteAer bit) := h.upd

theorem Keeps.withLoad {line : Nat} (h : Keeps s t) : Keeps s (t.withLoad line) := h.upd

theorem Keeps.invalidated {line : Nat} (h : Keeps s t) : Keeps s (t.invalidated line) := h.upd

theorem Keeps.unselect (h : Keeps s t) : Keeps s t.unselect := h.upd

theorem Keeps.sendMsix {v : Nat} (h : Keeps s t) : Keeps s (t.sendMsix v) := h.emit

theorem Keeps.sendPending (h : Keeps s t) : Keeps s t.sendPending := h.upd.foldl (fun _ _ k => k.sendMsix)

theorem Keeps.writeCfg {r : CfgReg} {v : Word32} (h : Keeps s t) : Keeps s (t.writeCfg r v) := .ite h h.upd.sendPending

theorem Keeps.hostHas {line : Nat} (h : Keeps s t) : Keeps s (t.hostHas line) := h.usedInv

theorem Keeps.hostRead {dpa : Nat} (h : Keeps s t) : Keeps s (t.hostRead dpa) :=
  Keeps.withLoad (Keeps.upd (Keeps.hostHas (line := dpaAddr dpa / 64) h.touchLine))

theorem Keeps.hostWrite {dpa : Nat} {data : List Byte} {poison : Bool} (h : Keeps s t) :
    Keeps s (t.hostWrite dpa data poison) :=
  Keeps.withLoad (Keeps.upd (Keeps.hostHas (line := dpaAddr dpa / 64) h.writeRunAs))

theorem Keeps.bar4 {off : Nat} {wr : Option (List Byte)} {len : Nat} {poison : Bool} (h : Keeps s t) :
    Keeps s (t.bar4 off wr len poison) := by
  unfold State.bar4
  dsimp only
  split
  · exact .ite h.writeRunAs.noteAer h.writeRunAs
  · exact h.touchAll.upd

theorem Keeps.commitDecoder {n : Bool} {dpa size ways : Nat} {base : Word64} (h : Keeps s t) :
    Keeps s (t.commitDecoder n dpa size ways base) :=
  .ite h (.ite h.upd h.upd)

theorem Keeps.writeHdmh {v : Word32} (h : Keeps s t) : Keeps s (t.writeHdmh v) := by
  unfold State.writeHdmh
  exact h.regWrite h.upd

theorem Keeps.remoteSnooped {line : Nat} {x : Txn} (h : Keeps s t) : Keeps s (t.remoteSnooped line x) :=
  .ite (.ite h.upd h.upd.remoteStore) (.ite h.invalidated h.invalidated.remoteWrite)

theorem Keeps.snooped {line : Nat} {x2 : Snoop} (h : Keeps s t) : Keeps s (t.snooped line x2) := by
  unfold State.snooped
  split
  · exact .ite h.readCmd h
  · exact .ite h h.writeRunAs.recordDone.checkLedgers
  · exact h.remoteSnooped
  · exact h.invalidated

theorem Keeps.snoopAnswer {line : Nat} (h : Keeps s t) : Keeps s (t.snoopAnswer line) := by
  unfold State.snoopAnswer
  split
  · exact h
  · exact h.upd.snooped

theorem Keeps.hostPerform {x1 : HostAccess} (h : Keeps s t) : Keeps s (t.hostPerform x1) := by
  unfold State.hostPerform
  split
  · exact h.hostRead
  · exact h.hostWrite
  · exact h.bar4
  · exact h.snoopAnswer

theorem Keeps.hostAccess {x : HostAccess} (h : Keeps s t) : Keeps s (t.hostAccess x) := .ite h (.ite h.hostPerform h.upd)

theorem Keeps.wakeHost {k : Nat} (h : Keeps s t) : Keeps s (State.wakeHost k t) := by
  induction k generalizing t with
  | zero => exact h
  | succ k ih =>
    unfold State.wakeHost
    split
    · exact h
    · exact .ite h (ih (Keeps.hostPerform h.upd))

theorem Keeps.wakeIrec (h : Keeps s t) : Keeps s t.wakeIrec := by
  unfold State.wakeIrec
  split
  · exact .ite h h.upd.takeIrec
  · exact h

theorem Keeps.wake (h : Keeps s t) : Keeps s t.wake := h.wakeHost.wakeRemote.wakeIrec

theorem Keeps.fenceReturned {q : Nat} (h : Keeps s t) : Keeps s (t.fenceReturned q) := by
  unfold State.fenceReturned
  split
  · exact h
  · exact h.updOp.endOpCheck

theorem Keeps.hostData {g : Nat} {x : FExec} {bytes : List Byte} {poison : Bool}
    (h : Keeps s t) :
    Keeps s (t.hostData g x bytes poison) := by
  unfold State.hostData
  split
  · exact h
  · exact (Keeps.ite h.noteAer h).putChan

theorem Keeps.hostCompletion {r : Requester} {c : Completion} (h : Keeps s t) : Keeps s (t.hostCompletion r c) := by
  unfold State.hostCompletion
  split
  · exact h
  · split
    · exact h.fenceReturned
    · split
      · exact h
      · split
        · exact h
        · split
          · exact h.ferFail
          · exact .ite h.ferFinish h.hostData
          · exact .ite h.ferFinish h

theorem Keeps.hostTimeout {g : Nat} {ch : Channel} (h : Keeps s t) : Keeps s (t.hostTimeout g ch) := by
  unfold State.hostTimeout
  split
  · exact .ite h.noteAer.ferFail h
  · exact h

theorem Keeps.selectIntf {v : Word32} (h : Keeps s t) : Keeps s (t.selectIntf v) := by
  unfold State.selectIntf
  exact h.regWrite h.upd

theorem Keeps.unsnooped {x : Nat × Snoop} (h : Keeps s t) : Keeps s (t.unsnooped x) := .ite h.upd h.snooped

theorem Keeps.settleSnoops (h : Keeps s t) : Keeps s t.settleSnoops :=
  .ite (h.upd.foldl (fun _ _ k => k.snoop)) (h.upd.foldl (fun _ _ k => k.unsnooped))

theorem Keeps.linkReset {cxl : Bool} {rate : LinkRate} {width : LinkWidth} (h : Keeps s t) :
    Keeps s (t.linkReset cxl rate width) :=
  .ite h h.upd.settleSnoops

theorem Keeps.setSchHrw {x : Sch} {y : Hrw} (h : Keeps s t) : Keeps s { t with sch := x, hrw := y } := h.upd

theorem Keeps.flr (h : Keeps s t) : Keeps s t.flr := by
  unfold State.flr
  exact .ite h (Keeps.unselect (Keeps.setSchHrw (h.foldl (fun _ _ k => k.setQueue.cancelQueue))))

theorem Keeps.putMsix {v : Nat} {e : Msix} (h : Keeps s t) : Keeps s (t.putMsix v e) := .ite h.upd.sendMsix h.upd

theorem Keeps.unmask {v : Nat} (h : Keeps s t) : Keeps s (t.unmask v) := .ite h h.putMsix

theorem Keeps.writeBar2 {off bits : Nat} {v : Word64} (h : Keeps s t) : Keeps s (t.writeBar2 off bits v) :=
  .ite h (.ite (.ite h.ring h) (.ite (.ite h.putMsix (.ite h.putMsix.putMsix h)) h))

theorem Keeps.windowRead {off bits : Nat} (h : Keeps s t) : Keeps s (t.windowRead off bits) := by
  unfold State.windowRead
  dsimp only
  split
  · exact h.upd
  · split
    · exact h.upd
    · exact .ite h.hrwErr.upd h.upd

theorem Keeps.doeReply {d : Doe} {l : List Byte} (h : Keeps s t) : Keeps s (t.doeReply d l) := .ite h.upd h

theorem Keeps.mailbox {_cmd v : Nat} {l : List Byte} (h : Keeps s t) : Keeps s (t.mailbox _cmd v l) := .ite h.upd h

theorem Keeps.scrub {n : StackId} {l : Nat} (h : Keeps s t) : Keeps s (t.scrub n l) := by
  unfold State.scrub
  exact .ite h (Keeps.setHbm (.ite h.touchLine.setStack h.touchLine))

theorem Keeps.refresh {n : StackId} (h : Keeps s t) : Keeps s (t.refresh n) := h.setStack

theorem Keeps.refreshRequest {n : StackId} (h : Keeps s t) : Keeps s (t.refreshRequest n) := h.setStack

theorem Keeps.sramScrub {x1 : SramRef} {x2 : Nat} (h : Keeps s t) : Keeps s (t.sramScrub x1 x2) := by
  unfold State.sramScrub
  split
  · exact h.touchWord
  · exact h.touchWord

theorem Keeps.loadKey (h : Keeps s t) : Keeps s t.loadKey := h.upd

end

end Sys2Proof.Machine
end

/-!
PROOFS. What no command undoes: the logbook.
-/
section
namespace Sys2Proof.Machine

set_option Elab.async false

section
variable {s t u : State}

/-! ## The logbook -/

theorem LogKept.jwrite {l m : LogSt} (h : LogKept l m) (w : JWrite) : LogKept l (m.jwrite w) :=
  (h.put w).trans (.of_eq rfl rfl)

theorem LogKept.fault {l m : LogSt} (h : LogKept l m) (r : LogRec) (b : List Byte) : LogKept l (m.fault r b) := by
  unfold LogSt.fault
  split
  · exact h
  · dsimp only
    split
    · exact h.trans (.of_eq rfl rfl)
    · exact ((h.trans (m := { m with alert := true }) (.of_eq rfl rfl)).jput _ _).trans (.of_eq rfl rfl)

theorem LogKept.writeOne (l : LogSt) : LogKept l l.writeOne := by
  unfold LogSt.writeOne
  split
  · exact .refl l
  · dsimp only
    refine LogKept.fault ?_ _ _
    exact ⟨le_rfl, smWf_putBytes _ _ _⟩

theorem LogKept.putHealth {l m : LogSt} (h : LogKept l m) (f : List (Nat × Nat × Nat)) : LogKept l (m.putHealth f) := by
  unfold LogSt.putHealth
  induction f generalizing m with
  | nil => exact h
  | cons x f ih => exact ih (h.jput _ _)

theorem LogKept.replay (l : LogSt) : LogKept l l.replay := by
  unfold LogSt.replay
  split
  · split
    · exact ((LogKept.refl l).put _).trans (.of_eq rfl rfl)
    · exact .of_eq rfl rfl
  · exact .of_eq rfl rfl

theorem Keeps.takeWaiting (h : Keeps s t) : Keeps s t.takeWaiting := by
  unfold State.takeWaiting
  split
  · exact h
  · exact .ite h.setLog.takeRec h

theorem Keeps.logWrite (h : Keeps s t) : Keeps s t.logWrite := Keeps.takeWaiting (h.setLog (.writeOne _))

theorem Keeps.suppress (h : Keeps s t) : Keeps s t.suppress :=
  .ite h h.setLog.logRec

theorem Keeps.canaryNote {d : Fin 8} {v : Int} (h : Keeps s t) : Keeps s (t.canaryNote d v) := h.healthSet.healthLow

theorem Keeps.canaryHealth (h : Keeps s t) : Keeps s t.canaryHealth := by
  unfold State.canaryHealth
  refine h.foldl (fun _ _ k => ?_)
  split
  · exact k.canaryNote
  · exact k

theorem Keeps.pageHealth (h : Keeps s t) : Keeps s t.pageHealth := h.foldl (fun _ _ k => k.healthSet)

theorem Keeps.keepLedgers (h : Keeps s t) : Keeps s t.keepLedgers := h.setLog ((LogKept.refl _).jwrite _)

/-- What a checkpoint writes of the fields: the ledgers under a counter that is odd, then the next even counter. -/
theorem LogKept.checkpointed (l : LogSt) (x y : List Byte) (w : JWrite) (f g : List (Nat × Nat × Nat)) (m : List Nat) :
    LogKept l { (((l.jput ckptAt x).putHealth f).jwrite w).jput ckptAt y with health := g, measured := m } :=
  (((((LogKept.refl l).jput _ _).putHealth _).jwrite _).jput _ _).trans (.of_eq rfl rfl)

theorem Keeps.checkpoint (h : Keeps s t) : Keeps s t.checkpoint := by
  unfold State.checkpoint
  exact .ite h (h.canaryHealth.pageHealth.setLog (.checkpointed ..))

theorem Keeps.tideCheckpoint (h : Keeps s t) : Keeps s t.tideCheckpoint := by
  unfold State.tideCheckpoint
  exact .ite h.checkpoint.setLog h

theorem Keeps.second (h : Keeps s t) : Keeps s t.second := by
  have hl := h.setLog ((LogKept.refl _).jwrite (.scalars (t.log.pot + 1) t.log.resets t.log.powerCycles t.log.fences))
  unfold State.second
  exact .ite h ((hl.foldl (fun _ _ k => k.healthInc)).foldl (fun _ _ k => .ite k.healthInc.healthInc k.healthInc))

theorem Keeps.finalWrite {cause : Nat} (h : Keeps s t) : Keeps s (t.finalWrite cause) := by
  refine h.setLog ⟨Nat.le_succ _, fun w => ?_⟩
  dsimp only
  exact smWf_putBytes _ _ _ w

theorem Keeps.i3cWrite {data : List Byte} (h : Keeps s t) : Keeps s (t.i3cWrite data) := by
  unfold State.i3cWrite
  split
  · exact h
  · split
    · exact .ite h.emit h.setLog
    · exact .ite h.setLog h.emit
    · exact h.emit

theorem Keeps.i3cReads {len : Nat} (h : Keeps s t) : Keeps s (t.i3cReads len) := .ite h h.upd

end

end Sys2Proof.Machine
end

/-!
PROOFS. What no command undoes: an activation's first step, clocks and power.
-/
section
namespace Sys2Proof.Machine

set_option Elab.async false

section
variable {s t u : State}

/-! ## An activation's first step -/

theorem smWf_writeCtl {m : List Host.Cell} (h : smWf (0xFF : Byte) m = true) (slot staged : Bool) :
    smWf (0xFF : Byte) (writeCtl m slot staged) = true := smWf_flashPut _ _ _ h

theorem Keeps.logActivation (h : Keeps s t) : Keeps s t.logActivation := h.logRec

theorem Keeps.takeSlot (h : Keeps s t) : Keeps s t.takeSlot := by
  refine h.setSec ⟨le_rfl, ⟨rfl, rfl⟩, fun w => ?_⟩
  dsimp only
  exact smWf_writeCtl w _ _

theorem Keeps.setSecSch {c : Sec} {x : Sch} (h : Keeps s t) (hc : SecKept t.sec c) : Keeps s { t with sec := c, sch := x } :=
  h.blocks (.of_eq rfl rfl) hc (.of_eq rfl rfl) rfl

theorem Keeps.setAct {x : Act} {r : Byte} (h : Keeps s t) : Keeps s (t.setSec { t.sec with act := x, actRes := r }) := h.setSec

theorem Keeps.pause (h : Keeps s t) :
    Keeps s { t with
      sec := { t.sec with act := .pausing, actRes := actPAUSING }
      sch := { t.sch with paused := true } } := h.upd

theorem Keeps.beginActivation (h : Keeps s t) : Keeps s t.beginActivation :=
  .ite h.takeSlot.setAct.logActivation h.takeSlot.pause

theorem Keeps.returnSlot (h : Keeps s t) : Keeps s t.returnSlot := by
  unfold State.returnSlot
  refine Keeps.ringKept (h.setSecSch ?_)
  refine ⟨le_rfl, ⟨rfl, rfl⟩, fun w => ?_⟩
  dsimp only
  exact smWf_writeCtl w _ _

theorem Keeps.deferActivation (h : Keeps s t) : Keeps s t.deferActivation := by
  unfold State.deferActivation
  split
  · exact h
  · exact h.setSec
  · exact h
  · exact h.returnSlot

/-! ## Clocks, power and sensors -/

theorem Keeps.setClock {n : Fin 8} {mhz : Nat} (h : Keeps s t) : Keeps s (t.setClock n mhz) := .ite h.setDie h.setDie

theorem Keeps.countSteps {k : Nat} (h : Keeps s t) : Keeps s (t.countSteps k) := h.upd

theorem Keeps.lower {n : Fin 8} {k : Nat} (h : Keeps s t) : Keeps s (t.lower n k) := .ite h h.setClock.countSteps

theorem Keeps.switchDie {n : Fin 8} (h : Keeps s t) : Keeps s (t.switchDie n) := h.setClock

theorem Keeps.switchAll (h : Keeps s t) : Keeps s t.switchAll := h.foldl (fun _ _ k => k.switchDie)

theorem Keeps.grant (h : Keeps s t) : Keeps s t.grant := by
  unfold State.grant
  split
  · exact h
  · exact .ite h h.upd.setDie

theorem Keeps.raise1 {n : Fin 8} (h : Keeps s t) : Keeps s (t.raise1 n) := .ite h.setClock.countSteps h

theorem Keeps.logEmergency {begun : Byte} (h : Keeps s t) : Keeps s (t.logEmergency begun) := h.logRec

theorem Keeps.causeUp {c : Cause} (h : Keeps s t) : Keeps s (t.causeUp c) := .ite h.upd h.upd.logEmergency.deferActivation

theorem Keeps.shedResponse (h : Keeps s t) : Keeps s t.shedResponse := h.upd.switchAll

theorem Keeps.endEmergency (h : Keeps s t) : Keeps s t.endEmergency := by
  unfold State.endEmergency
  split
  · refine Keeps.logEmergency ?_
    split
    · exact h.upd.setSec
    · exact h.upd
  · exact h

theorem Keeps.vin {mv ca : Nat} (h : Keeps s t) : Keeps s (t.vin mv ca) :=
  .ite h.upd (.ite (h.upd.foldl (fun _ _ k => .ite k.lower k)) h.upd)

theorem Keeps.steerDies {down up : Bool} (h : Keeps s t) : Keeps s (t.steerDies down up) :=
  h.foldl (fun _ _ k => .ite k.lower (.ite k.lower (.ite k.raise1 k)))

theorem Keeps.lastResort (h : Keeps s t) : Keeps s t.lastResort := .ite h.upd.logRec (.ite h.upd h.upd)

theorem Keeps.cclkStep (h : Keeps s t) : Keeps s t.cclkStep := .ite h h.upd.steerDies.lastResort

theorem Keeps.logWear {n : Fin 8} {sev : BitVec 2} (h : Keeps s t) : Keeps s (t.logWear n sev) := h.logRec

theorem Keeps.wearDie {n : Fin 8} (h : Keeps s t) : Keeps s (t.wearDie n) := by
  have hm (d : DiePwr) (a : Nat) (b : List Byte) : Keeps s ((t.setDie n d).mramPut a b) := h.setDie.mramPut
  exact .ite h (.ite (hm _ _ _).logWear (.ite (hm _ _ _).logWear (hm _ _ _)))

theorem Keeps.wear (h : Keeps s t) : Keeps s t.wear := .ite (h.foldl (fun _ _ k => k.wearDie)) h

end

end Sys2Proof.Machine
end

/-!
PROOFS. What no command undoes: what a loss of power and a reset leave, and the sensors.
-/
section
namespace Sys2Proof.Machine

set_option Elab.async false

section
variable {s t u : State}

/-! ## What a loss of power and a reset leave -/

theorem State.lasting_kept (s : State) : s.Lasting s.kept := ⟨fun _ => id, fun _ => id, le_rfl, le_rfl, rfl, rfl⟩

theorem memWf_kept (h : s.memWf = true) : s.kept.memWf = true := by
  obtain ⟨-, -, wf, wm, -⟩ := (memWf_iff _).1 h
  obtain ⟨wd, wq, -, -, wc⟩ := (memWf_iff _).1 memWf_reset
  exact (memWf_iff _).2 ⟨wd, wq, wf, wm, wc⟩

/-- Of what a reset keeps, nothing that lasts is lost, and the memories that it empties are in canonical form. -/
theorem Keeps.kept (h : Keeps s t) : Keeps s t.kept := h.trans ⟨t.lasting_kept, memWf_kept⟩

theorem Keeps.setPins {x : Pins} (h : Keeps s t) : Keeps s { t with pins := x } := h.upd

theorem Keeps.setPwr {x : Pwr} (h : Keeps s t) : Keeps s { t with pwr := x } := h.upd

theorem Keeps.powerOff {cause : Nat} {stage : InputStage} (h : Keeps s t) : Keeps s (t.powerOff cause stage) := by
  unfold State.powerOff
  exact (Keeps.setPwr (.ite h.finalWrite h)).kept.setPins

theorem Keeps.setPwrLog {x : Pwr} {l : LogSt} (h : Keeps s t) (hl : LogKept t.log l) : Keeps s { t with pwr := x, log := l } :=
  h.blocks (.of_eq rfl rfl) (.of_eq rfl rfl) hl rfl

theorem Keeps.powerLost (h : Keeps s t) : Keeps s t.powerLost := by
  unfold State.powerLost
  refine (h.setPwrLog ?_).kept.setPins
  exact ((LogKept.refl _).put (.ledgers t.sch.checked)).trans (.of_eq rfl rfl)

theorem Keeps.trip (h : Keeps s t) : Keeps s t.trip := h.powerOff.setPins

theorem Keeps.noteCool (h : Keeps s t) : Keeps s t.noteCool := h.upd

theorem Keeps.noteMax {off : Nat} {x2 : Int} (h : Keeps s t) : Keeps s (t.noteMax off x2) := .ite h.healthSet h

theorem Keeps.thermUp {new : Bool} {at_ : Option DieId} (h : Keeps s t) : Keeps s (t.thermUp new at_) := by
  unfold State.thermUp
  dsimp only
  split
  · exact Keeps.dite (fun _ => (Keeps.ite h.causeUp.healthInc h.causeUp).switchDie) (fun _ => .ite h.causeUp.healthInc h.causeUp)
  · exact h.causeUp

theorem Keeps.ioRate {d : DieId} {x2 : Int} (h : Keeps s t) : Keeps s (t.ioRate d x2) :=
  Keeps.dite (fun _ => h.setDie) (fun _ => h.upd)

theorem Keeps.tempSample {d : DieId} {vals : List Int} (h : Keeps s t) : Keeps s (t.tempSample d vals) := by
  have hc (x : Pwr) (off : Nat) (v : Int) : Keeps s (((({ t with pwr := x }).noteMax off v).ioRate d v).noteCool) :=
    h.setPwr.noteMax.ioRate.noteCool
  exact .ite h (.ite (hc _ _ _).trip (.ite (hc _ _ _).thermUp (hc _ _ _)))

theorem Keeps.hbmTemp {n : StackId} {degc : Byte} (h : Keeps s t) : Keeps s (t.hbmTemp n degc) :=
  .ite h (.ite h.setStack.noteMax.noteCool.upd.trip
    (.ite h.setStack.noteMax.noteCool.upd.thermUp h.setStack.noteMax.noteCool.upd))

theorem Keeps.thermCheck (h : Keeps s t) : Keeps s t.thermCheck := h.foldl (fun _ _ k => .ite k.thermUp k)

theorem Keeps.throttle (h : Keeps s t) : Keeps s t.throttle :=
  .ite h (.ite h.thermCheck (.ite h (h.upd.foldl (fun _ _ k =>
    .ite (.ite k.lower.setDie k.lower) (.ite (.ite ((Keeps.ite k.raise1 k).setDie) (.ite k.raise1 k)) k)))))

theorem Keeps.canaryEvent {d : Fin 8} {i : Nat} {slack : Int} (h : Keeps s t) : Keeps s (t.canaryEvent d i slack) :=
  h.lower.healthInc.setDie.logRec

theorem Keeps.canarySample {d : Fin 8} {vals : List Int} (h : Keeps s t) : Keeps s (t.canarySample d vals) := by
  unfold State.canarySample
  split
  · exact h
  · dsimp only
    split
    · exact h.upd.setDie.canaryEvent
    · exact h.upd.setDie

theorem Keeps.canaryEnd {d : Fin 8} (h : Keeps s t) : Keeps s (t.canaryEnd d) := by
  unfold State.canaryEnd
  split
  · split
    · dsimp only
      split
      · exact h.setDie.canaryEvent
      · exact h.setDie
    · exact h
  · exact h

theorem Keeps.noteProcess {d : DieId} {l : List Int} (h : Keeps s t) : Keeps s (t.noteProcess d l) := by
  unfold State.noteProcess
  exact .ite h (h.setLog ((LogKept.refl _).jwrite _))

theorem Keeps.vminBase {n : Fin 8} {m : Nat} (h : Keeps s t) : Keeps s (t.vminBase n m) := by
  unfold State.vminBase
  exact .ite h (h.setLog ((LogKept.refl _).jwrite _))

theorem Keeps.processSample {d : DieId} {vals : List Int} (h : Keeps s t) : Keeps s (t.processSample d vals) :=
  .ite h h.upd.noteProcess.healthSet

theorem Keeps.droop {d : DieId} (h : Keeps s t) : Keeps s (t.droop d) :=
  .ite h (Keeps.dite (fun _ => h.upd.healthInc.setDie) (fun _ => h.upd))

theorem Keeps.droopEnd {d : DieId} (h : Keeps s t) : Keeps s (t.droopEnd d) := by
  unfold State.droopEnd
  split
  · dsimp only
    split
    · exact .ite h.setDie h
    · exact h
  · split
    · exact .ite h.upd h
    · exact h

theorem Keeps.vmin {n : Fin 8} {l : List MarginStep} (h : Keeps s t) : Keeps s (t.vmin n l) :=
  .ite h h.healthSet.healthLow.healthInc.canaryNote.setDie.vminBase.logRec

theorem Keeps.writeCap {v : Word32} (h : Keeps s t) : Keeps s (t.writeCap v) := by
  unfold State.writeCap
  exact h.regWrite h.upd

theorem Keeps.writeMax {n : Fin 8} {v : Word32} (h : Keeps s t) : Keeps s (t.writeMax n v) := by
  unfold State.writeMax
  exact h.regWrite h.setDie

end

end Sys2Proof.Machine
end

/-!
PROOFS. What no command undoes: boot and reset.
-/
section
namespace Sys2Proof.Machine

set_option Elab.async false

section
variable {s t u : State}

/-! ## Boot and reset -/

theorem Keeps.logBoot {sev : BitVec 2} (h : Keeps s t) : Keeps s (t.logBoot sev) := h.logRec

theorem Keeps.halt {step : Nat} {code : Byte} (h : Keeps s t) : Keeps s (t.halt step code) := h.setSec.setPins.logBoot

theorem Keeps.bistFence {x1 : BistFail} (h : Keeps s t) : Keeps s (t.bistFence x1) := by
  unfold State.bistFence
  split
  · exact h.fenceCore
  · exact (h.foldl (fun _ _ k => k.fenceCore)).setDie
  · exact h.fenceAdder
  · exact h.foldl (fun _ _ k => k.fenceAdder)
  · exact h

theorem Keeps.bistOne {f : BistFail × Word64} (h : Keeps s t) : Keeps s (t.bistOne f) := h.logRec.bistFence

theorem Keeps.clearSecrets (h : Keeps s t) : Keeps s t.clearSecrets := h.setSec

theorem Keeps.selfTest {l : List (BistFail × Word64)} (h : Keeps s t) : Keeps s (t.selfTest l) := by
  have hs (u : State) (k : Keeps s u) :
      Keeps s (u.setSec { u.sec with scanOn := false, scanLock := true, selfTest := bistVector l }) :=
    k.setSec
  have hl := hs _ (h.foldl (f := State.bistOne) (l := t.sec.otp.failed l) (fun _ _ k => k.bistOne))
  unfold State.selfTest
  exact .ite hl (hl.setLog ((LogKept.refl _).jwrite _))

theorem Keeps.logSlot {slot : Bool} (h : Keeps s t) : Keeps s (t.logSlot slot) := h.logRec

/-- Loading an image leaves the fuses and the flash. -/
theorem SecKept.of_loadVerified {c d : Sec} {b : Bundle} {recovery : Bool} {kinds : List Nat}
    (e : c.loadVerified b recovery kinds = some d) : SecKept c d := by
  unfold Sec.loadVerified at e
  split at e
  · cases e
  · dsimp only at e
    split at e
    · exact Option.some.inj e ▸ .of_eq rfl rfl
    · cases e

theorem SecKept.of_boot {c d : Sec} {b : Bundle} {recovery slot : Bool} (e : c.boot b recovery slot = some d) : SecKept c d := by
  obtain ⟨x, hx, rfl⟩ := Option.map_eq_some_iff.1 e
  obtain ⟨hs, hk, hf⟩ := SecKept.of_loadVerified hx
  exact ⟨hs, hk, hf⟩

/-- The harbour master's block is stored as it followed from what it was before some records. -/
theorem Keeps.setSecAfter {c : Sec} (h : Keeps s u) (e : u.sec = t.sec) (hc : SecKept t.sec c) : Keeps s (u.setSec c) :=
  h.setSec (e ▸ hc)

theorem State.logSlot_sec (t : State) (slot : Bool) : (t.logSlot slot).sec = t.sec := logRec_sec t _

theorem State.logSlot_logSlot_sec (t : State) (a b : Bool) : ((t.logSlot a).logSlot b).sec = t.sec :=
  (State.logSlot_sec _ b).trans (t.logSlot_sec a)

theorem Keeps.loadImages (h : Keeps s t) : Keeps s t.loadImages.1 := by
  unfold State.loadImages
  dsimp only
  split
  · next e =>
    obtain ⟨hs, hk, hf⟩ := SecKept.of_boot e
    exact h.setSec ⟨hs, hk, hf⟩
  · split
    · next e =>
      obtain ⟨hs, hk, hf⟩ := SecKept.of_boot e
      exact h.logSlot.setSecAfter (t.logSlot_sec _) ⟨hs, hk, hf⟩
    · split
      · next e =>
        obtain ⟨hs, hk, hf⟩ := SecKept.of_boot e
        exact h.logSlot.logSlot.setSecAfter (t.logSlot_logSlot_sec _ _) ⟨hs, hk, hf⟩
      · exact h.logSlot.logSlot.setSecAfter (t.logSlot_logSlot_sec _ _) (.of_eq rfl rfl)

theorem Keeps.holdPort {p : Port} {r : BitVec 4} (h : Keeps s t) : Keeps s (t.holdPort p r) := h.setReason.setReason

theorem Keeps.holdPorts {code : Nat} (h : Keeps s t) : Keeps s (t.holdPorts code) :=
  h.upd.logRec.foldl (fun _ _ k => k.holdPort)

theorem Keeps.startLink {p : Port} {l : LinkId} (h : Keeps s t) : Keeps s (t.startLink p l) := .ite h h.startTraining

theorem Keeps.startPorts (h : Keeps s t) : Keeps s t.startPorts :=
  .ite h.holdPorts (h.upd.foldl (fun _ _ k => .ite k.holdPort k.startLink.startLink))

theorem Keeps.setIsland {x : LogSt} {y : Pins} {z : Pwr} {w : TT} (h : Keeps s t) (hl : LogKept t.log x) :
    Keeps s { t with log := x, pins := y, pwr := z, tt := w } :=
  h.blocks (.of_eq rfl rfl) (.of_eq rfl rfl) hl rfl

theorem Keeps.bootIsland {cold : Bool} {b : BootInputs} (h : Keeps s t) : Keeps s (t.bootIsland cold b) := by
  unfold State.bootIsland
  exact h.setIsland (((LogKept.replay _).jwrite _).trans (.of_eq rfl rfl))

theorem Keeps.setProcessors {x : Hrw} {y : Pwr} {c : Sec} {z : Lnk} (h : Keeps s t) (hc : SecKept t.sec c) :
    Keeps s { t with hrw := x, pwr := y, sec := c, lnk := z } :=
  h.blocks (.of_eq rfl rfl) hc (.of_eq rfl rfl) rfl

theorem Keeps.startClocks (h : Keeps s t) : Keeps s ((List.finRange 8).foldl (fun v n => v.setClock n (v.die n).mhz) t) :=
  h.foldl (fun _ _ k => k.setClock)

theorem Keeps.bootProcessors {b : BootInputs} (h : Keeps s t) : Keeps s (t.bootProcessors b) := by
  unfold State.bootProcessors
  refine .ite (Keeps.startClocks (h.setProcessors ?_)).causeUp.shedResponse (Keeps.startClocks (h.setProcessors ?_))
  all_goals exact .of_eq rfl rfl

theorem Keeps.bootCores (h : Keeps s t) : Keeps s t.bootCores := by
  unfold State.bootCores
  exact Keeps.logBoot (.ite h.setSec h.upd)

theorem Keeps.boot {cold : Bool} {b : BootInputs} (h : Keeps s t) : Keeps s (t.boot cold b) := by
  have hl := Keeps.loadImages ((h.bootIsland (cold := cold) (b := b)).clearSecrets.selfTest (l := b.bist)
    |>.setDmem (d := Store.empty) (fun _ => rfl))
  have hw {u : State} (k : Keeps s u) (n : Nat) : Keeps s { u with wall := n } := k.upd
  unfold State.boot
  refine hw (.ite h.bootIsland.halt ?_) _
  exact .ite h.bootIsland.clearSecrets.selfTest.halt (.ite h.bootIsland.clearSecrets.selfTest.halt
    (.ite hl.bootProcessors.bootCores hl.halt))

theorem Keeps.setIntSecLog {i : Integ} {c : Sec} {l : LogSt} (h : Keeps s t) (hi : IntKept t.int i) (hc : SecKept t.sec c)
    (hl : LogKept t.log l) : Keeps s { t with int := i, sec := c, log := l } := h.blocks hi hc hl rfl

theorem Keeps.beginReset (h : Keeps s t) : Keeps s t.beginReset := by
  unfold State.beginReset
  exact (h.foldl (f := fun u a => u.arbEnd a .interrupted false false false false) (fun _ _ k => k.arbEnd)).kept.setIntSecLog
    (.of_eq rfl rfl) (.of_eq rfl rfl) (((LogKept.refl _).jwrite _).trans (.of_eq rfl rfl))

theorem Keeps.judgeStraps (h : Keeps s t) : Keeps s t.judgeStraps :=
  .ite h.upd.routes.startPorts.tryOriginate (.ite h.upd h.upd.holdPorts)

theorem Keeps.powerUp {b : BootInputs} (h : Keeps s t) : Keeps s (t.powerUp b) := by
  unfold State.powerUp
  exact Keeps.boot h.upd

end

end Sys2Proof.Machine
end

/-!
PROOFS. What no command undoes: the processors' firmware, staging, activation, and the fused SVN (R467).
-/
section
namespace Sys2Proof.Machine

set_option Elab.async false

section
variable {s t u : State}

/-! ## The processors' firmware, staging and activation -/

theorem Keeps.setSecPins {c : Sec} {x : Pins} (h : Keeps s t) (hc : SecKept t.sec c) : Keeps s { t with sec := c, pins := x } :=
  h.blocks (.of_eq rfl rfl) hc (.of_eq rfl rfl) rfl

theorem Keeps.fatal (h : Keeps s t) : Keeps s t.fatal := h.switchAll.keepLedgers.setSecPins (.of_eq rfl rfl)

theorem Keeps.logFw {u : Processor} {cause : Option FwCause} {pc : Word32} {sev : BitVec 2} (h : Keeps s t) :
    Keeps s (t.logFw u cause pc sev) :=
  h.logRec.healthInc

theorem SecKept.load {c d : Sec} (h : SecKept c d) (b : Bundle) (kinds : List Nat) : SecKept c (d.load b kinds) :=
  ⟨h.svn, h.keys, h.flash⟩

theorem Keeps.rollBack (h : Keeps s t) : Keeps s t.rollBack := by
  unfold State.rollBack
  refine Keeps.logActivation (h.setSec (SecKept.load ?_ _ _))
  refine ⟨le_rfl, ⟨rfl, rfl⟩, fun w => ?_⟩
  dsimp only
  exact smWf_writeCtl w _ _

theorem Keeps.restartArbs {d : Fin 8} (h : Keeps s t) : Keeps s (t.restartArbs d) := h.setInt

theorem Keeps.pilotFault {d : Fin 8} (h : Keeps s t) : Keeps s (t.pilotFault d) := h.setDie.restartArbs

theorem Keeps.switchFault {x1 : Processor} (h : Keeps s t) : Keeps s (t.switchFault x1) := by
  unfold State.switchFault
  split
  · exact h.setDie.restartArbs.rollBack
  · exact h.rollBack

theorem Keeps.runningFault {u : Processor} {cause : Option FwCause} {pc : Word32} (h : Keeps s t) :
    Keeps s (t.runningFault u cause pc) := by
  unfold State.runningFault
  split
  · exact .ite h.logFw.fatal h.logFw.switchFault
  · split
    · exact .ite h.logFw.fatal h.logFw.pilotFault
    · exact h.logFw.fatal

theorem Keeps.procFault {u : Processor} {cause : Option FwCause} {pc : Word32} (h : Keeps s t) :
    Keeps s (t.procFault u cause pc) := by
  unfold State.procFault
  split
  · exact h.runningFault
  · exact h.runningFault
  · exact .ite h.logFw.fatal h
  · exact h.logFw
  · exact h

theorem Keeps.stageResult {res img : Nat} (h : Keeps s t) : Keeps s (t.stageResult res img) := h.setSec

theorem Keeps.setStaged {b : Bool} (h : Keeps s t) : Keeps s (t.setStaged b) := by
  refine h.setSec ⟨le_rfl, ⟨rfl, rfl⟩, fun w => ?_⟩
  dsimp only
  exact smWf_writeCtl w _ _

theorem Keeps.endStaging (h : Keeps s t) : Keeps s (t.setSec { t.sec with staging := none, startHeld := false }) := h.setSec

theorem Keeps.eraseSlot {a n : Nat} (h : Keeps s t) :
    Keeps s (t.setSec { t.sec with startHeld := false, flash := flashErase t.sec.flash a n }) :=
  h.setSec ⟨le_rfl, ⟨rfl, rfl⟩, smWf_flashErase _ _ _⟩

theorem Keeps.programSlot {a : Nat} {l : List Byte} (h : Keeps s t) :
    Keeps s (t.setSec { t.sec with staging := none, flash := flashPut t.sec.flash a l }) :=
  h.setSec ⟨le_rfl, ⟨rfl, rfl⟩, smWf_flashPut _ _ _⟩

theorem Keeps.verifyStage {a n : Nat} (h : Keeps s t) : Keeps s (t.verifyStage a n) := by
  unfold State.verifyStage
  dsimp only
  split
  · exact h.touchAll.setStaged.endStaging.stageResult
  · exact h.touchAll.setStaged.eraseSlot

theorem Keeps.startStage (h : Keeps s t) : Keeps s t.startStage :=
  .ite h.stageResult (.ite h.stageResult (.ite h.setStaged.stageResult
    (.ite h.setSec.stageResult h.setSec.stageResult.verifyStage)))

theorem Keeps.wakeStage (h : Keeps s t) : Keeps s t.wakeStage := by
  unfold State.wakeStage
  split
  · exact .ite h.verifyStage h
  · exact h

theorem Keeps.endStage {ok : Bool} (h : Keeps s t) : Keeps s (t.endStage ok) := by
  unfold State.endStage
  split
  · exact h
  · dsimp only
    split
    · exact h
    · split
      · exact h.touchAll.programSlot.stageResult
      · split
        · exact h.touchAll.programSlot.stageResult
        · exact h.touchAll.programSlot.setStaged.stageResult

theorem Keeps.requestActivation (h : Keeps s t) : Keeps s t.requestActivation :=
  .ite h.setSec (.ite h.setSec (.ite h.setSec h.upd.beginActivation))

theorem Keeps.holdoffEnd (h : Keeps s t) : Keeps s t.holdoffEnd := by
  unfold State.holdoffEnd
  split
  · exact .ite h.beginActivation h
  · exact h

theorem Keeps.deferTimeout (h : Keeps s t) : Keeps s t.deferTimeout := by
  unfold State.deferTimeout
  split
  · exact .ite h.setSec.logActivation h
  · exact h

theorem Keeps.setSecOfSch {c : Sec} {x : Sch} (h : Keeps s t) (hc : SecKept t.sec c) :
    Keeps s (({ t with sch := x }).setSec c) := h.setSecSch hc

theorem Keeps.switchImages (h : Keeps s t) : Keeps s t.switchImages := by
  unfold State.switchImages
  dsimp only
  split
  · refine (Keeps.logActivation (h.setSecOfSch ?_)).ringKept
    refine ⟨le_rfl, ⟨rfl, rfl⟩, fun w => ?_⟩
    dsimp only
    exact smWf_writeCtl w _ _
  · next e =>
    obtain ⟨hs, hk, hf⟩ := SecKept.of_loadVerified e
    refine (Keeps.logActivation (h.setSecOfSch ?_)).ringKept
    exact ⟨hs, hk, hf⟩

theorem Keeps.actSwitch (h : Keeps s t) : Keeps s t.actSwitch := .ite h.switchImages h

/-- SEC_SVN_COMMIT takes the lowest of the images' SVNs, and only when it is not below the fused one (R467). -/
theorem Keeps.writeSvn {v : Word32} (h : Keeps s t) : Keeps s (t.writeSvn v) := by
  unfold State.writeSvn
  refine h.regWriteIf (fun hb => ?_)
  split
  · next hv =>
    refine h.setSec ⟨?_, ⟨rfl, rfl⟩, id⟩
    by_contra hn
    have hr : t.svnRefused = true := by
      simp only [State.svnRefused, Bool.or_eq_true]
      exact .inr (decide_eq_true (Nat.not_le.1 hn))
    simp [rangeIf, hv, hr] at hb
  · exact h

theorem Keeps.pilotUp {d : Fin 8} (h : Keeps s t) : Keeps s (t.pilotUp d) := h.setSec.setDie

end

end Sys2Proof.Machine
end

/-!
PROOFS. What no command undoes: clearance and patrol.
-/
section
namespace Sys2Proof.Machine

set_option Elab.async false

section
variable {s t u : State}

/-! ## Clearance and patrol -/

theorem Keeps.decided {g w : Nat} {r : ArbResult} (h : Keeps s t) : Keeps s (t.decided g w r) := h.arbEnd

theorem Keeps.chooseThird {g : Nat} (h : Keeps s t) : Keeps s (t.chooseThird g) := by
  unfold State.chooseThird
  split
  · exact h
  · split
    · exact h.upd
    · exact h

theorem Keeps.rollPatrol (h : Keeps s t) : Keeps s t.rollPatrol := .ite h h.upd

theorem Keeps.patrolStart {g : Nat} (h : Keeps s t) : Keeps s (t.patrolStart g) := h.upd

theorem Keeps.patrolStop {g : Nat} (h : Keeps s t) : Keeps s (t.patrolStop g) := h.upd

theorem Keeps.patrolTiles {n : Nat} (h : Keeps s t) : Keeps s (t.patrolTiles n) := h.upd

theorem Keeps.endClearance {g w : Nat} {r : Clearance} (h : Keeps s t) : Keeps s (t.endClearance g w r) := by
  unfold State.endClearance
  dsimp only
  split
  · exact h.upd.logRec
  · exact h.upd.decided

theorem Keeps.clearance {g : Nat} {r : Clearance} (h : Keeps s t) : Keeps s (t.clearance g r) := by
  unfold State.clearance
  split
  · exact h
  · dsimp only
    split
    · exact .ite h.chooseThird.endClearance h.chooseThird
    · exact h.chooseThird

theorem Keeps.launchPair {g x2 : Nat} {margin : Bool} (h : Keeps s t) : Keeps s (t.launchPair g x2 margin) :=
  .ite h.upd.patrolStart.patrolStart h

theorem Keeps.launchPatrol {g x2 : Nat} {margin : Bool} (h : Keeps s t) : Keeps s (t.launchPatrol g x2 margin) :=
  h.rollPatrol.launchPair

theorem Keeps.logPatrol {lo hi mv : Nat} {sev : BitVec 2} (h : Keeps s t) : Keeps s (t.logPatrol lo hi mv sev) := h.logRec

theorem Keeps.patrolBad {lo hi : Nat} {lowerPasses upperPasses : Bool} {r : ArbResult} {mv : Nat} (h : Keeps s t) :
    Keeps s (t.patrolBad lo hi lowerPasses upperPasses r mv) :=
  h.upd.healthInc.logPatrol.decided

theorem Keeps.endPatrol {g : Nat} {r : PatrolResult} (h : Keeps s t) : Keeps s (t.endPatrol g r) := by
  unfold State.endPatrol
  split
  · exact h
  · exact .ite h.upd.patrolStop.patrolStop.patrolTiles
      (.ite h.upd.patrolStop.patrolStop.patrolTiles.logPatrol h.upd.patrolStop.patrolStop.patrolTiles.patrolBad)

end

end Sys2Proof.Machine
end

/-!
PROOFS. What no command undoes: registers, the vector engine, and time.
-/
section
namespace Sys2Proof.Machine

set_option Elab.async false

section
variable {s t u : State}

/-! ## The host's reads and writes of registers -/

theorem Keeps.peakRead {off bits : Nat} (h : Keeps s t) : Keeps s (t.peakRead off bits) := .ite h.upd h

theorem Keeps.readReg {p : HostOff} {bits : Nat} (h : Keeps s t) : Keeps s (t.readReg p bits) := by
  unfold State.readReg
  split
  · exact h
  · split
    · exact h.upd
    · exact h.upd
    · exact .ite h.windowRead h.peakRead.upd

theorem Keeps.putSch {base v : Nat} (h : Keeps s t) : Keeps s (t.putSch base v) := by
  unfold State.putSch
  refine .ite h.upd (.ite h.upd (.ite h.upd (.ite h.upd (.ite h.upd (.ite h.upd (.ite h.upd (.ite ?_ h)))))))
  split
  · exact h.setQueue
  · exact h.setQueue
  · exact h.setQueue
  · exact h.setQueue
  · exact h

theorem Keeps.putNet {base v : Nat} (h : Keeps s t) : Keeps s (t.putNet base v) :=
  .ite h.setTT (.ite h.setTT (.ite h.setTT (.ite h.setTT (.ite h.setTT (.ite h.upd (.ite h.upd (.ite h.upd
    (.ite h.upd (.ite h.setPort h)))))))))

theorem Keeps.putRest {base v : Nat} (h : Keeps s t) : Keeps s (t.putRest base v) :=
  .ite h.setEng (.ite h.setEng (.ite h.upd (.ite h.upd (.ite h.upd (.ite h.upd (.ite h.rollPatrol.upd (.ite h.setSec
    (.ite h.setSec (.ite h.setLog (.ite h.setLog h))))))))))

theorem Keeps.regPut {base v : Nat} (h : Keeps s t) : Keeps s (t.regPut base v) := by
  unfold State.regPut
  split
  · exact h.putSch
  · exact h.putSch
  · exact h.putNet
  · exact h.putNet
  · exact h.putRest

theorem Keeps.of_ownRow {base : Nat} {v : Word64} (h : Keeps s t) (e : t.ownRow base v = some u) : Keeps s u := by
  have ho {c : Prop} [Decidable c] {x : State} {y : Option State} (hx : Keeps s x) (hy : ∀ z, y = some z → Keeps s z) :
      ∀ z, (if c then some x else y) = some z → Keeps s z := by
    intro z e
    split at e
    · exact Option.some.inj e ▸ hx
    · exact hy z e
  have hw {off v rsv : Nat} {bad : Option Nat} {c : Prop} [Decidable c] {f : State → State} (hf : Keeps s (f t)) :
      Keeps s (t.regWrite off v rsv bad (fun t => if c then f t else t)) := by
    refine h.regWrite ?_
    split
    · exact hf
    · exact h
  revert e
  unfold State.ownRow
  refine ho h.selectIntf (ho (h.regWrite h.commit) (ho h.writeHdmh (ho h.writeCancel (ho h.writeQCtrl (ho (hw h.writeIrec)
    (ho h.writeLinkCtrl (ho h.writeCap (ho h.writeMax (ho h.writeSvn (ho (hw h.startStage) (ho (hw h.requestActivation)
    (ho (h.regWrite h.setSec) (ho (h.regWrite h.logRec) ?_))))))))))))) u
  exact fun z e => by cases e

theorem Keeps.writeReg {r : Reg} {off bits : Nat} {v : Word64} (h : Keeps s t) : Keeps s (t.writeReg r off bits v) := by
  unfold State.writeReg
  split
  · exact h.regWrite h
  · split
    · next e => exact h.of_ownRow e
    · exact h.regWrite h.regPut

theorem Keeps.writeBar0 {off bits : Nat} {v : Word64} (h : Keeps s t) : Keeps s (t.writeBar0 off bits v) := by
  unfold State.writeBar0
  refine .ite h (.ite h.hrwErr (.ite (h.regWrite h) (.ite (h.regWrite h) ?_)))
  split
  · exact h.hrwErr
  · exact h.writeReg

/-! ## The vector engine -/

theorem Keeps.setVec {g : Nat} {v : Vec} (h : Keeps s t) : Keeps s (t.setVec g v) := h.setCore

theorem Keeps.vecFault {g : Nat} {c : VCmd} {cause code : Nat} (h : Keeps s t) : Keeps s (t.vecFault g c cause code) :=
  h.raise

theorem Keeps.vecBegin {g : Nat} (h : Keeps s t) : Keeps s (t.vecBegin g) := by
  unfold State.vecBegin
  dsimp only
  split
  · exact h
  · split
    · exact h
    · split
      · exact h.setVec.vecFault
      · exact h.setVec.setCore

theorem Keeps.completeVld {g : Nat} {k : VCmd} (h : Keeps s t) : Keeps s (t.completeVld g k) := by
  have hd : Keeps s (t.touchDesc g k.desc (vecIxs k)) := h.touchDesc
  unfold State.completeVld
  refine .ite hd.setVec.vecFault (hd.setCore ?_)
  exact (mems_vecDone _).trans (mems_addVecCheck _ _ _ _)

theorem mems_setVec_vecDone (c : Core) (v : Vec) : ({ c.vecDone with vec := v } : Core).mems = c.mems := mems_vecDone c

theorem Keeps.completeVst {g : Nat} {k : VCmd} (h : Keeps s t) : Keeps s (t.completeVst g k) := by
  have hc := h.setCore (mems_addVecCheck (t.core g) k [] (t.die (dieOf g)).cycles)
  exact Keeps.setCore hc.writeAs (mems_setVec_vecDone _ _)

theorem Keeps.completeReg {g : Nat} {k : VCmd} (h : Keeps s t) : Keeps s (t.completeReg g k) :=
  h.setCore ((mems_vecDone _).trans (mems_addVecCheck _ _ _ _))

theorem Keeps.vecComplete {g : Nat} (h : Keeps s t) : Keeps s (t.vecComplete g) := by
  unfold State.vecComplete
  split
  · exact h
  · split
    · exact h
    · split
      · exact h.completeVld
      · exact .ite h h.completeVst
      · exact h.completeReg

/-! ## Time -/

theorem mems_tickIssue (c : Core) : c.tickIssue.mems = c.mems := by
  unfold Core.tickIssue
  split
  · split
    · rfl
    · exact mems_issueFault c _ _
  · rfl

theorem memWf_tickCores (w : s.memWf = true) : ∀ x ∈ s.tickCores, x.2.memWf := by
  intro x hx
  obtain ⟨y, hy, rfl⟩ := List.mem_map.1 (List.mem_of_mem_filter hx)
  exact Core.memWf_congr (((memWf_iff s).1 w).2.2.2.2 y hy) (mems_tickIssue _)

theorem Keeps.setCores {l : List (Nat × Core)} (h : Keeps s t) (hl : t.memWf = true → ∀ x ∈ l, x.2.memWf) :
    Keeps s { t with cores := l } := by
  refine h.trans ⟨⟨fun _ => id, fun _ => id, le_rfl, le_rfl, rfl, rfl⟩, fun w => ?_⟩
  obtain ⟨wd, wq, wf, wm, -⟩ := (memWf_iff t).1 w
  exact (memWf_iff _).2 ⟨wd, wq, wf, wm, hl w⟩

theorem Keeps.setTime {n : Nat} {o : List OldGran} {x : TT} {l : LogSt} {p : Pwr} (h : Keeps s t) (hl : LogKept t.log l) :
    Keeps s { t with wall := n, old := o, tt := x, log := l, pwr := p } := h.blocks (.of_eq rfl rfl) (.of_eq rfl rfl) hl rfl

theorem Keeps.passNs (h : Keeps s t) : Keeps s t.passNs := by
  unfold State.passNs
  exact .ite h.upd ((h.setCores memWf_tickCores).setTime (.of_eq rfl rfl))

theorem Keeps.tick (h : Keeps s t) : Keeps s t.tick := h.passNs.wake.wakeStage

end

end Sys2Proof.Machine
end

/-!
PROOFS. What no command undoes: one step, and the claim (O59; R417, R418, R489).
-/
section
namespace Sys2Proof.Machine

set_option Elab.async false

section
variable {s t u : State}

/-! ## One step -/

/-- The next state, where the outcome has one, keeps. -/
def KeepsNext (s : State) (r : Res) : Prop := ∀ t, r = .next t → Keeps s t

theorem Keeps.next (h : Keeps s t) : KeepsNext s (.next t) := fun _ e => Host.Outcome.next.inj e ▸ h

theorem KeepsNext.ite {c : Prop} [Decidable c] {r r' : Res} (h : KeepsNext s r) (h' : KeepsNext s r') :
    KeepsNext s (if c then r else r') := by
  split
  · exact h
  · exact h'

theorem Keeps.alu {g : Nat} {w : Word0} {op : Word64 → Word64 → Word64} (h : Keeps s t) : Keeps s (t.alu g w op) := h.issue1 rfl

theorem Keeps.aluI {g : Nat} {w : Word0} {op : Word64 → Word64 → Word64} (h : Keeps s t) : Keeps s (t.aluI g w op) :=
  h.issue1 rfl

theorem Keeps.palu {g : Nat} {w : Word0} {op : Bool → Bool → Bool} (h : Keeps s t) : Keeps s (t.palu g w op) := h.issue1 rfl

theorem Keeps.cmp {g : Nat} {w : Word0} {op : Word64 → Word64 → Bool} (h : Keeps s t) : Keeps s (t.cmp g w op) := h.issue1 rfl

theorem Keeps.cmpI {g : Nat} {w : Word0} {op : Word64 → Word64 → Bool} (h : Keeps s t) : Keeps s (t.cmpI g w op) := h.issue1 rfl

theorem Keeps.dput {g : Nat} {w : Word0} {f : Form} {ok : Bool} {v : Seq → Desc} (h : Keeps s t) : Keeps s (t.dput g w f ok v) :=
  h.issue1 rfl

theorem Keeps.readCount {g : Nat} {w : Word0} {f : Seq → Eng → Word32} (h : Keeps s t) : Keeps s (t.readCount g w f) :=
  h.issue1 rfl

/-- An instruction that writes registers alone. -/
theorem Keeps.updSeq {g : Nat} {f : Form} {w : Word0} {ok : Bool} {k : Seq → Seq} (h : Keeps s t) :
    Keeps s (t.issue1 g f w ok (fun c => .core (c.upd k))) := h.issue1 rfl

theorem Keeps.branch {g : Nat} {f : Form} {w : Word0} {a : Core → Option Nat} (h : Keeps s t) :
    Keeps s (t.issue1 g f w true (fun c => branchTo c (a c))) := h.issue1 (keeps_branchTo rfl _)

theorem Keeps.call {g : Nat} {f : Form} {w : Word0} {k : Seq → Seq} {a : Core → Option Nat} (h : Keeps s t) :
    Keeps s (t.issue1 g f w true (fun c => branchTo (c.upd k) (a c))) := h.issue1 (keeps_branchTo (by rfl) _)

theorem Keeps.nop {g : Nat} {f : Form} {w : Word0} (h : Keeps s t) : Keeps s (t.issue1 g f w true .core) := h.issue1 rfl

theorem Keeps.endKernel {g : Nat} {f : Form} {w : Word0} {x : SeqCond} (h : Keeps s t) :
    Keeps s (t.issue1 g f w true (fun c => .stall c x)) := h.issue1 rfl

theorem Keeps.faultSw {g : Nat} {f : Form} {w : Word0} {cause detail : Nat} (h : Keeps s t) :
    Keeps s (t.issue1 g f w true (fun _ => .fault cause detail)) := h.issue1 trivial

theorem Keeps.loop {g : Gcn} {w : Word0} (h : Keeps s t) : KeepsNext s (execLoop g w t) := by
  refine Keeps.next (h.issue1 ?_)
  dsimp only
  split
  · rfl
  · exact keeps_branchTo (by rfl) _

theorem Keeps.waitall {g : Nat} {f : Form} {w : Word0} (h : Keeps s t) :
    Keeps s (t.issue1 g f w true (fun c => if c.seq.allDrained then .all (t.waitedAll g) else .stall c .waitAll)) := by
  refine h.issue1 ?_
  split
  · exact h.upd
  · rfl

theorem Keeps.wrcsr {g : Gcn} {w : Word0} (h : Keeps s t) : KeepsNext s (execWrcsr g w t) := by
  refine Keeps.next (h.issue1 ?_)
  dsimp only
  split
  · trivial
  · exact mems_csrPut _ _ _

theorem Keeps.histClear {g : Gcn} {e : HistEngine} (h : Keeps s t) : KeepsNext s (execHistClear g e t) := by
  cases e with
  | matrix => exact (Keeps.setCore h).next
  | vector => exact (Keeps.setCore h).next

theorem Keeps.queueFullRelease {g : Gcn} (h : Keeps s t) : KeepsNext s (execQueueFullRelease g t) := by
  unfold execQueueFullRelease
  split
  · exact h.reissue.next
  · exact h.next

theorem Keeps.waitRelease {g : Gcn} (h : Keeps s t) : KeepsNext s (execWaitRelease g t) := by
  unfold execWaitRelease
  exact .ite (h.waitEnds.setCoreOf h (mems_advance (Core.withCond _ .running) 8)).next h.next

theorem Keeps.containedAccessRelease {g : Gcn} (h : Keeps s t) : KeepsNext s (execContainedAccessRelease g t) := by
  unfold execContainedAccessRelease
  split
  · next a w _ =>
    have hc : Keeps s (t.setCore g.toNat ((t.core g.toNat).withCond .running)) := h.setCore
    exact (hc.finish hc.scalarAccess).next
  · exact h.next

theorem Keeps.arrayRampUp {g : Gcn} (h : Keeps s t) : KeepsNext s (execArrayRampUp g t) := by
  unfold execArrayRampUp
  exact .ite h.setMat.next h.next

theorem Keeps.arrayRampDown {g : Gcn} (h : Keeps s t) : KeepsNext s (execArrayRampDown g t) := by
  unfold execArrayRampDown
  exact .ite h.setMat.next h.next

theorem Keeps.frozenRampDown {g : Gcn} (h : Keeps s t) : KeepsNext s (execFrozenRampDown g t) := by
  unfold execFrozenRampDown
  exact .ite h.setMat.next h.next

theorem Keeps.verdict {u : Checker} {id : Nat} {bad : Option Lane4} (h : Keeps s t) : KeepsNext s (execVerdict u id bad t) := by
  cases u with
  | core g => exact h.coreVerdict.next
  | coll e => exact h.collVerdict.next

theorem Keeps.endOperation {op : Nat} (h : Keeps s t) : KeepsNext s (execEndOperation op t) := by
  unfold execEndOperation
  split
  · exact h.afterEarlier.endOpCheck.next
  · exact h.next

theorem Keeps.ticketMessageResend {m : Nat} (h : Keeps s t) : KeepsNext s (execTicketMessageResend m t) := by
  unfold execTicketMessageResend
  split
  · exact h.sendTicket.next
  · exact h.next

theorem Keeps.signalWithdraw {m : Nat} (h : Keeps s t) : KeepsNext s (execSignalWithdraw m t) := by
  unfold execSignalWithdraw
  split
  · exact .ite h.withdrawSent.next h.next
  · exact h.next

/-- A register whose bit 0 starts what it names. -/
theorem Keeps.writeGo {off v rsv : Nat} {bad : Option Nat} {c : Prop} [Decidable c] {f : State → State} (h : Keeps s t)
    (hf : Keeps s (f t)) : Keeps s (t.regWrite off v rsv bad (fun t => if c then f t else t)) := by
  refine h.regWrite ?_
  split
  · exact hf
  · exact h

theorem Keeps.registerWrite {off : HostOff} {bits : Nat} {v : Word64} (h : Keeps s t) :
    KeepsNext s (execRegisterWrite off bits v t) := by
  cases off with
  | bar0 o => exact h.writeBar0.next
  | bar2 o => exact h.writeBar2.next
  | cfg r => exact h.writeCfg.next

theorem Keeps.inputQualified {b : BootInputs} (h : Keeps s t) : KeepsNext s (execInputQualified b t) := by
  unfold execInputQualified
  exact .ite h.next (.ite h.powerUp.next (.ite h.powerLost.powerUp.next h.next))

theorem Keeps.undervoltageLockout (h : Keeps s t) : KeepsNext s (execUndervoltageLockout t) := by
  unfold execUndervoltageLockout
  exact .ite h.powerOff.setPins.next h.next

theorem Keeps.overvoltageLockout (h : Keeps s t) : KeepsNext s (execOvervoltageLockout t) := by
  unfold execOvervoltageLockout
  exact .ite h.powerOff.setPins.next h.next

theorem Keeps.highInputLog (h : Keeps s t) : KeepsNext s (execHighInputLog t) := by
  unfold execHighInputLog
  exact .ite h.setPwr.logRec.next h.next

theorem Keeps.shedAssert (h : Keeps s t) : KeepsNext s (execShedAssert t) := by
  unfold execShedAssert
  exact Keeps.next (.ite h.setPins.causeUp.shedResponse h.setPins)

theorem Keeps.causeDown {c : Cause} (h : Keeps s t) : Keeps s (t.causeDown c) := h.upd

theorem Keeps.shedRelease (h : Keeps s t) : KeepsNext s (execShedRelease t) := by
  unfold execShedRelease
  exact Keeps.next (.ite h.setPins.causeDown h.setPins)

theorem Keeps.thermClear (h : Keeps s t) : KeepsNext s (execThermClear t) := by
  unfold execThermClear
  split
  · exact Keeps.next (.ite h.causeDown h)
  · exact h.next

theorem Keeps.perstAssert (h : Keeps s t) : KeepsNext s (execPerstAssert t) := by
  unfold execPerstAssert
  exact .ite h.setPins.beginReset.setPins.next h.setPins.next

theorem Keeps.perstRelease {b : BootInputs} (h : Keeps s t) : KeepsNext s (execPerstRelease b t) := by
  unfold execPerstRelease
  exact .ite h.setPins.boot.next h.setPins.next

theorem Keeps.setLnk {x : Lnk} (h : Keeps s t) : Keeps s { t with lnk := x } := h.upd

theorem Keeps.strapSample {k : Nat} {v : StrapPins} (h : Keeps s t) : KeepsNext s (execStrapSample k v t) := by
  unfold execStrapSample
  exact .ite (Keeps.next (.ite h.setLnk.judgeStraps h.setLnk)) h.next

theorem Keeps.boardSlotSample {k : Nat} {v : BitVec 3} (h : Keeps s t) : KeepsNext s (execBoardSlotSample k v t) := by
  unfold execBoardSlotSample
  exact .ite h.setLog.next h.next

theorem Keeps.deviceReset {b : BootInputs} (h : Keeps s t) : KeepsNext s (execDeviceReset b t) := by
  unfold execDeviceReset
  exact .ite h.beginReset.boot.next h.next

theorem Keeps.setCtr {n : Nat} (h : Keeps s t) : Keeps s { t with freeCtr := n } := h.upd

theorem Keeps.refclkLoss (h : Keeps s t) : KeepsNext s (execLinkRefclkLoss t) := by
  unfold execLinkRefclkLoss
  exact Keeps.next (h.setPins.foldl (fun _ _ k => k.foldl (fun _ _ k => .ite k.linkDown k)))

/-- Whatever a command answers with, what no command undoes stands. -/
theorem keepsNext_exec (i : Instr) (s : State) : KeepsNext s (exec i s) := by
  have h := Keeps.refl s
  cases i with
  | add | sub | mul | mulhu | mulhs | and | or | xor | shl | shr | sar | min | max | minu | maxu => exact h.alu.next
  | addi | subi | muli | mulhui | mulhsi | andi | ori | xori | shli | shri | sari | mini | maxi | minui | maxui =>
    exact h.aluI.next
  | movhi | pnot | aadd | aaddi | amov | aread | tread | setseed | rdtime | rdcsr => exact h.updSeq.next
  | pand | por | pxor => exact h.palu.next
  | cmpEq | cmpNe | cmpLt | cmpLtu | cmpLe | cmpLeu => exact h.cmp.next
  | cmpEqI | cmpNeI | cmpLtI | cmpLtuI | cmpLeI | cmpLeuI => exact h.cmpI.next
  | br | bra | ret => exact h.branch.next
  | call => exact h.call.next
  | loop => exact h.loop
  | ld8u | ld8s | ld16u | ld16s | ld32u | ld32s | ld64 | lda | st8 | st16 | st32 | st64 | sta | ldq8u | ldq8s | ldq16u
  | ldq16s | ldq32u | ldq32s | ldq64 | ldqa | dld | dst => exact h.access.next
  | dcpy | daddb | daddbi | dsetb | dsete | dsets | dsett => exact h.dput.next
  | mwl | mtile | mmode | vld | vst | vadd | vsub | vmul | vfma | vfms | vdiv | vsqrt | vmin | vmax | vminn | vmaxn
  | vabs | vneg | vcvt | vcmp | vsel | vand | vor | vxor | vshl | vshr | vsar | viota | vsplat | vshuf | vexp2 | vlog2
  | vrcp | vrsqrt | vsin | vcos | vrsum | vrmax | vrmin | vsma | vsmmrg | vsminit | vrand | vdrop | fcopy | fconv
  | fgath | fscat | fscadd | fqbc => exact h.issueEngine.next
  | waitM | waitV | waitF => exact h.waitEng.next
  | waitoM | waitoV | waitoF => exact h.waitOutEng.next
  | waitall => exact h.waitall.next
  | rdcnt | rdiss => exact h.readCount.next
  | tadd | taddi => exact (h.issue1 (keeps_recordIncrement ..)).next
  | nop => exact h.nop.next
  | endKernel => exact h.endKernel.next
  | faultSw => exact h.faultSw.next
  | wrcsr => exact h.wrcsr
  | histClear => exact h.histClear
  | queueFullRelease => exact h.queueFullRelease
  | waitRelease => exact h.waitRelease
  | containedAccessRelease => exact h.containedAccessRelease
  | matrixCommandBegin => exact h.matBegin.next
  | matrixDrainWrite => exact h.matDrain.next
  | matrixCommandComplete => exact h.matComplete.settleMarks.next
  | matrixResume => exact h.matResume.next
  | arrayRampUp => exact h.arrayRampUp
  | arrayRampDown => exact h.arrayRampDown
  | frozenRampDown => exact h.frozenRampDown
  | vectorCommandBegin => exact h.vecBegin.next
  | vectorCommandComplete => exact h.vecComplete.settleMarks.next
  | ferryCommandBegin => exact h.ferBegin.next
  | ferryCommandComplete => exact h.ferComplete.next
  | ferryIndexFault => exact h.ferIndexFault.next
  | coreCancel => exact h.stopCancelled.next
  | coreReport => exact h.coreReport.next
  | verdict => exact h.verdict
  | lateVerdict => exact h.lateVerdict.next
  | submitDoorbell | completionDoorbell => exact h.ring.next
  | commandRead => exact h.commandRead.next
  | launch => exact (h.turn (fun _ _ _ k => k.launchKernel)).next
  | copyCmd => exact (h.turn (fun _ _ _ k => k.launchCopy)).next
  | collective => exact (h.turn (fun _ _ _ k => k.launchColl)).next
  | ticketWait => exact (h.turn (fun _ _ _ k => k.doneNow)).next
  | ticketSignal => exact (h.turn (fun _ _ _ k => k.launchSignal)).next
  | marker | hostFence => exact (h.turn (fun _ _ _ k => k.launchAfter)).next
  | ticketWaitTimeout => exact h.waitTimeout.next
  | watchdogExpiry => exact h.watchdog.next
  | endOperation => exact h.endOperation
  | ticketMessageResend => exact h.ticketMessageResend
  | signalWithdraw => exact h.signalWithdraw
  | cancel | cancelAll => exact h.writeCancel.next
  | queueEnable | queueDisable | queueResume => exact h.writeQCtrl.next
  | ledgerReport => exact h.takeReport.next
  | timetableExchange => exact h.exchange.next
  | timetableMessage | remoteWrite | remoteRead | writeAck | readData | refusedAnswer | unroutable | ticketMessage
  | ticketAck | collectiveBlock | collectiveAnnouncement | collectiveAbort => exact h.arrive.next
  | holdoverTimeout => exact h.holdoverTimeout.next
  | boardSourceTimeout => exact h.boardTimeout.next
  | ttSyncEdge => exact h.syncEdge.next
  | ttRefLoss => exact h.refLoss.next
  | sailingDeparture => exact h.catchUp.depart.exhaustSends.next
  | sailingExhausted => exact h.exhaust.next
  | collectiveAdd => exact h.collAdd.next
  | collectiveOutput => exact h.collOutput.next
  | slackWaterStart => exact h.slackStart.next
  | slackWaterEnd => exact h.slackEnd.next
  | hbmRetrainStart => exact h.retrainStart.next
  | hbmRetrainEnd => exact h.retrainEnd.next
  | logbookCheckpoint => exact h.tideCheckpoint.next
  | frameReceived => exact h.frameIn.next
  | laneFailure => exact h.laneFails.next
  | linkRetrainTimer => exact h.retrainTimer.next
  | linkTrainingTimeout => exact h.trainTimeout.next
  | linkUp => exact h.trained.next
  | linkSignalRegained => exact h.signalRegained.next
  | txnTimeout => exact h.txnTimeout.next
  | ticketEntryExpiry => exact h.dropEntry.next
  | linkRetrain | linkDisable | linkEnable => exact h.writeLinkCtrl.next
  | irecWrite => exact (h.writeGo h.writeIrec).next
  | hrwGangwayCommit => exact (h.regWrite h.commit).next
  | gangwayApply => exact h.applyGroup.next
  | hrwIntfSelect => exact h.selectIntf.next
  | coreWindowRead => exact h.readReg.next
  | hrwHdmhSizeWrite => exact h.writeHdmh.next
  | registerWrite => exact h.registerWrite
  | hostMemRead | hostMemWrite | bisnpResponse | bar4Access => exact h.hostAccess.next
  | hdmDecoderCommit => exact h.commitDecoder.next
  | hostCompletion => exact h.hostCompletion.next
  | hostLinkReset => exact h.linkReset.next
  | functionLevelReset => exact h.flr.next
  | msixUnmask => exact h.unmask.next
  | doeDiscovery | cdatRead | getCert => exact h.doeReply.next
  | getReport => exact (Keeps.ite h.doeReply h.loadKey.doeReply).next
  | doeAbort | clearEventRecords | creditRequest => exact (Keeps.ite h.upd h).next
  | identifyMemoryDevice | getHealthInfo | getEventRecords | getPoisonList | getSupportedLogs | getLog =>
    exact h.mailbox.next
  | hbmPatrolScrub => exact h.scrub.next
  | hbmRefresh => exact h.refresh.next
  | hbmRefreshRequest => exact h.refreshRequest.next
  | hbmTempRead => exact h.hbmTemp.next
  | scratchpadScrub => exact h.sramScrub.next
  | vinSample => exact h.vin.next
  | cclkStep => exact h.cclkStep.next
  | inputQualified => exact h.inputQualified
  | undervoltageLockout => exact h.undervoltageLockout
  | overvoltageLockout => exact h.overvoltageLockout
  | highInputLog => exact h.highInputLog
  | shedAssert => exact h.shedAssert
  | shedRelease => exact h.shedRelease
  | uvEmergency | ilimEmergency => exact (Keeps.ite h.causeUp.shedResponse h).next
  | uvClear | ilimClear => exact (Keeps.ite h.causeDown h).next
  | thermClear => exact h.thermClear
  | emergencyEnd => exact h.endEmergency.next
  | thermalThrottle => exact h.throttle.next
  | tempSample => exact h.tempSample.next
  | canarySample => exact h.canarySample.next
  | canaryHoldEnd => exact h.canaryEnd.next
  | processMonitorSample => exact h.processSample.next
  | droopEvent => exact h.droop.next
  | droopHoldEnd => exact h.droopEnd.next
  | vminMeasurement => exact h.vmin.next
  | creditGrant => exact h.grant.next
  | creditRelease => exact (Keeps.ite h.setDie h).next
  | wearCharge => exact h.wear.next
  | pwrCapWrite => exact h.writeCap.next
  | clkCclkMaxWrite => exact h.writeMax.next
  | fwWatchdogExpiry => exact h.setCtr.procFault.next
  | fwProcessorFault => exact h.procFault.next
  | perstAssert => exact h.perstAssert
  | perstRelease => exact h.perstRelease
  | strapSample => exact h.strapSample
  | boardSlotSample => exact h.boardSlotSample
  | secStageStart => exact (h.writeGo h.startStage).next
  | secActivateGo => exact (h.writeGo h.requestActivation).next
  | activationHoldoffEnd => exact h.holdoffEnd.next
  | deferredTimeout => exact h.deferTimeout.next
  | activationSwitch => exact h.actSwitch.next
  | secSvnCommit => exact h.writeSvn.next
  | secReset => exact (h.regWrite h.setSec).next
  | deviceReset => exact h.deviceReset
  | arbitrationReplay => exact h.arbReplay.next
  | arbitrationWitness => exact h.arbWitness.next
  | suspectClearance => exact h.clearance.next
  | patrolLaunch => exact h.launchPatrol.next
  | patrolComplete => exact h.endPatrol.next
  | logRecord => exact h.logRec.next
  | logRecordWrite => exact (Keeps.ite h.logWrite h).next
  | suppressed => exact h.suppress.next
  | acquireCheckpoint => exact (Keeps.ite h.checkpoint h).next
  | poweredOnSecond => exact h.second.next
  | logMark => exact (h.regWrite h.logRec).next
  | i3cSetPointer | i3cClearAlert | i3cInvalidWrite => exact h.i3cWrite.next
  | i3cRead => exact h.i3cReads.next
  | setdasa | entdaa => exact (Keeps.ite h.setLog h).next
  | hostCompletionTimeout => exact h.hostTimeout.next
  | stagingComplete => exact h.endStage.next
  | pilotRestart => exact (Keeps.ite h h.pilotUp).next
  | linkRefclkLoss => exact h.refclkLoss

theorem keepsNext_step (s : State) : KeepsNext s (step s) := by
  unfold step
  split
  · exact (Keeps.refl s).tick.next
  · intro t e
    exact (Keeps.upd (.refl s)).trans (keepsNext_exec _ _ t e)

end

/-- Settles O59, by what each command's functions keep, from the update of one block up to the dispatch. -/
theorem whatNoCommandUndoes : Obligations.WhatNoCommandUndoes := by
  unfold Obligations.WhatNoCommandUndoes
  intro s t h
  obtain ⟨hl, hw⟩ := keepsNext_step s t h
  exact ⟨hl, hw⟩

end Sys2Proof.Machine
end

/-!
PROOFS. The clearance of a suspect core, and patrol kernels (R419, R423, R425, R426; O34).
-/
section
namespace Sys2Proof.Machine

/-! ## Accounts of patrol (R423) -/

theorem smGet_map_value {α β : Type} (f : α → β) (d : α) (m : List (Nat × α)) (k : Nat) :
    smGet (f d) (m.map (fun x => (x.1, f x.2))) k = f (smGet d m k) := by
  induction m with
  | nil => rfl
  | cons x m ih =>
    simp only [List.map_cons, smGet, ih]
    split <;> rfl

/-- A value other than the unlisted one is found where it was put, whatever an absent one reads as. -/
theorem smGet_smPut_listed {α : Type} [DecidableEq α] {d v : α} (h : v ≠ d) (d' : α) (m : List (Nat × α)) (k j : Nat) :
    smGet d' (smPut d m k v) j = if j = k then v else smGet d' m j := by
  rw [smPut, if_neg h]
  split
  · next e => rw [e, smGet_smIns_self d' v _ k (fun x hx => (key_smDel hx).2)]
  · next hne => rw [smGet_smIns_ne _ _ _ hne, smGet_smDel_ne _ _ hne]

section
variable {s : State}

/-- A core that has begun a patrol kernel is listed. -/
theorem patrolOf_patrolStart (s : State) (g c : Nat) : (s.patrolStart g).patrolOf c =
    if c = g then { s.patrolOf g with ran := (s.patrolOf g).ran + patrolNs, last := some s.wall } else s.patrolOf c :=
  smGet_smPut_listed (by simp [PatrolAcct.none_]) _ _ _ _

theorem patrolOf_patrolStop (s : State) (g c : Nat) : (s.patrolStop g).patrolOf c =
    if c = g then { s.patrolOf g with last := some s.wall } else s.patrolOf c :=
  smGet_smPut_listed (by simp [PatrolAcct.none_]) _ _ _ _

/-- How many periods of 100 s of tide time have ended since the accounts were closed. -/
def State.periodsEnded (s : State) : Nat := s.tt.now / 100000000000 - s.int.patrolPer

theorem rollPatrol_none (h : s.periodsEnded = 0) : s.rollPatrol = s := if_pos h

theorem rollPatrol_some (h : s.periodsEnded ≠ 0) : s.rollPatrol = { s with int := { s.int with
    patrolPer := s.tt.now / 100000000000
    patrolBase := s.int.patrolBase + s.periodsEnded * s.int.share
    patrolled := s.int.patrolled.map (fun x => (x.1, x.2.close s.int.share s.periodsEnded)) } } := if_neg h

/-- Closing the accounts changes the accounts alone. -/
theorem rollPatrol_only (s : State) : s.rollPatrol = { s with int := { s.int with
    patrolPer := s.rollPatrol.int.patrolPer, patrolBase := s.rollPatrol.int.patrolBase
    patrolled := s.rollPatrol.int.patrolled } } := by
  by_cases h : s.periodsEnded = 0
  · rw [rollPatrol_none h]
  · rw [rollPatrol_some h]

/-- A core that has run no patrol owes as much for each period as a listed one. -/
theorem close_unlisted (base share : Nat) {k : Nat} (h : k ≠ 0) :
    (⟨base + k * share, 0, none⟩ : PatrolAcct) = PatrolAcct.close ⟨base, 0, none⟩ share k := by
  obtain ⟨n, rfl⟩ := Nat.exists_eq_succ_of_ne_zero h
  simp only [PatrolAcct.close, PatrolAcct.mk.injEq, and_true]
  rw [Nat.succ_mul, Nat.succ_sub_one]
  omega

theorem patrolOf_rollPatrol (h : s.periodsEnded ≠ 0) (c : Nat) :
    s.rollPatrol.patrolOf c = (s.patrolOf c).close s.int.share s.periodsEnded := by
  rw [rollPatrol_some h]
  simp only [State.patrolOf]
  rw [close_unlisted _ _ h]
  exact smGet_map_value (fun a => PatrolAcct.close a s.int.share s.periodsEnded) _ _ _

theorem last_rollPatrol (s : State) (c : Nat) : (s.rollPatrol.patrolOf c).last = (s.patrolOf c).last := by
  by_cases h : s.periodsEnded = 0
  · rw [rollPatrol_none h]
  · rw [patrolOf_rollPatrol h]
    rfl

theorem patrolledSince_rollPatrol (s : State) (c w : Nat) : s.rollPatrol.patrolledSince c w = s.patrolledSince c w := by
  have hp : s.rollPatrol.patrolling c = s.patrolling c := by rw [rollPatrol_only]; rfl
  rw [State.patrolledSince, hp, last_rollPatrol, State.patrolledSince]

theorem launchSet_rollPatrol (s : State) : s.rollPatrol.launchSet = s.launchSet := by rw [rollPatrol_only]; rfl

theorem block_rollPatrol (s : State) : s.rollPatrol.block = s.block := by rw [rollPatrol_only]; rfl

theorem delayedOnce_rollPatrol (s : State) (g : Nat) : s.rollPatrol.delayedOnce g = s.delayedOnce g := by
  have hsch : s.rollPatrol.sch = s.sch := by rw [rollPatrol_only]
  unfold State.delayedOnce
  simp only [hsch, launchSet_rollPatrol, block_rollPatrol, patrolledSince_rollPatrol]

/-! ## The launch of a pair (R301, R423) -/

/-- The state once a pair has begun the next work of the rotation. -/
def State.pairLaunched (s : State) (g h : Nat) (margin : Bool) : State :=
  ((({ s with int := { s.int with
    patrols := s.int.patrols ++ [s.patrolWork g h margin]
    patrolRot := s.int.patrolRot + 1 } } : State).patrolStart g).patrolStart h)

/-- A core that may take a patrol kernel and delays no launch a second time. -/
def State.PatrolReady (s : State) (g : Nat) : Prop := s.canPatrol g = true ∧ s.delayedOnce g = false

theorem launchPair_eq {g h : Nat} {margin : Bool} (hon : s.launching = true) (hdie : g / 512 = h / 512) (hne : g ≠ h)
    (hg : s.PatrolReady g) (hh : s.PatrolReady h) (hslack : s.anySlack = false) (hemerg : s.pwr.emerg = false)
    (hdue : (if margin then s.int.margin else s.owesPatrol g || s.owesPatrol h) = true) :
    s.launchPair g h margin = s.pairLaunched g h margin := by
  obtain ⟨hgcan, hgdelay⟩ := hg
  obtain ⟨hhcan, hhdelay⟩ := hh
  unfold State.launchPair
  simp only [hon, hdie, hgcan, hgdelay, hhcan, hhdelay, hslack, hemerg, hdue, ne_eq, hne, Bool.not_false, Bool.and_self,
    decide_true, not_false_eq_true, if_true]
  rfl

theorem patrolReady_rollPatrol {g : Nat} (hcan : s.canPatrol g = true) (hdelay : s.delayedOnce g = false) :
    s.rollPatrol.PatrolReady g := by
  refine ⟨?_, (delayedOnce_rollPatrol s g).trans hdelay⟩
  rw [rollPatrol_only]
  exact hcan

theorem patrolOf_pairLaunched {g h : Nat} (hne : g ≠ h) (margin : Bool) (c : Nat) : (s.pairLaunched g h margin).patrolOf c =
    if c = g ∨ c = h then { s.patrolOf c with ran := (s.patrolOf c).ran + patrolNs, last := some s.wall } else s.patrolOf c := by
  unfold State.pairLaunched
  rw [patrolOf_patrolStart, patrolOf_patrolStart, patrolOf_patrolStart]
  by_cases hh : c = h
  · subst hh
    simp only [hne.symm, if_false, or_true, if_true]
    rfl
  · by_cases hg : c = g
    · subst hg
      simp only [hh, if_true, if_false, true_or]
      rfl
    · simp only [hh, hg, if_false, or_self]
      rfl

theorem rollPatrol_rest (s : State) : s.rollPatrol.cores = s.cores ∧ s.rollPatrol.wall = s.wall := by
  rw [rollPatrol_only]
  exact ⟨rfl, rfl⟩

theorem sameBytes_rollPatrol (s : State) : SameBytes s s.rollPatrol := by
  rw [rollPatrol_only]
  exact sameBytes_of_store (fun l => by cases l <;> rfl)

theorem int_pairLaunched_rollPatrol (s : State) (g h : Nat) (margin : Bool) :
    (s.rollPatrol.pairLaunched g h margin).int = { s.rollPatrol.int with
      patrols := s.int.patrols ++ [s.patrolWork g h margin]
      patrolRot := s.int.patrolRot + 1
      patrolled := (s.rollPatrol.pairLaunched g h margin).int.patrolled } := by
  have hwork : s.rollPatrol.patrolWork g h margin = s.patrolWork g h margin := by rw [rollPatrol_only]; rfl
  have hpatrols : s.rollPatrol.int.patrols = s.int.patrols := by rw [rollPatrol_only]
  have hrot : s.rollPatrol.int.patrolRot = s.int.patrolRot := by rw [rollPatrol_only]
  rw [← hwork, ← hpatrols, ← hrot]
  rfl

/-- PATROL_LAUNCH closes the accounts and takes the pair, when a share is still to run or the pair is at margin. -/
theorem launchPatrol_eq {g h : Nat} {margin : Bool} (hon : s.launching = true) (hdie : g / 512 = h / 512) (hne : g ≠ h)
    (hg : s.canPatrol g = true) (hh : s.canPatrol h = true) (hgd : s.delayedOnce g = false) (hhd : s.delayedOnce h = false)
    (hslack : s.anySlack = false) (hemerg : s.pwr.emerg = false)
    (hdue : if margin then s.int.margin = true else s.int.ppm ≠ 0 ∧
      ((s.rollPatrol.patrolOf g).ran < (s.rollPatrol.patrolOf g).debt + s.int.share ∨
        (s.rollPatrol.patrolOf h).ran < (s.rollPatrol.patrolOf h).debt + s.int.share)) :
    s.launchPatrol g h margin = s.rollPatrol.pairLaunched g h margin := by
  have hint : s.rollPatrol.int.margin = s.int.margin ∧ s.rollPatrol.int.ppm = s.int.ppm ∧
      s.rollPatrol.int.share = s.int.share := by
    rw [rollPatrol_only]
    exact ⟨rfl, rfl, rfl⟩
  obtain ⟨hmargin, hppm, hshare⟩ := hint
  refine launchPair_eq ?_ hdie hne (patrolReady_rollPatrol hg hgd) (patrolReady_rollPatrol hh hhd) ?_ ?_ ?_
  · rw [rollPatrol_only]
    exact hon
  · rw [rollPatrol_only]
    exact hslack
  · rw [rollPatrol_only]
    exact hemerg
  · cases margin
    · obtain ⟨hrun, howes⟩ := hdue
      simpa [State.owesPatrol, hppm, hshare, ← and_or_left] using ⟨hrun, howes⟩
    · exact hmargin.trans hdue

/-! ## The end of a pair's patrol (R425, R426) -/

/-- The pair is out of patrol, and its tiles are counted. -/
def State.pairEnded (s : State) (g : Nat) (k : PatrolRun) (n : Nat) : State :=
  ((({ s with int := { s.int with patrols := s.int.patrols.filter (fun x => x.lower ≠ g) } } : State).patrolStop
    k.lower).patrolStop k.upper).patrolTiles n

theorem patrolOf_patrolStops (s : State) (g h c : Nat) : ((s.patrolStop g).patrolStop h).patrolOf c =
    if c = g ∨ c = h then { s.patrolOf c with last := some s.wall } else s.patrolOf c := by
  rw [patrolOf_patrolStop, patrolOf_patrolStop, patrolOf_patrolStop]
  by_cases hh : c = h
  · subst hh
    simp only [or_true, if_true]
    split
    · next hg =>
      subst hg
      rfl
    · rfl
  · simp only [hh, if_false, or_false]
    split
    · next hg => rw [hg]
    · rfl

theorem patrolOf_pairEnded (s : State) (g : Nat) (k : PatrolRun) (n c : Nat) : (s.pairEnded g k n).patrolOf c =
    if c = k.lower ∨ c = k.upper then { s.patrolOf c with last := some s.wall } else s.patrolOf c := by
  let t : State := { s with int := { s.int with patrols := s.int.patrols.filter (fun x => x.lower ≠ g) } }
  have htiles : (s.pairEnded g k n).patrolOf c = ((t.patrolStop k.lower).patrolStop k.upper).patrolOf c := rfl
  rw [htiles, patrolOf_patrolStops]
  rfl

theorem sameBytes_pairEnded (s : State) (g : Nat) (k : PatrolRun) (n : Nat) : SameBytes s (s.pairEnded g k n) :=
  sameBytes_of_store (fun l => by cases l <;> rfl)

theorem endPatrol_eq {g : Nat} {k : PatrolRun} (r : PatrolResult) (h : s.int.patrols.find? (fun x => x.lower = g) = some k) :
    s.endPatrol g r =
      if k.agrees r then s.pairEnded g k r.tiles
      else if k.margin then (s.pairEnded g k r.tiles).logPatrol k.lower k.upper r.railMv sINFO
      else (s.pairEnded g k r.tiles).patrolBad k.lower k.upper (residuesPass r.lower) (residuesPass r.upper) r.replay r.railMv := by
  simp only [State.endPatrol, h]
  rfl

/-- The results are the same and every residue is right. -/
theorem agrees_iff (k : PatrolRun) (r : PatrolResult) : k.agrees r = true ↔
    withErrors (k.results r.tiles) r.lower = withErrors (k.results r.tiles) r.upper ∧
      (∀ x ∈ r.lower, x.2 % 127 = 0) ∧ ∀ x ∈ r.upper, x.2 % 127 = 0 := by
  simp [PatrolRun.agrees, residuesPass, and_assoc]

/-- A mismatch at full margin is counted, and arbitrated as the comparison has decided it. -/
theorem patrolBad_counts (s : State) (lo hi : Nat) (l u : Bool) (r : ArbResult) (mv : Nat) :
    SameBytes s (s.patrolBad lo hi l u r mv) ∧ (s.patrolBad lo hi l u r mv).int.patrolMismatch = s.int.patrolMismatch + 1 ∧
      (s.patrolBad lo hi l u r mv).int.patrolTiles = s.int.patrolTiles ∧
      (s.patrolBad lo hi l u r mv).int.patrols = s.int.patrols := by
  have hcounted (i : Integ) (o : ArbOutcome) : (i.counted o).patrolMismatch = i.patrolMismatch ∧
      (i.counted o).patrolTiles = i.patrolTiles ∧ (i.counted o).patrols = i.patrols := by
    cases o <;> exact ⟨rfl, rfl, rfl⟩
  unfold State.patrolBad State.decided
  dsimp only
  generalize hb : State.logPatrol _ _ _ _ _ = b
  have hint : b.int = { s.int with patrolMismatch := s.int.patrolMismatch + 1 } := by
    rw [← hb]
    exact logRec_int _ _
  have hbytes : SameBytes s b := by
    rw [← hb]
    exact sameBytes_of_store (fun k => (store_logRec _ _ k).trans (by cases k <;> rfl))
  have hend (a : Arb) (o : ArbOutcome) (x y z w : Bool) := arbEnded_arbEnd b a o x y z w
  refine ⟨sameBytes_trans hbytes (hend _ _ _ _ _ _).bytes, ?_, ?_, ?_⟩
  all_goals
    rw [(hend _ _ _ _ _ _).int]
    simp only [hcounted, hint]

/-! ## The clearance (R419) -/

theorem clearance_agree {g w : Nat} (hon : s.pilotsOn = true) (hsuspect : s.int.suspects.contains g = true)
    (hthird : s.int.clearing.find? (fun x => x.1 = g) = some (g, w)) (hg : s.coreAtRest g = true) (hw : s.coreAtRest w = true) :
    s.clearance g .agree = s.endClearance g w .agree := by
  have hany : s.int.clearing.any (fun x => x.1 = g) = true :=
    List.any_eq_true.2 ⟨_, List.mem_of_find?_eq_some hthird, decide_eq_true rfl⟩
  have hchosen : s.chooseThird g = s := if_pos hany
  simp only [State.clearance, hon, hsuspect, hchosen, hthird, hg, hw, Bool.not_true, Bool.or_self, Bool.and_self,
    Bool.false_eq_true, if_false, if_true]

/-! ## The claim -/

/-- Settles O34: a clearance that agrees, the accounts as the periods close, the launch of a pair, and the end of its patrol. -/
theorem clearanceAndPatrol : Obligations.ClearanceAndPatrol := by
  unfold Obligations.ClearanceAndPatrol
  intro s g h margin n quiet u k share
  refine ⟨?clearance, ?accounts, ?launch, ?complete⟩
  case clearance =>
    intro w hon hsuspect hthird hg hw
    refine ⟨_, congrArg Host.Outcome.next (clearance_agree hon hsuspect hthird hg hw), ⟨?_, ?_⟩, ?_, ?_⟩
    · exact sameBytes_of_store (fun l => (store_logRec _ _ l).trans (by cases l <;> rfl))
    · exact logRec_cores _ _
    · exact congrArg Integ.suspects (logRec_int _ _)
    · exact congrArg Integ.clearing (logRec_int _ _)
  case accounts =>
    intro c
    by_cases hk : k = 0
    · rw [if_pos hk]
      exact congrArg (State.patrolOf · c) (rollPatrol_none hk)
    · rw [if_neg hk]
      exact patrolOf_rollPatrol hk c
  case launch =>
    intro hon hdie hne hg hh hgd hhd hslack hemerg hdue
    have hne' : g.toNat ≠ h.toNat := fun e => hne (BitVec.eq_of_toNat_eq e)
    have hlaunch : s.launchPatrol g.toNat h.toNat margin = u.pairLaunched g.toNat h.toNat margin :=
      launchPatrol_eq hon hdie hne' hg hh hgd hhd hslack hemerg hdue
    refine ⟨_, congrArg Host.Outcome.next hlaunch, ⟨?_, ?_⟩, ?_, ?_⟩
    · exact sameBytes_trans (sameBytes_rollPatrol s) (sameBytes_of_store (fun l => by cases l <;> rfl))
    · exact (rollPatrol_rest s).1
    · intro c
      rw [patrolOf_pairLaunched hne', show u.wall = s.wall from (rollPatrol_rest s).2]
    · exact int_pairLaunched_rollPatrol s _ _ margin
  case complete =>
    intro r hr lower upper m mv work row same done
    have hend := endPatrol_eq row hr
    have hsame : r.agrees row = true ↔ same := agrees_iff r row
    let v := s.pairEnded g.toNat r n
    have hdone (t : State) (e : t.int = v.int) : done t := by
      show t.int = _
      rw [e]
      rfl
    refine ⟨fun hor => ?_, fun hnot hmargin => ?_⟩
    · by_cases hs : same
      · rw [if_pos (hsame.2 hs)] at hend
        exact ⟨v, congrArg Host.Outcome.next hend,
          ⟨sameBytes_pairEnded s _ r n, rfl⟩, hdone _ rfl, patrolOf_pairEnded s _ r n⟩
      · rw [if_neg (fun e => hs (hsame.1 e)), if_pos (hor.resolve_left hs)] at hend
        have hint : (v.logPatrol r.lower r.upper mv sINFO).int = v.int := logRec_int _ _
        refine ⟨_, congrArg Host.Outcome.next hend, ⟨?_, logRec_cores _ _⟩, ?_, fun c => ?_⟩
        · exact sameBytes_trans (sameBytes_pairEnded s _ r n) (sameBytes_of_store (store_logRec _ _))
        · exact hdone _ hint
        · exact (congrArg (fun i : Integ => smGet (⟨i.patrolBase, 0, none⟩ : PatrolAcct) i.patrolled c) hint).trans
            (patrolOf_pairEnded s _ r n c)
    · rw [if_neg (fun e => hnot (hsame.1 e)), hmargin, if_neg Bool.false_ne_true] at hend
      obtain ⟨hbytes, hmis, htiles, hpairs⟩ :=
        patrolBad_counts v r.lower r.upper (residuesPass lower) (residuesPass upper) m mv
      exact ⟨_, congrArg Host.Outcome.next hend, sameBytes_trans (sameBytes_pairEnded s _ r n) hbytes, hmis, htiles, hpairs⟩

end

end Sys2Proof.Machine
end

/-!
PROOFS. The verdict of a core's checker, in time and late (R400, R401, R405, R408).
-/
section
namespace Sys2Proof.Machine

/-! ## A check that has passed (R401) -/

/-- Nothing that the marks list awaits a check that has been taken out of them. -/
theorem not_mem_stripMarks (id : Nat) (m : List (Nat × List Nat)) (k : Nat) : id ∉ smGet [] (stripMarks id m) k := by
  have hfree : ∀ x ∈ stripMarks id m, id ∉ x.2 := by
    intro x hx hid
    obtain ⟨y, _, rfl⟩ := List.mem_map.1 (List.mem_filter.1 hx).1
    exact (mem_setDel.1 hid).2 rfl
  generalize stripMarks id m = l at hfree
  induction l with
  | nil => exact List.not_mem_nil
  | cons x l ih =>
    rw [smGet]
    split
    · exact hfree x List.mem_cons_self
    · exact ih (fun y hy => hfree y (List.mem_cons_of_mem _ hy))

/-- The core once a check has passed: the check taken out, and, of a matrix check, its entry settled. -/
def Core.passed (c : Core) (k : Check) : Core :=
  let d := (c.dropCheck k.id).clearCheck k.id
  if k.eng = .matrix then d.settleEntry k.dlog else d

/-- Settling an entry changes the matrix engine alone. -/
theorem settleEntry_only (c : Core) (i : Nat) : c.settleEntry i = { c with mat := (c.settleEntry i).mat } := by
  unfold Core.settleEntry
  dsimp only
  split <;> rfl

/-- A passed check changes the core's checks and marks, and its engines. -/
theorem passed_only (c : Core) (k : Check) : c.passed k = { c with
    checks := c.checks.filter (fun x => x.id ≠ k.id)
    marks := stripMarks k.id c.marks
    vec := (c.passed k).vec
    mat := (c.passed k).mat } := by
  unfold Core.passed
  dsimp only
  split
  · rw [settleEntry_only]
    rfl
  · rfl

section
variable {s : State} {g id : Nat} {k : Check}

theorem coreVerdict_pass (hfind : (s.core g).findCheck id = some k) (hready : k.ready = true)
    (hdue : (s.die (dieOf g)).cycles ≤ k.due) (hid : k.id = id) :
    s.coreVerdict g id none = (s.setCore g ((s.core g).passed k)).clearOld g id := by
  simp only [State.coreVerdict, hfind, hready, Nat.not_lt.2 hdue, Bool.not_true, decide_false, Bool.or_self,
    Bool.false_eq_true, if_false]
  rw [Core.passed, hid]

theorem coreVerdict_fail (n : Lane4) (hfind : (s.core g).findCheck id = some k) (hready : k.ready = true)
    (hdue : (s.die (dieOf g)).cycles ≤ k.due) : s.coreVerdict g id (some n) = s.failCheck g k n := by
  simp only [State.coreVerdict, hfind, hready, Nat.not_lt.2 hdue, Bool.not_true, decide_false, Bool.or_self,
    Bool.false_eq_true, if_false]

/-- A late verdict is counted, and its check failed. -/
theorem lateVerdict_core {g : Gcn} (hfind : (s.core g.toNat).findCheck id = some k) (hready : k.ready = true)
    (hdue : k.due < (s.die (dieOf g.toNat)).cycles) : s.lateVerdict (.core g) id =
      (({ s with freeCtr := s.freeCtr + 1 } : State).countLate (dieOf g.toNat).val).failCheck g.toNat k
        (Config.lateUnit s.freeCtr) := by
  simp only [State.lateVerdict, hfind, hready, hdue, decide_true, Bool.and_self, if_true]

/-- A passed check leaves the state as it was but for the core and older values of its granules. -/
theorem passed_leaves (s : State) (g : Nat) (k : Check) :
    let t := (s.setCore g ((s.core g).passed k)).clearOld g k.id
    t = { s with cores := t.cores, old := t.old } ∧ SameBytes s t ∧ (∀ h, h ≠ g → t.core h = s.core h) ∧
      (t.core g).checks = (s.core g).checks.filter (fun x => x.id ≠ k.id) ∧ ∀ n, k.id ∉ (t.core g).marksOf n := by
  intro t
  have hcore : t.core g = (s.core g).passed k := core_setCore s g _
  have hlsp : ((s.core g).passed k).lsp = (s.core g).lsp := by rw [passed_only]
  have hstore : ∀ l, t.store l = (s.setCore g ((s.core g).passed k)).store l := fun l => by cases l <;> rfl
  refine ⟨rfl, sameBytes_trans (sameBytes_setCore s g _ hlsp) (sameBytes_of_store hstore),
    fun h hne => core_setCore_ne s _ hne, ?_, fun n => ?_⟩
  · rw [hcore, passed_only]
  · rw [hcore, passed_only]
    exact not_mem_stripMarks k.id _ n

/-! ## A scalar load that waits for a check (log entry 32) -/

/-- The core waits in a scalar load, from its scratchpad, on a granule that the check has marked. -/
def Core.LoadAwaits (c : Core) (id : Nat) : Prop :=
  ∃ w, (c.seq.cond = .held .dld w ∨ ∃ n sg to_, c.seq.cond = .held (.load n sg false to_) w) ∧
    id ∈ c.marksOf (c.accAddr w / 64)

theorem releaseLoad_waits (h : (s.core g).LoadAwaits id) :
    s.releaseLoad g id = s.setCore g ((s.core g).issueFault cPOISON 0x3000) := by
  obtain ⟨w, hcond | ⟨n, sg, to_, hcond⟩, hmark⟩ := h <;> simp [State.releaseLoad, hcond, hmark]

theorem releaseLoad_free (h : ¬ (s.core g).LoadAwaits id) : s.releaseLoad g id = s := by
  unfold State.releaseLoad
  dsimp only
  split
  · next n sg quay to_ w hcond =>
    refine if_neg (fun hm => h ⟨w, .inr ⟨n, sg, to_, ?_⟩, ?_⟩)
    all_goals simp only [Bool.and_eq_true, Bool.not_eq_true', List.contains_iff_mem] at hm
    · rw [hcond, hm.1]
    · exact hm.2
  · next w hcond => exact if_neg (fun hm => h ⟨w, .inl hcond, by simpa using hm⟩)
  · rfl

/-- The fault that a core has recorded once such a load has been released. -/
def Core.loadFault (c : Core) (id : Nat) (f : Option FaultRec) : Prop :=
  (c.LoadAwaits id → f = some (keepFault c.seq.fault ⟨8, 0x3000, c.seq.pc, c.seq.ord⟩)) ∧
    (¬ c.LoadAwaits id → f = c.seq.fault)

theorem releaseLoad_faults (s : State) (g id : Nat) : (s.core g).loadFault id ((s.releaseLoad g id).core g).seq.fault := by
  refine ⟨fun h => ?_, fun h => ?_⟩
  · rw [releaseLoad_waits h, core_setCore]
    rfl
  · rw [releaseLoad_free h]

theorem releaseLoad_oneCore (s : State) (g id : Nat) : OneCore s (s.releaseLoad g id) g := by
  by_cases h : (s.core g).LoadAwaits id
  · rw [releaseLoad_waits h]
    exact oneCore_setCore s g _
  · rw [releaseLoad_free h]
    exact OneCore.refl s g

theorem releaseLoad_retained (s : State) (g id : Nat) : ((s.releaseLoad g id).core g).retained = (s.core g).retained := by
  by_cases h : (s.core g).LoadAwaits id
  · rw [releaseLoad_waits h, core_setCore]
    rfl
  · rw [releaseLoad_free h]

theorem sameBytes_releaseLoad (s : State) (g id : Nat) : SameBytes s (s.releaseLoad g id) := by
  by_cases h : (s.core g).LoadAwaits id
  · rw [releaseLoad_waits h]
    exact sameBytes_setCore s g _ rfl
  · rw [releaseLoad_free h]
    exact sameBytes_refl s

@[simp] theorem retained_settleMarks (s : State) (g : Nat) : ((s.settleMarks g).core g).retained = (s.core g).retained := by
  rcases settleMarks_cases s g with h | h <;> rw [h]
  rw [core_setCore]
  rfl

/-! ## A check that has failed (R405, R408) -/

/-- The fault that a failed check records. -/
abbrev Check.residue (k : Check) : FaultRec := ⟨11, BitVec.ofNat 14 (engCode k.eng * 0x1000), k.pc, k.ord⟩

/-- From s to t check k of core g has failed: its operands are retained, a load that awaited it and then its own fault are
recorded, the core stops, and an arbitration is queued. -/
structure CheckFails (s t : State) (g : Nat) (k : Check) : Prop where
  retained : s.retain g k ∈ (t.core g).retained
  stopping : (t.core g).seq.cond = .stopping
  bytes    : SameBytes s t
  fault    : ∃ f, (s.core g).loadFault k.id f ∧ (t.core g).seq.fault = some (keepFault f k.residue)
  int      : ∃ unit, t.int = { s.int with
    arbs := s.int.arbs ++ [⟨.core (BitVec.ofNat 12 g), k.id, unit, s.witnessOf g, none⟩] }

/-- The core as its failed check leaves it, before what the failure raises. -/
def State.failedCore (s : State) (g : Nat) (k : Check) : Core :=
  let c := (s.core g).dropCheck k.id
  let m := if k.eng = .matrix then c.mat.setEntry k.dlog { c.mat.entry k.dlog with verdict := 2 } else c.mat
  { c with retained := c.retained ++ [s.retain g k], checkFailed := true, mat := m.unprotect k.id }

theorem sameBytes_setInt (s : State) (i : Integ) : SameBytes s { s with int := i } :=
  sameBytes_of_store (fun l => by cases l <;> rfl)

/-- The state once a load that awaited the check has been released. -/
def State.loadReleased (s : State) (g : Nat) (k : Check) : State := (s.setCore g (s.failedCore g k)).releaseLoad g k.id

/-- The state once the failed check is counted and its arbitration queued. -/
def State.arbQueued (s : State) (g : Nat) (k : Check) (n : Lane4) : State :=
  let u := (s.loadReleased g k).healthInc (dieHealth (dieOf g).val + 0x60) 8
  { u with int := { u.int with arbs := u.int.arbs ++ [⟨.core (BitVec.ofNat 12 g), k.id, k.unit g n, s.witnessOf g, none⟩] } }

theorem failCheck_eq (s : State) (g : Nat) (k : Check) (n : Lane4) :
    s.failCheck g k n = ((s.arbQueued g k n).raise g cRESIDUE (engCode k.eng * 0x1000) k.pc k.ord).settleMarks g := rfl

theorem int_loadReleased (s : State) (g : Nat) (k : Check) : (s.loadReleased g k).int = s.int := by
  rw [State.loadReleased, (releaseLoad_oneCore _ g k.id).1]
  rfl

theorem core_arbQueued (s : State) (g : Nat) (k : Check) (n : Lane4) :
    (s.arbQueued g k n).core g = (s.loadReleased g k).core g :=
  core_healthInc (s.loadReleased g k) (dieHealth (dieOf g).val + 0x60) 8 g

theorem sameBytes_arbQueued (s : State) (g : Nat) (k : Check) (n : Lane4) : SameBytes s (s.arbQueued g k n) := by
  have hload : SameBytes s (s.loadReleased g k) :=
    sameBytes_trans (sameBytes_setCore s g (s.failedCore g k) rfl) (sameBytes_releaseLoad _ g k.id)
  have hcount : SameBytes (s.loadReleased g k) ((s.loadReleased g k).healthInc (dieHealth (dieOf g).val + 0x60) 8) :=
    sameBytes_of_store (store_healthInc _ _ _)
  exact sameBytes_trans (sameBytes_trans hload hcount) (sameBytes_setInt _ _)

theorem retained_loadReleased (s : State) (g : Nat) (k : Check) : s.retain g k ∈ ((s.loadReleased g k).core g).retained := by
  rw [State.loadReleased, releaseLoad_retained, core_setCore]
  exact List.mem_append_right _ List.mem_cons_self

theorem fault_loadReleased (s : State) (g : Nat) (k : Check) :
    (s.core g).loadFault k.id ((s.loadReleased g k).core g).seq.fault := by
  have h := releaseLoad_faults (s.setCore g (s.failedCore g k)) g k.id
  rwa [core_setCore] at h

theorem checkFails_failCheck (s : State) (g : Nat) (k : Check) (n : Lane4) : CheckFails s (s.failCheck g k n) g k := by
  rw [failCheck_eq]
  constructor
  case retained =>
    rw [retained_settleMarks, State.raise, core_setCore, core_arbQueued]
    exact retained_loadReleased s g k
  case stopping =>
    rw [seq_settleMarks, State.raise, core_setCore]
    rfl
  case bytes =>
    exact sameBytes_trans (sameBytes_arbQueued s g k n)
      (sameBytes_trans (sameBytes_raise _ g _ _ _ _) (sameBytes_settleMarks _ g))
  case fault =>
    refine ⟨_, fault_loadReleased s g k, ?_⟩
    rw [seq_settleMarks, State.raise, core_setCore, core_arbQueued]
    rfl
  case int =>
    refine ⟨k.unit g n, ?_⟩
    rw [(oneCore_settleMarks _ g).1, ← int_loadReleased s g k]
    rfl

/-- What a failed check leaves is the same when it was failed from a state with a late verdict counted. -/
theorem checkFails_late (s : State) (die g : Nat) (k : Check) (n : Lane4) :
    let u := ({ s with freeCtr := s.freeCtr + 1 } : State).countLate die
    CheckFails u (u.failCheck g k n) g k ∧ u.core g = s.core g ∧ SameBytes s u ∧
      u.int = { s.int with nLate := s.int.nLate + 1 } :=
  ⟨checkFails_failCheck _ g k n, core_healthInc _ (dieHealth die + 0x7C) 4 g,
    sameBytes_trans (sameBytes_of_store (fun l => by cases l <;> rfl))
      (sameBytes_of_store (store_healthInc _ (dieHealth die + 0x7C) 4)), rfl⟩

end

end Sys2Proof.Machine
end

/-!
PROOFS. The verdict of a collective engine's checker (R407), and what a verdict does (O31).
-/
section
namespace Sys2Proof.Machine

/-! ## What a collective's end leaves to the pilots -/

/-- From s to t the engine keeps the operands of the checks that failed, and the integrity monitor stands. -/
structure MonitorStands (e : EngineId) (s t : State) : Prop where
  retained : (t.eng e).retained = (s.eng e).retained
  int      : t.int = s.int

section
variable {e : EngineId} {s t u : State}

theorem MonitorStands.refl (e : EngineId) (s : State) : MonitorStands e s s := ⟨rfl, rfl⟩

theorem MonitorStands.trans (h : MonitorStands e s t) (k : MonitorStands e t u) : MonitorStands e s u :=
  ⟨k.retained.trans h.retained, k.int.trans h.int⟩

theorem monitorStands_foldl {α : Type} (f : State → α → State) (h : ∀ t x, MonitorStands e t (f t x)) (l : List α)
    (s : State) : MonitorStands e s (l.foldl f s) := by
  induction l generalizing s with
  | nil => exact .refl e s
  | cons x l ih => exact (h s x).trans (ih (f s x))

/-- What the ports send is neither. -/
theorem Drains.monitorStands (hd : Drains s t) (h : Sends s t) : MonitorStands e s t :=
  ⟨by rw [(hd.eng e).rest], by rw [h.only]⟩

theorem monitorStands_pump (s : State) : MonitorStands e s s.pump := (drains_pump s).monitorStands (sends_pump s)

theorem monitorStands_setEng (s : State) (x : ColEng) (h : x.retained = (s.eng e).retained) : MonitorStands e s (s.setEng e x) :=
  ⟨by rw [eng_setEng, h], rfl⟩

theorem monitorStands_setPort (s : State) (p : Port) (x : PortSt) : MonitorStands e s (s.setPort p x) := ⟨rfl, rfl⟩

theorem monitorStands_updOp (s : State) (id : Nat) (f : Op → Op) : MonitorStands e s (s.updOp id f) := ⟨rfl, rfl⟩

theorem monitorStands_withdrawBlocks (s : State) (id : Word32) : MonitorStands e s (s.withdrawBlocks id) := ⟨rfl, rfl⟩

theorem monitorStands_lastCode (s : State) (code : Byte) : MonitorStands e s (s.setEng e { s.eng e with lastCode := code }) :=
  monitorStands_setEng s _ rfl

theorem monitorStands_sendTxn (s : State) (kind : Byte) (y : Txn) : MonitorStands e s ((s.sendTxn kind y).getD s) := by
  unfold State.sendTxn
  split
  · next p _ =>
    have hpost : MonitorStands e s (s.post p kind y none) :=
      monitorStands_setPort s p { s.port p with txq := (s.port p).txq ++ [⟨kind, y, none, none⟩] }
    rw [Option.getD_some]
    exact hpost.trans (monitorStands_pump _)
  · exact .refl e s

theorem monitorStands_collReport (s : State) (e : EngineId) : MonitorStands e s (s.collReport e) := by
  unfold State.collReport
  split
  next => exact .refl e s
  next c _ =>
    have hset := monitorStands_setEng (e := e) s { s.eng e with run := none, holding := false } rfl
    have hfree := (drains_releaseHeld (s.setEng e { s.eng e with run := none, holding := false }) c.rx).monitorStands (e := e)
      (sends_releaseHeld _ _)
    exact ((hset.trans hfree).trans (monitorStands_updOp _ _ _)).trans (monitorStands_pump _)

theorem monitorStands_collStopped (s : State) (e : EngineId) : MonitorStands e s (s.collStopped e) := by
  unfold State.collStopped
  split
  · split
    · exact monitorStands_collReport s e
    · exact .refl e s
  · exact .refl e s

theorem monitorStands_collHalt (s : State) (e : EngineId) : MonitorStands e s (s.collHalt e) := by
  unfold State.collHalt
  split
  next => exact .refl e s
  next c _ =>
    split
    case isTrue => exact .refl e s
    case isFalse =>
      have hset := monitorStands_setEng (e := e) s { s.eng e with run := some { c with failed := true } } rfl
      exact ((hset.trans (monitorStands_withdrawBlocks _ _)).trans
        (monitorStands_foldl _ (fun _ _ => monitorStands_sendTxn _ _ _) _ _)).trans (monitorStands_collStopped _ e)

theorem monitorStands_catchUp (s : State) (e : EngineId) : MonitorStands e s (s.catchUp e) := by
  have hback : MonitorStands e s (allPorts.foldl State.holdBack s) :=
    (drains_foldl State.holdBack drains_holdBack allPorts s).monitorStands (sends_foldl State.holdBack sends_holdBack allPorts s)
  unfold State.catchUp
  generalize allPorts.foldl State.holdBack s = t at hback
  refine hback.trans (monitorStands_setEng t _ ?_)
  unfold ColEng.catchUp
  split <;> rfl

theorem monitorStands_collFail (s : State) (e : EngineId) (code step : Nat) : MonitorStands e s (s.collFail e code step) := by
  unfold State.collFail
  split
  next => exact .refl e s
  next c _ =>
    split
    case isTrue => exact .refl e s
    case isFalse =>
      exact (((monitorStands_catchUp s e).trans (monitorStands_lastCode _ _)).trans (monitorStands_updOp _ _ _)).trans
        (monitorStands_collHalt _ e)

end

/-! ## The verdict (R318, R407) -/

section
variable {s : State} {e : EngineId} {id : Nat} {r : Coll} {y : CollChk}

/-- The engine with a failed check retained, and no longer awaited. -/
def State.collRetained (s : State) (e : EngineId) (r : Coll) (k : CollChk) : State :=
  let u := s.setColl e { r with checks := r.checks.filter (fun x => x.id ≠ k.id) }
  u.setEng e { u.eng e with retained := (u.eng e).retained ++ [k] }

/-- The state once a collective's failed check is retained and counted, and its arbitration queued. -/
def State.collCheckFailed (s : State) (e : EngineId) (r : Coll) (k : CollChk) : State :=
  let u := (s.collRetained e r k).healthInc (dieHealth (8 + e.val) + 0x60) 8
  { u with int := { u.int with arbs := u.int.arbs ++ [⟨.coll e, k.id, .adder e.val k.adder, none, none⟩] } }

theorem failColl_eq (hrun : (s.eng e).run = some r) (k : CollChk) :
    s.failColl e k = ((s.collCheckFailed e r k).collFail e cCOLL_RESIDUE k.step).collStopped e := by
  unfold State.failColl
  rw [hrun]
  rfl

theorem eng_collRetained (s : State) (e : EngineId) (r : Coll) (k : CollChk) : (s.collRetained e r k).eng e = { s.eng e with
    run := some { r with checks := r.checks.filter (fun x => x.id ≠ k.id) }
    retained := (s.eng e).retained ++ [k] } := by
  simp only [State.collRetained, State.setColl, eng_setEng]

theorem eng_collCheckFailed (s : State) (e : EngineId) (r : Coll) (k : CollChk) :
    (s.collCheckFailed e r k).eng e = (s.collRetained e r k).eng e := rfl

theorem sameBytes_setEng (s : State) (e : EngineId) (x : ColEng) : SameBytes s (s.setEng e x) :=
  sameBytes_of_store (fun l => by cases l <;> rfl)

theorem sameBytes_collCheckFailed (s : State) (e : EngineId) (r : Coll) (k : CollChk) :
    SameBytes s (s.collCheckFailed e r k) := by
  have hkept : SameBytes s (s.collRetained e r k) := sameBytes_trans (sameBytes_setEng s e _) (sameBytes_setEng _ e _)
  have hcount : SameBytes (s.collRetained e r k) ((s.collRetained e r k).healthInc (dieHealth (8 + e.val) + 0x60) 8) :=
    sameBytes_of_store (store_healthInc _ _ _)
  exact sameBytes_trans (sameBytes_trans hkept hcount) (sameBytes_setInt _ _)

theorem collVerdict_fail (hrun : (s.eng e).run = some r) (hfind : r.checks.find? (fun z => z.id = id) = some y)
    (hdue : s.wall ≤ y.due) : s.collVerdict e id true = s.failColl e y := by
  simp only [State.collVerdict, ColEng.findCheck, hrun, hfind, Nat.not_lt.2 hdue, if_false, if_true]

theorem collVerdict_pass (hrun : (s.eng e).run = some r) (hok : r.failed = false)
    (hfind : r.checks.find? (fun z => z.id = id) = some y) (hdue : s.wall ≤ y.due) :
    s.collVerdict e id false = s.setEng e { s.eng e with
      run := some { r with checks := r.checks.filter (fun z => z.id ≠ id) } } := by
  simp only [State.collVerdict, ColEng.findCheck, hrun, hfind, Nat.not_lt.2 hdue, if_false, Bool.false_eq_true]
  simp only [State.collStopped, State.setColl, eng_setEng, hok, Bool.false_and, Bool.false_eq_true, if_false]

/-- A failed check of a collective engine that runs is kept, and ends the collective. -/
theorem failColl_ends (hrun : (s.eng e).run = some r) (hok : r.failed = false) (k : CollChk) :
    ((s.failColl e k).eng e).retained = (s.eng e).retained ++ [k] ∧ ((s.failColl e k).eng e).lastCode = 10 ∧
      (s.failColl e k).int = { s.int with
        arbs := s.int.arbs ++ [⟨.coll e, k.id, .adder e.val k.adder, none, none⟩] } ∧ SameBytes s (s.failColl e k) := by
  have hcoll : (s.collCheckFailed e r k).coll e = some { r with checks := r.checks.filter (fun x => x.id ≠ k.id) } :=
    coll_eq_some.2 ⟨by rw [eng_collCheckFailed, eng_collRetained], hok⟩
  have hfailed := (collFailed_collFail hcoll cCOLL_RESIDUE k.step).winds (winds_collStopped _ e)
  have hstands := (monitorStands_collFail (s.collCheckFailed e r k) e cCOLL_RESIDUE k.step).trans (monitorStands_collStopped _ e)
  rw [failColl_eq hrun]
  refine ⟨?_, hfailed.lastCode, hstands.int, sameBytes_trans (sameBytes_collCheckFailed s e r k) hfailed.bytes⟩
  rw [hstands.retained, eng_collCheckFailed, eng_collRetained]

end

/-! ## The claim -/

/-- Settles O31: a passed check is awaited no more, a failed one is kept, recorded and arbitrated, in time or late. -/
theorem verdictsReleaseOrFail : Obligations.VerdictsReleaseOrFail := by
  unfold Obligations.VerdictsReleaseOrFail
  intro s g id k c now residue waits failed
  refine ⟨fun hfind hready => ?core, ?coll⟩
  case core =>
    have hid : k.id = id := by simpa using List.find?_some hfind
    have hfailed (u t : State) (hcore : u.core g.toNat = s.core g.toNat) (hbytes : SameBytes s u)
        (harbs : u.int.arbs = s.int.arbs) (h : CheckFails u t g.toNat k) : failed t := by
      obtain ⟨hret, hstop, htbytes, ⟨f, ⟨hawaits, hfree⟩, hfault⟩, unit, hint⟩ := h
      rw [hcore, hid] at hawaits hfree
      refine ⟨⟨_, hret, hid, rfl, rfl, rfl, rfl, rfl⟩, hstop, sameBytes_trans hbytes htbytes,
        fun hnone => ?_, fun w hw hm => ?_, ?_⟩
      · rw [hfault, hfree]
        rintro ⟨w, hcond | ⟨n, sg, to_, hcond⟩, hm⟩
        · exact hnone _ w hcond hm
        · exact hnone _ w hcond hm
      · rw [hfault, hawaits ⟨w, hw, hm⟩]
      · rw [hint, harbs, ← hid]
        simp
    refine ⟨fun hdue => ⟨?_, fun n => ?_⟩, fun hlate => ?_⟩
    · have hpass := passed_leaves s g.toNat k
      rw [hid] at hpass
      exact ⟨_, congrArg Host.Outcome.next (coreVerdict_pass hfind hready hdue hid), hpass⟩
    · exact ⟨_, congrArg Host.Outcome.next (coreVerdict_fail n hfind hready hdue),
        hfailed s _ rfl (sameBytes_refl s) rfl (checkFails_failCheck s g.toNat k n)⟩
    · obtain ⟨hfails, hcore, hbytes, hint⟩ := checkFails_late s (dieOf g.toNat).val g.toNat k (Config.lateUnit s.freeCtr)
      refine ⟨_, congrArg Host.Outcome.next (lateVerdict_core hfind hready hlate), hfailed _ _ hcore hbytes ?_ hfails, ?_⟩
      · rw [hint]
      · obtain ⟨unit, ht⟩ := hfails.int
        rw [ht, hint]
  case coll =>
    intro e r y hrun hok hfind hdue
    refine ⟨⟨_, congrArg Host.Outcome.next (collVerdict_pass hrun hok hfind hdue), rfl⟩, fun n => ?_⟩
    obtain ⟨hretained, hcode, hint, hbytes⟩ := failColl_ends hrun hok y
    exact ⟨_, congrArg Host.Outcome.next (collVerdict_fail hrun hfind hdue), hretained, hcode,
      congrArg Integ.arbs hint, hbytes⟩

end Sys2Proof.Machine
end
